-- ==== Sys2Proof/Word.lean ====
section
/-! DEFINITION. The word types of the model: bytes, 32-bit register words and byte strings (R7: registers are 32 bits wide, little-endian). -/

namespace Sys2Proof

/-- One byte of a record, message or buffer. -/
abbrev Byte := BitVec 8

/-- One 32-bit register word (R7). -/
abbrev Word := BitVec 32

/-- A byte string: a record's payload, a message, the contents of a buffer. -/
abbrev Bytes := List Byte

end Sys2Proof
end

