-- ==== Sys2Proof/Syntax.lean ====
section
/-! DEFINITION. The commands of the block: one constructor per row of the operation table, with the operand types they carry. -/

namespace Sys2Proof

/-- A mailbox request as the transport delivers it (R434): `transport` is 0–15 for PCIe function 8·hp + f and 16 + i for
management session i; the other fields are the message header's and the payload behind it. -/
structure Req where
  transport : Nat
  hdrPartition : Nat
  seq : Nat
  tag : Nat
  len : Nat
  payload : Bytes
  deriving DecidableEq, Repr

/-- What the on-die sensors and the supervisor measure in one millisecond (R380, R383). -/
structure PowerSample where
  sensors : List Int
  vinMv : Nat
  iinMa : Nat
  pinMw : Nat
  railsMv : List Nat
  deriving DecidableEq, Repr

/-- What reaches the audio units with one sample tick: the outputs whose transmit FIFO ran empty (R212). -/
structure SampleEnv where
  underruns : List Nat
  deriving DecidableEq, Repr

/-- What reaches the units with one frame tick: per context the size in bits of the picture's non-VCL units known at the tick
(R108). -/
structure FrameEnv where
  nonVcl : List (Nat × Nat)
  deriving DecidableEq, Repr

/-- The identifiers that a claim heartbeat frame of the tree carries: the device it goes to and the one that sent it (R342, R348). -/
structure TreePath where
  target : Nat
  sender : Nat
  deriving DecidableEq, Repr

/-- A depth announcement: the parent's depth, and the tree depth D where the root broadcast it (R340, log entry 132). -/
structure DepthNote where
  depth : Nat
  tree : Option Nat
  deriving DecidableEq, Repr

/-- The stage of a row (R55, Table 3 of the encode chapter). -/
inductive Stage where
  | composition | analysis | coding | entropy
  deriving DecidableEq, Repr

/-- One stage that has not completed at its closing tick: the context, tile column and row concerned, and for the compositor how many
lines of the row it had composed (R37, R177). -/
structure Overrun where
  stage : Stage
  context : Nat
  tile : Nat
  row : Nat
  lines : Nat
  deriving DecidableEq, Repr

/-- What reaches the units with one row tick: the lattice it belongs to (a raster code of R53), the stages left incomplete, and per
context the coded NAL units of the row whose entropy coding closes, in coding order (R218, R250). -/
structure RowEnv where
  lattice : Nat
  incomplete : List Overrun
  outputBytes : List (Nat × List Bytes)
  deriving DecidableEq, Repr

/-- One change carried by a channel's shadow set (R39, R97, R114, R119, R168, R182, R212, R237), or a host SEI
message, which is decided in the same way (R289). The last two are the shaper and gate changes that the active device forwards and that
pass through no shadow set (R229, R233, R247). -/
inductive ShadowChange where
  | nothing
  | bitrate (context kbps : Nat)
  | acknowledge (context poc : Nat)
  | loss (context : Nat)
  | correction (context g : Nat)
  | layer (layer srcType source opacity : Nat) (visible : Bool)
  | graphics (layer : Nat) (visible : Bool) (position slot : Option Nat)
  | expected (region value : Nat)
  | portRestart (port : Nat)
  | splice (flow : Nat) (writePts : Bool) (section_ : Bytes)
  | sei (context kind : Nat) (data : Bytes)
  | rate (leg rate depth : Nat)
  | gates (port cycle base start : Nat) (entries : List (Nat × Nat))
  deriving DecidableEq, Repr

/-- What a Pleach beat train carries: strip A, strip B, a verdict beat with the slice's emitted size, or the ALF statistics of a tile
column (R61, R81, R112). -/
inductive StripKind where
  | stripA | stripB | verdict (bits : Nat) | statistics
  deriving DecidableEq, Repr

/-- A Pleach train: its kind, the sending engine, and the context, tile column and row it belongs to (R60). -/
structure Strip where
  kind : StripKind
  sender : Nat
  context : Nat
  tile : Nat
  row : Nat
  deriving DecidableEq, Repr

/-- A slice at its last CTU: what the engine's length counter gave after each of its CTUs, the exact coded size so far in bits, the
last of which is the size of its NAL unit (R111, R112). -/
structure SliceResult where
  context : Nat
  frame : Nat
  row : Nat
  tile : Nat
  lengths : List Nat
  deriving DecidableEq, Repr

/-- The syntax errors of R150, Table 3 of the decode chapter. -/
inductive DecError where
  | range | overread | cabac | address | paramSet
  deriving DecidableEq, Repr

/-- What a sequence parameter set says of its pictures, as far as R145 and R146 read it: size in luma samples, CTU size, profile and
level as their codec codes them, in HEVC the nine constraint flags of the range extensions in the order of Table 1 of the coding chapter,
chroma format (0 monochrome, 1 4:2:0, 2 4:2:2, 3 4:4:4), bit depth, and how many pictures may wait for their place in output order. -/
structure SpsIn where
  width : Nat
  height : Nat
  ctu : Nat
  profile : Nat
  level : Nat
  chroma : Nat
  bits : Nat
  reorder : Nat
  constraints : List Bool
  deriving DecidableEq, Repr

/-- What a slice NAL unit says: whether it is a dependent slice segment, the addresses of its CTUs in decoding order, those at which a tile
begins, whether entropy coding sync is on, the pictures it names as references with whether as long-term ones, the POCs that its reference
picture set or lists keep in the DPB, whether its picture is an IDR or CRA picture, whether it is an IDR picture, and its POC (R144, R150 to
R155). -/
structure SliceIn where
  dependent : Bool
  ctus : List Nat
  tileStarts : List Nat
  sync : Bool
  refs : List (Int × Bool)
  held : List Int
  random : Bool
  idr : Bool
  poc : Int
  deriving DecidableEq, Repr

/-- What a received NAL unit is, as far as the damage rules read it (R150 to R155). A parameter set has a kind: 0 VPS, 1 SPS, 2 PPS,
3 APS. A picture header and a recovery-point SEI message carry the count to the recovery picture. -/
inductive NalKind where
  | slice (s : SliceIn)
  | pictureHeader (recovery : Option Nat)
  | parameterSet (kind ident : Nat) (sps : Option SpsIn)
  | recoveryPoint (count : Nat)
  | sei
  | endOfSequence
  | ignored
  deriving DecidableEq, Repr

/-- A NAL unit that arrives for a decode context, with what the parser found in it (R150 to R156): the RTP sequence numbers of the
packets that carry it, how many numbers between them are missing, in a transport stream its PID and continuity counters and whether those
within it go on, whether all of it arrived, the identifiers it names as kind and number, the syntax errors with their place in bit order, and the place of its identifier and of its slice address. -/
structure NalIn where
  kind : NalKind
  size : Nat
  seqFirst : Nat
  seqLast : Nat
  holes : Nat
  pid : Nat
  ccFirst : Nat
  ccLast : Nat
  ccHole : Bool
  complete : Bool
  names : List (Nat × Nat)
  errors : List (Nat × DecError)
  nameAt : Nat
  addressAt : Nat
  newUnit : Bool
  marker : Bool
  pts : Nat
  deriving DecidableEq, Repr

/-- The 4×4 block at the midpoint of one edge of a decoded CTU, side 0 bottom, 1 right, 2 left, 3 top: its L0 and L1 vectors in
units of the codec, each with the POC of its reference; neither where it is intra-coded (R153). -/
structure EdgeBlock where
  ctu : Nat
  side : Nat
  l0 : Option (Int × Int × Int)
  l1 : Option (Int × Int × Int)
  deriving DecidableEq, Repr

/-- A picture as the decode engines leave it, in its own format, before concealment: lines of luma, Cb and Cr samples, the edge
blocks of its decoded CTUs, and the time each entropy unit took, in decoding order (R144, R146, R153). -/
structure DecodedPicture where
  luma : List (List Nat)
  cb : List (List Nat)
  cr : List (List Nat)
  edges : List EdgeBlock
  units : List Nat
  deriving DecidableEq, Repr

/-- The ST 352 payload identifier of an SDI link: picture rate, raster and colour as the records code them, sampling (0 4:2:0,
1 4:2:2, 2 any other), bit depth, and scan (R183, R184). -/
structure St352 where
  rate : Nat
  raster : Nat
  sampling : Nat
  depth : Nat
  progressive : Bool
  colour : Nat
  deriving DecidableEq, Repr

/-- An ancillary data packet: its identifiers and, of a caption distribution packet, the cc_data triples (R187). -/
structure AncPacket where
  did : Nat
  sdid : Nat
  triples : List Nat
  deriving DecidableEq, Repr

/-- One received SDI line: its input, active line number, active luma, Cb and Cr words, the CRC-18 it carries, the link rate the
receiver detects (0 1.5G, 1 3G, 2 6G, 3 12G) and whether it is a rate at 1/1.001, the format facts of R184, and the ancillary
packets of the vertical ancillary space before the line. -/
structure SdiLine where
  input : Nat
  line : Nat
  lumaWords : List Nat
  cb : List Nat
  cr : List Nat
  crc : Nat
  link : Nat
  fractional : Bool
  st352 : Option St352
  totalLines : Nat
  totalWords : Nat
  anc : List AncPacket
  deriving DecidableEq, Repr

/-- One sample row data header of ST 2110-20 and its samples: row number, offset and length in samples (R185). -/
structure RowHeader where
  row : Nat
  offset : Nat
  length : Nat
  luma : List Nat
  cb : List Nat
  cr : List Nat
  deriving DecidableEq, Repr

/-- The form of what a datagram of a media flow carries. Of video: sampling (0 4:2:0, 1 4:2:2, 2 any other), depth, colorimetry
(0 BT709, 1 BT2020, 2 BT2100, 3 any other), TCS (0 SDR, 1 PQ, 2 HLG, 3 any other), packing mode (0 2110GPM, 1 2110BPM, 2 any
other), scan and frame rate (R185). Of audio: sample rate, depth, packet time in µs and, per instant, one word per channel (R209).
Of ancillary data: its packets (R187). -/
inductive MediaForm where
  | video (sampling depth colorimetry tcs packing : Nat) (progressive : Bool) (rate : Nat)
  | audio (rate depth packetUs : Nat) (samples : List (List Nat))
  | ancillary (packets : List AncPacket)
  | compressed
  deriving DecidableEq, Repr

/-- One datagram on a leg of an ingress flow (R185, R186, R238): `length` is the Ethernet frame length, `payload` the UDP
payload, `arrival` the MTB time of reception in 2^-32 ns. -/
structure MediaPacket where
  flow : Nat
  leg : Nat
  extSeq : Nat
  timestamp : Nat
  ssrc : Nat
  payloadType : Nat
  dscp : Nat
  length : Nat
  form : MediaForm
  headers : List RowHeader
  marker : Bool
  nal : Option NalIn
  payload : Bytes
  arrival : Nat
  deriving DecidableEq, Repr

/-- One AES3 frame: block start, non-audio bit, the 24 audio bits of the two subframes and their validity, user and channel-status
bits (R200, R206, R207). -/
structure AesFrame where
  blockStart : Bool
  nonAudio : Bool
  left : Nat
  right : Nat
  leftVuc : Nat
  rightVuc : Nat
  deriving DecidableEq, Repr

/-- The clients of HBM (Table 2 of the architecture chapter, R11), by their number: encode engine, decode engine, compositor by
channel, analyser, ingest of SDI, of a flow, of ancillary data and AES3, audio, packetiser by context, egress queue by port, the
dispatcher, Box core, port VA transmit and receive, host DMA, and the management plane. -/
inductive HbmClient where
  | encode (engine : Nat)
  | decode (engine : Nat)
  | compositor (channel : Nat)
  | analyser (number : Nat)
  | ingestSdi
  | ingestFlow (flow : Nat)
  | ingestOther
  | audio
  | packetiser (context : Nat)
  | egressQueue (port : Nat)
  | dispatcher
  | box (core : Nat)
  | pairTransmit
  | pairReceive
  | hostDma
  | management
  deriving DecidableEq, Repr

/-- A request that waits on a pseudo-channel: its client and the MTB time at which its port stamped it (R301). -/
structure HbmWait where
  client : HbmClient
  arrival : Nat
  deriving DecidableEq, Repr

/-- An RTCP packet as bound by R236: feedback for a media SSRC, or anything else. -/
inductive Rtcp where
  | pli (ssrc : Nat)
  | nack (ssrc : Nat)
  | rpsi (ssrc : Nat) (bits : List Bool)
  | other
  deriving DecidableEq, Repr

/-- The streams of the fingerprint units (R249, R250): channel input rows, context output rows, programme frames. -/
inductive FpStream where
  | input (channel frame row : Nat)
  | output (context frame row : Nat)
  | audio (programme frame : Nat)
  deriving DecidableEq, Repr

/-- A partner fingerprint as it arrives over VA, with the row status bit of an input fingerprint (R249, R251). -/
structure Fingerprint where
  stream : FpStream
  value : Nat
  status : Bool
  deriving DecidableEq, Repr

/-- What the small state of a resync copy holds of one context (R266): long-term slots as slot, POC and acknowledged flag, and
picture sizes as f, S and T^avg. -/
structure SmallCtx where
  context : Nat
  seqFrame : Option Nat
  f : Nat
  fullness : Int
  beta : Int
  g : Nat
  rateBase : Nat
  pLoss : Nat
  slots : List (Nat × Nat × Bool)
  sweepAt : Option Nat
  nextSweep : Nat
  alf : Option (Nat × Nat × Nat × Nat × Nat × Nat)
  wPrev : List (Nat × Nat)
  wHist : List Nat
  sizes : List (Nat × Nat × Nat)
  nonVcl : Nat
  deriving DecidableEq, Repr

/-- The samples of one line of a picture (R172, R194). -/
structure PlaneLine where
  /-- Luma samples (R172). -/
  y : List Nat := []
  /-- Cb samples, empty on a line without chroma (R172). -/
  cb : List Nat := []
  /-- Cr samples, empty on a line without chroma (R172). -/
  cr : List Nat := []
  deriving DecidableEq, Repr

/-- A picture as a layer or an output takes it (R146, R166). -/
structure Picture where
  /-- Width in luma samples (R164). -/
  w : Nat := 0
  /-- Height in lines (R164). -/
  h : Nat := 0
  /-- Chroma format: 0 4:2:0, 1 4:2:2 (R146, R161). -/
  chroma : Nat := 0
  /-- Its lines (R172). -/
  lines : List (Nat × PlaneLine) := []
  deriving DecidableEq, Repr

/-- What the small state of a resync copy holds of one ingest member (R193, R266): its state and phase, and the share that a lost
member holds, with how long it has been held. -/
structure SmallMember where
  member : Nat
  st : Nat
  phase : Option Int
  hold : Nat
  repeating : Bool
  last : List (Nat × PlaneLine)
  deriving DecidableEq, Repr

/-- What the small state of a resync copy holds of one video layer (R167, R266): its repeat count, and the picture that it repeats. -/
structure SmallLayer where
  layer : Nat
  repeats : Nat
  held : Bool
  image : Picture
  deriving DecidableEq, Repr

/-- The small state of one channel (R266): its contexts, its ingest members, its video layers, and the converter histories of its AES3
inputs. -/
structure SmallState where
  contexts : List SmallCtx
  members : List SmallMember
  layers : List SmallLayer
  histories : List (Nat × List (Nat × Nat × Nat))
  deriving DecidableEq, Repr

/-- The bulk phase of a resync copy for one channel (R266): the long-term slots by context, the current graphics slots as layer, slot and
contents, and the complexity history of each context. -/
structure BulkState where
  channel : Nat
  slots : List (Nat × Nat)
  graphics : List (Nat × Nat × Bytes)
  histories : List (Nat × List Nat)
  deriving DecidableEq, Repr

/-- What a link frame brings that no other command does: pair traffic of VA (R205, R212, R247, R265, R266, R268, R270, R275), and on VH0 the
BUSY answer of the root to an action of a device, with its hint (R345). Of VA it is the ρ of an AES3 port, a health report,
the swap frame, a RED_SWAP_NOW that the standby forwards and its refusal, bytes of a graphics slot, the bulk phase of a copy, the
size in bits of a slice whose verdict comes after the small state of its context, and the restart of an audio port that belongs to no
running channel. -/
inductive VaMsg where
  | ratio (port ratio : Nat)
  | health (report : Bytes)
  | swap (frame : Nat)
  | swapAsk
  | swapRefused
  | slot (channel layer slot offset : Nat) (data : Bytes)
  | bulk (b : BulkState)
  | verdict (context row bits : Nat)
  | restart (port : Nat)
  | treeBusy (origin hint : Nat)
  deriving DecidableEq, Repr

/-- A packet of the partner's packetisers, as the merge stage sees it (R234, R256, R269): `unit` counts switch units, frame × R +
row in sub-frame mode, the frame in frame mode, and packets from sample tick 0 for audio; `pts` is there where a PES packet begins;
`rowPrint` comes with the last packet of a row and is the row with the fingerprint of its slice payload reassembled; `pids` gives the continuity
counter after its TS packets of each PID, and `fecRow` its place in the FEC matrix. -/
structure PairPacket where
  seq : Nat
  timestamp : Nat
  pts : Option Nat
  unit : Nat
  roc : Nat
  length : Nat
  rowPrint : Option (Nat × Nat)
  last : Bool
  pids : List (Nat × Nat)
  fecRow : Nat
  srCount : Nat
  deriving DecidableEq, Repr

/-- A work item as its producer posts it (R279, R287): `producer` is the hardware producer that posts it, none for firmware, `deadline` is the full 48-bit count of 1.024 µs units, `queue` the queue of the
firmware class, `counter` the dependence counter or none, `decrements` the counters its release decrements (at most four). -/
structure WorkItem where
  cls : Nat
  flow : Nat
  counter : Option Nat
  deadline : Nat
  payload : Nat
  queue : Nat
  decrements : List Nat
  producer : Option Nat
  deriving DecidableEq, Repr

/-- What a received Ethernet frame carries, as far as the MAC acts on it (R319, R321). -/
inductive EthKind where
  | media | pause (quanta : Nat) | pfc | arp | neighbor | echo | ptp | other
  deriving DecidableEq, Repr

/-- A received Ethernet frame; `target` is the address that an ARP, Neighbor Discovery or echo request asks for, of 4 or 16 bytes
(R319). -/
structure EthFrame where
  kind : EthKind
  length : Nat
  fcsOk : Bool
  fecCorrected : Nat
  fecUncorrectable : Nat
  target : Bytes
  deriving DecidableEq, Repr

/-- A received Valsin link frame: the header fields of Table 3 of the serial chapter, the payload and the CRC it carries (R325), and the
pair message that is complete with it, where it is one that no other command brings (R247; log entry 142). -/
structure LinkFrame where
  kind : Nat
  cls : Nat
  seq : Nat
  len : Nat
  flags : Nat
  ack : Nat
  nak : Nat
  reserved : Bytes
  payload : Bytes
  crc : Nat
  msg : Option VaMsg
  deriving DecidableEq, Repr

/-- What sixteen consecutive training sets or blocks show (R327, R328): the lane IDs read, the lanes on which D21.5 arrives in
place of D10.2, whether every lane is locked and good, and the sender's fields. -/
structure TrainingSet where
  good : Bool
  laneIds : List Nat
  inverted : List Nat
  peerMax : Nat
  requested : Nat
  acknowledge : Bool
  deviceId : Nat
  otherIsVh0 : Bool
  deriving DecidableEq, Repr

/-- A scheduled action as the root sends it down, with the ID of the device whose owner asked for it (R345, R352): action 1 is a snapshot, 2
a reset. -/
structure TreeAction where
  seq : Nat
  action : Nat
  seconds : Nat
  nanoseconds : Nat
  origin : Nat
  deriving DecidableEq, Repr

/-- What a request carries up to the root (R342). -/
inductive TreeKind where
  | broadcast (data : Bytes)
  | action (action seconds nanoseconds : Nat)
  deriving DecidableEq, Repr

/-- A request that reached the root from a device below it (R342). -/
structure TreeRequest where
  origin : Nat
  kind : TreeKind
  deriving DecidableEq, Repr

/-- One copy of the boot selector as read from flash (R400): its 16 bytes. -/
abbrev SelectorCopy := Bytes

/-- What reading and checking one firmware slot, or an updated item, finds (R402, R416 to R421). The cryptographic verdicts are
facts of the bytes in flash that the sender of the command states (log entry 3). -/
structure FwSlot where
  slot : Nat
  readError : Bool
  magic : Nat
  format : Nat
  part : Nat
  bodyLen : Nat
  svn : Nat
  keyOk : Bool
  signatureOk : Bool
  measurement : Bytes
  selectors : List SelectorCopy
  uniqueSecretOk : Bool
  fusesOk : Bool
  svcCommand : Bytes
  svcSignatureOk : Bool
  fuseProgramOk : Bool
  sigMagic : Nat := 0x53474E31
  sigAlg : Nat := 0x0087
  sigLen : Nat := 4627
  deriving DecidableEq, Repr

/-- What reading one owner key copy finds (R400): its magic, algorithm and length, and the SHA3-512 of the key it holds. -/
structure KeyCopy where
  magic : Nat
  alg : Nat
  len : Nat
  hash : Bytes
  deriving DecidableEq, Repr

/-- What reading one configuration slot finds (R403 to R409): its header, the facts of keys and signature, and the record area. -/
structure CfgSlot where
  slot : Nat
  readError : Bool
  header : Bytes
  ownerKeys : List KeyCopy
  signatureOk : Bool
  sigMagic : Nat
  sigAlg : Nat
  sigLen : Nat
  programOk : Bool
  measurement : Bytes
  area : Bytes
  keyTags : List Bool
  selectors : List SelectorCopy
  deriving DecidableEq, Repr


/-- The commands of the block, one per row of spec/opcode_table.json. The row names the effect; the operands are what the
sender of the command has to say for the effect to be determined (log entry 1). -/
inductive Instr where
  /-- INPUT_SUPPLY_GOOD (R376): VIN, VIO18 or VIO33 comes within limits, which starts the 10 ms debounce once all three are good and RESET_N is high. -/
  | inputSupplyGood (supply : Nat)
  /-- SUPPLY_DEBOUNCE_DONE (R376): The 10 ms debounce of the input supplies expires and the supervisor starts the SRAM rail. -/
  | supplyDebounceDone
  /-- RAIL_WITHIN_LIMITS (R376): A logic rail reaches its limits; the next rail in Table 5 order starts, and after the last rail the oscillator cells are enabled. -/
  | railWithinLimits
  /-- RAIL_SEQUENCE_FAIL (R376): A rail misses its limits within 0.5 ms; the rails are switched off in reverse order and the failure is logged. -/
  | railSequenceFail
  /-- RAIL_SEQUENCE_RETRY (R376): 100 ms after a failed rail sequence, the sequence starts again while the input supplies stay good. -/
  | railSequenceRetry
  /-- POWER_REMOVED (R376): VIN falls below 8.0 V; the logic rails are switched off within 1.5 ms and the device goes to Hold (M0). -/
  | powerRemoved
  /-- FRC_START_FAIL (R373): No FRC edge arrives within 4 SRC cycles, or the FRC check fails; FRC is switched off, and the eighth failure enters Halt (M11). -/
  | frcStartFail
  /-- FRC_RESTART (R373): After 64 SRC cycles off, FRC is started again. -/
  | frcRestart
  /-- LOOP_LOCK_REPORTED (R366): A loop's lock detector first reports lock, which starts its 4,096-cycle stability count. -/
  | loopLockReported (source : Nat)
  /-- SOURCE_STABLE (R366): A source's stability count completes; its CLK_READY bit is set and its monitor learns its frequency ratio. -/
  | sourceStable (source ratio : Nat)
  /-- RESET_N_FALL (R457): RESET_N falls and the 1 µs filter starts; a pulse shorter than 1 µs is ignored. -/
  | resetNFall
  /-- RESET_ACCEPTED (R457): RESET_N has been low for 1 µs; the reset is accepted, outputs go safe within 20 ns, and the device enters Hold (M0). -/
  | resetAccepted
  /-- RESET_N_RELEASE (R457): RESET_N rises; SVC_EN is latched and every stability count restarts. -/
  | resetNRelease (svcEn : Bool)
  /-- CLOCK_STOP_DETECT (R367): No edge of a monitored source arrives for 16 FRC cycles and its stop detector trips. -/
  | clockStopDetect (source : Nat)
  /-- FREQUENCY_MEASUREMENT (R367): A 4,096-FRC-cycle measurement window closes and the count is compared with the learnt ratio. -/
  | frequencyMeasurement (source count : Nat)
  /-- ROOT_SWITCH_DONE (R368): A root multiplexer switch completes after 64 cycles of the new source. -/
  | rootSwitchDone
  /-- SAFE_HOLD_EXIT (R372): Every monitored source and supply is good again; the root returns to PLL_R and the device takes the Table 3 transition out of M9. -/
  | safeHoldExit (sourceTime : Option Nat)
  /-- PLL_S_LOCK_LOSS (R374): PLL_S loses lock; the SDI outputs go undriven and CLK_S_LOSS is reported. -/
  | pllSLockLoss
  /-- SUPPLY_LOSS (R377): A monitored supply stays outside its limits for 2 µs; PWR_SUPPLY is reported and the device enters M9. -/
  | supplyLoss (supply : Nat)
  /-- SUPPLY_RETURN (R377): A lost supply has been back within limits for 10 ms. -/
  | supplyReturn (supply : Nat)
  /-- OVERCURRENT (R377): VIN current stays above PWR_OC_MA for 100 µs and PWR_OC is reported. -/
  | overcurrent
  /-- CORE_RAIL_LOSS (R377): CORE or SRAM leaves its limits and PWR_CORE_RAIL is reported at severity 7. -/
  | coreRailLoss (rail : Nat)
  /-- HBM_RAIL_LOSS (R307): An HBM rail leaves its limits; contents are lost and DRM_RAIL is reported at severity 7. -/
  | hbmRailLoss (stack : Nat)
  /-- TJ_SAMPLE (R380): The on-die sensors are read each millisecond and the die temperature is compared with its thresholds. -/
  | tjSample (env : PowerSample)
  /-- PMBUS_PAGE (R378): PMBus PAGE selects SUP5, an on-package rail or VIN. -/
  | pmbusPage (page : Nat)
  /-- PMBUS_CLEAR_FAULTS (R378): PMBus CLEAR_FAULTS clears the supervisor fault log. -/
  | pmbusClearFaults
  /-- PMBUS_STATUS_WORD (R378): PMBus STATUS_WORD returns the status of the selected page. -/
  | pmbusStatusWord
  /-- PMBUS_STATUS_INPUT (R378): PMBus STATUS_INPUT returns the input status. -/
  | pmbusStatusInput
  /-- PMBUS_STATUS_IOUT (R378): PMBus STATUS_IOUT returns the output current status. -/
  | pmbusStatusIout
  /-- PMBUS_STATUS_TEMPERATURE (R378): PMBus STATUS_TEMPERATURE returns the temperature status. -/
  | pmbusStatusTemperature
  /-- PMBUS_READ_VIN (R378): PMBus READ_VIN returns the input voltage. -/
  | pmbusReadVin
  /-- PMBUS_READ_IIN (R378): PMBus READ_IIN returns the input current. -/
  | pmbusReadIin
  /-- PMBUS_READ_VOUT (R378): PMBus READ_VOUT returns the selected rail's voltage. -/
  | pmbusReadVout
  /-- PMBUS_READ_IOUT (R378): PMBus READ_IOUT returns the selected rail's current. -/
  | pmbusReadIout
  /-- PMBUS_READ_PIN (R378): PMBus READ_PIN returns the input power. -/
  | pmbusReadPin
  /-- PMBUS_READ_TEMPERATURE_1 (R378): PMBus READ_TEMPERATURE_1 returns the temperature. -/
  | pmbusReadTemperature1
  /-- PMBUS_MFR_FAULT_LOG_READ (R378): PMBus MFR_SPECIFIC 0xD0 reads the supervisor fault log one 32-byte record at a time. -/
  | pmbusMfrFaultLogRead
  /-- PMBUS_OTHER_WRITE (R378): Any other PMBus write is not acknowledged and changes nothing. -/
  | pmbusOtherWrite (command : Nat)
  /-- PTP_MESSAGE_RECEIVE (R27): A timestamped PTP message arrives and the servo updates the MTB increment or, when allowed, steps it. -/
  | ptpMessageReceive (port : Nat) (offset : Int)
  /-- FRAME_IN_EDGE (R27): An edge on FRAME_IN is timestamped and used to discipline frequency and frame phase. -/
  | frameInEdge (offset : Int)
  /-- PPS_IN_EDGE (R27): An edge on PPS_IN is timestamped and used to discipline frequency and the phase of whole seconds. -/
  | ppsInEdge (offset : Int)
  /-- MTB_SOURCE_LOST (R27): CLK_MTB_LOSS_MS passes without messages or edges, and another source is selected or the servo enters holdover. -/
  | mtbSourceLost (source : Nat)
  /-- CLK_MTB_FRAC_READ (R25): A read of CLK_MTB_FRAC latches the nanoseconds and seconds registers. -/
  | clkMtbFracRead (transport : Nat)
  /-- SAMPLE_TICK (R32): The MTB reaches a 48 kHz sample tick, which drives audio placement, gain ramps and packet queuing. -/
  | sampleTick (tick : Nat) (env : SampleEnv)
  /-- FRAME_TICK (R32): The MTB reaches a channel's frame tick, which drives the frame-start actions of every unit of the channel. -/
  | frameTick (channel frame : Nat) (env : FrameEnv)
  /-- ROW_TICK (R34): The MTB reaches a row tick; row stages close and open, and overruns are judged. -/
  | rowTick (channel frame row : Nat) (env : RowEnv)
  /-- MTB_WHOLE_SECOND (R449): The MTB reaches a whole second; PPS_OUT rises and the once-per-second actions run. -/
  | mtbWholeSecond (second : Nat)
  /-- PPS_OUT_FALL (R449): 1 ms after the whole second, PPS_OUT returns low. -/
  | ppsOutFall
  /-- MTB_MILLISECOND (R261): At an MTB millisecond boundary, PAIR_HB_OUT is driven to (m + e) mod 2. -/
  | mtbMillisecond (millisecond : Nat)
  /-- SHADOW_COMMIT (R39): The control plane sets a channel's shadow-set commit flag, possibly with a target frame. -/
  | shadowCommit (channel target : Nat) (change : ShadowChange)
  /-- SHADOW_APPLY (R39): At the frame tick after the guard, or at the target frame's tick, the shadow set is copied into the active set. -/
  | shadowApply (channel frame : Nat)
  /-- PLEACH_STRIP_ARRIVAL (R63): A Pleach strip or verdict beat arrives from a neighbouring engine, and a stalled engine resumes. -/
  | pleachStripArrival (engine : Nat) (strip : Strip)
  /-- SLICE_VERDICT (R112): An engine decides its slice's last CTU and gives the slice its verdict against its cap. -/
  | sliceVerdict (verdict : SliceResult)
  /-- ALF_DERIVATION (R81): After the last counted row of a picture, column 0's engine derives the ALF APS for the next picture. -/
  | alfDerivation (context frame : Nat)
  /-- RING_SEGMENT_REROUTE (R64): At the next frame tick after a ring segment is fenced, routes through it move to the other direction. -/
  | ringSegmentReroute (channel segment : Nat)
  /-- SPARE_TAKEOVER (R66): At the next frame tick after a retirement, the assigned spare takes over the retired engine's work. -/
  | spareTakeover (engine channel frame : Nat)
  /-- G_RECOMPUTE (R114): At every frame with f mod 32 = 0, the deciding device computes g and commits it with target frame f + 8. -/
  | gRecompute (context frame : Nat)
  /-- SLICE_EMISSION (R43): A slice's emission time is reached and its first packet is released toward the port. -/
  | sliceEmission (context frame row : Nat)
  /-- DECODE_NAL_RECEIVE (R150): A NAL unit arrives for a decode context and is checked for gaps and errors. -/
  | decodeNalReceive (context : Nat) (nal : NalIn)
  /-- DECODE_CLOSE_TIMEOUT (R152): DEC_DELAY × P_s after its presentation time, a picture that is still open is closed. -/
  | decodeCloseTimeout (context : Nat)
  /-- DECODE_PICTURE_DONE (R146): A picture completes decoding and is delivered as 4:2:2 10-bit in output order. -/
  | decodePictureDone (context : Nat) (picture : DecodedPicture)
  /-- GRAPHICS_SLOT_RELEASE (R170): Composition of the last row that used a displaced graphics slot closes; the slot is released and its flip item completes. -/
  | graphicsSlotRelease (channel layer : Nat)
  /-- SDI_LINE_RECEIVE (R184): An SDI line arrives, is checked by CRC and format, and is written to the ingest picture. -/
  | sdiLineReceive (line : SdiLine)
  /-- ST2110_PACKET_RECEIVE (R185): An ST 2110 or compressed-video packet arrives on an ingress flow leg and is policed, checked and placed. -/
  | st2110PacketReceive (packet : MediaPacket)
  /-- AES3_FRAME_RECEIVE (R200): An AES3 frame arrives on an input and enters the converter or the rate adapter. -/
  | aes3FrameReceive (input : Nat) (frame : AesFrame)
  /-- TRACKER_BLOCK (R202): A 1 ms tracker block ends and its frame count is classified against ρ. -/
  | trackerBlock (input count : Nat)
  /-- AES3_STOP (R202): No AES3 preamble arrives for 250 µs, a stop is declared, and the gain ramps to zero. -/
  | aes3Stop (input : Nat)
  /-- PAYLOAD_MUTE_RELEASE (R208): 4,096 sample ticks pass with no sync word and the non-audio bit clear, and the muted pair ramps up. -/
  | payloadMuteRelease (path pair : Nat)
  /-- AES3_BLOCK_START_CHECK (R212): At a 192-frame block start, the A/B pairing is checked; a failure sets the swapped flag and reports AUD_SWAP. -/
  | aes3BlockStartCheck (port : Nat) (paired : Bool)
  /-- AUDIO_PORT_RESTART_APPLY (R212): At its frame tick, a port restart mutes, flushes the FIFO, realigns and ramps up. -/
  | audioPortRestartApply (port frame : Nat)
  /-- PACKET_TRANSMIT (R231): A port's schedulers choose the next packet by class, gate, group and flow, and the MAC sends it. -/
  | packetTransmit (port : Nat)
  /-- GATE_ENTRY_CHANGE (R232): A gate-list interval ends and the next entry's gate state takes effect. -/
  | gateEntryChange (port : Nat)
  /-- GATE_LIST_START (R233): A newly accepted gate list starts at its computed start time and the old list is cut. -/
  | gateListStart (port : Nat)
  /-- SHAPER_RATE_APPLY (R229): An accepted shaper rate change takes effect at the next sample tick, keeping any debt. -/
  | shaperRateApply (leg tick : Nat)
  /-- PSI_INSERTION (R219): At the first frame tick after each 100 ms MTB multiple, PAT and PMT are sent. -/
  | psiInsertion (flow frame : Nat)
  /-- PCR_INSERTION (R220): With 20 ms since the last PCR, a PCR is carried on the next video datagram or in a PCR-only packet. -/
  | pcrInsertion (flow : Nat) (videoDatagram : Bool)
  /-- RTCP_RECEIVE (R236): An RTCP packet arrives; PLI, RPSI and NACK for the flow's SSRC become feedback, and others are counted. -/
  | rtcpReceive (flow : Nat) (message : Rtcp)
  /-- ADDRESS_RESOLVED (R226): ARP or Neighbor Discovery resolves a unicast destination, and the flow's packets stop being dropped. -/
  | addressResolved (leg mac : Nat)
  /-- QUEUE_SAMPLE_TIMER (R239): When no channel runs, groups and port classes are sampled every 10 ms of MTB. -/
  | queueSampleTimer
  /-- PAIR_DIGEST_RECEIVE (R246): The partner's pair digest and IDs arrive over VA in M2 and are compared. -/
  | pairDigestReceive (digest : Bytes) (partnerId partnerWants : Nat)
  /-- CLAIM_BEACON_SEND (R247): A claim beacon is sent at least every 1.0 µs and within 0.1 µs of a change. -/
  | claimBeaconSend
  /-- CLAIM_BEACON_RECEIVE (R247): The partner's claim beacon arrives and its claim, epoch, mode and Degraded flag are taken. -/
  | claimBeaconReceive (claim epoch mode : Nat) (degraded : Bool) (count : Nat)
  /-- VA_DOWN (R248): No valid link frame arrives on VA for 10 µs; the partner's claim is taken as zero. -/
  | vaDown
  /-- VA_SILENT (R248): VA has been down for 20 ms continuously. -/
  | vaSilent
  /-- PAIR_HB_IN_EDGE (R261): An edge arrives on PAIR_HB_IN and the heartbeat is present. -/
  | pairHbInEdge (level : Bool)
  /-- HEARTBEAT_SILENT (R261): 20 ms pass without a heartbeat edge or frame and the heartbeat is silent. -/
  | heartbeatSilent
  /-- HRW_HEARTBEAT_RECEIVE (R348): A Hedgerow claim heartbeat frame arrives from the partner. -/
  | hrwHeartbeatReceive (path : TreePath) (claim epoch : Nat)
  /-- FINGERPRINT_RECEIVE (R251): A partner fingerprint arrives and is compared with the local copy. -/
  | fingerprintReceive (print : Fingerprint)
  /-- FINGERPRINT_MISSING (R251): A partner fingerprint has not arrived two row ticks, or 2 ms for audio, after the local one. -/
  | fingerprintMissing (stream : FpStream)
  /-- PAIR_FRAME_END (R252): A pair frame ends and is judged matched, output-mismatched, or neither. -/
  | pairFrameEnd
  /-- RESYNC_BULK_DONE (R266): The bulk phase of a resync copy ends and the source names each channel's join frame. -/
  | resyncBulkDone (channel frame bytes : Nat)
  /-- RESYNC_SMALL_STATE (R266): The small state arrives, the copy is complete, and the standby codes from the join frame. -/
  | resyncSmallState (channel bytes : Nat) (small : SmallState)
  /-- ROLE_SWAP_DUE (R268): RED_SWAP_S passes; at the reference channel's frame tick a swap frame is named or the swap is skipped. -/
  | roleSwapDue (frame : Nat)
  /-- ROLE_SWAP (R268): At T_s both devices swap roles in the same MGT cycle. -/
  | roleSwap (frame : Nat)
  /-- MERGE_SWITCH (R257): A merge stage reaches a qualifying switch point and moves a flow to its new source. -/
  | mergeSwitch (leg time unit : Nat)
  /-- PARTNER_PACKET_RECEIVE (R256): A packet produced by the partner arrives on VA for forwarding. -/
  | partnerPacketReceive (leg : Nat) (packet : PairPacket)
  /-- FORWARDED_CHANGE_RECEIVE (R264): A change forwarded over VA reaches the deciding device, which names the target and commits it on both. -/
  | forwardedChangeReceive (channel target : Nat) (change : ShadowChange)
  /-- CLAIM_RELEASE_FLOWS_STOP (R259): 20 ms after giving up its claim with VA down, a device stops its local flows. -/
  | claimReleaseFlowsStop
  /-- WORK_ITEM_POST (R279): Firmware or a hardware producer posts a work item, which is parked, waits or enters a queue. -/
  | workItemPost (item : WorkItem)
  /-- PRODUCER_STALL_RELEASE (R287): The queue or wait store falls to its low watermark and stalled producers resume posting. -/
  | producerStallRelease (queue : Nat)
  /-- COUNTER_ARM (R280): Firmware arms a zero dependence counter; arming a non-zero one reports PVD_CNT_FAULT. -/
  | counterArm (counter value : Nat)
  /-- PARKED_ITEM_WAKE (R279): A parked item's deadline comes within 32,000 µs and it may become ready. -/
  | parkedItemWake (flow seq : Nat)
  /-- CORE_TAKE_ITEM (R283): A free Box core takes the next item of its pool by deadline and queue order. -/
  | coreTakeItem (core : Nat)
  /-- WORK_ITEM_COMPLETE (R284): A Box core finishes an item with its result, or with retry. -/
  | workItemComplete (core : Nat) (retry : Bool)
  /-- RETRY_BACKOFF_EXPIRY (R286): A retry backoff expires and the item is queued again. -/
  | retryBackoffExpiry (flow seq : Nat)
  /-- ITEM_WATCHDOG (R277): An item runs beyond 40,000 cycles; the watchdog stops it and reports PVD_ITEM_WDOG. -/
  | itemWatchdog (core : Nat)
  /-- WORK_ITEM_DEADLINE (R285): The MTB reaches the deadline of an incomplete live item, which is discarded. -/
  | workItemDeadline (flow seq : Nat)
  /-- RATE_QUOTA_PERIOD (R290): A rate-quota period ends and each partition's item count restarts. -/
  | rateQuotaPeriod
  /-- REFRESH_DUE (R302): A pseudo-channel's refresh interval expires and an all-bank refresh is issued or postponed. -/
  | refreshDue (pc : Nat) (requests : List HbmWait)
  /-- POSTPONED_REFRESH_ISSUE (R303): No urgency-3 request waits any more, and owed refreshes are issued back to back. -/
  | postponedRefreshIssue (pc : Nat)
  /-- STACK_TEMPERATURE_READ (R304): A stack's temperature is read each millisecond; refresh rate and delay band change if thresholds are crossed. -/
  | stackTemperatureRead (stack : Nat) (celsius : Int)
  /-- SELF_REFRESH_ENTRY (R306): A stack starts self-refresh entry after DRM_SR_IDLE_US without requests, or on entry to M7 or M9. -/
  | selfRefreshEntry (stack : Nat)
  /-- SELF_REFRESH_ENTRY_DONE (R306): Self-refresh entry completes, and a waiting request starts the exit. -/
  | selfRefreshEntryDone (stack : Nat)
  /-- HBM_REQUEST_WAKE (R306): A request reaches a stack in self-refresh in M7 and starts its exit. -/
  | hbmRequestWake (address : Nat) (client : HbmClient)
  /-- SELF_REFRESH_EXIT_DONE (R306): Self-refresh exit completes with delays loaded, and the first command is issued. -/
  | selfRefreshExitDone (stack : Nat)
  /-- POISONED_READ (R308): An uncorrectable error returns zero data with poison, counted and reported as DRM_UE. -/
  | poisonedRead (address : Nat) (client : HbmClient)
  /-- SCRUB_ACCESS (R309): The patrol scrub reads the next access and rewrites it if corrected. -/
  | scrubAccess (pc : Nat) (corrected : Bool)
  /-- REMAP_COPY_DONE (R311): The copy of a retiring pseudo-channel's blocks to their targets completes. -/
  | remapCopyDone
  /-- MEMORY_CHECK_DONE (R312): The M2 memory check of every pseudo-channel completes and failing ones are retired. -/
  | memoryCheckDone (failing : List Nat)
  /-- ETH_FRAME_RECEIVE (R319): An Ethernet frame arrives and is checked for length and FCS, then delivered or answered. -/
  | ethFrameReceive (port : Nat) (frame : EthFrame)
  /-- PAUSE_EXPIRY (R319): The time requested by a PAUSE frame passes and the transmitter resumes. -/
  | pauseExpiry (port : Nat)
  /-- LNK_PAUSE_LONG (R319): A pause lasts beyond 100 µs and LNK_PAUSE_LONG is reported. -/
  | lnkPauseLong (port : Nat)
  /-- ETH_PORT_UP (R321): An Ethernet port completes bring-up and its PCS achieves alignment. -/
  | ethPortUp (port : Nat)
  /-- LNK_ETH_DOWN (R322): An Ethernet port loses alignment or training and goes down; its packets are discarded at their turn. -/
  | lnkEthDown (port : Nat)
  /-- VALSIN_FRAME_RECEIVE (R326): A Valsin link frame arrives, is CRC-checked, acknowledged and delivered in sequence. -/
  | valsinFrameReceive (port : Nat) (frame : LinkFrame)
  /-- VALSIN_ACK_TIMER (R326): 0.25 µs passes with something to acknowledge and nothing to send, and an acknowledgement-only frame is sent. -/
  | valsinAckTimer (port : Nat)
  /-- VALSIN_RETRY_TIMEOUT (R326): A retry has not arrived within its bound, or has failed; the port retrains and queued frames are lost. -/
  | valsinRetryTimeout (port : Nat)
  /-- VALSIN_TRAINING_RECEIVE (R327): A training set or block arrives and lock, lane ID, step requests and acknowledgements are taken. -/
  | valsinTrainingReceive (port : Nat) (sets : TrainingSet)
  /-- VALSIN_STEP_SWITCH (R327): After the 64th training set following acknowledgement, both ends switch to the next step. -/
  | valsinStepSwitch (port : Nat)
  /-- VALSIN_STEP_TIMEOUT (R327): A step is not entered within 16 µs, and the end returns to the previous step or fails step 0. -/
  | valsinStepTimeout (port : Nat)
  /-- VALSIN_RETRAIN_TIMER (R328): 10 ms after a port went down or stayed below its minimum step, training starts again. -/
  | valsinRetrainTimer (port : Nat)
  /-- COMMA_LOSS (R327): Three consecutive comma blocks on a lane are missing or wrong, and the port retrains. -/
  | commaLoss (port lane : Nat)
  /-- VALSIN_SLEEP_ENTRY (R330): In M7, a transmitter idle for LNK_V_IDLE_US sends a sleep block and stops its lanes. -/
  | valsinSleepEntry (port : Nat)
  /-- VALSIN_WAKE (R330): A frame to send wakes a sleeping direction, and the first frame leaves 2.0 µs later. -/
  | valsinWake (port : Nat)
  /-- VALSIN_WAKE_FAIL (R330): A wake does not lock to a comma block in 2.0 µs and the port retrains. -/
  | valsinWakeFail (port : Nat)
  /-- HRW_DISCOVERY (R340): A VH port in use comes up or goes down and discovery runs. -/
  | hrwDiscovery (port : Nat) (up : Bool)
  /-- HRW_DEPTH_ANNOUNCE (R340): A depth announcement arrives on VH0 and is passed down with depth plus 1. -/
  | hrwDepthAnnounce (announced : DepthNote)
  /-- HRW_MAP_RECEIVE (R340): A subtree ID map arrives from a child and duplicate IDs are checked. -/
  | hrwMapReceive (port : Nat) (ids : List Nat) (depth : Nat)
  /-- HRW_NO_ROOT (R340): 100 ms after VH0 comes up with no depth announcement, HRW_NO_ROOT is set. -/
  | hrwNoRoot
  /-- HRW_BCAST_RECEIVE (R343): A broadcast arrives and is delivered to the owner as an HRW_BCAST event. -/
  | hrwBcastReceive (origin seq : Nat) (data : Bytes)
  /-- HRW_BARRIER_ARRIVAL (R344): A barrier arrival arrives from a child and is passed up once all children and the device have arrived. -/
  | hrwBarrierArrival (barrier port timeoutMs : Nat) (partialArrival : Bool)
  /-- HRW_BARRIER_RELEASE (R344): A barrier release reaches a waiting device, which replies to its owner. -/
  | hrwBarrierRelease (barrier seq : Nat) (partialRelease : Bool)
  /-- HRW_BARRIER_TIMEOUT (R344): A barrier's timeout passes without release; waiters answer NOT_READY. -/
  | hrwBarrierTimeout (barrier : Nat)
  /-- HRW_SCHEDULE_RECEIVE (R345): A scheduled action arrives from the root, and is acted on at once with the late flag if t has passed. -/
  | hrwScheduleReceive (action : TreeAction)
  /-- HRW_ACTION_TIME (R345): The MTB reaches a scheduled action's time t. -/
  | hrwActionTime (seq : Nat)
  /-- FAULT_REPORT (R387): The fault collector takes a report and applies every reaction of its effective severity. -/
  | faultReport (source inst detail0 detail1 : Nat)
  /-- ERR_PULSE_END (R392): The ERR_OUT_N pulse ends and FLT_ERR_HOLD decides whether the pin is released. -/
  | errPulseEnd
  /-- UNIT_RESUME (R390): A retried unit resumes at the next tick that opens one of its stages. -/
  | unitResume (source inst : Nat)
  /-- FLT_PATH (R385): A source's wires read equal for 2 MGT cycles; FLT_PATH is reported and the source marked unsupervised. -/
  | fltPath (source : Nat)
  /-- FAULT_PATH_RESTORE (R385): A broken path reads valid for 1,024 consecutive MGT cycles and its source is supervised again. -/
  | faultPathRestore (source : Nat)
  /-- FIRMWARE_SLOT_VERIFY (R402): Reading and checking a firmware slot completes with a verdict, and boot continues or tries the other slot. -/
  | firmwareSlotVerify (slot : FwSlot)
  /-- CONFIG_SLOT_VERIFY (R404): Verification of a configuration slot completes; its records are applied or the other slot is tried. -/
  | configSlotVerify (slot : CfgSlot)
  /-- RECORD_PADDING (R406): A padding record is counted and ignored. -/
  | recordPadding (payload : Bytes)
  /-- RECORD_UNKNOWN_TYPE (R405): A record of an undefined type is discarded and counted in SEC_REC_UNKNOWN. -/
  | recordUnknownType (type : Nat) (payload : Bytes)
  /-- GPIO_RECORD (R451): The GPIO record sets GPIO drive and safe levels. -/
  | gpioRecord (payload : Bytes)
  /-- SUPPLY_RECORD (R382): The supply record sets the overcurrent limit and power alert. -/
  | supplyRecord (payload : Bytes)
  /-- MTB_DISCIPLINE_RECORD (R26): The MTB discipline record sets sources, PTP settings and servo limits. -/
  | mtbDisciplineRecord (payload : Bytes)
  /-- MEMORY_RECORD (R315): The memory record sets scrub period, self-refresh idle time and CE limit. -/
  | memoryRecord (payload : Bytes)
  /-- QOS_PORT_RECORD (R315): A QoS port record sets a port's floor and latency target. -/
  | qosPortRecord (payload : Bytes)
  /-- ETHERNET_PORT_RECORD (R333): An Ethernet port record configures a port and fixes its quad's mode. -/
  | ethernetPortRecord (payload : Bytes)
  /-- VALSIN_PORT_RECORD (R334): A Valsin port record sets step limits and idle time. -/
  | valsinPortRecord (payload : Bytes)
  /-- INGRESS_FLOW_RECORD (R185): An ingress flow record configures a received flow and its legs. -/
  | ingressFlowRecord (payload : Bytes)
  /-- ALIGNMENT_GROUP_RECORD (R188): An alignment group record sets a channel's video kind, hold, offset and rejoin count. -/
  | alignmentGroupRecord (payload : Bytes)
  /-- GROUP_MEMBER_RECORD (R188): A group member record adds a source to a channel's alignment group. -/
  | groupMemberRecord (payload : Bytes)
  /-- AES3_INPUT_RECORD (R200): An AES3 input record sets mode, tracker bandwidth and auto-restart. -/
  | aes3InputRecord (payload : Bytes)
  /-- AES3_OUTPUT_RECORD (R213): An AES3 output record sets its channel, mode, delay and routes. -/
  | aes3OutputRecord (payload : Bytes)
  /-- AUDIO_PROGRAMME_RECORD (R213): An audio programme record sets carriage, depth, channel count and routes. -/
  | audioProgrammeRecord (payload : Bytes)
  /-- COMPOSITOR_RECORD (R178): A compositor record sets hold frames, topiary severity and slate size. -/
  | compositorRecord (payload : Bytes)
  /-- VIDEO_LAYER_RECORD (R178): A video layer record configures a layer's source, crop, window and fallback. -/
  | videoLayerRecord (payload : Bytes)
  /-- GRAPHICS_LAYER_RECORD (R178): A graphics layer record configures a layer's position, size and Z. -/
  | graphicsLayerRecord (payload : Bytes)
  /-- SLATE_DATA_RECORD (R178): A slate data record writes bytes into a channel's slate planes. -/
  | slateDataRecord (payload : Bytes)
  /-- TOPIARY_REGION_RECORD (R171): A topiary region record adds a region, which is not taken if it overloads a line. -/
  | topiaryRegionRecord (payload : Bytes)
  /-- ENCODE_CHANNEL_RECORD (R68): An encode channel record configures a channel's raster, rate, delay and chroma. -/
  | encodeChannelRecord (payload : Bytes)
  /-- ENCODE_CONTEXT_RECORD (R69): An encode context record adds a context to a channel. -/
  | encodeContextRecord (payload : Bytes)
  /-- CONTEXT_CODING_RECORD (R98): A context coding record sets refresh period, anchor period, feedback and captions. -/
  | contextCodingRecord (payload : Bytes)
  /-- CHANNEL_COLOUR_RECORD (R99): A channel colour record sets colour and HDR SEI values. -/
  | channelColourRecord (payload : Bytes)
  /-- RATE_CONTROL_RECORD (R104): A rate-control record sets mode, buffer, bitrates, QPs and user-data reserve. -/
  | rateControlRecord (payload : Bytes)
  /-- COPPICE_RECORD (R139): A Coppice record sets cut threshold and guides for a channel. -/
  | coppiceRecord (payload : Bytes)
  /-- DECODE_CONTEXT_RECORD (R143): A decode context record configures a decode context. -/
  | decodeContextRecord (payload : Bytes)
  /-- EGRESS_FLOW_RECORD (R226): An egress flow record configures a flow and its legs. -/
  | egressFlowRecord (payload : Bytes)
  /-- FLOW_GROUP_RECORD (R241): A flow group record sets a group's port, class and weight. -/
  | flowGroupRecord (payload : Bytes)
  /-- PORT_CLASS_RECORD (R241): A port class record sets class shares and bursts for a port. -/
  | portClassRecord (payload : Bytes)
  /-- GATE_LIST_RECORD (R241): A gate list record sets a port's initial gate list. -/
  | gateListRecord (payload : Bytes)
  /-- INGRESS_POLICER_RECORD (R241): An ingress policer record configures a flow's policer. -/
  | ingressPolicerRecord (payload : Bytes)
  /-- PAIR_RECORD (R272): The pair record makes the device paired and sets heartbeat, partner and swap settings. -/
  | pairRecord (payload : Bytes)
  /-- HEDGEROW_RECORD (R350): The Hedgerow record sets device ID, role and down ports. -/
  | hedgerowRecord (payload : Bytes)
  /-- SEVERITY_RECORD (R396): A severity record sets a source's severity, N and W. -/
  | severityRecord (payload : Bytes)
  /-- GENERAL_FAULT_RECORD (R396): The general fault record sets ERR_OUT_N hold and default N and W. -/
  | generalFaultRecord (payload : Bytes)
  /-- BINDING_RECORD (R429): A binding record binds a partition to a PCIe function and management ports. -/
  | bindingRecord (payload : Bytes)
  /-- PARTITION_KEY_RECORD (R431): A partition key record gives a partition's ML-DSA-87 public key. -/
  | partitionKeyRecord (payload : Bytes)
  /-- MANAGEMENT_PORT_RECORD (R430): A management port record configures MG0 or MG1 addressing. -/
  | managementPortRecord (payload : Bytes)
  /-- PARTITION_CHANNEL_RECORD (R427): A partition channel record assigns channels and decode contexts to a partition. -/
  | partitionChannelRecord (payload : Bytes)
  /-- KEY_RECORD (R412): A key record is unwrapped under KWO into an SRTP key-store slot, or discarded. -/
  | keyRecord (payload : Bytes) (tagOk : Bool)
  /-- ENROLMENT_RECORD (R409): An enrolment record supplies KWO on an unenrolled device, or is discarded on an enrolled one. -/
  | enrolmentRecord (payload : Bytes)
  /-- PARTITION_QUOTA_RECORD (R295): A partition quota record sets a partition's in-flight and rate quotas. -/
  | partitionQuotaRecord (payload : Bytes)
  /-- GENERAL_UNIT_RECORD (R361): A general unit record configures a check-value unit's tap, mode and CRC. -/
  | generalUnitRecord (payload : Bytes)
  /-- ENGINE_SELFTEST_DONE (R46): Self-test of the encode engines, analysers and decode engines completes and in-service and spare engines are set. -/
  | engineSelftestDone (engines analysers decoders : List Nat)
  /-- BOX_CORE_SELFTEST_DONE (R276): Box-core self-test completes and the cores are divided into service and live pools. -/
  | boxCoreSelftestDone (passing : List Nat)
  /-- CVU_SELFTEST_DONE (R360): Check-value unit self-test completes and failing units are fenced. -/
  | cvuSelftestDone (failing : List Nat)
  /-- ADMISSION (R20): Admission charges each channel and then each decode context against the resources in record order. -/
  | admission
  /-- CONFIGURE_COMPLETE (R30): The servo reaches LOCKED after admission, and the device leaves M2 by its Table 3 transition. -/
  | configureComplete
  /-- CONFIGURE_MTB_TIMEOUT (R30): 2 × CLK_MTB_LOSS_MS passes with no source, and Configure completes with CLK_MTB_VALID clear. -/
  | configureMtbTimeout
  /-- FUSE_BIT_PROGRAM (R410): One anti-rollback fuse bit finishes programming after 20 µs and the next starts. -/
  | fuseBitProgram (ok : Bool)
  /-- MODE_REQUEST_EXECUTE (R15): A held owner mode request is acted on at its frame tick or whole second. -/
  | modeRequestExecute
  /-- UPDATE_ERASE_DONE (R415): In Update (M8), erasure of the target region completes and SEC_UPDATE_BEGIN is answered. -/
  | updateEraseDone
  /-- UPDATE_VERIFY_DONE (R416): Verification of the written item completes; the selector is updated on a pass and the device leaves M8. -/
  | updateVerifyDone (item : FwSlot) (config : CfgSlot)
  /-- UPDATE_TIMEOUT (R417): 10 s pass without a chunk, the update is abandoned and the device leaves M8. -/
  | updateTimeout
  /-- ENC_CHANNEL_INFO (R72): Returns a channel's encode status words and its context list. -/
  | encChannelInfo (req : Req)
  /-- ENC_POOL_INFO (R72): Returns the engine pool registers to the owner. -/
  | encPoolInfo (req : Req)
  /-- ENC_REF_INFO (R101): Returns a context's long-term reference and sweep state. -/
  | encRefInfo (req : Req)
  /-- ENC_SET_BITRATE (R124): Changes a context's bitrate through the shadow set at a named target frame. -/
  | encSetBitrate (req : Req)
  /-- ENC_RC_INFO (R123): Returns a context's rate-control state. -/
  | encRcInfo (req : Req)
  /-- DEC_CTX_INFO (R160): Returns a decode context's state and counters. -/
  | decCtxInfo (req : Req)
  /-- CMP_CH_INFO (R181): Returns a channel's composition words and graphics slot addresses. -/
  | cmpChInfo (req : Req)
  /-- CMP_SET_LAYER (R180): Changes a video layer's source, opacity and visibility through the shadow set. -/
  | cmpSetLayer (req : Req)
  /-- ING_GROUP_INFO (R199): Returns a channel's alignment group and member states. -/
  | ingGroupInfo (req : Req)
  /-- AUD_PORT_RESTART (R216): Schedules an AES3 port restart at a target frame. -/
  | audPortRestart (req : Req)
  /-- EGR_SET_RATE (R243): Changes an audio flow leg's shaper rate and depth at the next sample tick. -/
  | egrSetRate (req : Req)
  /-- EGR_SET_GATES (R244): Accepts a new gate list for a port and returns its start time. -/
  | egrSetGates (req : Req)
  /-- RED_PAIR_INFO (R274): Returns the pair registers and the partner's last health report. -/
  | redPairInfo (req : Req)
  /-- RED_SWAP_NOW (R275): Requests a role swap at the next possible swap frame. -/
  | redSwapNow (req : Req)
  /-- REFERENCE_ACTION_ACK (R102): A host reference action acknowledges a long-term reference POC through the shadow set. -/
  | referenceActionAck (req : Req)
  /-- REFERENCE_ACTION_LOSS (R102): A host reference action reports a loss through the shadow set. -/
  | referenceActionLoss (req : Req)
  /-- OVERLAY_UPDATE_GRAPHICS (R182): An overlay update flips, moves or shows a graphics layer at a target frame. -/
  | overlayUpdateGraphics (req : Req)
  /-- OVERLAY_UPDATE_EXPECTED (R182): An overlay update sets a region's expected signature at a target frame. -/
  | overlayUpdateExpected (req : Req)
  /-- SPLICE_INSERTION (R237): A host item inserts an SCTE 35 section on a TS flow at a target picture. -/
  | spliceInsertion (req : Req)
  /-- SEI_INSERTION (R292): A host item places one SEI message in a context's target picture. -/
  | seiInsertion (req : Req)
  /-- LNK_PORT_INFO (R336): Returns an Ethernet or Valsin port's register entry. -/
  | lnkPortInfo (req : Req)
  /-- LNK_RETRAIN (R337): Takes a port down and restarts its bring-up or training. -/
  | lnkRetrain (req : Req)
  /-- LNK_RETRAIN_TIMEOUT (R337): A retrained port has not come up within 1 s and the command is answered NOT_READY. -/
  | lnkRetrainTimeout (kind port : Nat)
  /-- HRW_BROADCAST (R352): Sends a broadcast through the root to every device of the tree. -/
  | hrwBroadcast (req : Req)
  /-- HRW_SCHEDULE_SNAPSHOT (R345): Schedules a tree-wide snapshot at MTB time t. -/
  | hrwScheduleSnapshot (req : Req)
  /-- HRW_SCHEDULE_RESET (R347): Schedules a tree-wide reset at MTB time t, from the root's owner only. -/
  | hrwScheduleReset (req : Req)
  /-- HRW_BARRIER (R344): Arrives at a barrier and waits for its release or timeout. -/
  | hrwBarrier (req : Req)
  /-- HRW_SNAP_READ (R352): Reads bytes of the snapshot buffer. -/
  | hrwSnapRead (req : Req)
  /-- CLK_SWITCH_TO_PLL_R (R369): Moves the root to PLL_R in Quiescent (M7). -/
  | clkSwitchToPllR (req : Req)
  /-- CLK_SWITCH_TO_FRC (R369): Moves the root to FRC in Quiescent (M7), optionally stopping PLL_R. -/
  | clkSwitchToFrc (req : Req)
  /-- SEC_IDENTITY (R425): Returns the serial, opened flag and identity public key. -/
  | secIdentity (req : Req)
  /-- SEC_ATTEST (R414): Signs and returns an attestation report over the caller's nonce. -/
  | secAttest (req : Req)
  /-- SEC_ATTEST_READ (R425): Returns bytes of the partition's last attestation signature. -/
  | secAttestRead (req : Req)
  /-- SEC_UPDATE_BEGIN (R415): Requests Update (M8) to write a firmware, configuration, service-open or owner-key item. -/
  | secUpdateBegin (req : Req)
  /-- SEC_UPDATE_DATA (R415): Writes one chunk of the update item at the next expected offset. -/
  | secUpdateData (req : Req)
  /-- SEC_UPDATE_END (R416): Starts verification of the written item from flash. -/
  | secUpdateEnd (req : Req)
  /-- SEC_UPDATE_ABORT (R417): Abandons the update and leaves the region invalid. -/
  | secUpdateAbort (req : Req)
  /-- HST_INFO (R441): Returns identity and mode words of the caller's window. -/
  | hstInfo (req : Req)
  /-- HST_NOP (R441): Echoes its payload and keeps a session open. -/
  | hstNop (req : Req)
  /-- HST_BUF_WRITE_INLINE (R441): Writes inline data into a graphics slot in the caller's scope. -/
  | hstBufWriteInline (req : Req)
  /-- HST_BUF_WRITE_PULL (R441): Pulls data from host memory into a graphics slot through QoS port 46. -/
  | hstBufWritePull (req : Req)
  /-- HST_MODE_REQ_QUIESCENT (R13): Owner requests Quiescent (M7), held until its tick under R15. -/
  | hstModeReqQuiescent (req : Req)
  /-- HST_MODE_REQ_RUN (R13): Owner requests run from Quiescent (M7), held until its tick under R15. -/
  | hstModeReqRun (req : Req)
  /-- HST_REG_READ (R441): Reads window words as a window access by the calling partition. -/
  | hstRegRead (req : Req)
  /-- HST_REG_WRITE (R441): Writes one window word as a window access by the calling partition. -/
  | hstRegWrite (req : Req)
  /-- MAILBOX_UNKNOWN_OPCODE (R436): A request whose opcode is not a command opcode is answered UNKNOWN_OPCODE. -/
  | mailboxUnknownOpcode (opcode : Nat) (req : Req)
  /-- HST_REQ_TAIL_WRITE (R438): The request-ring doorbell is written; the device reads the requests or puts the ring in error. -/
  | hstReqTailWrite (function tail : Nat) (ring : Bytes)
  /-- HST_RING_RESET (R438): Sets both request counts to 0 and clears the ring error. -/
  | hstRingReset (function : Nat)
  /-- HST_RPL_HEAD_WRITE (R438): The host advances the reply head, freeing room for held completions. -/
  | hstRplHeadWrite (function head : Nat)
  /-- SESSION_HELLO (R433): A hello opens a session handshake, or is refused. -/
  | sessionHello (port partition : Nat) (peer : Nat)
  /-- SESSION_AUTH (R431): A step-3 auth frame is verified; the session opens or HST_AUTH_FAIL is reported. -/
  | sessionAuth (session : Nat) (signatureOk : Bool) (peer : Nat)
  /-- SESSION_PROTECTED_FRAME (R432): A protected session frame is decrypted and checked and its message is taken, or it is discarded. -/
  | sessionProtectedFrame (session counter : Nat) (tagOk : Bool) (peer : Nat) (message : Bytes)
  /-- SESSION_IDLE_TIMEOUT (R433): 60 s without a valid host frame end a session. -/
  | sessionIdleTimeout (session : Nat)
  /-- AUTH_LOCKOUT_EXPIRY (R433): The 10 s lockout after four failed authentications ends. -/
  | authLockoutExpiry (partition : Nat)
  /-- FUNCTION_LEVEL_RESET (R428): A PCIe function-level reset disables that function's rings and discards held replies and events. -/
  | functionLevelReset (function : Nat)
  /-- INTERRUPT_MODERATION_EXPIRY (R442): HST_INT_MOD_US passes and a pending unmasked cause may raise its vector again. -/
  | interruptModerationExpiry (function : Nat)
  /-- HST_INT_CAUSE_CLEAR (R442): Writing 1 to an interrupt cause bit clears it. -/
  | hstIntCauseClear (function mask : Nat)
  /-- EGR_STAT_SELECT (R242): Writing EGR_STAT_SEL latches the selected object's statistics. -/
  | egrStatSelect (transport value : Nat)
  /-- EGR_STAT_SELECT_CLEAR (R242): Writing EGR_STAT_SEL with EGR_SEL_CLEAR latches and clears the object's counters and histograms. -/
  | egrStatSelectClear (transport value : Nat)
  /-- DRM_DLY_SELECT (R316): Writing DRM_DLY_SEL latches the selected lane's delay values. -/
  | drmDlySelect (transport value : Nat)
  /-- CLK_MON_SELECT (R383): Writing CLK_MON_SEL latches the selected source's measurement. -/
  | clkMonSelect (transport value : Nat)
  /-- FLT_LOG_SELECT (R397): Writing FLT_LOG_SEL latches the selected fault log entry. -/
  | fltLogSelect (transport value : Nat)
  /-- FLT_SRC_SELECT (R397): Writing FLT_SRC_SEL latches the selected source's state. -/
  | fltSrcSelect (transport value : Nat)
  /-- FLT_ERR_RELEASE (R392): The owner clears the ERR_OUT_N hold. -/
  | fltErrRelease (transport : Nat)
  /-- CVU_RUN_LO_WRITE (R357): A write to CVU_RUN_LO is staged. -/
  | cvuRunLoWrite (transport unit value : Nat)
  /-- CVU_RUN_HI_WRITE (R357): A write to CVU_RUN_HI loads both halves of the running value at the next beat boundary. -/
  | cvuRunHiWrite (transport unit value : Nat)
  /-- CVU_RUN_LO_READ (R357): A read of CVU_RUN_LO latches CVU_RUN_HI. -/
  | cvuRunLoRead (transport unit : Nat)
  /-- CLK_LOST_CLEAR (R383): Writing 1 to CLK_LOST bits clears them. -/
  | clkLostClear (transport mask : Nat)
  /-- PWR_GPIO_OUT_WRITE (R451): A write to PWR_GPIO_OUT sets the GPIO levels driven while running. -/
  | pwrGpioOutWrite (transport value : Nat)
  /-- LOW_WORD_LATCH_READ (R70): A read of the low word of a 64-bit counter latches its high word. -/
  | lowWordLatchRead (transport offset : Nat)
  /-- READ_CLEAR_REGISTER_READ (R441): A read of an RC register returns and clears it. -/
  | readClearRegisterRead (transport offset : Nat)
  /-- REGISTER_WRITE (R441): A write to a register that has no row of its own stores the value. -/
  | registerWrite (transport offset value : Nat)
  /-- LOOP_LOSS_OF_LOCK (R367): The lock detector of PLL_R, a PLL_E or PLL_V reports loss of lock, which trips its frequency detector and starts the clock-loss reaction of R371. -/
  | loopLossOfLock (source : Nat)
  /-- INPUT_SUPPLY_BAD (R376): VIN, VIO18 or VIO33 leaves its limits while the device is in Hold (M0), which restarts the 10 ms debounce and stops rail-sequence retries. -/
  | inputSupplyBad (supply : Nat)
  /-- PVD_SUBMIT_UNKNOWN_CLASS (R289): A PVD_SUBMIT whose class lies outside 0x80 to 0x83 is answered UNKNOWN_OPCODE with no effect. -/
  | pvdSubmitUnknownClass (req : Req)
  /-- HRW_REQUEST_AT_ROOT (R342): A broadcast or scheduled-action request sent up from a non-root device reaches the root, which assigns its sequence number and sends it down, or answers BUSY when four actions are already pending. -/
  | hrwRequestAtRoot (request : TreeRequest)
  /-- HOST_DMA_PULL_DONE (R441): A pull of up to 64 MiB from host memory through QoS port 46 finishes, and HST_BUF_WRITE is answered with the effective length. -/
  | hostDmaPullDone (function : Nat) (data : Bytes)
  /-- GRAPHICS_SLOT_COPY_DONE (R265): The copy of a flipped graphics slot to the partner over VA ends, and the deciding device then names the overlay update's target frame. -/
  | graphicsSlotCopyDone (channel layer : Nat)
  deriving DecidableEq, Repr

end Sys2Proof
end

