-- ==== Sys2Proof/Config.lean ====
section
/-! DEFINITION. What the spec leaves open: free values without a body, so that no proof can rest on a number of them. -/

namespace Sys2Proof.Config

/-- What a counter of the given width reads after the count that follows its largest value, where its table does not say
'saturating' (log entry 6). -/
opaque counterAfterMax : Nat → Nat

/-- The n-th free value drawn: a value the spec does not state, taken with the counter State.free (log entry 2). -/
opaque freeValue : Nat → Nat

/-- The n-th free byte string of a given length: random numbers, signatures and keys whose bytes the spec does not state (log
entry 2). -/
opaque freeBytes : Nat → Nat → List (BitVec 8)

/-- The silicon stepping HST_STEPPING, which has no stated value (log entry 7). -/
opaque stepping : Nat

/-- The firmware version HST_FW_VERSION, a number of the firmware that no rule derives (log entry 7). -/
opaque fwVersion : Nat

/-- The word a PMBus read of a command code returns for a measured quantity: R378 names PMBus 1.3 for the encoding and does not
state it (log entry 8). -/
opaque pmbusWord : Nat → Nat → Nat

/-- The exact size in bits of the floor slice that the floor path writes: from the codec, the raster, and the slice, the POC, the
reference fields and the QP that stand in its header, whose syntax no rule states; held to f_slice where it is used (R106, log entry
104). -/
opaque floorBits : Nat → Nat → Nat → Nat → List (Nat × Bool) → Nat → Nat

/-- The largest size in bits of the non-VCL units of a picture without its user data: from the codec, the raster, the chroma format, the
rate code and the delay. With U it is X; how the units are written, no rule states (R108, R121, log entry 14). -/
opaque nonVclMax : Nat → Nat → Nat → Nat → Nat → Nat

/-- The ALF and CC-ALF flags of a CTU: from the context, the frame, the slice, the CTU in it and the luma lines above the virtual
boundary from whose samples the engine decides them (R58, log entry 105). -/
opaque alfFlags : Nat → Nat → Nat → Nat → Nat → Nat

/-- Bits of the caption SEI message that holds a number of cc_data triples (R86, log entry 14). -/
opaque captionBits : Nat → Nat

/-- Bits of the non-VCL units of an excess picture, from those of the units it would have carried: its ALF APS holds one luma
filter (R118, log entry 14). -/
opaque reducedBits : Nat → Nat

/-- How many luma filters, chroma alternatives and CC-ALF filters for Cb and Cr the derivation of R81 keeps for a picture of a
context, and the bytes of its APS: from the context, the frame and which of the five is asked (log entry 105). -/
opaque alfCount : Nat → Nat → Nat → Nat

/-- Beats of the train that carries the ALF statistics of a tile column, by chroma format: no rule states them (R81, log entry 105). -/
opaque statisticsBeats : Nat → Nat

/-- The SATD of a 16×16 block at 1:4 or 1:2 resolution, from the resolution's divisor, the block's samples and those it is compared
with: how the pictures are reduced, no rule states (R127, log entry 108). -/
opaque coarseSatd : Nat → List Nat → List Nat → Nat

/-- A sample of the input scaler of the engines and analysers, from the source and target sizes of the axes, the target's position
and the 8×8 source samples around it: its coefficients are set in the device (R59, R132, log entry 109). -/
opaque scaledSample : Nat → Nat → Nat → Nat → Nat → Nat → List Nat → Nat

/-- The chroma sample that a concealed CTU takes where its vector points between chroma samples: from the half steps in x and y and the
four samples around the place, which no rule combines (R153, log entry 117). -/
opaque chromaBetween : Nat → Nat → List Nat → Nat

/-- A sample of a layer's scaler: from the crop's and the drawn picture's width and height, the place in the drawn picture, and the
samples of the crop that the filters span; their coefficients are set in the device (R165, log entry 109). -/
opaque layerSample : Nat → Nat → Nat → Nat → Nat → Nat → List Nat → Nat

/-- An output sample of the converter, from its phase of 1,024 and the audio bits of its 64 taps, newest first: the coefficients are fixed
in the device (R201, log entry 129). -/
opaque convertedSample : Nat → List Nat → Nat

/-- An output sample of the 2:1 half-band decimator, from the 96 kHz samples it spans, newest first (R209, log entry 129). -/
opaque halfBand : List Nat → Nat

/-- The gain in units of 2^-15 that a route gain in steps of 0.5 dB stands for (R204, R214, log entry 129). -/
opaque routeGain : Int → Nat

/-- What a sample becomes that a route gain above unity takes out of 24 bits (R204, R214, log entry 129). -/
opaque audioOverflow : Int → Int

/-- Two samples mixed by a route with a second channel (R214, log entry 129). -/
opaque mixed : Int → Int → Int

/-- The bytes of one sample of a programme as packed for its carriage: from AUD_PG_CARRIAGE, AUD_PG_BITS and the words of its channels;
ST 302, ST 2110-30 and ST 2110-31 give the packing (R213, R250, log entry 129). -/
opaque packedAudio : Nat → Nat → List Nat → List (BitVec 8)

/-- The challenge and ciphertext of a session's step 2, and its key K: random bytes and what FIPS 203 gives (R431, log entry 137). -/
opaque sessionChallenge : Nat → List (BitVec 8)
opaque sessionKey : Nat → List (BitVec 8)

/-- Bytes on the wire of an RTCP sender report with its SDES CNAME, by leg: the name's length is not stated (log entry 133). -/
opaque senderReport : Nat → Nat

/-- SHA3-512 of a byte string, uninterpreted (log entry 11). -/
opaque sha3 : List (BitVec 8) → List (BitVec 8)

/-- The public key of the ML-DSA key pair that FIPS 204 generates from a seed, uninterpreted (R413, log entry 11). -/
opaque identityKey : List (BitVec 8) → List (BitVec 8)

/-- The plaintext of AES-256-GCM from the key, the IV and the ciphertext, uninterpreted (R412, log entry 11). -/
opaque unwrapped : List (BitVec 8) → List (BitVec 8) → List (BitVec 8) → List (BitVec 8)

/-- The fused base MAC address, which no rule states (R333, R430, log entry 151). -/
opaque fusedBase : Nat

/-- The Table 3 code of a service-open item whose count does not match, which no rule states (log entry 12). -/
opaque svcVerdict : Nat

/-- The context whose caption SEI a live item of a class and flow makes, if it makes one: the firmware's class codes are its own
(log entry 31). -/
opaque captionContext : Nat → Nat → Option Nat

/-- The plane that owns the buffer at an HBM address outside the graphics slots: 0 data, 1 control, 2 management, 3 a work-item result
buffer, shared by data and control; firmware allocates them and no rule states where (R8, R10, log entry 148). -/
opaque bufferPlane : Nat → Nat

/-- The HBM byte address at which a host item's payload lies, by its order of submission, which no rule states (R279, log entry 31). -/
opaque hostPayload : Nat → Nat

/-- The fused delay base of a lane and direction of a stack (R304, log entry 33). -/
opaque delayBase : Nat → Nat → Bool → Nat

/-- The fused delay offset of a stack, direction and band, as the 8 bits of its two's complement (R304, log entry 33). -/
opaque delayOffset : Nat → Bool → Nat → Nat

/-- The pseudo-channel within its stack that a byte lane belongs to, whose numbering no rule gives (log entry 33). -/
opaque laneChannel : Nat → Nat

/-- The fixed receive and transmit latency in ns of an Ethernet port's mode, which no rule states (R320, log entry 35). -/
opaque ethLatency : Nat → Bool → Nat

/-- What a timestamp of a port at an MTB time is off by, in ns above −4: within ±4 ns, and no rule states it (R320, log entry 35). -/
opaque stampError : Nat → Nat → Nat

/-- The SRTP session key and salt that RFC 7714 derives from the master key and salt of a key-store slot, uninterpreted (R235, R412, log entry 11). -/
opaque srtpSession : List (BitVec 8) → List (BitVec 8) × Nat

/-- The levels from outside at the GPIO balls that the device does not drive, in an MGT cycle (R451, log entry 36). -/
opaque gpioBalls : Nat → Nat

/-- Whether something else holds the ERR_OUT_N ball low in an MGT cycle (R392, log entry 36). -/
opaque errBallLow : Nat → Bool

end Sys2Proof.Config
end

