-- ==== Sys2Proof/Machine/State.lean ====
section
/-! DEFINITION. The state of the machine as plain data, its reset value, and the names of its faults and refusals. -/

namespace Sys2Proof.Machine

/-- A sparse table: pairs of key and value, keys strictly rising. An absent key stands for an object that is not configured,
or for the value the table's field says. -/
abbrev Tab (α : Type) := List (Nat × α)

/-- The operating modes M0 to M11 of R12, in the order of their codes. -/
inductive Mode where
  | hold | boot | configure | solo | active | standby | resync | quiescent | update | safeHold | service | halt
  deriving DecidableEq, Repr

/-- One clock source or loop, i as R383 numbers it: 0 XIN0, 1 XIN1, 2 FRC, 3 SRC, 4 PLL_R, 5–8 PLL_E0–PLL_E3, 9
PLL_V, 10 PLL_S. -/
structure SourceSt where
  /-- The source oscillates, or the loop runs (R363, R364). -/
  running : Bool := false
  /-- Its stability count is under way (R366). -/
  counting : Bool := false
  /-- CLK_READY bit: judged stable (R366, R383). -/
  ready : Bool := false
  /-- CLK_LOST bit: lost since last cleared (R383). -/
  lost : Bool := false
  /-- Lost now and not yet returned (R371, R372). -/
  absent : Bool := false
  /-- Output gated off because its reference was lost (R364). -/
  gated : Bool := false
  /-- Frequency ratio to FRC learnt by its monitor, as a count in 4,096 FRC cycles (R366). -/
  ratio : Nat := 0
  /-- Last measurement against the learnt ratio, CLK_MON_PPM (R383). -/
  ppm : Int := 0
  deriving DecidableEq, Repr

/-- Clock sources, root multiplexer and Safe-hold bookkeeping (chapter 18). -/
structure Clk where
  /-- The eleven sources and loops (R363, R364, R383). -/
  src : Tab SourceSt := []
  /-- CLK_ROOT_FRC: the root is on FRC (R365, R383). -/
  rootFrc : Bool := false
  /-- CLK_SWITCH_BUSY: a root switch is in progress (R368, R383). -/
  switchBusy : Bool := false
  /-- The source the switch in progress goes to: FRC (R368). -/
  switchToFrc : Bool := false
  /-- The switch in progress leaves a stopped source (R368). -/
  switchForced : Bool := false
  /-- CLK_PLL_R_OFF: PLL_R stopped by CLK_SWITCH (R369, R383). -/
  pllROff : Bool := false
  /-- CLK_S_FRACT: PLL_S at 11.88/1.001 GHz (R374, R383). -/
  sFract : Bool := false
  /-- CLK_S_CONFLICT (R374, R383). -/
  sConflict : Bool := false
  /-- CLK_FIRST_LOST: lowest source lost at the last entry to M9, 0xF none (R372, R383). -/
  firstLost : Nat := 15
  /-- CLK_LOSSES: monitor trips (R383). -/
  losses : Nat := 0
  /-- CLK_FORCED_SWITCHES (R368, R383). -/
  forcedSwitches : Nat := 0
  /-- CLK_M9_US: duration of the last Safe-hold in µs, saturating (R383). -/
  m9Us : Nat := 0
  /-- Uptime count at the last entry to M9 (R383). -/
  m9Start : Nat := 0
  /-- Failed FRC start attempts, kept in the supervisor's fault log (R373). -/
  frcFails : Nat := 0
  /-- Sources whose CLK_LOSS stands on its reporting path until the root switch completes (R371). -/
  pendingLoss : List Nat := []
  /-- The CLK_SWITCH in progress also stops PLL_R (R369). -/
  switchStop : Bool := false
  /-- The CLK_SWITCH whose reply waits for the switch (R369). -/
  switchReply : Option Req := none
  deriving DecidableEq, Repr

/-- Supplies, rails, sensors and the PMBus target of the supervisor (chapter 18). -/
structure Pwr where
  /-- Input and analog supplies within limits: 0 VIN, 1 VIO18, 2 VIO33, 3 ETH_AN, 4 VLS_AN, 5 SER_HV (R375, R377,
  R383). -/
  supplyGood : Tab Bool := []
  /-- The 10 ms debounce of the input supplies runs (R376). -/
  debounce : Bool := false
  /-- Logic rails within limits so far, in the order of Table 5: 1 SRAM … 7 SER_HV (R376). -/
  railsUp : Nat := 0
  /-- The next rail of Table 5 is starting (R376). -/
  railRising : Bool := false
  /-- A failed rail sequence waits its 100 ms (R376). -/
  retryWait : Bool := false
  /-- Supplies lost and not back for 10 ms (R377). -/
  lostSupplies : List Nat := []
  /-- PWR_OC_MA, overcurrent limit in mA (R382). -/
  ocMa : Nat := 36000
  /-- PWR_ALERT_W, 0 none (R382). -/
  alertW : Nat := 0
  /-- A supply record has been taken (R382). -/
  supplyTaken : Bool := false
  /-- PWR_OC_ACTIVE (R383). -/
  ocActive : Bool := false
  /-- PWR_TJ_ABOVE (R380, R383). -/
  tjAbove : Bool := false
  /-- PWR_VIN_MV (R383). -/
  vinMv : Nat := 0
  /-- PWR_IIN_MA (R383). -/
  iinMa : Nat := 0
  /-- PWR_PIN_MW (R383). -/
  pinMw : Nat := 0
  /-- PWR_ENERGY: input energy since M0, in microjoules (R383). -/
  energyMj : Nat := 0
  /-- PWR_TJ, °C (R380, R383). -/
  tj : Int := 0
  /-- PWR_TJ_PEAK since the last read (R383). -/
  tjPeak : Int := 0
  /-- PWR_SUPPLY_EVENTS (R383). -/
  supplyEvents : Nat := 0
  /-- PWR_RAIL_MV of rail i, 0 SUP5, 1–7 Table 5 order (R383). -/
  railMv : Tab Nat := []
  /-- Rails out of limits now (PWR_RAIL_GOOD clear), of those up (R377, R383). -/
  railBad : List Nat := []
  /-- PMBus PAGE (R378). -/
  pmbPage : Nat := 0
  /-- The last PMBus read's data (R378). -/
  pmbReply : Option Nat := none
  /-- Next record of the supervisor log that MFR_SPECIFIC 0xD0 returns (R378, R393). -/
  pmbLogIndex : Nat := 0
  /-- The record last read by MFR_SPECIFIC 0xD0 (R378, R393). -/
  pmbLogReply : Bytes := []
  /-- MTB time at which the sensors are next read (R380). -/
  sampleAt : Nat := 0
  deriving DecidableEq, Repr

/-- Pins and the asynchronous safe-state path (R17, R448, R449, R457). -/
structure Pins where
  /-- RESET_N is low (R457). -/
  resetLow : Bool := false
  /-- The 1 µs RESET_N filter runs (R457). -/
  resetFilter : Bool := false
  /-- SVC_EN as latched at the release of RESET_N (R401, R457). -/
  svcEn : Bool := false
  /-- The asynchronous safe-state line holds every output safe (R371, R448). -/
  forcedSafe : Bool := true
  /-- The SDI outputs are undriven because PLL_S has no lock (R374). -/
  sdiUndriven : Bool := false
  /-- PPS_OUT (R449). -/
  ppsOut : Bool := false
  /-- PAIR_HB_OUT (R261). -/
  hbOut : Bool := false
  /-- PWR_GPIO_OE (R451). -/
  gpioOe : Nat := 0
  /-- PWR_GPIO_OUT (R451). -/
  gpioOut : Nat := 0
  /-- PWR_GPIO_SAFE_OE (R451). -/
  gpioSafeOe : Nat := 0
  /-- PWR_GPIO_SAFE_LVL (R451). -/
  gpioSafeLvl : Nat := 0
  /-- The GPIO record has been read (R451). -/
  gpioTaken : Bool := false
  /-- The XSPI pins are high-impedance, in Halt (R18). -/
  xspiHiZ : Bool := false
  /-- MTB time at which PPS_OUT falls (R449). -/
  ppsFallAt : Nat := 0
  /-- A detector of a monitored source has tripped: the asynchronous path holds every output safe, whatever the mode,
  until M9 is left (R371, R372). -/
  tripped : Bool := false
  deriving DecidableEq, Repr

/-- The Media Time Base and its servo (chapter 2). -/
structure Mtb where
  /-- The MTB value in 2^-32 ns: seconds (48 bits), nanoseconds, fraction (R22). -/
  t : Nat := 0
  /-- MGT cycles since M1, which an MTB step does not affect (R389, R444). -/
  mgt : Nat := 0
  /-- MGT time since entry to M1, in units of 1/2.7 GHz, 20 for a cycle on PLL_R and 27 for one on FRC (R444). -/
  uptime : Nat := 0
  /-- The increment in 2^-32 ns: 7 ns + 0x684B_DA13 (R23). -/
  inc : Nat := 31814572563
  /-- The increment last measured against the source (R28). -/
  rate : Nat := 31814572563
  /-- CLK_MTB_SRC: 0 none, 1 PTP, 2 FRAME_IN, 3 PPS_IN, 4 holdover (R25). -/
  src : Nat := 0
  /-- CLK_MTB_SERVO: 0 FREERUN, 1 ACQUIRING, 2 LOCKED, 3 HOLDOVER (R25, R27). -/
  servo : Nat := 0
  /-- CLK_MTB_VALID (R25). -/
  valid : Bool := false
  /-- CLK_MTB_ON_FRC (R25, R31). -/
  onFrc : Bool := false
  /-- CLK_MTB_ABS (R25). -/
  abs : Bool := false
  /-- CLK_MTB_OFFSET, ns, saturating (R25). -/
  offset : Int := 0
  /-- Consecutive measurements within CLK_MTB_LOCK_NS (R27). -/
  within : Nat := 0
  /-- Increments of the last 64 servo updates, newest first (R29). -/
  history : List Nat := []
  /-- Sources present now: 1 PTP, 2 FRAME_IN, 3 PPS_IN (R27). -/
  present : List Nat := []
  /-- CLK_MTB_PRI0–2; no record means PTP (R26). -/
  pri : List Nat := [1, 0, 0]
  /-- CLK_MTB_PTP_DOMAIN (R26). -/
  domain : Nat := 127
  /-- CLK_MTB_PTP_PORT (R26). -/
  ptpPort : Nat := 0
  /-- CLK_MTB_PTP_PORT2 (R26). -/
  ptpPort2 : Nat := 255
  /-- CLK_MTB_DELAY_MECH (R26). -/
  delayMech : Nat := 0
  /-- CLK_MTB_FRAME_RATE (R26). -/
  frameRate : Nat := 0
  /-- CLK_MTB_PPS_EDGE (R26). -/
  ppsEdge : Nat := 0
  /-- CLK_MTB_LOSS_MS (R26). -/
  lossMs : Nat := 1000
  /-- CLK_MTB_LOCK_NS (R26). -/
  lockNs : Nat := 1000
  /-- CLK_MTB_SLEW_PPB (R26). -/
  slewPpb : Nat := 100000
  /-- A discipline record has been taken (R26). -/
  recordTaken : Bool := false
  /-- The uptime at the last message or edge: 1 PTP on the first port, 2 FRAME_IN, 3 PPS_IN, 4 PTP on the second port
  (R27). -/
  seen : Tab Nat := []
  deriving DecidableEq, Repr

/-- The owner mode requests of R440: Quiescent, run, Update, and a role swap. -/
inductive HeldKind where
  | quiescent | run | update | swap
  deriving DecidableEq, Repr

/-- The one owner mode request held until its tick (R15, R440). -/
structure Held where
  /-- Which request (R440). -/
  kind : HeldKind := .quiescent
  /-- The request to answer (R15). -/
  req : Req := ⟨0, 0, 0, 0, 0, []⟩
  /-- SEC_UPDATE_BEGIN: item kind (R415). -/
  updKind : Nat := 0
  /-- SEC_UPDATE_BEGIN: item length (R415). -/
  updLen : Nat := 0
  /-- A value of the request was clamped (R437). -/
  clamped : Bool := false
  deriving DecidableEq, Repr

/-- Operating mode and its bookkeeping (chapter 1, R444). -/
structure ModeSt where
  /-- The mode, HST_MODE (R12, R13). -/
  mode : Mode := .hold
  /-- HST_PREV_MODE (R444). -/
  prev : Mode := .hold
  /-- HST_DEGRADED (R19). -/
  degraded : Bool := false
  /-- HST_MODE_CHANGES since M1, saturating (R444). -/
  changes : Nat := 0
  /-- The held owner mode request, HST_MODE_HELD (R15). -/
  held : Option Held := none
  /-- The mode M8 was entered from (R13). -/
  updateFrom : Mode := .solo
  /-- The mode M9 was entered from (R13, R372). -/
  safeFrom : Mode := .hold
  /-- A configuration image has been verified in this pass through M2 (R404). -/
  configured : Bool := false
  /-- Admission has run in this pass through M2 (R20). -/
  admitted : Bool := false
  /-- M2 has admitted and its MTB is settled; only its partner still decides (R30, R461). -/
  complete : Bool := false
  /-- MTB time at entry to M2, from which M2 silences count (R461). -/
  m2Start : Nat := 0
  deriving DecidableEq, Repr

/-- An entry of the fault log, Table 4 of chapter 19 (R393). -/
structure LogEntry where
  /-- FLT_E_SEQ (R393). -/
  seq : Nat := 0
  /-- FLT_E_SOURCE (R393). -/
  source : Nat := 0
  /-- FLT_E_INSTANCE (R393). -/
  inst : Nat := 0
  /-- FLT_E_SEV (R393). -/
  sev : Nat := 0
  /-- FLT_E_FLAGS (R393). -/
  flags : Nat := 0
  /-- FLT_E_MODE (R393). -/
  mode : Nat := 0
  /-- FLT_E_HIST (R393). -/
  hist : Nat := 0
  /-- FLT_E_SEC (R393). -/
  sec : Nat := 0
  /-- FLT_E_NS (R393). -/
  ns : Nat := 0
  /-- FLT_E_PARTS (R393). -/
  parts : Nat := 0
  /-- FLT_E_DETAIL0 (R393). -/
  detail0 : Nat := 0
  /-- FLT_E_DETAIL1 (R393). -/
  detail1 : Nat := 0
  deriving DecidableEq, Repr

/-- What a severity record sets for a source, or one instance of it (R396). -/
structure SevRule where
  /-- FLT_R_SEV (R396). -/
  sev : Nat := 0
  /-- FLT_R_N, 0 for FLT_DEF_N (R396). -/
  n : Nat := 0
  /-- FLT_R_W_S, 0 for FLT_DEF_W_S (R396). -/
  w : Nat := 0
  deriving DecidableEq, Repr

/-- A report on its path to the fault collector (R384). -/
structure Report where
  /-- Source number (R384). -/
  source : Nat := 0
  /-- Instance (R384). -/
  inst : Nat := 0
  /-- First detail word (R384). -/
  d0 : Nat := 0
  /-- Second detail word (R384). -/
  d1 : Nat := 0
  deriving DecidableEq, Repr

/-- The fault collector (chapter 19). Keys of tables are source × 65,536 + instance. -/
structure Flt where
  /-- The ring of 1,024 entries, newest first (R393). -/
  log : List LogEntry := []
  /-- FLT_LOG_SEQ: sequence of the newest entry (R393, R397). -/
  logSeq : Nat := 0
  /-- FLT_LOG_WRAPPED (R393, R397). -/
  logWrapped : Bool := false
  /-- The supervisor's log of 64 entries, newest first (R393). -/
  supLog : List LogEntry := []
  /-- FLT_SRC_COUNT per source and instance (R397). -/
  counts : Tab Nat := []
  /-- Report history: MGT counts of the reports of a source and instance, newest first (R389). -/
  history : Tab (List Nat) := []
  /-- FLT_SRC_LAST_SEQ (R397). -/
  lastSeq : Tab Nat := []
  /-- Keys whose retry is in progress (R390). -/
  retrying : List Nat := []
  /-- Keys fenced or retired until the next pass through M2 (R388, R391). -/
  fenced : List Nat := []
  /-- FLT_RETIRED: instances retired since M2, saturating (R397). -/
  retired : Nat := 0
  /-- Sources with a path fault (R385). -/
  unsupervised : List Nat := []
  /-- Severity records by key; instance 0xFFFF names all (R396). -/
  rules : Tab SevRule := []
  /-- A general fault record has been taken (R396). -/
  generalTaken : Bool := false
  /-- FLT_ERR_HOLD (R392, R396). -/
  errHold : Nat := 0
  /-- FLT_DEF_N (R395, R396). -/
  defN : Nat := 3
  /-- FLT_DEF_W_S (R395, R396). -/
  defW : Nat := 10
  /-- MGT count at which the running ERR_OUT_N pulse ends (R392). -/
  pulseUntil : Option Nat := none
  /-- The hold of FLT_ERR_HOLD 1 is latched (R392). -/
  holdLatched : Bool := false
  /-- The hold of FLT_ERR_HOLD 2 is latched while Degraded is set (R392). -/
  holdDegraded : Bool := false
  /-- Reports raised and not yet taken by the collector (R384, R391). -/
  due : List Report := []
  /-- FLT_DEGRADED_PENDING: a fence in M6 to M8 awaits M3 to M5 (R388, R397). -/
  degradedPending : Bool := false
  deriving DecidableEq, Repr

/-- A mailbox message: a reply or an event (R434). -/
structure Msg where
  /-- HST_M_OPCODE (R434). -/
  opcode : Nat := 0
  /-- HST_M_PARTITION (R434). -/
  partition : Nat := 0
  /-- HST_M_FLAGS (R434). -/
  flags : Nat := 0
  /-- HST_M_SEQ (R434). -/
  seq : Nat := 0
  /-- HST_M_TAG (R434). -/
  tag : Nat := 0
  /-- The payload; its length is HST_M_LEN (R434). -/
  payload : Bytes := []
  deriving DecidableEq, Repr

/-- A request taken and not yet answered in order (R284, R435). -/
structure Slot where
  /-- The function or session it came over (R435). -/
  transport : Nat := 0
  /-- Its HST_M_SEQ (R435). -/
  seq : Nat := 0
  /-- Its HST_M_TAG (R435). -/
  tag : Nat := 0
  /-- Its reply, once made (R284, R435). -/
  reply : Option Msg := none
  deriving DecidableEq, Repr

/-- The rings and interrupt block of one PCIe function (R438, R442). -/
structure Ring where
  /-- HST_REQ_BASE_LO (R438). -/
  reqBaseLo : Nat := 0
  /-- HST_REQ_BASE_HI (R438). -/
  reqBaseHi : Nat := 0
  /-- HST_REQ_SIZE (R438). -/
  reqSize : Nat := 12
  /-- HST_REQ_TAIL (R438). -/
  reqTail : Nat := 0
  /-- HST_REQ_HEAD (R438). -/
  reqHead : Nat := 0
  /-- HST_RPL_BASE_LO (R438). -/
  rplBaseLo : Nat := 0
  /-- HST_RPL_BASE_HI (R438). -/
  rplBaseHi : Nat := 0
  /-- HST_RPL_SIZE (R438). -/
  rplSize : Nat := 12
  /-- HST_RPL_HEAD (R438). -/
  rplHead : Nat := 0
  /-- HST_RPL_TAIL (R438). -/
  rplTail : Nat := 0
  /-- HST_RING_EN (R438). -/
  en : Bool := false
  /-- HST_RING_ERR (R438). -/
  err : Bool := false
  /-- Replies and events not yet written to the reply ring, oldest first (R438, R443). -/
  waiting : List Msg := []
  /-- Messages written to the reply ring since M0, newest first (R438). -/
  written : List Msg := []
  /-- Interrupt cause bits HST_INT_REPLY … HST_INT_RING_ERR (R442). -/
  cause : Nat := 0
  /-- HST_INT_MASK (R442). -/
  mask : Nat := 63
  /-- HST_INT_VEC (R442). -/
  vec : Nat := 0x2C688
  /-- HST_INT_MOD_US (R442). -/
  modUs : Nat := 0
  /-- Causes whose moderation interval runs (R442). -/
  moderating : Nat := 0
  /-- Causes whose event came while their interval ran (R442). -/
  deferred : Nat := 0
  /-- MSI-X vectors raised, newest first (R442). -/
  raised : List Nat := []
  deriving DecidableEq, Repr

/-- A management session (R431 to R433). -/
structure Session where
  /-- The partition it names (R431). -/
  partition : Nat := 0
  /-- MG0 or MG1 (R431). -/
  port : Nat := 0
  /-- HST_S_ID (R431). -/
  ident : Nat := 0
  /-- Step 3 has passed: the session is open (R431). -/
  opened : Bool := false
  /-- The last host counter accepted (R432). -/
  hostCtr : Nat := 0
  /-- The next device counter, bit 63 set (R431, R432). -/
  deviceCtr : Nat := 9223372036854775808
  /-- Address and port its last valid frame came from (R432). -/
  peer : Nat := 0
  /-- Messages sent on it, newest first (R432). -/
  sent : List Msg := []
  /-- Uptime of its last valid frame (R433, R444). -/
  lastFrame : Nat := 0
  /-- The challenge c and ciphertext of step 2 (R431). -/
  challenge : Bytes := []
  /-- The session key K (R431). -/
  key : Bytes := []
  deriving DecidableEq, Repr

/-- One partition (R426 to R443). -/
structure Part where
  /-- A binding record names it (R429). -/
  bound : Bool := false
  /-- Its PCIe function, 8 × endpoint + function (R429). -/
  function : Option Nat := none
  /-- HST_B_MG (R429). -/
  mg : Nat := 0
  /-- HST_B_SESSIONS (R429). -/
  sessions : Nat := 2
  /-- Its ML-DSA-87 public key (R431). -/
  key : Option Bytes := none
  /-- HST_A_CHANNELS it holds (R427). -/
  channels : Nat := 0
  /-- HST_A_DECODE it holds (R427). -/
  decode : Nat := 0
  /-- HST_CLAMPS (R444). -/
  clamps : Nat := 0
  /-- HST_WRONG_MODE (R444). -/
  wrongMode : Nat := 0
  /-- HST_REFUSALS (R444). -/
  refusals : Nat := 0
  /-- HST_BAD_FRAMES (R444). -/
  badFrames : Nat := 0
  /-- HST_EVT_LOST (R444). -/
  evtLost : Nat := 0
  /-- Event count, HST_M_SEQ of its events (R443). -/
  evtSeq : Nat := 0
  /-- Events with no transport to go to yet, oldest first (R443). -/
  evtHeld : List Msg := []
  /-- Requests whose replies wait to be released in order (R284). -/
  slots : List Slot := []
  /-- FLT_REPORTS of its view (R397). -/
  reports : Nat := 0
  /-- Uptime counts of recent failed authentications (R433). -/
  authFails : List Nat := []
  /-- Hellos are ignored (R433). -/
  lockout : Bool := false
  /-- Its last attestation signature (R414, R425). -/
  attest : Bytes := []
  /-- Uptime at which its lockout ends (R433). -/
  lockoutUntil : Nat := 0
  deriving DecidableEq, Repr

/-- Select registers and latches of one PCIe function or session (R441). -/
structure View where
  /-- Latched and select registers by window offset (R25, R397, R441). -/
  latch : Tab Nat := []
  /-- Staged CVU_RUN_LO per unit (R357). -/
  staged : Tab Nat := []
  /-- The words its last register read returned (R441). -/
  last : List Nat := []
  deriving DecidableEq, Repr

/-- A pull from host memory in progress (R441). -/
structure Pull where
  /-- The HST_BUF_WRITE to answer (R441). -/
  req : Req := ⟨0, 0, 0, 0, 0, []⟩
  /-- HBM address written (R441). -/
  addr : Nat := 0
  /-- Effective length (R441). -/
  len : Nat := 0
  /-- A value was clamped (R437). -/
  clamped : Bool := false
  deriving DecidableEq, Repr

/-- A buffer write whose HBM requests wait for their stacks (R306, R370, R441). -/
structure HeldWrite where
  /-- The HST_BUF_WRITE to answer (R441). -/
  req : Req := ⟨0, 0, 0, 0, 0, []⟩
  /-- HBM address written (R441). -/
  addr : Nat := 0
  /-- The bytes to write (R441). -/
  data : Bytes := []
  /-- A value was clamped (R437). -/
  clamped : Bool := false
  deriving DecidableEq, Repr

/-- A management port record (R430). -/
structure MgPort where
  /-- HST_MG_UDP (R430). -/
  udp : Nat := 50416
  /-- IPv4 address (R430). -/
  v4 : Bytes := []
  /-- IPv4 gateway (R430). -/
  v4gw : Bytes := []
  /-- IPv4 prefix (R430). -/
  v4len : Nat := 0
  /-- IPv6 prefix (R430). -/
  v6len : Nat := 0
  /-- VLAN (R430). -/
  vlan : Nat := 0
  /-- IPv6 address (R430). -/
  v6 : Bytes := []
  /-- IPv6 gateway (R430). -/
  v6gw : Bytes := []
  /-- MAC address; empty for the fused base plus 16 + port (R430). -/
  mac : Bytes := []
  deriving DecidableEq, Repr

/-- The host interface (chapter 21). -/
structure Hst where
  /-- Partitions 0–15 (R426). -/
  parts : Tab Part := []
  /-- Rings of function 8·hp + f (R438). -/
  rings : Tab Ring := []
  /-- Management sessions (R431, R433). -/
  sessions : Tab Session := []
  /-- Selects and latches per function and session (R441). -/
  views : Tab View := []
  /-- MG0 and MG1 (R430). -/
  mgPorts : Tab MgPort := []
  /-- Pulls in progress per function (R441). -/
  pulls : Tab Pull := []
  /-- HST_ASSIGN_CONFLICTS (R427, R444). -/
  assignConflicts : Nat := 0
  /-- Endpoints fenced: their links stay down (R445). -/
  ringFaults : List Nat := []
  /-- Management ports fenced (R445). -/
  mgFaults : List Nat := []
  /-- Refusal frames sent in answer to hellos: port, peer and status, newest first (R433). -/
  refused : List (Nat × Nat × Nat) := []
  /-- Buffer writes that wait for their stacks, oldest first (R306, R370, R441). -/
  heldWrites : List HeldWrite := []
  /-- Hellos received in M1 that wait for M2: port, partition and peer, oldest first (R439). -/
  hellos : List (Nat × Nat × Nat) := []
  deriving DecidableEq, Repr

/-- The samples of a picture in HBM, by line (R58, R127, R161). -/
structure Planes where
  /-- Its frame (R32). -/
  frame : Option Nat := none
  /-- Its lines, those written (R161). -/
  lines : Tab PlaneLine := []
  deriving DecidableEq, Repr

/-- The four engine states of R71: in service, spare, retired or failed, spare on floor duty. -/
inductive EngState where
  | inService | spare | retired | floorDuty
  deriving DecidableEq, Repr

/-- The samples that a strip holds: none, the reconstruction before in-loop filtering, or that after deblocking and
SAO (R61). -/
inductive SampleStage where
  | none | reconstructed | deblockedSao
  deriving DecidableEq, Repr

/-- What strip A tells of each 4×4 block (R61). -/
inductive SideField where
  | predictionMode | motionVectors | referenceIndices | qp | codedFlags | transformEdges | predictionEdges
  deriving DecidableEq, Repr

/-- A train of beats on the Pleach ring (R60, R61, R112). -/
structure Train where
  /-- What it carries, and its sender (R61, R112). -/
  strip : Strip := ⟨.stripA, 0, 0, 0, 0⟩
  /-- The engine it goes to (R60). -/
  dest : Nat := 0
  /-- It travels in the direction of increasing engine number (R60). -/
  rising : Bool := true
  /-- The ring segments it crosses, in order (R60). -/
  segments : List Nat := []
  /-- Its 128-bit beats (R61). -/
  beats : Nat := 0
  /-- Columns of each plane that a strip covers (R61). -/
  columns : Nat := 0
  /-- Luma rows that a strip covers (R61). -/
  lumaRows : Nat := 0
  /-- Chroma rows that a strip covers (R61). -/
  chromaRows : Nat := 0
  /-- The samples it holds (R61). -/
  stage : SampleStage := .none
  /-- What it tells of each 4×4 block (R61). -/
  side : List SideField := []
  /-- 4×4 blocks it tells of (R61). -/
  sideBlocks : Nat := 0
  /-- It is built from the floor reconstruction and its skip side information (R63, R112). -/
  floor : Bool := false
  deriving DecidableEq, Repr

/-- One encode engine (chapter 3). -/
structure Engine where
  /-- Its state of R71; EE16 and EE17 reset as spares. -/
  st : EngState := .inService
  /-- Engine share charged, in pixels per second (R50, R51). -/
  load : Nat := 0
  /-- Contexts it carries (R50, R51). -/
  slots : Nat := 0
  /-- The 8K channel that holds it as a tile engine (R51). -/
  whole : Option Nat := none
  /-- The retired engines a spare on floor duty stands in for, the one first retired first (R66, R67). -/
  standsFor : List Nat := []
  /-- The MGT cycle in which it was put on floor duty (R67). -/
  assignedAt : Option Nat := none
  /-- Channels whose next frame tick moves that engine's work here (R66). -/
  takeover : List Nat := []
  /-- Strips and verdict beats of the row in coding that have not arrived; it stalls while any is missing (R63). -/
  awaiting : List Strip := []
  /-- Its floor path is fenced (R46, R384). -/
  floorFenced : Bool := false
  /-- A read of its slice in coding came back poisoned, so that its stage will not complete (R308). -/
  broken : Bool := false
  /-- The slice, as context, frame and key, whose CTU was being coded as the last row opened; that CTU is not
  interrupted (R48). -/
  inCtu : Option (Nat × Nat × Nat) := none
  deriving DecidableEq, Repr

/-- The encode engine pool, the analysers and the Pleach ring (chapters 3 and 6). -/
structure Pool where
  /-- EE0–EE17, those absent as reset (R46, R71). -/
  engines : Tab Engine := [(16, { st := .spare }), (17, { st := .spare })]
  /-- ENC_SPARES_LEFT (R71). -/
  sparesLeft : Nat := 2
  /-- ENC_POOL_ORPHAN (R69, R71). -/
  orphan : Nat := 0
  /-- Analysers that passed self-test, ascending (R125). -/
  analysers : List Nat := []
  /-- Analysers retired since M2 (R138). -/
  retiredAn : List Nat := []
  /-- Fenced ring segments; segment i joins EE i to EE i+1 mod 18 (R64). -/
  ringFenced : List Nat := []
  /-- Per channel, the fenced segments its routes already avoid (R64). -/
  ringAvoided : Tab (List Nat) := []
  /-- The trains of beats sent on the ring and not yet delivered (R60, R61, R112). -/
  trains : List Train := []
  deriving DecidableEq, Repr

/-- A committed shadow-set change waiting for its frame tick (R39, R42). -/
structure Commit where
  /-- The frame at whose tick it applies (R39, R42). -/
  frame : Nat := 0
  /-- The change (R39). -/
  change : ShadowChange := .nothing
  deriving DecidableEq, Repr

/-- One channel: encode status, coding and Coppice words of its status block (chapters 3 to 6). -/
structure Chan where
  /-- An encode channel record names it (R68). -/
  taken : Bool := false
  /-- More than one record names it (R68). -/
  dup : Bool := false
  /-- ENC_CH_RASTER (R68, R70). -/
  raster : Nat := 0
  /-- ENC_CH_RATE (R68, R70). -/
  rate : Nat := 0
  /-- ENC_CH_FRAME_MODE (R68, R70). -/
  frameMode : Bool := false
  /-- ENC_L, effective (R43, R68). -/
  delayL : Nat := 4
  /-- ENC_F, effective (R45, R68). -/
  delayF : Nat := 1
  /-- ENC_CHROMA (R68). -/
  chroma : Nat := 0
  /-- ENC_CH_STATE (R70). -/
  st : Nat := 0
  /-- ENC_CH_REFUSED (R70). -/
  refused : Nat := 0
  /-- ENC_CH_FLOOR_DUTY (R70). -/
  floorDuty : Bool := false
  /-- ENC_CH_CTX_LOST (R67, R70). -/
  ctxLost : Bool := false
  /-- Tile engines in column order, ENC_CH_ENGINES (R51, R70). -/
  engines : List Nat := []
  /-- ENC_CH_GROUP_EE (R51, R70). -/
  groupEe : Option Nat := none
  /-- Engine share charged, px/s, ENC_CH_CHARGE when rounded up to Mpx/s (R50, R70). -/
  charge : Nat := 0
  /-- Context slots in order, ENC_CTX_MAP (R49, R70). -/
  ctxs : List Nat := []
  /-- ENC_CH_FRAMES (R70). -/
  frames : Nat := 0
  /-- ENC_CH_FLOOR_SLICES (R70). -/
  floorSlices : Nat := 0
  /-- ENC_CH_OVERRUNS (R70). -/
  overruns : Nat := 0
  /-- ENC_CH_TAKEOVERS, saturating (R70). -/
  takeovers : Nat := 0
  /-- ENC_CH_TAKEOVER_FRAME (R70). -/
  takeoverFrame : Nat := 0
  /-- ENC_CH_DROPPED_CTX (R69, R70). -/
  droppedCtx : Nat := 0
  /-- The frame of its last frame tick (R32). -/
  lastFrame : Option Nat := none
  /-- The MGT cycle of that tick (R66). -/
  tickMgt : Option Nat := none
  /-- Per lattice (a raster code), the last row tick fired, frame × 256 + m (R32, R59). -/
  rowTicks : Tab Nat := []
  /-- The shadow set: changes committed and not yet applied (R39, R40). -/
  shadow : List Commit := []
  /-- CLK_SHADOW_LATE (R42). -/
  shadowLate : Nat := 0
  /-- ENC_CH_SWEEPS, saturating (R100). -/
  sweeps : Nat := 0
  /-- ENC_CH_GDR_RESTARTS (R90, R100). -/
  gdrRestarts : Nat := 0
  /-- ENC_CH_LOSS_PICS (R96, R100). -/
  lossPics : Nat := 0
  /-- ENC_CH_LOSS_NO_ACK (R96, R100). -/
  lossNoAck : Nat := 0
  /-- ENC_CH_ACK_IGNORED (R95, R100). -/
  ackIgnored : Nat := 0
  /-- ENC_CH_SEI_LATE (R87, R100). -/
  seiLate : Nat := 0
  /-- A channel colour record has been taken (R99). -/
  colourTaken : Bool := false
  /-- ENC_COLOUR (R99). -/
  colour : Nat := 0
  /-- ENC_HDR_SEI (R99). -/
  hdrSei : Nat := 0
  /-- ENC_MDCV_GX … WY, MAX_LUM and MIN_LUM, clamped (R99). -/
  mdcv : List Nat := []
  /-- ENC_MAX_CLL (R99). -/
  maxCll : Nat := 0
  /-- ENC_MAX_FALL (R99). -/
  maxFall : Nat := 0
  /-- ENC_RC_TRIPS (R112, R122). -/
  rcTrips : Nat := 0
  /-- ENC_RC_EXCESS (R118, R122). -/
  rcExcess : Nat := 0
  deriving DecidableEq, Repr

/-- The Coppice words of a channel (chapter 6). -/
structure CpChan where
  /-- A Coppice record has been taken (R139). -/
  taken : Bool := false
  /-- ENC_CP_CUT_PCT; 50 with no record (R139). -/
  cutPct : Nat := 50
  /-- ENC_CP_GUIDES; on with no record (R139). -/
  guides : Bool := true
  /-- ENC_CP_ANALYSERS in column order (R125, R140). -/
  analysers : List Nat := []
  /-- ENC_CP_REFINE_AN (R126, R140). -/
  refineAn : Option Nat := none
  /-- ENC_CP_BLIND (R138, R140). -/
  blind : Bool := false
  /-- ENC_CP_CUT_LAST (R136, R140). -/
  cutLast : Bool := false
  /-- ENC_CP_CUT_ROW (R136, R140). -/
  cutRow : Nat := 0
  /-- ENC_CP_CUTS (R136, R140). -/
  cuts : Nat := 0
  /-- ENC_CP_OVERRUNS (R138, R140). -/
  overruns : Nat := 0
  /-- The last analysed row met the cut threshold (R135). -/
  rowMet : Bool := false
  /-- The cut row of the picture in analysis (R135). -/
  cutNow : Option Nat := none
  /-- The frame in analysis (R135). -/
  picture : Nat := 0
  /-- The picture in analysis is the first of a sequence, on which detection does not run (R131). -/
  first : Bool := true
  /-- The cut row of the frame before, for the rows of renditions still in analysis (R135). -/
  cutBefore : Option Nat := none
  /-- Its analysers whose row will not complete: a read came back poisoned, or they were reset (R308, R390). -/
  broken : List Nat := []
  deriving DecidableEq, Repr

/-- What the video usability information says (R85). -/
structure Vui where
  /-- Colour_primaries (R85). -/
  primaries : Nat := 1
  /-- Transfer_characteristics (R85). -/
  transfer : Nat := 1
  /-- Matrix_coeffs (R85). -/
  matrix : Nat := 1
  /-- The chroma sample location (R85). -/
  location : Nat := 0
  /-- Num_units_in_tick (R85). -/
  unitsInTick : Nat := 0
  /-- Time_scale (R85). -/
  timeScale : Nat := 0
  /-- Video_full_range_flag (R85). -/
  fullRange : Bool := false
  deriving DecidableEq, Repr

/-- The HRD parameters of a sequence (R84, R120). -/
structure Hrd where
  /-- Number of CPBs (R120). -/
  cpbs : Nat := 1
  /-- Bit_rate_scale (R120). -/
  bitRateScale : Nat := 0
  /-- Bit_rate_value_minus1 (R120). -/
  bitRateValue : Nat := 0
  /-- Cpb_size_scale (R120). -/
  cpbSizeScale : Nat := 0
  /-- Cpb_size_value_minus1 (R120). -/
  cpbSizeValue : Nat := 0
  /-- Cbr_flag (R120). -/
  cbr : Bool := false
  /-- Tick_divisor_minus2, in sub-frame mode (R120). -/
  tickDivisor : Option Nat := none
  deriving DecidableEq, Repr

/-- The LMCS model of a context of a BT.2100 PQ channel (R82). -/
structure Lmcs where
  /-- Aps_adaptation_parameter_set_id (R82). -/
  apsId : Nat := 0
  /-- Lmcs_min_bin_idx (R82). -/
  minBin : Nat := 1
  /-- Lmcs_delta_max_bin_idx (R82). -/
  deltaMaxBin : Nat := 1
  /-- Codewords of bins 1 to 14 (R82). -/
  codewords : List Nat := [48, 60, 72, 84, 84, 84, 80, 76, 72, 68, 64, 56, 48, 40]
  /-- Lmcs_delta_abs_crs (R82). -/
  absCrs : Nat := 0
  deriving DecidableEq, Repr

/-- The settings of a VVC context: Table 3, and what R79 says is never emitted (R77 to R79). -/
structure VvcTools where
  /-- CTU size (R78). -/
  ctu : Nat := 64
  /-- Minimum coding block (R78). -/
  minCb : Nat := 8
  /-- Minimum quadtree leaf, in I and in B slices (R78). -/
  minQtLeaf : Nat := 16
  /-- MTT depth (R78). -/
  mttDepth : Nat := 2
  /-- Maximum binary-tree block (R78). -/
  maxBt : Nat := 64
  /-- Maximum ternary-tree block (R78). -/
  maxTt : Nat := 32
  /-- Dual tree in I slices, the chroma tree at the same limits (R78). -/
  dualTreeI : Bool := true
  /-- Maximum transform block (R78). -/
  maxTb : Nat := 64
  /-- Sps_mts_enabled_flag (R78). -/
  mts : Bool := true
  /-- Explicit MTS for intra (R78, R79). -/
  explicitMtsIntra : Bool := false
  /-- Explicit MTS for inter (R78, R79). -/
  explicitMtsInter : Bool := false
  /-- LFNST (R78). -/
  lfnst : Bool := true
  /-- SBT (R78). -/
  sbt : Bool := true
  /-- Transform skip (R78). -/
  transformSkip : Bool := true
  /-- Largest transform-skip block (R78, R79). -/
  maxTransformSkip : Nat := 4
  /-- Dependent quantisation (R78). -/
  depQuant : Bool := true
  /-- Sign data hiding (R78). -/
  signHiding : Bool := false
  /-- Joint Cb-Cr residual (R78). -/
  jointCbCr : Bool := true
  /-- Cu_qp_delta (R78). -/
  cuQpDelta : Bool := true
  /-- Quantisation group (R78). -/
  qpGroup : Nat := 32
  /-- Chroma QP offsets (R78). -/
  chromaQpOffset : Int := 0
  /-- Chroma QP tables, one, the identity (R78). -/
  chromaQpTables : Nat := 1
  /-- MRL (R78). -/
  mrl : Bool := true
  /-- ISP (R78). -/
  isp : Bool := true
  /-- MIP (R78). -/
  mip : Bool := true
  /-- CCLM (R78). -/
  cclm : Bool := true
  /-- Merge list (R78). -/
  mergeList : Nat := 6
  /-- Subblock merge list (R78). -/
  subblockMergeList : Nat := 5
  /-- TMVP (R78). -/
  tmvp : Bool := true
  /-- SbTMVP (R78). -/
  sbTmvp : Bool := true
  /-- AMVR (R78). -/
  amvr : Bool := true
  /-- Affine motion (R78). -/
  affine : Bool := true
  /-- 6-parameter affine (R78). -/
  affine6 : Bool := true
  /-- Affine AMVR (R78). -/
  affineAmvr : Bool := true
  /-- PROF (R78). -/
  prof : Bool := true
  /-- MMVD (R78). -/
  mmvd : Bool := true
  /-- Full-sample MMVD only (R78). -/
  mmvdFullSample : Bool := false
  /-- BCW (R78). -/
  bcw : Bool := true
  /-- CIIP (R78). -/
  ciip : Bool := true
  /-- GPM (R78). -/
  gpm : Bool := true
  /-- Maximum GPM candidates (R78). -/
  gpmCandidates : Nat := 6
  /-- BDOF (R77, R78). -/
  bdof : Bool := false
  /-- DMVR (R77, R78). -/
  dmvr : Bool := false
  /-- SMVD (R77, R78). -/
  smvd : Bool := false
  /-- Deblocking (R78). -/
  deblocking : Bool := true
  /-- Deblocking offsets (R78). -/
  deblockingOffset : Int := 0
  /-- Deblocking override (R78). -/
  deblockingOverride : Bool := false
  /-- SAO (R78). -/
  sao : Bool := true
  /-- ALF (R78). -/
  alf : Bool := true
  /-- CC-ALF (R78). -/
  ccAlf : Bool := true
  /-- LMCS with chroma residual scaling, as the sequence enables it (R78). -/
  lmcs : Bool := true
  /-- Rectangular slices (R78). -/
  rectSlices : Bool := true
  /-- CTU rows of a slice (R78). -/
  sliceRows : Nat := 1
  /-- Entropy coding sync (R78, R79). -/
  entropySync : Bool := false
  /-- Entry points (R78, R79). -/
  entryPoints : Bool := false
  /-- GDR pictures (R78). -/
  gdr : Bool := true
  /-- Long-term references (R78). -/
  longTerm : Bool := true
  /-- Virtual boundaries in the picture header only (R78). -/
  boundariesInHeader : Bool := true
  /-- Reference picture resampling (R78, R79). -/
  resampling : Bool := false
  /-- Weighted prediction (R78, R79). -/
  weighted : Bool := false
  /-- Scaling lists (R78, R79). -/
  scalingLists : Bool := false
  /-- IBC (R79). -/
  ibc : Bool := false
  /-- Palette mode (R79). -/
  palette : Bool := false
  /-- ACT (R79). -/
  act : Bool := false
  /-- BDPCM (R79). -/
  bdpcm : Bool := false
  /-- More than one sub-layer (R79). -/
  subLayers : Bool := false
  /-- Mixed NAL unit types within a picture (R79). -/
  mixedNal : Bool := false
  /-- Subpicture ID signalling (R79). -/
  subpicIds : Bool := false
  /-- CRA, RASL or RADL pictures (R79). -/
  randomAccess : Bool := false
  /-- The reference picture lists are carried in the picture header (R76). -/
  rplInfoInPh : Bool := true
  deriving DecidableEq, Repr

/-- The settings of an HEVC context: Table 4, and what R80 says is never emitted (R80). -/
structure HevcTools where
  /-- CTB size (R80). -/
  ctb : Nat := 64
  /-- Minimum coding block (R80). -/
  minCb : Nat := 8
  /-- AMP (R80). -/
  amp : Bool := true
  /-- Smallest transform block (R80). -/
  minTb : Nat := 4
  /-- Largest transform block (R80). -/
  maxTb : Nat := 32
  /-- Transform hierarchy depth, intra (R80). -/
  depthIntra : Nat := 2
  /-- Transform hierarchy depth, inter (R80). -/
  depthInter : Nat := 2
  /-- Transform skip, 4×4 (R80). -/
  transformSkip : Bool := true
  /-- Sign data hiding (R80). -/
  signHiding : Bool := true
  /-- Cu_qp_delta (R80). -/
  cuQpDelta : Bool := true
  /-- Quantisation group (R80). -/
  qpGroup : Nat := 32
  /-- Chroma QP offsets (R80). -/
  chromaQpOffset : Int := 0
  /-- Strong intra smoothing (R80). -/
  strongIntra : Bool := true
  /-- Constrained intra prediction (R80). -/
  constrainedIntra : Bool := false
  /-- Merge list (R80). -/
  mergeList : Nat := 5
  /-- TMVP (R80). -/
  tmvp : Bool := true
  /-- Long-term references, in slice headers (R80). -/
  longTerm : Bool := true
  /-- Long-term references in the SPS (R80). -/
  longTermInSps : Nat := 0
  /-- Deblocking (R80). -/
  deblocking : Bool := true
  /-- Deblocking offsets (R80). -/
  deblockingOffset : Int := 0
  /-- Deblocking override (R80). -/
  deblockingOverride : Bool := false
  /-- SAO (R80). -/
  sao : Bool := true
  /-- Loop filter across slices (R80). -/
  acrossSlices : Bool := true
  /-- PCM (R80). -/
  pcm : Bool := false
  /-- Scaling lists (R80). -/
  scalingLists : Bool := false
  /-- Weighted prediction (R80). -/
  weighted : Bool := false
  /-- Wavefront parallel processing (R80). -/
  wavefront : Bool := false
  /-- Reference list modification (R80). -/
  listModification : Bool := false
  /-- CRA, BLA, RASL or RADL pictures (R80). -/
  randomAccess : Bool := false
  /-- Any range-extension flag of the SPS or PPS (R80). -/
  rangeExtensions : Bool := false
  deriving DecidableEq, Repr

/-- The coding tools of a context, by its codec (R78, R80). -/
inductive Tools where
  | vvc (t : VvcTools) | hevc (t : HevcTools)
  deriving DecidableEq, Repr

/-- How a picture is divided (R54, R83). -/
structure Layout where
  /-- Tile columns (R54). -/
  tiles : Nat := 1
  /-- CTUs across a tile column (R54). -/
  tileCtus : Nat := 0
  /-- Subpictures, of one tile each; 0 where none are signalled (R54). -/
  subpictures : Nat := 0
  /-- Rectangular slices of a subpicture (R54). -/
  subpicSlices : Nat := 0
  /-- Sps_subpic_treated_as_pic_flag (R54). -/
  treatedAsPic : Bool := false
  /-- The loop filter runs across subpictures or tiles (R54). -/
  filterAcross : Bool := false
  /-- Slices that the PPS describes explicitly (R83). -/
  explicitSlices : Nat := 0
  deriving DecidableEq, Repr

/-- The parameter sets of a coded layer video sequence (R73 to R85, R120). -/
structure ParamSets where
  /-- General_profile_idc (R73). -/
  profile : Nat := 0
  /-- The general_profile_compatibility_flags set (R73). -/
  compatible : List Nat := []
  /-- Max_12bit, max_10bit, max_8bit, max_422chroma, max_420chroma, max_monochrome, intra, one_picture_only,
  lower_bit_rate; empty where Table 1 has none (R73). -/
  constraints : List Bool := []
  /-- General_tier_flag (R74). -/
  highTier : Bool := true
  /-- General_level_idc (R74). -/
  level : Nat := 0
  /-- Chroma_format_idc (R73). -/
  chromaFormat : Nat := 1
  /-- Bit depth of luma and chroma (R73). -/
  bitDepth : Nat := 10
  /-- Temporal sub-layers (R76). -/
  subLayers : Nat := 1
  /-- Maximum number of reorder pictures (R76). -/
  reorder : Nat := 0
  /-- Decoded picture buffer size (R76). -/
  dpbSize : Nat := 6
  /-- Width of the POC LSB field (R76). -/
  pocLsbBits : Nat := 16
  /-- SPS identifier (R83). -/
  spsId : Nat := 0
  /-- PPS identifier (R83). -/
  ppsId : Nat := 0
  /-- VPS identifier, in HEVC (R83). -/
  vpsId : Option Nat := none
  /-- The coding tools (R78, R80). -/
  tools : Tools := .vvc {}
  /-- Tiles, subpictures and slices (R54, R83). -/
  layout : Layout := {}
  /-- The VUI (R85). -/
  vui : Vui := {}
  /-- The HRD parameters (R120). -/
  hrd : Hrd := {}
  /-- The LMCS APS (R82). -/
  lmcs : Option Lmcs := none
  deriving DecidableEq, Repr

/-- The parts of an access unit ahead of and with its slices (R83). -/
inductive UnitPart where
  | delimiter | pictureHeader | vps | sps | pps | lmcsAps | prefixSei | alfAps | slices
  deriving DecidableEq, Repr

/-- A SEI message with its values (R84 to R86, R120). -/
inductive SeiMessage where
  | bufferingPeriod (delay offset : Nat) | pictureTiming | decodingUnit (row ticks : Nat) | masteringDisplay (values : List Nat)
  | contentLight (maxCll maxFall : Nat) | alternativeTransfer (preferred : Nat) | recoveryPoint (count : Nat) (exact broken : Bool)
  | captions (country provider identifier type : Nat) (triples : List Nat) | hostData (payloadType : Nat) (data : Bytes)
  deriving DecidableEq, Repr

/-- The type of a picture (R76, R88). -/
inductive PicKind where
  | idr | trailing | gdr
  deriving DecidableEq, Repr

/-- What ALF filters the slices of a picture may use (R81, R118, R136). -/
inductive AlfUse where
  | off | fixedOnly | aps (id luma chroma ccCb ccCr : Nat)
  deriving DecidableEq, Repr

/-- What a picture signals (R76, R77, R81 to R90, R96). -/
structure PicHead where
  /-- Its type (R76, R88). -/
  kind : PicKind := .trailing
  /-- Its slices are I slices; B slices otherwise (R76). -/
  intraOnly : Bool := false
  /-- The active references of L0 and of L1, which are identical: POC, and whether long-term (R77). -/
  refs : List (Nat × Bool) := []
  /-- Its reference picture lists are carried in its picture header, in VVC (R76). -/
  refsInHeader : Bool := false
  /-- An end-of-sequence NAL unit goes ahead of it (R91, R92). -/
  endOfSequence : Bool := false
  /-- The sample level of the reference that the decoding process generates (R91). -/
  generated : Option Nat := none
  /-- Its POC LSB field (R76). -/
  pocLsb : Nat := 0
  /-- Ph_recovery_poc_cnt (R88). -/
  recoveryPoc : Option Nat := none
  /-- X of its vertical virtual boundary, in luma samples (R88). -/
  boundary : Option Nat := none
  /-- Its refresh columns, from the first to the one after the last (R88). -/
  refresh : Option (Nat × Nat) := none
  /-- The CTU columns coded intra (R88, R96). -/
  intraColumns : Option (Nat × Nat) := none
  /-- The x that a reference block of the clean region or of the refresh columns ends at or before, in luma samples;
  none outside a sweep (R89). -/
  cleanReach : Option Nat := none
  /-- Its ALF filters (R81, R118). -/
  alf : AlfUse := .off
  /-- Ph_lmcs_enabled_flag (R82). -/
  lmcs : Bool := false
  /-- The parts of its access unit, in the order sent (R83). -/
  parts : List UnitPart := []
  /-- The SEI messages it carries (R84). -/
  sei : List SeiMessage := []
  deriving DecidableEq, Repr

/-- Motion candidates that the encoder does not choose where they would break the rule of the clean region (R89). -/
inductive Candidate where
  | merge | tmvp | sbTmvp
  deriving DecidableEq, Repr

/-- The integer positions searched around a guide, from the first to the last in x and in y (R65). -/
structure SearchWindow where
  /-- First in x (R65). -/
  x0 : Int := 0
  /-- Last in x (R65). -/
  x1 : Int := 0
  /-- First in y (R65). -/
  y0 : Int := 0
  /-- Last in y (R65). -/
  y1 : Int := 0
  deriving DecidableEq, Repr

/-- What the engine searches of one reference picture for a CTU (R65, R77, R129). -/
structure RefPlan where
  /-- The reference picture (R77). -/
  poc : Nat := 0
  /-- It is the long-term reference (R77). -/
  longTerm : Bool := false
  /-- The windows around the guides, in the short-term reference only (R65, R129). -/
  windows : List SearchWindow := []
  deriving DecidableEq, Repr

/-- Where the engine searches for a CTU (R65). -/
structure SearchPlan where
  /-- The direct search range around the co-located position (R65). -/
  reach : Nat × Nat := (256, 128)
  /-- The reference pictures that its CUs may predict from (R77, R89). -/
  refs : List RefPlan := []
  /-- The passes of the search by their positions per sample: integer positions, then 4 or 16 (R65). -/
  passes : List Nat := []
  /-- The right edge, in luma samples, of the region of the previous picture that a CU of the clean region or of the
  refresh columns predicts from (R89). -/
  clean : Option Nat := none
  /-- The candidates never chosen where they would leave that region (R89). -/
  barred : List Candidate := []
  deriving DecidableEq, Repr

/-- The in-loop filters that reach across a shared edge (R62). -/
inductive LoopFilter where
  | deblocking | sao | alf | ccAlf
  deriving DecidableEq, Repr

/-- An in-loop filter applied at a shared edge: each engine keeps its own side (R62). -/
structure EdgeUse where
  /-- The filter (R62). -/
  filter : LoopFilter := .deblocking
  /-- The tile column beyond the edge (R62). -/
  other : Nat := 0
  /-- The luma columns beyond the edge that it reads, from the first to the one after the last (R62). -/
  reads : Nat × Nat := (0, 0)
  deriving DecidableEq, Repr

/-- The syntax of a floor slice (R106). -/
structure FloorSlice where
  /-- Its slice address, as row and tile column (R106). -/
  address : Nat := 0
  /-- The POC it signals (R106). -/
  poc : Nat := 0
  /-- The reference fields of its header (R77, R106). -/
  refs : List (Nat × Bool) := []
  /-- The QP that its QP delta gives (R106). -/
  qp : Nat := 0
  /-- Its CTUs, each one 64×64 CU in skip mode (R106). -/
  ctus : Nat := 0
  /-- The picture that its merge candidate with zero motion points to (R106). -/
  mergeRef : Option Nat := none
  /-- SAO is on for the slice (R106). -/
  sao : Bool := false
  /-- ALF is on for the slice (R106). -/
  alf : Bool := false
  deriving DecidableEq, Repr

/-- What a slice's reconstruction in HBM holds (R37, R106). -/
inductive Recon where
  | coded | copied (poc : Option Nat)
  deriving DecidableEq, Repr

/-- The ALF APS derived for the next picture (R81). -/
structure AlfSet where
  /-- Aps_adaptation_parameter_set_id (R81). -/
  apsId : Nat := 0
  /-- Luma filters (R81). -/
  luma : Nat := 0
  /-- Chroma alternatives (R81). -/
  chroma : Nat := 0
  /-- CC-ALF filters for Cb (R81). -/
  ccCb : Nat := 0
  /-- CC-ALF filters for Cr (R81). -/
  ccCr : Nat := 0
  /-- Its size (R108). -/
  bytes : Nat := 0
  deriving DecidableEq, Repr

/-- A long-term slot that holds an anchor (R93). -/
structure LtSlot where
  /-- POC of the anchor (R93). -/
  poc : Nat := 0
  /-- Acknowledged (R95). -/
  ack : Bool := false
  deriving DecidableEq, Repr

/-- A host SEI message that waits for its picture (R292). -/
structure SeiMsg where
  /-- The frame it waits for (R292). -/
  frame : Nat := 0
  /-- Its bytes (R292). -/
  size : Nat := 0
  /-- Its host item, by order of submission (R291). -/
  item : Option Nat := none
  /-- PVD_SEI_KIND (R292). -/
  kind : Nat := 0
  /-- PVD_SEI_DATA (R292). -/
  data : Bytes := []
  deriving DecidableEq, Repr

/-- A picture in flight of a context: references, budgets, caps and verdicts (chapters 4 and 5). Slice keys are 4 ×
row + tile column. -/
structure Pic where
  /-- Its frame number (R32). -/
  frame : Nat := 0
  /-- Its POC (R76). -/
  f : Nat := 0
  /-- It is an IDR picture (R76, R92). -/
  idr : Bool := false
  /-- It is a loss picture (R77, R96). -/
  loss : Bool := false
  /-- POC of the current long-term reference it names (R94). -/
  ltr : Option Nat := none
  /-- Its position i in a sweep (R88). -/
  sweep : Option Nat := none
  /-- The previous picture's position in a sweep (R90). -/
  prevSweep : Option Nat := none
  /-- Row 0 has opened its coding interval (R108). -/
  opened : Bool := false
  /-- Size of its non-VCL units known at the tick, in bits (R108). -/
  nonVcl : Nat := 0
  /-- Bits of U that its caption SEI uses, an open amount (R108, log entry 14). -/
  capBits : Nat := 0
  /-- User-data reserve U (R108, R118). -/
  u : Nat := 0
  /-- Q_n (R108). -/
  q : Nat := 0
  /-- T_n (R107). -/
  t : Nat := 0
  /-- T^avg_n (R114). -/
  tAvg : Nat := 0
  /-- Bsz in force at its frame tick (R41, R107). -/
  bsz : Nat := 0
  /-- G in force at its frame tick, in Q16 (R41, R114). -/
  g : Nat := 65536
  /-- Caption triples it carries, late ones first (R86, R87). -/
  triples : List Nat := []
  /-- Bytes of host SEI placed in it (R292). -/
  seiBytes : Nat := 0
  /-- The host SEI messages placed in it (R84, R118). -/
  seiMsgs : List SeiMsg := []
  /-- P_n (R109). -/
  p : Nat := 0
  /-- It is an excess picture (R118). -/
  excess : Bool := false
  /-- Its P_n took the floor operand (R109, R118). -/
  floorBound : Bool := false
  /-- Caps c_(r,t) of the rows budgeted (R110). -/
  caps : Tab Nat := []
  /-- Row caps c_r by row (R110). -/
  rowCaps : Tab Nat := []
  /-- Slice targets t_s (R111). -/
  targets : Tab Nat := []
  /-- Slice QPs q_s (R111, R115). -/
  qps : Tab Nat := []
  /-- Complexities w_(r,t) of the rows analysed (R128, R138). -/
  w : Tab Nat := []
  /-- Emitted sizes of the slices with a verdict, in bits (R112). -/
  emitted : Tab Nat := []
  /-- Tile columns on floor duty for the rest of the picture (R66). -/
  floorTiles : List Nat := []
  /-- Slices whose stage a retry cut short (R390). -/
  floorDue : List Nat := []
  /-- Exact sizes of the floor slices known so far, in bits (R106). -/
  floorSize : Tab Nat := []
  /-- Rows whose entropy coding has closed (R55). -/
  rowsDone : List Nat := []
  /-- Slices emitted as floor slices (R106). -/
  floors : List Nat := []
  /-- Rows whose emitted size has entered F (R108). -/
  rowsIn : List Nat := []
  /-- Mean QPs of the slices with a verdict as coded (R111, R122). -/
  qpMeans : Tab Nat := []
  /-- Β_obs of the slices with a verdict as coded, whose row has not entered F (R111). -/
  observed : Tab Int := []
  /-- The frame at which its coded layer video sequence started (R76). -/
  seq : Option Nat := none
  /-- It is the first picture of its sequence (R76, R91). -/
  starts : Bool := false
  /-- It is the first picture of a sweep (R88). -/
  sweepStart : Bool := false
  /-- What it signals (R76 to R90). -/
  head : PicHead := {}
  /-- Per slice and CTU, the activities of its quantisation groups (R128). -/
  acts : Tab (List (List Nat)) := []
  /-- Act_s of the slices (R128). -/
  actS : Tab Nat := []
  /-- Per slice and CTU, the guides of Coppice (R129). -/
  guides : Tab (List (List (Int × Int))) := []
  /-- Per slice and CTU, where the engine searches (R65). -/
  plans : Tab (List SearchPlan) := []
  /-- What the reconstruction of each slice in HBM holds (R37, R106). -/
  recon : Tab Recon := []
  /-- Luma lines from the top that are through the in-loop filters (R58). -/
  lumaLines : Nat := 0
  /-- Chroma lines from the top that are through the in-loop filters (R58). -/
  chromaLines : Nat := 0
  /-- The motion vectors of its blocks, by 1,024 × block row + block column (R127, R132). -/
  vectors : Tab (Int × Int) := []
  /-- Changed blocks of the rows analysed (R135). -/
  changed : Tab Nat := []
  /-- The row from which its slices use the fixed ALF filters only (R136). -/
  cutAt : Option Nat := none
  /-- Bytes of the filler data NAL unit that ends it (R108). -/
  filler : Nat := 0
  /-- Its last verdict is in and its end-of-picture correction done (R108). -/
  closed : Bool := false
  /-- The syntax of the floor slices emitted (R106). -/
  floorSyntax : Tab FloorSlice := []
  /-- Per slice, the in-loop filters applied at its shared edges (R62). -/
  edges : Tab (List EdgeUse) := []
  /-- Per tile column, the rows in its engine's ALF statistics (R81). -/
  alfStats : Tab Nat := []
  /-- The tile columns whose statistics the engine of column 0 has received (R81). -/
  statsIn : List Nat := []
  /-- Per slice and CTU, the ALF and CC-ALF flags that the engine decided (R58). -/
  alfFlags : Tab (List Nat) := []
  /-- The frame of the first picture of its sweep (R88, R90). -/
  sweepFrame : Option Nat := none
  /-- Per slice, the ALF filters that it may use (R81, R106, R136). -/
  alfUse : Tab AlfUse := []
  deriving DecidableEq, Repr

/-- What the control plane keeps of a picture for g (R114). -/
structure PicSize where
  /-- Its frame count in the sequence (R114). -/
  f : Nat := 0
  /-- S, the access unit as emitted, in bits (R114). -/
  size : Nat := 0
  /-- Its T^avg (R114). -/
  tAvg : Nat := 0
  deriving DecidableEq, Repr

/-- One encode context (chapters 3 to 5). -/
structure Ctx where
  /-- Its channel (R69). -/
  channel : Nat := 0
  /-- ENC_CODEC: 0 VVC, 1 HEVC (R69). -/
  codec : Nat := 0
  /-- Effective raster (R49, R69). -/
  raster : Nat := 0
  /-- Effective chroma (R49, R69). -/
  chroma : Nat := 0
  /-- It is a further context of its channel (R49). -/
  further : Bool := false
  /-- It stopped after a fault (R67). -/
  stopped : Bool := false
  /-- Engines that carry its tile columns (R51). -/
  engines : List Nat := []
  /-- General_level_idc signalled (R74). -/
  level : Nat := 0
  /-- A context coding record has been taken (R98). -/
  codingTaken : Bool := false
  /-- ENC_GDR_MS (R98). -/
  gdrMs : Nat := 1000
  /-- ENC_ANCHOR_K (R98). -/
  anchorK : Nat := 30
  /-- ENC_FEEDBACK (R97, R98). -/
  feedback : Nat := 15
  /-- ENC_CAPTIONS (R98). -/
  captions : Bool := false
  /-- A rate-control record has been taken (R104). -/
  rcTaken : Bool := false
  /-- ENC_RC_MODE: 0 CBR, 1 capped VBR, 2 constant QP (R104). -/
  rcMode : Nat := 0
  /-- ENC_RC_BUF as given, 0 for L_b (R104). -/
  rcBuf : Nat := 0
  /-- ENC_RC_AQ (R104). -/
  aq : Nat := 48
  /-- ENC_RC_KBPS as configured or last commanded, before clamping (R104, R123). -/
  kbpsCfg : Nat := 0
  /-- ENC_RC_MAX_KBPS, 0 for 2 × ENC_RC_KBPS (R104). -/
  maxKbps : Nat := 0
  /-- ENC_RC_QP_MIN (R104). -/
  qpMin : Nat := 8
  /-- ENC_RC_QP_MAX, 0 for the default (R104). -/
  qpMax : Nat := 0
  /-- ENC_RC_QP (R104). -/
  qp : Nat := 32
  /-- ENC_RC_UD16 (R104). -/
  ud16 : Nat := 0
  /-- Minimum effective bitrate, kb/s (R105). -/
  kmin : Nat := 0
  /-- Effective bitrate, kb/s (R105). -/
  k : Nat := 0
  /-- Highest bitrate, kb/s (R105). -/
  kmax : Nat := 0
  /-- ENC_RC_BPS (R105, R122). -/
  b : Nat := 0
  /-- ENC_RC_MAX_BPS (R105, R122). -/
  bMax : Nat := 0
  /-- Its bitrate was raised (R105, R122). -/
  raised : Bool := false
  /-- Effective ENC_RC_BUF, B (R104, R107). -/
  bufEff : Nat := 0
  /-- X, the largest Q_n, fixed at admission (R108). -/
  x : Nat := 0
  /-- The frame at which its coded layer video sequence started (R76, R91). -/
  seqFrame : Option Nat := none
  /-- The next frame tick starts a sequence with a sweep (R91). -/
  restart : Bool := false
  /-- ENC_REF_FRAME: f at the last frame tick (R76, R101). -/
  f : Nat := 0
  /-- P_loss (R96, R101). -/
  pLoss : Nat := 0
  /-- The four long-term slots, those held (R93). -/
  slots : Tab LtSlot := []
  /-- Acknowledged anchors not yet in a slot (R95). -/
  acksKept : List Nat := []
  /-- The picture of the next frame tick is a loss picture (R96). -/
  lossDue : Bool := false
  /-- G (R88). -/
  sweepG : Nat := 0
  /-- W (R88). -/
  sweepW : Nat := 0
  /-- S (R88). -/
  sweepS : Nat := 0
  /-- F at which the latest sweep started (R88). -/
  sweepAt : Option Nat := none
  /-- F at which the next sweep starts (R88, R90). -/
  nextSweep : Nat := 0
  /-- A floor slice broke the sweep; the next picture starts one (R90). -/
  sweepBroken : Bool := false
  /-- The frame of the first picture of the sweep last broken (R90, R100). -/
  brokenSweep : Option Nat := none
  /-- The ALF APS derived for the next picture (R81). -/
  alf : Option AlfSet := none
  /-- The parameter sets of its sequence, stored in HBM (R83). -/
  sets : Option ParamSets := none
  /-- The start of the sequence whose β and complexity history it holds (R111, R131). -/
  ratesAt : Option Nat := none
  /-- F (R108). -/
  fullness : Int := 0
  /-- F at the last frame tick (R122, R123). -/
  fullnessTick : Int := 0
  /-- N0 of R107, as f. -/
  rateBase : Nat := 0
  /-- Β (R111). -/
  beta : Int := 128
  /-- G in Q16 (R114). -/
  g : Nat := 65536
  /-- Complexity history of the last analysed picture by slice key (R128). -/
  wPrev : Tab Nat := []
  /-- Total complexities of the last 256 pictures of the sequence, newest first (R114). -/
  wHist : List Nat := []
  /-- Sizes of the pictures of the last 264 frames, newest first (R114). -/
  sizes : List PicSize := []
  /-- Pictures in flight, newest first, at most 3 (R41, R108). -/
  pics : List Pic := []
  /-- ENC_RC_INFO_P: P_n of the last picture (R123). -/
  lastP : Nat := 0
  /-- ENC_RC_LAST_QP (R122). -/
  lastQp : Nat := 0
  /-- This context's trips, saturating (R123). -/
  trips : Nat := 0
  /-- Host SEI messages waiting for a picture (R84, R292). -/
  seiQueue : List SeiMsg := []
  /-- Late caption triples that go ahead of the next picture's (R87). -/
  capCarry : List Nat := []
  /-- Slices released toward their port (R43). -/
  released : Nat := 0
  deriving DecidableEq, Repr

/-- Encoding: pool, channels and contexts (chapters 3 to 6). -/
structure Enc where
  /-- Engines, analysers and ring (R46, R125). -/
  pool : Pool := {}
  /-- Channels 0–63 (R68). -/
  chans : Tab Chan := []
  /-- Coppice words of channels 0–63 (R140). -/
  cps : Tab CpChan := []
  /-- Contexts 0–127, those taken (R69). -/
  ctxs : Tab Ctx := []
  deriving DecidableEq, Repr

/-- A decode engine (chapter 7). -/
structure DecEngine where
  /-- Retired or failed self-test, DEC_DE_STATE 0b10 (R141, R159). -/
  failed : Bool := false
  /-- Decode share charged, px/s (R142, R143). -/
  load : Nat := 0
  /-- Contexts it carries (R142). -/
  slots : Nat := 0
  /-- Held whole by a gang (R142, R143). -/
  whole : Bool := false
  deriving DecidableEq, Repr

/-- A slice of a decode context's picture as its NAL units arrived (R150, R153). -/
structure SliceGot where
  /-- Addresses of the CTUs it decodes (R153). -/
  ctus : List Nat := []
  /-- CTU addresses at which a tile of it begins (R144). -/
  cuts : List Nat := []
  /-- Entropy coding sync is on (R144). -/
  sync : Bool := false
  /-- It is discarded (R150). -/
  bad : Bool := false
  deriving DecidableEq, Repr

/-- A picture of a decode context, from its first NAL unit until it is decoded (R150 to R155). -/
structure DecPic where
  /-- Presentation time, 90 kHz count (R149). -/
  pts : Nat := 0
  /-- Frame number, for a confidence context (R148). -/
  frame : Nat := 0
  /-- Its POC (R153). -/
  poc : Int := 0
  /-- The sequence parameter set it names (R145, R150). -/
  sps : Option SpsIn := none
  /-- Its slices, newest first (R150, R153). -/
  slices : List SliceGot := []
  /-- A gap came since its last independent slice segment (R150). -/
  broken : Bool := false
  /-- A slice of it was discarded (R155). -/
  lost : Bool := false
  /-- A gap came before its first NAL unit (R155). -/
  gapBefore : Bool := false
  /-- The references its slices name: POC, and whether long-term (R154). -/
  refs : List (Int × Bool) := []
  /-- The POCs that its reference picture set or lists keep (R154). -/
  held : List Int := []
  /-- An IDR or CRA picture (R155). -/
  random : Bool := false
  /-- An IDR picture (R146, R154). -/
  idr : Bool := false
  /-- Recovery count of a GDR picture or recovery-point SEI (R155). -/
  recovery : Option Nat := none
  /-- An end-of-sequence NAL unit follows it (R154). -/
  ends : Bool := false
  /-- Compressed bytes it holds in the buffer (R156). -/
  bytes : Nat := 0
  deriving DecidableEq, Repr

/-- A decoded picture, waiting for its place in output order or output (R146, R149). -/
structure DecOut where
  /-- Presentation time (R149). -/
  pts : Nat := 0
  /-- Frame number, for a confidence context (R148). -/
  frame : Nat := 0
  /-- Its POC, which gives output order (R146). -/
  poc : Int := 0
  /-- A CTU was concealed or a reference substituted (R155). -/
  damaged : Bool := false
  /-- A recovery point completes with it (R155). -/
  completes : Bool := false
  /-- Its concealed flag, once output (R155). -/
  flagged : Bool := false
  /-- Its decode fingerprint (R249). -/
  print : Nat := 0
  /-- Its samples as delivered (R146). -/
  picture : Picture := {}
  deriving DecidableEq, Repr

/-- A decoded picture held in the DPB or as the most recent good picture (R153, R154). -/
structure DecRef where
  /-- Its POC (R153). -/
  poc : Int := 0
  /-- Luma lines in its own format (R153). -/
  luma : List (List Nat) := []
  /-- Cb lines (R153). -/
  cb : List (List Nat) := []
  /-- Cr lines (R153). -/
  cr : List (List Nat) := []
  deriving DecidableEq, Repr

/-- A parameter set held under its identifier (R150, R151). -/
structure HeldSet where
  /-- The identifiers it names, as kind and number (R150). -/
  names : List (Nat × Nat) := []
  /-- What a sequence parameter set says (R145). -/
  sps : Option SpsIn := none
  deriving DecidableEq, Repr

/-- A decode context (chapter 7). -/
structure DecCtx where
  /-- More than one record names it (R144). -/
  dup : Bool := false
  /-- DEC_USE: 0 confidence, 1 layer source (R144). -/
  use : Nat := 0
  /-- DEC_CODEC (R144). -/
  codec : Nat := 0
  /-- DEC_RASTER (R144). -/
  raster : Nat := 0
  /-- DEC_RATE (R144). -/
  rate : Nat := 0
  /-- DEC_CARRIAGE (R144). -/
  carriage : Nat := 0
  /-- DEC_SDI_OUT in force (R144, R147). -/
  sdiOut : Nat := 255
  /-- DEC_DELAY in force (R144, R148). -/
  delay : Nat := 0
  /-- DEC_SOURCE (R144). -/
  source : Nat := 0
  /-- DEC_TS_PID (R144). -/
  tsPid : Nat := 16
  /-- DEC_STATE (R160). -/
  st : Nat := 0
  /-- DEC_REFUSED (R160). -/
  refused : Nat := 0
  /-- Decode engines that carry it, DEC_ENGINES (R143, R160). -/
  engines : List Nat := []
  /-- Decode share charged, px/s (R142). -/
  charge : Nat := 0
  /-- HBM bandwidth charged (R143). -/
  hbm : Nat := 0
  /-- Its DEC_CONCEALED bit (R155, R159). -/
  concealed : Bool := false
  /-- A picture has been decoded since start (R160). -/
  decodedOne : Bool := false
  /-- The counters of DEC_CTX_INFO from DEC_PICTURES on, in reply order, saturating (R160). -/
  counts : Tab Nat := []
  /-- Bytes in its 64 MiB compressed buffer (R156). -/
  cpb : Nat := 0
  /-- Parameter sets held, by kind × 65,536 + identifier (R150, R151). -/
  params : Tab HeldSet := []
  /-- RTP sequence number of the last packet received (R150). -/
  lastSeq : Option Nat := none
  /-- RTP sequence number of the last packet of the last NAL unit (R150). -/
  lastNal : Option Nat := none
  /-- Continuity counter of the last TS packet of its PID (R150). -/
  lastCc : Option Nat := none
  /-- The open picture (R152). -/
  cur : Option DecPic := none
  /-- Closed pictures not yet decoded, oldest first (R146, R152). -/
  closed : List DecPic := []
  /-- Presentation times of closed pictures, newest first (R152). -/
  closedPts : List Nat := []
  /-- The most recent good picture (R153). -/
  good : Option DecRef := none
  /-- The decoded pictures held as references, newest first (R154). -/
  dpb : List DecRef := []
  /-- POCs of the recovery pictures awaited (R155). -/
  pending : List Int := []
  /-- A recovery point has completed since start (R155, R157). -/
  recovered : Bool := false
  /-- Decoded pictures that wait for their place in output order (R146). -/
  waiting : List DecOut := []
  /-- Pictures output, newest first, at most 16 (R146, R149). -/
  outs : List DecOut := []
  /-- The entropy units of the last picture, as the CTUs of each, in decoding order (R144). -/
  units : List (List Nat) := []
  /-- The engines that they went to (R144). -/
  unitEngines : List Nat := []
  /-- CTU rows at which the filter bands of the last picture start, with their engines (R144). -/
  bands : List (Nat × Nat) := []
  /-- Per frame, slices read at their verdict, for a confidence context (R147). -/
  gotSlices : Tab Nat := []
  /-- Frame a confidence output shows; none for black (R148). -/
  shown : Option Nat := none
  /-- The picture on its output; one without lines is black (R148). -/
  display : Picture := {}
  /-- Its SDI outputs are left undriven: its rate is not of the family PLL_S runs at (R374). -/
  undriven : Bool := false
  deriving DecidableEq, Repr

/-- An SDI output in use (R147). -/
structure SdiOut where
  /-- The confidence context that drives it (R147). -/
  ctx : Nat := 0
  /-- Link rate of its interface: 0 1.5G, 1 3G level A, 3 12G (R147, Table 2). -/
  link : Nat := 0
  /-- Its part of a quad link in two-sample interleave (R147, R188). -/
  part : Option Nat := none
  deriving DecidableEq, Repr

/-- Decoding (chapter 7). -/
structure Dec where
  /-- DE0–DE3 (R141). -/
  engines : Tab DecEngine := []
  /-- Decode contexts 0–31 that a record names (R143). -/
  ctxs : Tab DecCtx := []
  /-- SDI_OUT0–SDI_OUT3 that a confidence context drives (R147). -/
  outputs : Tab SdiOut := []
  deriving DecidableEq, Repr

/-- What a video layer shows in the present frame (R167). -/
inductive Showing where
  | live | repeated | fallback | hidden
  deriving DecidableEq, Repr

/-- A video layer V0–V3 (chapter 8). -/
structure VLayer where
  /-- CMP_V_Z (R178). -/
  z : Nat := 0
  /-- CMP_V_SRC_TYPE (R178). -/
  srcType : Nat := 0
  /-- CMP_V_SRC (R178). -/
  src : Nat := 0
  /-- CMP_V_OPACITY (R178). -/
  opacity : Nat := 0
  /-- CMP_V_FALLBACK in force (R178). -/
  fallback : Nat := 0
  /-- CMP_V_CROP_X, Y, W, H as recorded (R164, R178). -/
  cropCfg : List Nat := []
  /-- CMP_V_WIN_X, Y, W, H as recorded (R164, R178). -/
  winCfg : List Nat := []
  /-- Effective crop x, y, w, h (R164). -/
  crop : List Nat := []
  /-- Effective window x, y, w, h (R164). -/
  win : List Nat := []
  /-- CMP_V_FILL_Y, CB, CR (R178). -/
  fill : List Nat := []
  /-- CMP_V_VISIBLE (R178). -/
  visible : Bool := false
  /-- Dw (R165). -/
  drawnW : Nat := 0
  /-- Dh (R165). -/
  drawnH : Nat := 0
  /-- Its CMP_V_CLAMPED bit (R164, R165). -/
  clamped : Bool := false
  /-- Its CMP_V_READY bit (R166). -/
  ready : Bool := false
  /-- What it shows (R167). -/
  showing : Showing := .hidden
  /-- It has a last ready picture (R167). -/
  held : Bool := false
  /-- Consecutive repeats of that picture (R167). -/
  repeats : Nat := 0
  /-- The source picture latched: a frame number or a presentation time (R166). -/
  picture : Nat := 0
  /-- The presentation time in ns and the decode fingerprint of the picture of a decode context latched at the frame
  tick; none when the layer is not ready (R249). -/
  latched : Option (Nat × Nat) := none
  /-- Samples of the last picture it showed while ready (R166, R167). -/
  image : Picture := {}
  deriving DecidableEq, Repr

/-- A graphics slot displaced by a flip and not yet released (R170). -/
structure Displaced where
  /-- 0 A, 1 B (R170). -/
  slot : Nat := 0
  /-- The last frame that uses it (R170). -/
  lastFrame : Nat := 0
  /-- The overlay item, by order of submission, completed at its release (R170, R182). -/
  item : Option Nat := none
  deriving DecidableEq, Repr

/-- A flip that waits for its slot's copy to the partner (R265). -/
structure SlotCopy where
  /-- The flip (R182). -/
  change : ShadowChange := .nothing
  /-- The frame it named (R265). -/
  target : Nat := 0
  /-- That frame was past (R42). -/
  missed : Bool := false
  /-- The host item, by order of submission (R291). -/
  item : Option Nat := none
  deriving DecidableEq, Repr

/-- A graphics layer G0–G7 (chapter 8). -/
structure GLayer where
  /-- CMP_G_Z (R178). -/
  z : Nat := 0
  /-- CMP_G_VISIBLE (R178). -/
  visible : Bool := false
  /-- CMP_G_X (R178). -/
  x : Nat := 0
  /-- CMP_G_Y (R178). -/
  y : Nat := 0
  /-- CMP_G_MAXW (R178). -/
  maxW : Nat := 2
  /-- CMP_G_MAXH (R178). -/
  maxH : Nat := 2
  /-- Current slot, none until one is flipped in, CMP_G_SLOT (R169, R179). -/
  slot : Option Nat := none
  /-- HBM address of slot A (R169, R181). -/
  addrA : Nat := 0
  /-- HBM address of slot B (R169, R181). -/
  addrB : Nat := 0
  /-- The displaced slot in use (R170). -/
  displaced : Option Displaced := none
  /-- Flips whose slot is being copied to the partner before their target is named, oldest first (R265). -/
  copying : List SlotCopy := []
  deriving DecidableEq, Repr

/-- A topiary region (R171 to R175). -/
structure Region where
  /-- CMP_TOP_EXP_SRC (R174, R178). -/
  expSrc : Nat := 0
  /-- CMP_TOP_X (R171). -/
  x : Nat := 0
  /-- CMP_TOP_Y (R171). -/
  y : Nat := 0
  /-- CMP_TOP_W (R171). -/
  w : Nat := 2
  /-- CMP_TOP_H (R171). -/
  h : Nat := 2
  /-- The host's expected value in the active set (R174). -/
  host : Nat := 0
  /-- Running value of its context slot (R172, R173). -/
  running : Nat := 0xFFFFFFFF
  /-- Expected value for the present frame (R174). -/
  expected : Option Nat := none
  /-- A row it crosses overran in this frame (R177). -/
  spoiled : Bool := false
  /-- Last result of its context slot (R173). -/
  last : Nat := 0
  deriving DecidableEq, Repr

/-- What a compositor latched at a frame tick for every row of that frame (R41, R166). -/
structure FramePlan where
  /-- The video layers (R166). -/
  v : Tab VLayer := []
  /-- The graphics layers (R170). -/
  g : Tab GLayer := []
  deriving DecidableEq, Repr

/-- The compositor of a channel (chapter 8). -/
structure Cmp where
  /-- A compositor record has been taken (R178). -/
  taken : Bool := false
  /-- CMP_HOLD_F (R167, R178). -/
  holdF : Nat := 3
  /-- CMP_TOP_SEV; 2 with no record (R175). -/
  topSev : Nat := 2
  /-- CMP_SLATE_W (R178). -/
  slateW : Nat := 0
  /-- CMP_SLATE_H (R178). -/
  slateH : Nat := 0
  /-- Slate plane bytes that a record supplied, by offset; the rest read zero (R178). -/
  slate : List Host.Cell := []
  /-- Video layers with a record (R161). -/
  v : Tab VLayer := []
  /-- Graphics layers with a record (R161). -/
  g : Tab GLayer := []
  /-- Regions taken (R171). -/
  regions : Tab Region := []
  /-- CMP_FENCED (R177). -/
  fenced : Bool := false
  /-- CMP_TOP_MISMATCH_LAST (R179). -/
  mismatchLast : Nat := 0
  /-- CMP_TOP_MISMATCHES (R179). -/
  mismatches : Nat := 0
  /-- CMP_TOP_UNCHECKED (R179). -/
  unchecked : Nat := 0
  /-- CMP_V_REPEATS (R179). -/
  repeats : Nat := 0
  /-- CMP_V_FALLBACKS (R179). -/
  fallbacks : Nat := 0
  /-- CMP_TOP_DROPPED (R179). -/
  topDropped : Nat := 0
  /-- CMP_LAYER_DROPPED (R179). -/
  layerDropped : Nat := 0
  /-- The layers of the present frame and the one before, by frame (R41, R166). -/
  plans : Tab FramePlan := []
  /-- Composed pictures in HBM, newest first, of the last three frames (R127, R161). -/
  pics : List Planes := []
  /-- Its row will not complete: a read came back poisoned, or it was reset (R308, R390). -/
  broken : Bool := false
  /-- The next comparison is the retry of an earlier mismatch (R175, R390). -/
  topRetry : Bool := false
  deriving DecidableEq, Repr

/-- A packet of a two-leg flow as first taken (R186). -/
structure Seen where
  /-- Extended sequence number (R186). -/
  ext : Nat := 0
  /-- Leg that delivered it first (R186). -/
  leg : Nat := 0
  /-- MTB time of reception (R186). -/
  time : Nat := 0
  deriving DecidableEq, Repr

/-- An ingress policer of a flow (R238). -/
structure Policer where
  /-- EGR_POL_MODE: 0 off, 1 srTCM, 2 trTCM (R238, R241). -/
  mode : Nat := 0
  /-- EGR_POL_AWARE (R238, R241). -/
  aware : Bool := false
  /-- EGR_POL_CIR_KBPS (R238, R241). -/
  cir : Nat := 0
  /-- EGR_POL_CBS (R238, R241). -/
  cbs : Nat := 0
  /-- EGR_POL_PIR_KBPS (R238, R241). -/
  pir : Nat := 0
  /-- EGR_POL_EBS_PBS (R238, R241). -/
  pbs : Nat := 0
  /-- Committed bucket in 2^-16 byte (R238). -/
  tc : Nat := 0
  /-- Excess or peak bucket in 2^-16 byte (R238). -/
  te : Nat := 0
  /-- MTB time of its last refill (R238). -/
  last : Nat := 0
  /-- Green packets (R242). -/
  green : Nat := 0
  /-- Yellow packets (R238, R242). -/
  yellow : Nat := 0
  /-- Red packets (R238, R242). -/
  red : Nat := 0
  /-- Bytes metered (R242). -/
  bytes : Nat := 0
  deriving DecidableEq, Repr

/-- An ingress flow (R185, R186). -/
structure InFlow where
  /-- ING_FLOW_KIND (R197). -/
  kind : Nat := 0
  /-- ING_FAMILY (R197). -/
  family : Nat := 0
  /-- ING_PORT_A (R197). -/
  portA : Nat := 0
  /-- ING_PORT_B (R186, R197). -/
  portB : Option Nat := none
  /-- ING_UDP_PORT (R197). -/
  udp : Nat := 1
  /-- ING_DEST_A (R197). -/
  destA : Bytes := []
  /-- ING_DEST_B (R197). -/
  destB : Bytes := []
  /-- ING_PT (R197). -/
  pt : Nat := 96
  /-- ING_PD_MS (R186, R197). -/
  pdMs : Nat := 10
  /-- ING_VLAN (R197). -/
  vlan : Nat := 0
  /-- ING_SSRC, 0 any (R197). -/
  ssrc : Nat := 0
  /-- Packets taken within the path differential, newest first (R186). -/
  seen : List Seen := []
  /-- Its depacketiser is fenced (R197). -/
  fenced : Bool := false
  deriving DecidableEq, Repr

/-- Samples of one line that arrived together (R185). -/
structure ShareSeg where
  /-- First luma sample (R185). -/
  offset : Nat := 0
  /-- Luma samples (R185). -/
  length : Nat := 0
  /-- The samples (R185). -/
  line : PlaneLine := {}
  deriving DecidableEq, Repr

/-- A frame of a member's share as it arrives (R189, R191). -/
structure ShareFrame where
  /-- Its timestamp (R189). -/
  stamp : Nat := 0
  /-- Its media time with the offset of its group, t + O (R189). -/
  time : Int := 0
  /-- It is misaligned (R189). -/
  misaligned : Bool := false
  /-- A frame tick has judged it (R192). -/
  judged : Bool := false
  /-- What of its lines arrived in time (R190, R191). -/
  lines : Tab (List ShareSeg) := []
  deriving DecidableEq, Repr

/-- A member of an alignment group (R188 to R195). -/
structure Member where
  /-- ING_M_TYPE (R197). -/
  type : Nat := 0
  /-- ING_M_SRC_TYPE (R197). -/
  srcType : Nat := 0
  /-- ING_M_SRC (R197). -/
  src : Nat := 0
  /-- ING_M_PART (R197). -/
  part : Nat := 0
  /-- ING_GI_STATE: 0 joined, 1 lost, 2 rejoining, 3 fenced (R199). -/
  st : Nat := 1
  /-- ING_GI_CAUSE (R199). -/
  cause : Nat := 0
  /-- Φ, in 2^-32 ns (R189). -/
  phase : Option Int := none
  /-- For an audio member, the video member whose φ it took at its join (R210). -/
  refVideo : Option Nat := none
  /-- It delivered something in the present frame period (R192). -/
  heard : Bool := false
  /-- Format mismatch (R183, R192). -/
  mismatch : Bool := false
  /-- The frame its present picture is placed on (R189). -/
  placed : Nat := 0
  /-- Timestamp of its last placed frame (R189). -/
  placedTs : Nat := 0
  /-- A share or a frame of the present period was not complete or not on time (R191, R192). -/
  short : Bool := false
  /-- It underran in the present frame (R191). -/
  underran : Bool := false
  /-- Consecutive good frames of a rejoin (R192). -/
  goodRun : Nat := 0
  /-- Frames of its hold already spent (R193). -/
  hold : Nat := 0
  /-- Lost, its share is repeated in the present frame (R193). -/
  repeating : Bool := false
  /-- The frames it has begun to deliver, by the tick they are placed on (R189, R191). -/
  frames : Tab ShareFrame := []
  /-- The lines of its last delivered share (R191, R193). -/
  last : Tab PlaneLine := []
  /-- Caption triples it has delivered, by the tick they are placed on (R86, R187). -/
  captions : Tab (List Nat) := []
  /-- Audio words by sample tick, one per channel (R210). -/
  samples : Tab (List Nat) := []
  /-- Least slack in the present second, ns (R190). -/
  slack : Int := 2147483647
  /-- ING_GI_SLACK_NS (R199). -/
  slackOut : Int := 0
  /-- ING_GI_UNDERRUNS (R199). -/
  underruns : Nat := 0
  /-- ING_GI_LOSSES (R199). -/
  losses : Nat := 0
  /-- ING_GI_COLOUR (R199). -/
  colourMis : Nat := 0
  /-- ING_GI_DISCARDS (R199). -/
  discards : Nat := 0
  /-- ING_GI_CRC (R199). -/
  crcFails : Nat := 0
  /-- Format mismatches counted (R183). -/
  formatMis : Nat := 0
  /-- Its flow runs at 96 kHz (R209). -/
  doubleRate : Bool := false
  deriving DecidableEq, Repr

/-- An alignment group (R188 to R196). -/
structure Group where
  /-- ING_VIDEO_KIND (R197). -/
  kind : Nat := 0
  /-- ING_IN_CHROMA (R197). -/
  chroma : Nat := 0
  /-- ING_HOLD_F (R193, R197). -/
  holdF : Nat := 3
  /-- Effective ING_OFFSET_US (R190, R197). -/
  offsetUs : Int := 0
  /-- ING_REJOIN_F (R192, R197). -/
  rejoinF : Nat := 2
  /-- ING_OFFSET_RAISED (R190, R198). -/
  raised : Bool := false
  /-- Members taken (R188). -/
  members : Tab Member := []
  /-- ING_INPUT_LOST (R194, R198). -/
  inputLost : Bool := false
  /-- ING_SLATE_ON (R198). -/
  slateOn : Bool := false
  /-- ING_FRAME_WHOLE (R193, R198). -/
  whole : Bool := false
  /-- ING_M_SUBST (R198). -/
  subst : Nat := 0
  /-- ING_SUBST_FRAMES (R198). -/
  substFrames : Nat := 0
  /-- Recent frames delivered whole, newest first (R166). -/
  wholeFrames : List Nat := []
  /-- Caption triples that its ancillary members brought for the coming frame (R86, R187). -/
  captions : List Nat := []
  deriving DecidableEq, Repr

/-- What an SDI receiver detects of its link (R184). -/
structure SdiLink where
  /-- Link rate: 0 1.5G, 1 3G, 2 6G, 3 12G (R184). -/
  link : Nat := 0
  /-- A rate at 1/1.001 (R184). -/
  fractional : Bool := false
  deriving DecidableEq, Repr

/-- Ingest (chapter 9). -/
structure Ing where
  /-- Ingress flows with a record (R185). -/
  flows : Tab InFlow := []
  /-- Alignment groups with a record (R188). -/
  groups : Tab Group := []
  /-- Ingress policers with a record (R238). -/
  policers : Tab Policer := []
  /-- SDI receivers fenced (R197). -/
  sdiFenced : List Nat := []
  /-- Link rates that the SDI receivers detect (R184). -/
  links : Tab SdiLink := []
  /-- Ingest pictures in HBM by channel, newest first, of the last three frames (R166, R194). -/
  pics : Tab (List Planes) := []
  deriving DecidableEq, Repr

/-- A gain of an audio path and its ramp (R203, R204). -/
structure Gain where
  /-- Ramp position, 0–240; the gain is floor(32,768 × k / 240) (R204). -/
  k : Nat := 0
  /-- It moves toward unity on each sample tick (R204). -/
  up : Bool := false
  deriving DecidableEq, Repr

/-- An AES3 input (chapter 10). -/
structure AudIn where
  /-- A record has been taken (R214). -/
  taken : Bool := false
  /-- AUD_IN_TRANSP (R200, R215). -/
  transp : Bool := false
  /-- AUD_IN_BW_EFF (R215). -/
  bw : Nat := 1
  /-- AUD_AUTO_RESTART (R212). -/
  autoRestart : Bool := false
  /-- AUD_IN_STATE (R215). -/
  st : Nat := 0
  /-- AUD_IN_SWAPPED (R212, R215). -/
  swapped : Bool := false
  /-- AUD_IN_337: a burst was detected in the last MTB second (R215). -/
  burst : Bool := false
  /-- A burst was detected in the present MTB second (R215). -/
  burstNow : Bool := false
  /-- The last frame's non-audio bit (R207). -/
  nonAudio : Bool := false
  /-- AUD_IN_NOMINAL (R215). -/
  nominal : Nat := 0
  /-- Ρ in Q2.30, AUD_IN_RATIO (R201, R215). -/
  ratio : Nat := 0x40000000
  /-- AUD_IN_GLITCHES (R215). -/
  glitches : Nat := 0
  /-- AUD_IN_REACQ (R215). -/
  reacq : Nat := 0
  /-- AUD_IN_STOPS (R215). -/
  stops : Nat := 0
  /-- AUD_IN_SWAPS (R215). -/
  swaps : Nat := 0
  /-- AUD_IN_RESTARTS (R215). -/
  restarts : Nat := 0
  /-- AUD_IN_ADAPT_SLIPS (R206, R215). -/
  slips : Nat := 0
  /-- The last block deviated by more than 1 % (R202). -/
  deviated : Bool := false
  /-- The next whole block sets ρ (R203). -/
  coarse : Bool := true
  /-- Consecutive blocks within 20 ppm (R203). -/
  within : Nat := 0
  /-- Ρ the active device sent for this port, which stands for its own in M5 and M6 (R205). -/
  partnerRatio : Option Nat := none
  /-- The tracker's gain (R203). -/
  gain : Gain := {}
  /-- The port restart's gain (R212). -/
  restartGain : Gain := ⟨240, true⟩
  /-- Frames in the rate adapter, oldest first, each subframe as 24 audio bits with V, U and C above them (R206). -/
  adapter : List (Nat × Nat) := [(0x1000000, 0x1000000), (0x1000000, 0x1000000), (0x1000000, 0x1000000)]
  /-- Frames on their way from the rate adapter, oldest first, which with its three frames makes the fixed Λ of six
  sample ticks (R206). -/
  line : List (Nat × Nat) := [(0x1000000, 0x1000000), (0x1000000, 0x1000000), (0x1000000, 0x1000000)]
  /-- The frames the converter works on, newest first: MTB time of receipt and the audio bits of both channels
  (R201). -/
  history : List (Nat × Nat × Nat) := []
  /-- Input returned in mid-block: the block in progress is not whole (R203). -/
  skip : Bool := false
  /-- Frames of the present channel-status block, 0 before the first (R212, R355). -/
  blockFrame : Nat := 0
  /-- Pairing is realigned at the next Z preamble (R212). -/
  realign : Bool := false
  /-- A restart waits for a frame tick or whole second (R212). -/
  restartDue : Bool := false
  /-- The receiver is fenced (R214). -/
  fenced : Bool := false
  /-- MTB time at which the first of the deviating blocks began (R202, R203). -/
  deviatedAt : Nat := 0
  /-- MTB time from which input converts to zero samples, after a rate change (R203). -/
  zeroFrom : Option Nat := none
  /-- MTB time from which it no longer does, once the coarse step has been made (R203). -/
  zeroTo : Option Nat := none
  /-- Blocks since the coarse step of a reacquisition (R203, Table 1 of the audio chapter). -/
  acquired : Nat := 0
  deriving DecidableEq, Repr

/-- A route of an audio output or programme (R214). -/
structure Route where
  /-- Member index (R214). -/
  member : Nat := 0
  /-- Channel within the member (R214). -/
  chan : Nat := 0
  /-- Second channel (R214). -/
  second : Option Nat := none
  /-- Gain in 0.5 dB steps (R214). -/
  gain : Int := 0
  deriving DecidableEq, Repr

/-- The professional channel status of a PCM output (R213). -/
structure PcmStatus where
  /-- Sampling frequency, Hz (R213). -/
  rate : Nat := 48000
  /-- Word length (R213). -/
  bits : Nat := 24
  /-- The non-audio bit (R213). -/
  nonAudio : Bool := false
  deriving DecidableEq, Repr

/-- An AES3 output (chapter 10). -/
structure AudOut where
  /-- A record has been taken (R214). -/
  taken : Bool := false
  /-- AUD_OUT_CHANNEL (R214). -/
  channel : Nat := 0
  /-- AUD_OUT_TRANSP (R215). -/
  transp : Bool := false
  /-- AUD_OUT_AUTO_RESTART (R212). -/
  autoRestart : Bool := false
  /-- AUD_OUT_DELAY (R213, R214). -/
  delay : Nat := 0
  /-- AUD_OUT_ROUTE_A and _B (R214). -/
  routes : List Route := []
  /-- AUD_OUT_STATE (R215). -/
  st : Nat := 0
  /-- AUD_OUT_SWAPPED (R212, R215). -/
  swapped : Bool := false
  /-- AUD_OUT_MUTED_337 (R208, R215). -/
  muted337 : Bool := false
  /-- AUD_OUT_SWAPS (R215). -/
  swaps : Nat := 0
  /-- AUD_OUT_UNDERRUNS (R215). -/
  underruns : Nat := 0
  /-- AUD_PG_337_MUTES (R208, R215). -/
  mutes : Nat := 0
  /-- The port restart's gain (R212). -/
  restartGain : Gain := ⟨240, true⟩
  /-- Pairing is realigned at the next Z preamble (R212). -/
  realign : Bool := false
  /-- A restart waits for a frame tick or whole second (R212). -/
  restartDue : Bool := false
  /-- Words of the two subframes by the sample tick they start at (R213). -/
  sent : Tab (List Nat) := []
  /-- The channel status that it sends, for a PCM output (R213). -/
  status : Option PcmStatus := none
  deriving DecidableEq, Repr

/-- An audio programme (R213). -/
structure Programme where
  /-- AUD_PG_CHANNEL (R214). -/
  channel : Nat := 0
  /-- AUD_PG_CARRIAGE (R214). -/
  carriage : Nat := 0
  /-- AUD_PG_BITS (R214). -/
  bits : Nat := 24
  /-- AUD_PG_COUNT (R214). -/
  count : Nat := 2
  /-- AUD_PG_PTIME in force (R214). -/
  ptime : Nat := 0
  /-- AUD_PG_ROUTE0–7 (R214). -/
  routes : List Route := []
  /-- Its sample of the present sample tick, one word per channel (R213). -/
  words : List Nat := []
  deriving DecidableEq, Repr

/-- A payload mute of a channel pair of an input path (R208). -/
structure Mute where
  /-- The pair is muted (R208). -/
  active : Bool := false
  /-- Sample tick of the last sync word or non-audio bit (R208). -/
  lastSign : Nat := 0
  /-- Its gain (R208). -/
  gain : Gain := ⟨240, true⟩
  /-- The sample tick from which it acts, that of the word before Pa (R208). -/
  start : Nat := 0
  deriving DecidableEq, Repr

/-- Audio (chapter 10). -/
structure Aud where
  /-- AES_IN0–AES_IN31 (R200). -/
  ins : Tab AudIn := []
  /-- AES_OUT0–AES_OUT15 (R213). -/
  outs : Tab AudOut := []
  /-- Programmes 0–255 with a record (R213). -/
  programmes : Tab Programme := []
  /-- Payload mutes by 64 × path + pair; path is an AES3 input, or 32 + flow (R208). -/
  mutes : Tab Mute := []
  /-- Gains of audio members by 16 × channel + member (R210, R211). -/
  memberGain : Tab Gain := []
  /-- The last sample tick (R32). -/
  tick : Nat := 0
  /-- Last word of each channel of an input path, by path (R207). -/
  lastWords : Tab (List Nat) := []
  deriving DecidableEq, Repr

/-- What a packet is: a single NAL unit, a fragmentation unit or an aggregation packet (R218), seven TS packets
(R219), an FEC packet (R221), audio samples (R222), or an RTCP report (R236). -/
inductive PktForm where
  | single | fragment | aggregation | transport | fec | audio | report
  deriving DecidableEq, Repr

/-- An elementary stream of a PMT (R219). -/
structure PmtEntry where
  /-- Its PID (R219). -/
  pid : Nat := 0
  /-- Its stream_type (R219). -/
  streamType : Nat := 0
  /-- The format_identifier of its registration descriptor (R219). -/
  registration : Option Nat := none
  deriving DecidableEq, Repr

/-- A packet waiting in a flow queue (R224 to R231). -/
structure QPkt where
  /-- Length on the wire, bytes (R217, R227). -/
  wire : Nat := 0
  /-- Emission time of its slice, or queue time, in 2^-32 ns (R43, R224). -/
  emit : Nat := 0
  /-- Lead-in or first packet of a slice (R224). -/
  head : Bool := false
  /-- Of an 8K sub-frame row, before the first packet of tile column 3 (R224). -/
  early : Bool := false
  /-- The first packet of a slice (R225). -/
  first : Bool := false
  /-- Tile column (R224). -/
  tile : Nat := 0
  /-- MTB time it was queued, for its age (R239). -/
  queuedAt : Nat := 0
  /-- A media packet; false for FEC (R221). -/
  media : Bool := true
  /-- TS packets per PID: 0 PAT, 1–5 offsets of PID base, 6 SCTE 35, 7 PMT (R219). -/
  pids : List (Nat × Nat) := []
  /-- What it is (R218, R219, R221, R222, R236). -/
  form : PktForm := .single
  /-- The marker bit: the last packet of an access unit (R218). -/
  marker : Bool := false
  /-- Its RTP timestamp; none where no rule states it (R218, R222). -/
  stamp : Option Nat := none
  /-- The PTS and DTS of a PES packet that begins in it (R220, R222). -/
  pts : Option Nat := none
  /-- What its UDP ports lie above those of the flow (R221, R236). -/
  dst : Nat := 0
  /-- It carries a PCR (R220). -/
  pcr : Bool := false
  /-- Dropped at its queue: its sequence number and continuity counts are passed over at its turn, so that the other
  leg's datagrams keep theirs (R217, R226, R240). -/
  lost : Bool := false
  /-- The PES_packet_length of a video PES packet that begins in it (R219). -/
  pes : Option Nat := none
  deriving DecidableEq, Repr

/-- An accepted shaper rate change (R229). -/
structure RateChange where
  /-- B/s (R229). -/
  rate : Nat := 0
  /-- Bytes (R229). -/
  depth : Nat := 0
  /-- The sample tick at which it takes effect (R229). -/
  tick : Nat := 0
  deriving DecidableEq, Repr

/-- What the merge stage of a flow leg takes: the device's own packetiser, the partner's packets, or nothing (R256).
-/
inductive MergeSrc where
  | device | partner | silent
  deriving DecidableEq, Repr

/-- A frame of the management plane that waits at a port: a PTP message or a membership report, sent in class 6
(R231, R319). -/
structure OwnFrame where
  /-- Length on the wire, bytes (R231; log entry 76). -/
  wire : Nat := 0
  /-- Its VLAN, LNK_E_VLAN (R319). -/
  vlan : Nat := 0
  /-- A PTP message, into which its timestamp is inserted as it leaves (R320). -/
  ptp : Bool := false
  /-- MTB time it was queued. -/
  queuedAt : Nat := 0
  deriving DecidableEq, Repr

/-- An egress flow leg (chapter 11). -/
structure Leg where
  /-- Its channel (R226). -/
  channel : Nat := 0
  /-- EGR_KIND (R226). -/
  kind : Nat := 0
  /-- EGR_FAMILY (R226). -/
  family : Nat := 0
  /-- EGR_SOURCE (R226). -/
  source : Nat := 0
  /-- The leg's port (R226). -/
  port : Nat := 0
  /-- The leg's group (R226). -/
  group : Nat := 0
  /-- EGR_ST_LEG_B (R242). -/
  legB : Bool := false
  /-- The flow has two legs (R217). -/
  twoLegs : Bool := false
  /-- EGR_UDP_DST (R226). -/
  udpDst : Nat := 2
  /-- EGR_UDP_SRC (R226). -/
  udpSrc : Nat := 2
  /-- Destination address (R226). -/
  dest : Bytes := []
  /-- EGR_SSRC (R226). -/
  ssrc : Nat := 0
  /-- EGR_PT (R226). -/
  pt : Nat := 96
  /-- EGR_DSCP (R226). -/
  dscp : Nat := 34
  /-- EGR_VLAN (R226). -/
  vlan : Nat := 0
  /-- EGR_TC in force (R217, R226). -/
  tc : Nat := 6
  /-- EGR_FEC in force (R221). -/
  fec : Nat := 0
  /-- EGR_FEC_L (R221). -/
  fecL : Nat := 1
  /-- EGR_FEC_D in force (R221). -/
  fecD : Nat := 4
  /-- EGR_SRTP_KEY (R226, R235). -/
  srtpKey : Option Nat := none
  /-- EGR_RTCP (R226, R236). -/
  rtcp : Bool := false
  /-- EGR_WEIGHT (R226). -/
  weight : Nat := 1024
  /-- EGR_RATE_KBPS (R226). -/
  rateCfg : Nat := 0
  /-- EGR_DEPTH as given, 0 for two full packets (R226). -/
  depthCfg : Nat := 0
  /-- ST 302 programmes carried (R219, R226). -/
  tsAudio : List Nat := []
  /-- EGR_TS_PID_BASE (R226). -/
  pidBase : Nat := 0x100
  /-- EGR_TS_PROGRAM (R226). -/
  program : Nat := 1
  /-- EGR_ST_STATE (R242). -/
  st : Nat := 0
  /-- Computed charge of an audio flow, b/s (R227, R229). -/
  minRate : Nat := 0
  /-- Rate admitted, b/s (R229). -/
  maxRate : Nat := 0
  /-- Egress charge admitted, b/s (R227, R242). -/
  charge : Nat := 0
  /-- Shaper rate in force ρ_b, b/s (R228, R242). -/
  rate : Nat := 0
  /-- Bucket depth β, bytes (R228). -/
  depth : Nat := 0
  /-- Τ in 2^-16 byte (R228, R242). -/
  tokens : Int := 0
  /-- MGT cycle of the last refill of τ (R228). -/
  filled : Nat := 0
  /-- The rate change waiting for its sample tick (R229). -/
  change : Option RateChange := none
  /-- The flow queue, oldest first (R240). -/
  queue : List QPkt := []
  /-- F_f, finish stamp of its last packet (R230). -/
  finish : Nat := 0
  /-- Finish stamp of its head packet (R230). -/
  stamp : Option Nat := none
  /-- EGR_ST_SEQ (R234, R242). -/
  seq : Nat := 0
  /-- EGR_ST_ROC (R235, R242). -/
  roc : Nat := 0
  /-- EGR_ST_SRTP_WAIT (R235, R242). -/
  srtpWait : Bool := false
  /-- It sends only from the next frame tick (R235). -/
  srtpHeld : Bool := false
  /-- Its destination MAC is known (R226). -/
  resolved : Bool := false
  /-- The destination MAC (R226). -/
  mac : Nat := 0
  /-- EGR_ST_PKTS (R242). -/
  pkts : Nat := 0
  /-- EGR_ST_BYTES (R242). -/
  bytes : Nat := 0
  /-- EGR_ST_DROPS (R242). -/
  drops : Nat := 0
  /-- EGR_ST_MARKS (R225, R242). -/
  marks : Nat := 0
  /-- EGR_ST_SPLICE_LATE (R237, R242). -/
  spliceLate : Nat := 0
  /-- EGR_ST_SPLICE_DISC (R237, R242). -/
  spliceDisc : Nat := 0
  /-- EGR_ST_DEPTH_H0–15; empty is sixteen zeros (R239, R242). -/
  depthHist : List Nat := []
  /-- EGR_ST_AGE_H0–15 (R239, R242). -/
  ageHist : List Nat := []
  /-- SCTE 35 sections waiting for the next picture (R237). -/
  splices : List Bytes := []
  /-- TS continuity counters by PID: 0 PAT, 1–5 offsets of PID base, 6 SCTE 35, 7 PMT (R219, R234). -/
  cc : Tab Nat := []
  /-- The PIDs whose next TS packet carries discontinuity_indicator (R234). -/
  disc : List Nat := []
  /-- 100 ms multiple at which PAT and PMT were last sent (R219). -/
  psiAt : Nat := 0
  /-- MTB time of the last PCR (R220). -/
  pcrAt : Nat := 0
  /-- Media packets since the FEC matrix began (R221, R234). -/
  fecRow : Nat := 0
  /-- RTCP sender reports sent (R234, R236). -/
  srCount : Nat := 0
  /-- RTCP packets counted and ignored (R236). -/
  rtcpIgnored : Nat := 0
  /-- The source the merge stage takes (R256). -/
  src : MergeSrc := .device
  /-- The local packetisers run for it (R258, R259). -/
  running : Bool := true
  /-- The source the claims select and that waits for a switch point (R257). -/
  want : Option MergeSrc := none
  /-- MTB time at which the claims selected it (R257). -/
  wantAt : Nat := 0
  /-- The switch unit of the first switch point after the claims selected it (R257). -/
  wantPoint : Option Nat := none
  /-- The highest switch unit of which a packet has come from the partner (R257). -/
  seenUnit : Option Nat := none
  /-- The highest switch unit whose last packet has come from the partner (R257). -/
  doneUnit : Option Nat := none
  /-- A packet of the partner has been forwarded since this source was taken (R269). -/
  forwarded : Bool := false
  /-- RTP timestamp of the last packet forwarded (R234, R269). -/
  lastTs : Nat := 0
  /-- The elementary streams of the PMT last sent (R219). -/
  pmt : List PmtEntry := []
  /-- The format_identifier of the registration descriptor in the program loop of the PMT last sent (R219). -/
  pmtProgram : Option Nat := none
  /-- The last PCR sent, in 27 MHz units modulo 2^33 × 300 (R220). -/
  pcr : Option Nat := none
  /-- MTB time at which the first packet of each of the latest switch units came from the partner (R257). -/
  seenAt : Tab Nat := []
  /-- MTB time at which the last packet of each of the latest switch units came from the partner (R257). -/
  doneAt : Tab Nat := []
  /-- Time of the switch point after the first that the claims selected (R257). -/
  nextPointAt : Option Nat := none
  /-- Packets the packetiser has just produced, on their way to VA (R247). -/
  made : List QPkt := []
  /-- Packets of the partner that the merge stage has forwarded and that wait for their gate or the end of a pause
  (R234, R319). -/
  fwd : List PairPacket := []
  /-- The SRTP session key in force, from the key and salt of its slot (R235). -/
  sessKey : Bytes := []
  /-- The SRTP session salt in force (R235). -/
  sessSalt : Nat := 0
  /-- The AEAD_AES_256_GCM initialisation vector of the packet last sent (R235). -/
  iv : Option Nat := none
  deriving DecidableEq, Repr

/-- The sample histograms of a group or port class (R239). -/
structure HistSet where
  /-- Depth bins (R239). -/
  depthHist : List Nat := []
  /-- Age bins (R239). -/
  ageHist : List Nat := []
  /-- Packets sent (R242). -/
  pkts : Nat := 0
  /-- Wire bytes sent (R242). -/
  bytes : Nat := 0
  deriving DecidableEq, Repr

/-- A flow group (R230, R241). -/
structure EgrGroup where
  /-- EGR_G_PORT (R241). -/
  port : Nat := 0
  /-- EGR_G_CLASS (R241). -/
  cls : Nat := 0
  /-- EGR_G_WEIGHT (R241). -/
  weight : Nat := 1024
  /-- Virtual time V (R230). -/
  v : Nat := 0
  /-- Finish stamp of its last packet (R230). -/
  finish : Nat := 0
  /-- Its stamp among the groups of its class (R230). -/
  stamp : Option Nat := none
  /-- Its statistics (R242). -/
  stats : HistSet := {}
  deriving DecidableEq, Repr

/-- A traffic class of a port (R231, R241). -/
structure PortClass where
  /-- EGR_P_SHARE_KBPS (R241). -/
  share : Nat := 0
  /-- EGR_P_BURST (R241). -/
  burst : Nat := 6168
  /-- Κ_c in 2^-16 byte (R231). -/
  credit : Int := 0
  /-- MTB time of the last growth of κ_c (R231). -/
  filled : Nat := 0
  /-- Virtual time of the groups of this class (R230). -/
  v : Nat := 0
  /-- Its statistics (R242). -/
  stats : HistSet := {}
  deriving DecidableEq, Repr

/-- A gate list (R232, R233). -/
structure GateList where
  /-- EGR_GL_CYCLE_NS (R241). -/
  cycle : Nat := 0
  /-- Base time, ns since the epoch (R241). -/
  base : Nat := 0
  /-- The time it starts, ns since the epoch (R233). -/
  start : Nat := 0
  /-- Gates and interval in ns of each entry (R241). -/
  entries : List (Nat × Nat) := []
  deriving DecidableEq, Repr

/-- The egress side of an Ethernet port (chapter 11). -/
structure EgrPort where
  /-- A port class record has been taken (R241). -/
  classTaken : Bool := false
  /-- Classes 0–7 (R231). -/
  classes : Tab PortClass := []
  /-- The list in force; none opens every gate (R232). -/
  gates : Option GateList := none
  /-- The accepted list waiting to start (R233). -/
  nextGates : Option GateList := none
  /-- Gates open in the present entry (R232). -/
  gateState : Nat := 255
  /-- Time at which the present entry ends, ns (R232). -/
  gateUntil : Nat := 0
  /-- The present entry (R232). -/
  gateIdx : Nat := 0
  /-- Time at which the present cycle began, ns (R232). -/
  cycleAt : Nat := 0
  /-- Egress charged, b/s (R227). -/
  charged : Nat := 0
  /-- Frames of the management plane that wait for class 6 (R231). -/
  own : List OwnFrame := []
  deriving DecidableEq, Repr

/-- Egress (chapter 11). -/
structure Egr where
  /-- Flow legs 0–4,095, those configured (R226). -/
  legs : Tab Leg := []
  /-- Channels that a flow record makes fail with cause structural (R226). -/
  badFlows : List Nat := []
  /-- Groups 0–255 with a record (R241). -/
  groups : Tab EgrGroup := []
  /-- Ports 0–15 (R231). -/
  ports : Tab EgrPort := []
  /-- MTB time at which groups and port classes were last sampled (R239). -/
  sampledAt : Nat := 0
  deriving DecidableEq, Repr

/-- What a claim beacon says (R247). -/
structure Beacon where
  /-- The claim (R247). -/
  claim : Nat := 0
  /-- The pair epoch (R247). -/
  epoch : Nat := 0
  /-- The mode code (R247). -/
  mode : Nat := 0
  /-- The Degraded flag (R247). -/
  degraded : Bool := false
  /-- The beacon count (R247). -/
  count : Nat := 0
  deriving DecidableEq, Repr

/-- The message of R246: a digest, the sender's ID and its RED_PARTNER_ID. -/
structure PairDigest where
  /-- The 64-byte digest (R246). -/
  digest : Bytes := []
  /-- The sender's device ID (R246). -/
  ident : Nat := 0
  /-- Its RED_PARTNER_ID (R246). -/
  wants : Nat := 0
  deriving DecidableEq, Repr

/-- A fingerprint of the device or its partner waiting for the other copy (R251). -/
structure Row where
  /-- The fingerprint (R249, R250). -/
  print : Fingerprint := ⟨.input 0 0 0, 0, false⟩
  /-- MTB time it became final or arrived (R251). -/
  time : Nat := 0
  deriving DecidableEq, Repr

/-- A change forwarded to the deciding device and not yet answered (R264). -/
structure Fwd where
  /-- The request to answer (R264). -/
  req : Option Req := none
  /-- The host item, by order of submission (R291). -/
  item : Option Nat := none
  /-- Its opcode (R264). -/
  opcode : Nat := 0
  /-- Its channel (R264). -/
  channel : Nat := 0
  /-- The change (R264). -/
  change : ShadowChange := .nothing
  /-- A value was clamped (R437). -/
  clamped : Bool := false
  /-- Effective values the reply echoes before the target (R437). -/
  data : Bytes := []
  deriving DecidableEq, Repr

/-- The counts of the present second for the health report (R270). -/
structure Health where
  /-- RED_H_IN_COMPARED (R270). -/
  inCompared : Nat := 0
  /-- RED_H_IN_MISMATCH (R270). -/
  inMismatch : Nat := 0
  /-- RED_H_OUT_COMPARED (R270). -/
  outCompared : Nat := 0
  /-- RED_H_OUT_MISMATCH (R270). -/
  outMismatch : Nat := 0
  /-- RED_H_MISSING (R270). -/
  missing : Nat := 0
  /-- RED_H_XPORT_CHECKED (R270). -/
  xChecked : Nat := 0
  /-- RED_H_XPORT_ERRORS (R270). -/
  xErrors : Nat := 0
  /-- RED_H_VA_RETRIES (R270). -/
  vaRetries : Nat := 0
  deriving DecidableEq, Repr

/-- Paired operation (chapter 12). -/
structure Red where
  /-- A pair record has been taken (R272). -/
  taken : Bool := false
  /-- RED_PAIRED (R272). -/
  paired : Bool := false
  /-- RED_HB_HEDGEROW (R272). -/
  hbHedgerow : Bool := false
  /-- RED_PARTNER_ID (R272). -/
  partnerId : Nat := 65535
  /-- RED_SWAP_S (R272). -/
  swapS : Nat := 3600
  /-- RED_SWAP_OFF (R272). -/
  swapOff : Bool := false
  /-- RED_INPUT_GRACE (R272). -/
  grace : Nat := 1
  /-- RED_HEALTH_EVT (R272). -/
  healthEvt : Bool := false
  /-- RED_VA_UP (R248, R273). -/
  vaUp : Bool := false
  /-- VA has been down for 20 ms (R248). -/
  vaSilent : Bool := false
  /-- MTB time VA went down, or of entry to M2 (R248). -/
  vaDownAt : Nat := 0
  /-- MTB time of the last edge on PAIR_HB_IN, from which RED_HB_PRESENT follows (R261, R273). -/
  hbEdgeAt : Option Nat := none
  /-- The heartbeat has been silent for 20 ms (R261). -/
  hbSilent : Bool := false
  /-- MTB time of the last heartbeat edge or frame, or of entry to M2 (R261). -/
  hbAt : Nat := 0
  /-- MTB time of the last Hedgerow heartbeat (R261, R348). -/
  hrwHbAt : Option Nat := none
  /-- PAIR_HB_OUT and the Hedgerow heartbeat stopped under R259 (R259). -/
  hbStopped : Bool := false
  /-- RED_PARTNER_DEGRADED (R273). -/
  partnerDegraded : Bool := false
  /-- RED_SPLIT (R263, R273). -/
  split : Bool := false
  /-- Consecutive edges that disagree in parity (R263). -/
  splitEdges : Nat := 0
  /-- RED_YIELDED (R263, R273). -/
  yielded : Bool := false
  /-- RED_CLASH (R246, R273). -/
  clash : Bool := false
  /-- The digests have been compared (R246). -/
  digestDone : Bool := false
  /-- RED_MATCH_RUN (R252, R273). -/
  matchRun : Nat := 0
  /-- RED_PARTNER_MODE (R273). -/
  partnerMode : Nat := 0
  /-- The ID the partner's digest or claim showed (R246, R348). -/
  peerId : Nat := 0
  /-- RED_CLAIM (R253, R273). -/
  claim : Nat := 0
  /-- RED_CLAIM_PARTNER (R253, R273). -/
  partnerClaim : Nat := 0
  /-- RED_PAIR_EPOCH (R253, R273). -/
  epoch : Nat := 0
  /-- RED_PROMOTIONS, saturating (R273). -/
  promotions : Nat := 0
  /-- RED_SWAPS, saturating (R273). -/
  swaps : Nat := 0
  /-- RED_RESYNCS, saturating (R267, R273). -/
  resyncs : Nat := 0
  /-- RED_OUT_MISMATCH_FRAMES (R273). -/
  outMismatchFrames : Nat := 0
  /-- RED_IN_MISMATCH_FRAMES (R273). -/
  inMismatchFrames : Nat := 0
  /-- RED_MISSING (R251, R273). -/
  missing : Nat := 0
  /-- RED_XPORT_ERRORS (R269, R273). -/
  xportErrors : Nat := 0
  /-- RED_SWAPS_SKIPPED (R268, R273). -/
  swapsSkipped : Nat := 0
  /-- RED_COPY_BYTES (R273). -/
  copyBytes : Nat := 0
  /-- RED_COPY_US (R273). -/
  copyUs : Nat := 0
  deriving DecidableEq, Repr

/-- The moving parts of paired operation: comparison, resync, swaps and beacons (chapter 12). -/
structure RedRun where
  /-- Beacon count sent (R247). -/
  beaconCount : Nat := 0
  /-- Beacon count last received (R247). -/
  partnerCount : Nat := 0
  /-- Local fingerprints waiting for the partner's (R251). -/
  locals : List Row := []
  /-- Partner fingerprints waiting for the local one (R251). -/
  partners : List Row := []
  /-- Rows in a run worse than the partner's per channel (R260). -/
  worse : Tab Nat := []
  /-- Comparisons decided in the present pair frame (R252). -/
  decided : Nat := 0
  /-- An output or audio mismatch in it (R252). -/
  outBad : Bool := false
  /-- An input mismatch in it (R252). -/
  inBad : Bool := false
  /-- A missing fingerprint in it (R252). -/
  missed : Bool := false
  /-- Consecutive pair frames with an output mismatch (R252). -/
  badRun : Nat := 0
  /-- Pair frames judged (R252). -/
  frames : Nat := 0
  /-- MTB time of entry to M6 (R266, R273). -/
  resyncAt : Nat := 0
  /-- A state copy is in progress (R266). -/
  copying : Bool := false
  /-- Join frame per channel (R266). -/
  joins : Tab Nat := []
  /-- Channels whose copy is complete (R266). -/
  joined : List Nat := []
  /-- MTB time of the last swap or promotion (R268). -/
  lastSwap : Nat := 0
  /-- The swap frame named (R268). -/
  swapFrame : Option Nat := none
  /-- MTB time the claim was given up with VA down (R259). -/
  claimLost : Option Nat := none
  /-- Counts of the present second (R270). -/
  health : Health := {}
  /-- The last health report written at 0x9080 (R270). -/
  own : Bytes := []
  /-- The last health report of the partner (R274). -/
  partner : Bytes := []
  /-- Changes forwarded and not yet answered, oldest first (R264). -/
  forwards : List Fwd := []
  /-- Commits sent to the partner, newest first (R264). -/
  toPartner : List Commit := []
  /-- Overlay slots copied to the partner (R265). -/
  copies : Nat := 0
  /-- The partner's digest and IDs, received and not yet compared (R246). -/
  digest : Option PairDigest := none
  /-- The latest output fingerprints of this device, newest first, at most 512 (R250, R269). -/
  recent : List Fingerprint := []
  /-- The swap that is due has been counted as skipped (R268). -/
  swapSkip : Bool := false
  /-- The present pair frame began with every channel past its join frame (R267). -/
  counting : Bool := false
  /-- Bytes of the copy in progress (R273). -/
  bytes : Nat := 0
  /-- The frame at whose tick the last swap was made, which a swap is not made at again (R268). -/
  swapped : Option Nat := none
  /-- The frame tick, or 10 ms of the MTB, at which the last pair frame ended (R252). -/
  pairFrame : Option Nat := none
  /-- The last claim beacon sent (R247). -/
  beacon : Option Beacon := none
  /-- The pair digest has been sent (R246). -/
  digestSent : Bool := false
  /-- MTB time of entry to M6 (R273). -/
  m6At : Nat := 0
  /-- The boundary at which a pair frame was judged ahead of its PAIR_FRAME_END, because an owner request or a role
  swap of the same MGT cycle came first in the queue (R14). -/
  judgedAhead : Option Nat := none
  /-- The RED_SWAP_NOW forwarded to the active device and not yet answered (R275). -/
  swapAsked : Option Held := none
  /-- On the source of a copy, the join frame it named per channel (R266). -/
  srcJoins : Tab Nat := []
  /-- On the source of a copy, the channels whose small state has been sent (R266). -/
  srcSmall : List Nat := []
  deriving DecidableEq, Repr

/-- Where a work item is (R279 to R286). -/
inductive Place where
  | parked | waiting | queued (queue : Nat) | running (core : Nat) | backoff | done
  deriving DecidableEq, Repr

/-- What a host item does at its release (R289 to R292). -/
structure HostItem where
  /-- The PVD_SUBMIT to answer (R289). -/
  req : Req := ⟨0, 0, 0, 0, 0, []⟩
  /-- Its partition (R290). -/
  partition : Nat := 0
  /-- The channel concerned (R291). -/
  channel : Nat := 0
  /-- Its target frame, and once committed the frame it takes effect at (R291). -/
  target : Nat := 0
  /-- The frame it named was past at acceptance (R42). -/
  missed : Bool := false
  /-- The change committed at release (R291). -/
  change : ShadowChange := .nothing
  /-- Its effect is made, and its completion waits for a slot release, a frame tick, a copy or the partner (R170,
  R264, R265). -/
  waits : Bool := false
  /-- Its change is committed (R264, R291). -/
  committed : Bool := false
  /-- It is complete and its reply waits for room in the reply ring (R293). -/
  answered : Bool := false
  /-- Its place among the commits of host items (R170). -/
  commitNo : Nat := 0
  /-- A value was clamped (R437). -/
  clamped : Bool := false
  deriving DecidableEq, Repr

/-- A work item (R279). -/
structure Item where
  /-- PVD_CLASS (R279). -/
  cls : Nat := 0
  /-- PVD_FLOW (R279). -/
  flow : Nat := 0
  /-- PVD_SEQ (R279). -/
  seq : Nat := 0
  /-- PVD_CNT (R279). -/
  counter : Option Nat := none
  /-- It is ready: it names no counter, or its counter was zero at submission or has reached zero since (R281). -/
  ready : Bool := false
  /-- Full deadline in 1.024 µs units (R279). -/
  deadline : Nat := 0
  /-- PVD_PAYLOAD (R279). -/
  payload : Nat := 0
  /-- The queue of its class (R282). -/
  queue : Nat := 0
  /-- PVD_RETRY (R279). -/
  retries : Nat := 0
  /-- Counters its release decrements, at most four (R280). -/
  decrements : List Nat := []
  /-- Where it is (R281, R282). -/
  place : Place := .waiting
  /-- Order of submission (R281). -/
  order : Nat := 0
  /-- It is released empty: discarded or failed (R284). -/
  empty : Bool := false
  /-- Host items only (R289). -/
  host : Option HostItem := none
  /-- Its descriptor as it left the wait store (R279). -/
  word : Nat := 0
  /-- MTB time at which its backoff ends (R286). -/
  retryAt : Nat := 0
  deriving DecidableEq, Repr

/-- A Box core in service (R276 to R278). -/
structure Core where
  /-- It belongs to the live pool (R276). -/
  live : Bool := false
  /-- It moves to the live pool after its current item (R278). -/
  moving : Bool := false
  /-- Items the lowest service core has taken, modulo 16 (R283). -/
  took : Nat := 0
  /-- Flow and sequence of the item it runs (R277). -/
  busy : Option (Nat × Nat) := none
  /-- MTB time it took that item (R296). -/
  since : Nat := 0
  /-- MTB time the item it runs was begun, for the watchdog (R277). -/
  startedAt : Nat := 0
  deriving DecidableEq, Repr

/-- The quotas and counters of a partition (R290, R295, R296). -/
structure Quota where
  /-- A quota record has been taken (R295). -/
  taken : Bool := false
  /-- PVD_P_QUOTA (R290, R295). -/
  quota : Nat := 16
  /-- PVD_P_RATE (R290, R295). -/
  rate : Nat := 8
  /-- Items accepted in the present period (R290). -/
  used : Nat := 0
  /-- PVD_P_SUBMITTED (R296). -/
  submitted : Nat := 0
  /-- PVD_P_BUSY (R296). -/
  busy : Nat := 0
  /-- PVD_P_RATE_EXCESS (R296). -/
  rateExcess : Nat := 0
  /-- PVD_P_REPLY_HELD (R296). -/
  replyHeld : Nat := 0
  /-- PVD_P_LATE (R296). -/
  late : Nat := 0
  deriving DecidableEq, Repr

/-- The dispatcher and the Box cores (chapter 13). -/
structure Pvd where
  /-- Cores in service (R276). -/
  cores : Tab Core := []
  /-- Every item from submission to release, oldest first (R281). -/
  items : List Item := []
  /-- Dependence counters not zero (R280). -/
  counters : Tab Nat := []
  /-- Oldest unreleased sequence per flow (R284). -/
  heads : Tab Nat := []
  /-- Next sequence per flow (R279). -/
  next : Tab Nat := []
  /-- Submissions so far (R281). -/
  order : Nat := 0
  /-- Commits of host items so far (R170). -/
  commits : Nat := 0
  /-- Queues whose producers stall; 64 is the wait store (R287). -/
  stalled : List Nat := []
  /-- Items in the post buffers of stalled producers, oldest first (R287). -/
  posts : List WorkItem := []
  /-- Partitions 0–15 (R290). -/
  quotas : Tab Quota := []
  /-- Dispatcher charge admitted, cycles/s (R288). -/
  admitted : Nat := 0
  /-- Cores that passed self-test (R276, R288). -/
  passing : Nat := 0
  /-- PVD_DISCARDS (R296). -/
  discards : Nat := 0
  /-- PVD_RETRIES (R296). -/
  retries : Nat := 0
  /-- PVD_FAILED (R296). -/
  failed : Nat := 0
  /-- PVD_WMARK_HITS (R296). -/
  wmarkHits : Nat := 0
  /-- PVD_WDOG_TRIPS (R296). -/
  wdogTrips : Nat := 0
  /-- PVD_CNT_FAULTS (R296). -/
  cntFaults : Nat := 0
  /-- PVD_WAIT_PEAK (R296). -/
  waitPeak : Nat := 0
  /-- PVD_Q_PEAK per queue (R296). -/
  queuePeaks : Tab Nat := []
  /-- PVD_LIVE_UTIL (R296). -/
  liveUtil : Nat := 0
  /-- PVD_SVC_UTIL (R296). -/
  svcUtil : Nat := 0
  /-- Busy time of live-pool cores in the present second (R296). -/
  liveBusy : Nat := 0
  /-- Busy time of service-pool cores in the present second (R296). -/
  svcBusy : Nat := 0
  /-- The frame tick, or 10 ms of the MTB, at which the last rate-quota period ended (R290). -/
  periodAt : Option Nat := none
  /-- Live items held through M9 are discarded at the next tick (Table 1 of the dispatcher chapter). -/
  dropLive : Bool := false
  deriving DecidableEq, Repr

/-- The self-refresh state of a stack (R306). -/
inductive SrState where
  | awake | entering | asleep | exiting
  deriving DecidableEq, Repr

/-- A request to HBM (R301). -/
structure HbmRequest where
  /-- The QoS port of its client (R11). -/
  port : Nat := 0
  /-- MTB time at which its port stamped it (R301). -/
  at_ : Nat := 0
  /-- Its client address (R299). -/
  addr : Nat := 0
  deriving DecidableEq, Repr

/-- An HBM stack (chapter 14). -/
structure Stack where
  /-- DRM_TEMP (R302, R316). -/
  temp : Int := 0
  /-- DRM_BAND (R304, R316). -/
  band : Nat := 0
  /-- DRM_REF_RATE (R302, R316). -/
  rate : Nat := 0
  /-- DRM_SR_STATE and DRM_SR_EXITING (R306, R316). -/
  sr : SrState := .awake
  /-- Requests that wait for the exit, oldest first (R301, R306). -/
  waiting : List HbmRequest := []
  /-- MTB time at which the exit in progress ends (R306). -/
  awakeAt : Nat := 0
  /-- MTB time from which it may enter self-refresh in M7: DRM_SR_IDLE_US after its last request (R306). -/
  idleFrom : Nat := 0
  /-- MTB time at which its sensor is next read (R302). -/
  readAt : Nat := 0
  deriving DecidableEq, Repr

/-- A pseudo-channel (chapter 14). -/
structure Pc where
  /-- Refreshes owed, 0–3 (R303). -/
  owed : Nat := 0
  /-- Its delays are rewritten in its next refresh (R305). -/
  rewrite : Bool := false
  /-- The band its delays are written for (R305). -/
  band : Nat := 0
  /-- Its DRM_RETIRED bit (R310, R316). -/
  retired : Bool := false
  /-- Errors corrected in the present second (R309). -/
  ces : Nat := 0
  /-- DRM_CE_RATE reported in this second (R309). -/
  rateReported : Bool := false
  /-- MTB time at which its next refresh falls due (R302). -/
  dueAt : Nat := 0
  /-- The open row of each bank that has one (R301). -/
  openRows : Tab Nat := []
  /-- Requests that wait on it and have been counted as at level 3: port and MTB time of arrival (R301, R316). -/
  late : List (Nat × Nat) := []
  deriving DecidableEq, Repr

/-- A QoS port (R301, R315). -/
structure QosPort where
  /-- DRM_P_TARGET; 0 for Table 2 (R301, R316). -/
  target : Nat := 0
  /-- DRM_P_FLOOR_EFF; none for Table 2 (R301, R316). -/
  floor : Option Nat := none
  /-- DRM_P_U3 (R316). -/
  u3 : Nat := 0
  /-- A QoS port record has been taken (R315). -/
  taken : Bool := false
  deriving DecidableEq, Repr

/-- Memory (chapter 14). -/
structure Drm where
  /-- The bytes of HBM by client address, in canonical form (R299, R300). -/
  mem : List Host.Cell := []
  /-- Poisoned 32-byte accesses, by address / 32 (R298, R308). -/
  poison : List Nat := []
  /-- Stacks 0–3 (R297). -/
  stackOf : Tab Stack := []
  /-- Pseudo-channels 0–127 (R297). -/
  pcs : Tab Pc := []
  /-- QoS ports 0–47 (R301). -/
  ports : Tab QosPort := []
  /-- A memory record has been taken (R315). -/
  taken : Bool := false
  /-- DRM_SCRUB_H (R309, R315). -/
  scrubH : Nat := 24
  /-- DRM_SR_IDLE_US (R306, R315). -/
  srIdleUs : Nat := 100
  /-- DRM_CE_LIMIT (R309, R315). -/
  ceLimit : Nat := 1000
  /-- DRM_SPARES_LEFT (R316). -/
  sparesLeft : Nat := 2
  /-- Pseudo-channels retired, in order (R310). -/
  order : List Nat := []
  /-- DRM_CE_COUNT (R316). -/
  ceCount : Nat := 0
  /-- DRM_UE_COUNT (R316). -/
  ueCount : Nat := 0
  /-- DRM_SCRUB_PASSES, saturating (R316). -/
  scrubPasses : Nat := 0
  /-- Accesses patrolled of the present pass (R309). -/
  scrubPc : Nat := 0
  /-- DRM_SR_WAITS (R316). -/
  srWaits : Nat := 0
  /-- DRM_REF_POSTPONED (R316). -/
  refPostponed : Nat := 0
  /-- Admission limit, B/s (R313, R316). -/
  limit : Nat := 0
  /-- Charge admitted, B/s (R313, R316). -/
  charged : Nat := 0
  /-- DRM_REMAP_PC (R316). -/
  remapPc : Nat := 0
  /-- DRM_REMAP_ACTIVE (R316). -/
  remapActive : Bool := false
  /-- DRM_REMAP: blocks copied (R316). -/
  remap : Nat := 0
  /-- MTB time at which the patrol reads its next access (R309). -/
  scrubAt : Nat := 0
  /-- Ordinals of the blocks that writes during the present copy have marked copied (R311). -/
  remapWritten : List Nat := []
  /-- MTB time at which the copy in progress began (R311; log entry 147). -/
  remapAt : Nat := 0
  deriving DecidableEq, Repr

/-- An Ethernet port (chapter 15). -/
structure EthPort where
  /-- Speed code of its quad mode (R317). -/
  speed : Nat := 0
  /-- LNK_E_PMD_EFF (R333, R335). -/
  pmd : Nat := 0
  /-- LNK_E_AN in force (R318, R333). -/
  an : Bool := false
  /-- LNK_E_PAUSE_RX (R319, R333). -/
  pauseRx : Bool := false
  /-- LNK_E_PRECODE (R318, R333). -/
  precode : Bool := false
  /-- LNK_E_TX_INV (R333). -/
  txInv : Nat := 0
  /-- LNK_E_RX_INV (R333). -/
  rxInv : Nat := 0
  /-- LNK_E_TX_PRE (R333). -/
  txPre : Nat := 0
  /-- LNK_E_TX_POST (R333). -/
  txPost : Nat := 0
  /-- LNK_E_MAC; empty for the fused base plus the port number (R333). -/
  mac : Bytes := []
  /-- LNK_E_V4_ADDR (R333). -/
  v4 : Bytes := []
  /-- LNK_E_V4_GW (R333). -/
  v4gw : Bytes := []
  /-- LNK_E_V4_PREFIX (R333). -/
  v4len : Nat := 0
  /-- LNK_E_V6_PREFIX (R333). -/
  v6len : Nat := 0
  /-- LNK_E_VLAN (R333). -/
  vlan : Nat := 0
  /-- LNK_E_V6_ADDR (R333). -/
  v6 : Bytes := []
  /-- LNK_E_V6_GW (R333). -/
  v6gw : Bytes := []
  /-- LNK_E_STATE (R335). -/
  st : Nat := 1
  /-- LNK_E_AN_DONE (R335). -/
  anDone : Bool := false
  /-- MTB time at which the pause ends, LNK_E_PAUSED (R319, R335). -/
  pausedUntil : Option Nat := none
  /-- MTB time at which the pause began (R319). -/
  pausedAt : Nat := 0
  /-- LNK_PAUSE_LONG reported for this pause (R319). -/
  longReported : Bool := false
  /-- LNK_E_FENCED (R322, R335). -/
  fenced : Bool := false
  /-- LNK_E_FEC_CORR (R335). -/
  fecCorr : Nat := 0
  /-- LNK_E_FEC_UNCORR (R335). -/
  fecUncorr : Nat := 0
  /-- LNK_E_RX_FCS (R335). -/
  rxFcs : Nat := 0
  /-- LNK_E_RX_OVERSIZE (R335). -/
  rxOversize : Nat := 0
  /-- LNK_E_PFC_IGNORED (R335). -/
  pfcIgnored : Nat := 0
  /-- LNK_E_PAUSE_US (R335). -/
  pauseUs : Nat := 0
  /-- LNK_E_TX_DOWN_DROPS (R335). -/
  downDrops : Nat := 0
  /-- LNK_E_DOWNS, saturating (R335). -/
  downs : Nat := 0
  /-- LNK_E_PAUSE_LONG, saturating (R335). -/
  pauseLong : Nat := 0
  /-- ARP, Neighbor Discovery and echo answers sent (R319). -/
  answers : Nat := 0
  /-- The LNK_RETRAIN requests to answer (R337). -/
  retrain : List Req := []
  /-- MTB time of the oldest LNK_RETRAIN that waits (R337). -/
  askedAt : Nat := 0
  /-- The multicast destinations reported with IGMPv3 or MLDv2 since the port came up (R319). -/
  joins : List Bytes := []
  /-- The timestamp of the last frame received, ns (R320). -/
  rxAt : Nat := 0
  /-- The timestamp of the last frame sent, ns (R320). -/
  txAt : Nat := 0
  /-- The timestamp inserted into the last PTP message sent, ns (R320). -/
  ptpAt : Option Nat := none
  /-- The clause of its PCS and RS(544,514) FEC: 161 at 100 Gb/s, 119 at 200 and 400 Gb/s (R318). -/
  pcs : Nat := 161
  /-- Its precoder is on: LNK_E_PRECODE, or as training requested (R318). -/
  precodeOn : Bool := false
  /-- The pre-cursor tap in force: LNK_E_TX_PRE, or as training requested (R318, R333). -/
  eqPre : Nat := 0
  /-- The post-cursor tap in force: LNK_E_TX_POST, or as training requested (R318, R333). -/
  eqPost : Nat := 0
  deriving DecidableEq, Repr

/-- What a frame sent on a Valsin port carries: the pair traffic of VA (R247) and the frames of the tree (R340 to
R348). -/
inductive LinkMsg where
  | beacon (b : Beacon)
  | digest (digest : Bytes) (ident wants : Nat)
  | print (f : Fingerprint)
  | change (channel target : Nat) (change : ShadowChange)
  | va (m : VaMsg)
  | packet (leg : Nat) (p : QPkt)
  | join (channel frame : Nat)
  | small (channel : Nat) (x : SmallState)
  | depth (depth : Nat) (tree : Option Nat)
  | map (ids : List Nat) (depth : Nat)
  | request (q : TreeRequest)
  | busy (origin hint : Nat)
  | broadcast (origin seq : Nat) (data : Bytes)
  | schedule (a : TreeAction)
  | arrival (barrier timeoutMs : Nat) (isPartial : Bool)
  | release (barrier seq : Nat) (isPartial : Bool)
  | timeout (barrier : Nat)
  | heartbeat (target sender claim epoch : Nat)
  deriving DecidableEq, Repr

/-- A frame that a Valsin port sends (R325, R326). -/
structure OutFrame where
  /-- LNK_F_CLASS (R247, R325). -/
  cls : Nat := 1
  /-- What it carries (R247). -/
  msg : LinkMsg := .va (.swap 0)
  /-- LNK_F_SEQ once it is sent (R325). -/
  seq : Nat := 0
  /-- It has been sent again, with the retry flag (R326). -/
  retry : Bool := false
  deriving DecidableEq, Repr

/-- A Valsin port: 0 VA, 1–5 VH0–VH4 (chapter 15). -/
structure ValPort where
  /-- A Valsin port record has been taken (R334). -/
  taken : Bool := false
  /-- LNK_V_MIN_STEP (R329, R334). -/
  minStep : Nat := 2
  /-- LNK_V_MAX_STEP (R334). -/
  maxStep : Nat := 3
  /-- LNK_V_IDLE_US (R330, R334). -/
  idleUs : Nat := 100
  /-- LNK_V_STATE (R335). -/
  st : Nat := 0
  /-- LNK_V_STEP (R335). -/
  step : Nat := 0
  /-- LNK_V_PEER_MAX (R335). -/
  peerMax : Nat := 0
  /-- LNK_V_REVERSED (R335). -/
  reversed : Bool := false
  /-- LNK_V_TX_ASLEEP (R335). -/
  txAsleep : Bool := false
  /-- LNK_V_RX_ASLEEP (R335). -/
  rxAsleep : Bool := false
  /-- LNK_V_STEP_LOW (R335). -/
  stepLow : Bool := false
  /-- LNK_V_WIRING (R335). -/
  wiring : Bool := false
  /-- LNK_V_RX_INV (R335). -/
  rxInv : Nat := 0
  /-- LNK_V_PEER_ID (R335). -/
  peerId : Nat := 0
  /-- LNK_V_TRAININGS, saturating (R335). -/
  trainings : Nat := 0
  /-- LNK_V_FALLBACKS, saturating (R335). -/
  fallbacks : Nat := 0
  /-- LNK_V_CRC_FAIL (R335). -/
  crcFail : Nat := 0
  /-- LNK_V_RETRIED (R335). -/
  retried : Nat := 0
  /-- LNK_V_LOST (R335). -/
  lost : Nat := 0
  /-- LNK_V_WAKES (R335). -/
  wakes : Nat := 0
  /-- LNK_V_LAST_UP_US (R335). -/
  lastUpUs : Nat := 0
  /-- Common step (R327). -/
  common : Nat := 0
  /-- The step requested and acknowledged, waiting for its switch (R327). -/
  target : Option Nat := none
  /-- Switched and not yet entered (R327). -/
  entering : Bool := false
  /-- The final step is entered; the first data frame makes the port up (R327). -/
  entered : Bool := false
  /-- The retry of step 0 after a fallback runs (R328). -/
  fallbackDone : Bool := false
  /-- What the last training sets showed, for the fallback (R328). -/
  lastSet : Option TrainingSet := none
  /-- MTB time the training began (R335). -/
  trainAt : Nat := 0
  /-- Next sequence expected (R325). -/
  rxSeq : Nat := 0
  /-- The sequence after the highest received or counted as missing (R335). -/
  topSeq : Nat := 0
  /-- Frames that failed their CRC since that sequence was reached (R335). -/
  failed : Nat := 0
  /-- The replay buffer: frames sent and not yet acknowledged, oldest first (R326). -/
  replay : List OutFrame := []
  /-- Frames held behind a gap (R326). -/
  held : List LinkFrame := []
  /-- Sequence to be resent that the next frame names (R326). -/
  nak : Option Nat := none
  /-- MTB time of that failure (R326). -/
  nakAt : Nat := 0
  /-- It has something to acknowledge (R326). -/
  ackOwed : Bool := false
  /-- Frames delivered in sequence (R326). -/
  delivered : Nat := 0
  /-- The LNK_RETRAIN requests to answer (R337). -/
  retrain : List Req := []
  /-- Frames queued for sending, oldest first (R247, R326). -/
  queue : List OutFrame := []
  /-- Sequence of the next frame sent (R325). -/
  txSeq : Nat := 0
  /-- MTB time of the last valid frame (R248). -/
  rxAt : Nat := 0
  /-- MTB time of the last frame sent (R330). -/
  txAt : Nat := 0
  /-- MTB time at which the present step was begun, or the port went down or stayed below its minimum (R327 to R329).
  -/
  stepAt : Nat := 0
  /-- MTB time at which the last wake began (R330). -/
  wakeAt : Nat := 0
  /-- MTB time of the oldest LNK_RETRAIN that waits (R337). -/
  askedAt : Nat := 0
  deriving DecidableEq, Repr

/-- The serial lanes (chapter 15). -/
structure Lnk where
  /-- Ethernet ports present (R317). -/
  eth : Tab EthPort := []
  /-- Quad modes; none is mode 3, LNK_QUAD_MODE (R317, R335). -/
  quads : Tab Nat := []
  /-- Valsin ports (R323). -/
  vals : Tab ValPort := []
  deriving DecidableEq, Repr

/-- A scheduled action held here until its time (R345). -/
structure Pending where
  /-- Sequence, action and t (R345). -/
  action : TreeAction := ⟨0, 1, 0, 0, 0⟩
  /-- It was received after t (R345). -/
  late : Bool := false
  deriving DecidableEq, Repr

/-- One of the 16 barriers of the tree (R344). -/
structure Barrier where
  /-- This device's own arrival, the HRW_BARRIER to answer (R344). -/
  own : Option Req := none
  /-- Child ports that passed up an arrival (R344). -/
  children : List Nat := []
  /-- An arrival that came up or a port that is down makes the release partial (R344). -/
  isPartial : Bool := false
  /-- MTB time of the first arrival seen (R344). -/
  started : Option Nat := none
  /-- The timeout that arrival carries (R344). -/
  timeoutMs : Nat := 1000
  /-- The one arrival has been passed up to the parent (R344). -/
  passed : Bool := false
  deriving DecidableEq, Repr

/-- Hedgerow (chapter 16). -/
structure Hrw where
  /-- A Hedgerow record has been taken (R350). -/
  taken : Bool := false
  /-- HRW_ID_EFF (R339, R351). -/
  ident : Nat := 0
  /-- HRW_ROLE: 0 ID only, 1 root, 2 member (R350). -/
  role : Nat := 0
  /-- HRW_DOWN, bits 1–4 (R350). -/
  down : Nat := 0
  /-- HRW_BAR_TIMEOUT_MS, effective (R350). -/
  barTimeoutMs : Nat := 1000
  /-- HRW_DEPTH (R351). -/
  depth : Nat := 7
  /-- HRW_ROOT (R351). -/
  root : Bool := false
  /-- HRW_TREE_DEPTH, D (R340, R351). -/
  treeDepth : Nat := 0
  /-- HRW_DEVICES (R340, R351). -/
  devices : Nat := 0
  /-- HRW_ID_CLASH (R340, R351). -/
  idClash : Bool := false
  /-- HRW_TOO_DEEP (R338, R351). -/
  tooDeep : Bool := false
  /-- HRW_NO_ROOT (R340, R351). -/
  noRoot : Bool := false
  /-- HRW_MISWIRED (R340, R351). -/
  miswired : Bool := false
  /-- HRW_PORTS_UP, bit per VH port (R351). -/
  portsUp : Nat := 0
  /-- IDs of the subtree below each child port, as last received (R340). -/
  maps : Tab (List Nat) := []
  /-- Hops below each child port, as its map last said (R338, R340). -/
  depths : Tab Nat := []
  /-- IDs whose frames are dropped (R340). -/
  clashIds : List Nat := []
  /-- A depth announcement has come since VH0 came up (R340). -/
  announced : Bool := false
  /-- MTB time VH0 last came up (R340). -/
  vh0UpAt : Option Nat := none
  /-- At the root, the next sequence number (R342). -/
  nextSeq : Nat := 1
  /-- Scheduled actions pending here, in order of receipt, HRW_PENDING (R345, R351). -/
  pending : List Pending := []
  /-- HRW_BCAST_RX (R351). -/
  bcastRx : Nat := 0
  /-- HRW_LATE (R345, R351). -/
  late : Nat := 0
  /-- HRW_SNAP_SEQ (R346, R351). -/
  snapSeq : Nat := 0
  /-- HRW_BAR_TIMEOUTS (R344, R351). -/
  barTimeouts : Nat := 0
  /-- HRW_BAR_PARTIAL (R344, R351). -/
  barPartial : Nat := 0
  /-- HRW_HB_RX (R348, R351). -/
  hbRx : Nat := 0
  /-- HRW_HB_DROPPED (R348, R351). -/
  hbDropped : Nat := 0
  /-- The snapshot buffer of 8,320 bytes, as the words that are not zero by word offset (R346). -/
  snapshot : List (Nat × Nat) := []
  /-- The 16 barriers, those begun (R344). -/
  barriers : Tab Barrier := []
  /-- HRW_BROADCAST requests sent up and not yet answered, oldest first (R342, R352). -/
  broadcasts : List Req := []
  /-- HRW_SCHEDULE requests sent up and not yet answered, oldest first (R342, R352). -/
  schedules : List Req := []
  deriving DecidableEq, Repr

/-- A general check-value unit CVU0–CVU63 (chapter 17). -/
structure CvUnit where
  /-- A general unit record has been taken (R361). -/
  taken : Bool := false
  /-- CVU_STATE (R362). -/
  st : Nat := 0
  /-- CVU_MODE_EFF (R355, R362). -/
  mode : Nat := 0
  /-- CVU_TAP_EFF (R355, R362). -/
  tapKind : Nat := 0
  /-- CVU_TAP_INDEX (R361). -/
  tapIndex : Nat := 0
  /-- CVU_SPAN_EFF (R355, R362). -/
  span : Nat := 0
  /-- CVU_ACTION (R361). -/
  action : Nat := 0
  /-- CVU_PARTITION (R361). -/
  partition : Nat := 0
  /-- CVU_WIDTH_EFF, W (R353, R362). -/
  width : Nat := 0
  /-- G (R353). -/
  poly : Nat := 0
  /-- I (R353). -/
  init : Nat := 0
  /-- X (R353). -/
  xor : Nat := 0
  /-- Reflect-in (R353). -/
  refIn : Bool := false
  /-- Reflect-out (R353). -/
  refOut : Bool := false
  /-- The running value (R357). -/
  run : Nat := 0
  /-- CVU_RESULT (R362). -/
  result : Nat := 0
  /-- CVU_SPANS (R362). -/
  spans : Nat := 0
  /-- CVU_MISMATCHES (R356, R362). -/
  mismatches : Nat := 0
  /-- CVU_UNCHECKED (R360, R362). -/
  unchecked : Nat := 0
  deriving DecidableEq, Repr

/-- The check-value units (chapter 17). -/
structure Cvu where
  /-- General units taken, held or fenced; an absent one reads as reset (R361, R362). -/
  units : Tab CvUnit := []
  /-- Fingerprint units fenced; 32 minus their number is CVU_FP_UNITS (R360, R362). -/
  fpFenced : List Nat := []
  /-- CVU_FP_SUSPENDED (R360, R362). -/
  fpSuspended : Bool := false
  /-- Topiary units 48–63 fenced (R173, R360). -/
  topFenced : List Nat := []
  /-- Topiary holds CVU48–CVU63 (R173). -/
  topHeld : Bool := false
  /-- Running values of the fingerprint context slots in use, keyed 4 × object + kind (R249, R358). -/
  slots : Tab Nat := []
  deriving DecidableEq, Repr

/-- The security fuses (R398). Fields the model does not compute with are bytes. -/
structure Fuses where
  /-- Device serial (R398). -/
  serial : Bytes := []
  /-- Unique secret US, as 32 bytes (R398, R413). -/
  unique : Bytes := []
  /-- Owner wrap key KWO, as 32 bytes (R398, R409, R412). -/
  kwo : Bytes := []
  /-- The unique-secret field is all ones: the device is opened (R414, R420). -/
  usAllOnes : Bool := false
  /-- KWO is programmed (R409, R412). -/
  kwoProgrammed : Bool := false
  /-- SHA3-512 of the owner public key (R398). -/
  ownerKeyHash : Bytes := []
  /-- The enrolled flag (R398). -/
  enrolled : Bool := false
  /-- Anti-rollback counters 0–63, those not zero (R398, R410). -/
  counters : Tab Nat := []
  /-- Service-open counter (R398, R420). -/
  svcCount : Nat := 0
  deriving DecidableEq, Repr

/-- A slot of the SRTP key store (R411, R412): the master key and salt in it. -/
structure SlotKey where
  /-- Master key, 32 bytes, then master salt, 12 (R412). -/
  key : Bytes := []
  deriving DecidableEq, Repr

/-- An update in progress (R415 to R417). -/
structure Update where
  /-- Item kind (R415). -/
  kind : Nat := 0
  /-- Item length (R415). -/
  len : Nat := 0
  /-- The next byte expected, SEC_UPD_BYTES (R415). -/
  received : Nat := 0
  /-- The region has been erased (R415). -/
  erased : Bool := false
  /-- The bytes written so far (R415). -/
  data : Bytes := []
  /-- MTB time of the last chunk, or of entry to M8 (R417). -/
  lastChunk : Nat := 0
  /-- The SEC_UPDATE_BEGIN to answer (R415). -/
  begun : Option Req := none
  /-- A value of that request was clamped (R437). -/
  clamped : Bool := false
  /-- The SEC_UPDATE_END to answer (R416). -/
  ended : Option Req := none
  deriving DecidableEq, Repr

/-- Boot, configuration image and security (chapter 20). -/
structure Sec where
  /-- The fuses (R398). -/
  fuses : Fuses := {}
  /-- SEC_FW_SLOT (R424). -/
  fwSlot : Nat := 0
  /-- SEC_CFG_SLOT (R424). -/
  cfgSlot : Nat := 0
  /-- SEC_FW_FALLBACK (R424). -/
  fwFallback : Bool := false
  /-- SEC_CFG_FALLBACK (R424). -/
  cfgFallback : Bool := false
  /-- SEC_SVC_STAGED (R424). -/
  svcStaged : Bool := false
  /-- SEC_FW_FAIL_A and _B (R402, R424). -/
  fwFail : Tab Nat := []
  /-- SEC_CFG_FAIL_A and _B (R404, R424). -/
  cfgFail : Tab Nat := []
  /-- SEC_UPD_STATE (R424). -/
  updState : Nat := 0
  /-- SEC_UPD_VERDICT (R424). -/
  updVerdict : Nat := 0
  /-- SEC_UPD_BYTES (R424). -/
  updBytes : Nat := 0
  /-- The update in progress (R415). -/
  update : Option Update := none
  /-- SEC_FW_SVN (R424). -/
  fwSvn : Nat := 0
  /-- SEC_CFG_CTR (R424). -/
  cfgCtr : Nat := 0
  /-- SEC_CFG_SVN (R424). -/
  cfgSvn : Nat := 0
  /-- SEC_IMAGE_ID (R424). -/
  imageId : Nat := 0
  /-- SEC_REC_TAKEN (R424). -/
  recTaken : Nat := 0
  /-- SEC_REC_UNKNOWN (R405, R424). -/
  recUnknown : Nat := 0
  /-- SEC_REC_SHORT (R405, R424). -/
  recShort : Nat := 0
  /-- The SRTP key store, slots filled; their number is SEC_KEYS_LOADED (R411, R424). -/
  keys : Tab SlotKey := []
  /-- Slots that a key record has named (R412). -/
  keysSeen : List Nat := []
  /-- SEC_KEYS_FAILED (R412, R424). -/
  keysFailed : Nat := 0
  /-- SEC_ATTESTS (R424). -/
  attests : Nat := 0
  /-- Reports signed since M0, SEC_A_SEQ (R414). -/
  attestSeq : Nat := 0
  /-- Generation of the selector copy in use (R400). -/
  selGeneration : Nat := 0
  /-- Preferred firmware slot (R400). -/
  selFw : Nat := 0
  /-- Preferred configuration slot (R400). -/
  selCfg : Nat := 0
  /-- The service-open command staged in flash; empty when erased (R418). -/
  svcCommand : Bytes := []
  /-- Firmware measurement (R402). -/
  fwMeas : Bytes := []
  /-- Configuration measurement (R404). -/
  cfgMeas : Bytes := []
  /-- Records of the configuration image in force: type and payload, in order (R405, R407). -/
  image : List (Nat × Bytes) := []
  /-- The first entry to M3–M6 since M2 has raised the counters' programming (R410). -/
  antiDone : Bool := false
  /-- Counters whose bits wait to be programmed, one entry per bit, in order (R410). -/
  antiRollback : List Nat := []
  /-- MTB time at which the bit being programmed is done (R410). -/
  fuseAt : Nat := 0
  deriving DecidableEq, Repr

/-- The whole machine: every register, buffer, counter, mode and pin the spec gives the block, and the queue of
commands that wait. -/
structure State where
  /-- Clock sources and root (R363 to R374). -/
  clk : Clk := {}
  /-- Supplies, rails, sensors (R375 to R383). -/
  pwr : Pwr := {}
  /-- Pins (R446 to R457). -/
  pins : Pins := {}
  /-- Media Time Base (R22 to R35). -/
  mtb : Mtb := {}
  /-- Operating mode (R12 to R21). -/
  mode : ModeSt := {}
  /-- Encoding (R46 to R140). -/
  enc : Enc := {}
  /-- Decoding (R141 to R160). -/
  dec : Dec := {}
  /-- Compositors of channels 0–63 (R161 to R182). -/
  cmps : Tab Cmp := []
  /-- Ingest (R183 to R199). -/
  ing : Ing := {}
  /-- Audio (R200 to R216). -/
  aud : Aud := {}
  /-- Egress (R217 to R244). -/
  egr : Egr := {}
  /-- Paired operation (R245 to R275). -/
  red : Red := {}
  /-- The moving parts of paired operation (R247 to R275). -/
  run : RedRun := {}
  /-- Dispatcher and Box cores (R276 to R296). -/
  pvd : Pvd := {}
  /-- Memory (R297 to R316). -/
  drm : Drm := {}
  /-- Serial lanes (R317 to R337). -/
  lnk : Lnk := {}
  /-- Hedgerow (R338 to R352). -/
  hrw : Hrw := {}
  /-- Check-value units (R353 to R362). -/
  cvu : Cvu := {}
  /-- Boot and security (R398 to R425). -/
  sec : Sec := {}
  /-- Fault collector (R384 to R397). -/
  flt : Flt := {}
  /-- Host interface (R426 to R445). -/
  hst : Hst := {}
  /-- The model's own counter: the free values drawn so far (log entry 2). -/
  free : Nat := 0
  /-- The commands that wait, first in, first out (log entry 4). -/
  pending : List Instr := []
  deriving DecidableEq, Repr

/-- Where a command ends in a fault. -/
inductive Fault where
  /-- Raised by poisonedRead when the address it names lies outside the client address space of R299, which the spec says does
  not exist. Safe: the machine stops where no access of the block can go. -/
  | addressOutsideMemory (address : Nat)
  deriving DecidableEq, Repr

/-- Where a command is refused. -/
inductive Refusal where
  /-- Raised by an arm of exec whose command has no meaning yet. Safe: nothing follows from it. -/
  | notModelled (mnemonic : String)
  deriving DecidableEq, Repr

/-- What a command's meaning answers. -/
abbrev Outcome := Host.Outcome State Fault Refusal

/-- The machine right after reset: Hold (M0), every register at the reset value its table gives, memory with nothing listed, and
no command waiting. The fields whose reset value no table gives stand at the value log entry 5 names. -/
def State.reset : State := {}

end Sys2Proof.Machine
end

