-- ==== Sys2Proof/Machine/Base.lean ====
section
/-! DEFINITION. Sparse tables, byte strings, counters and the cyclic redundancy check that every chapter uses. -/

namespace Sys2Proof.Machine

/-! ### Sparse tables -/

/-- The value at a key, if the table has one. -/
def tget {α : Type} : Tab α → Nat → Option α
  | [], _ => none
  | (k, v) :: t, n => if k = n then some v else tget t n

/-- The value at a key, or a default. -/
def tgetD {α : Type} (t : Tab α) (k : Nat) (d : α) : α := (tget t k).getD d

/-- Whether the table has a key. -/
def thas {α : Type} (t : Tab α) (k : Nat) : Bool := (tget t k).isSome

/-- The table with a value put at a key, keys kept rising. -/
def tset {α : Type} : Tab α → Nat → α → Tab α
  | [], n, v => [(n, v)]
  | (k, w) :: t, n, v =>
    if n < k then (n, v) :: (k, w) :: t else if n = k then (n, v) :: t else (k, w) :: tset t n v

/-- The table without a key. -/
def tdel {α : Type} (t : Tab α) (k : Nat) : Tab α := t.filter (fun p => p.1 != k)

/-- The table with the value at a key changed, where it has one. -/
def tmod {α : Type} (t : Tab α) (k : Nat) (f : α → α) : Tab α :=
  t.map (fun p => if p.1 = k then (p.1, f p.2) else p)

/-- The table with the value at a key changed from its present value, or from a default. -/
def tupd {α : Type} (t : Tab α) (k : Nat) (d : α) (f : α → α) : Tab α := tset t k (f (tgetD t k d))

/-- Every value changed, with its key in view. -/
def tmap {α : Type} (t : Tab α) (f : Nat → α → α) : Tab α := t.map (fun p => (p.1, f p.1 p.2))

/-- The keys, rising. -/
def tkeys {α : Type} (t : Tab α) : List Nat := t.map (fun p => p.1)

/-- The keys whose value passes a test, rising. -/
def tkeysOf {α : Type} (t : Tab α) (p : Nat → α → Bool) : List Nat := (t.filter (fun e => p e.1 e.2)).map (fun e => e.1)

/-- A set with an element added, if it was not there. -/
def sadd (l : List Nat) (n : Nat) : List Nat := if l.contains n then l else n :: l

/-- A set without an element. -/
def sdel (l : List Nat) (n : Nat) : List Nat := l.filter (fun m => m != n)

/-- The sum of a list. -/
def sumOf (l : List Nat) : Nat := l.foldl (fun a b => a + b) 0

/-- The greatest element of a list, or 0. -/
def maxOf (l : List Nat) : Nat := l.foldl (fun a b => max a b) 0

/-! ### Numbers and counters -/

/-- 1 for true and 0 for false. -/
def b2n (b : Bool) : Nat := if b then 1 else 0

/-- A value held within bounds (R6). -/
def clamp (lo hi v : Nat) : Nat := if v < lo then lo else if hi < v then hi else v

/-- An integer held within bounds. -/
def clampI (lo hi v : Int) : Int := if v < lo then lo else if hi < v then hi else v

/-- The quotient rounded up. -/
def ceilDiv (a b : Nat) : Nat := (a + b - 1) / b

/-- A counter of w bits that its table calls saturating, advanced by n. -/
def satAdd (w v n : Nat) : Nat := min (v + n) (2 ^ w - 1)

/-- A counter of w bits one further; past its largest value it takes the free value of log entry 6. -/
def bump (w v : Nat) : Nat := if v + 1 < 2 ^ w then v + 1 else Config.counterAfterMax w % 2 ^ w

/-- A counter of w bits n further. -/
def bumpBy (w v n : Nat) : Nat := if v + n < 2 ^ w then v + n else Config.counterAfterMax w % 2 ^ w

/-- A 32-bit counter one further. -/
def bump32 (v : Nat) : Nat := bump 32 v

/-- The bits of a number as a signed integer of w bits. -/
def toSigned (w v : Nat) : Int := if v % 2 ^ w < 2 ^ (w - 1) then (v % 2 ^ w : Int) else (v % 2 ^ w : Int) - (2 ^ w : Int)

/-- An integer as the w bits of its two's complement. -/
def ofSigned (w : Nat) (v : Int) : Nat := (v % (2 ^ w : Int)).toNat

/-- Bit i of a number. -/
def bitOf (v i : Nat) : Bool := v / 2 ^ i % 2 == 1

/-- The bits hi to lo of a number. -/
def bitsOf (v hi lo : Nat) : Nat := v / 2 ^ lo % 2 ^ (hi + 1 - lo)

/-- A number with bit i set. -/
def setBit (v i : Nat) : Nat := if bitOf v i then v else v + 2 ^ i

/-- A number with bit i clear. -/
def clearBit (v i : Nat) : Nat := if bitOf v i then v - 2 ^ i else v

/-- The bits of a set of positions, each below w. -/
def maskOf (l : List Nat) (w : Nat) : Nat := (List.range w).foldl (fun a i => if l.contains i then a + 2 ^ i else a) 0

/-! ### Byte strings (R7: least significant byte at the lowest offset) -/

/-- The byte at an offset; 0 where the string has ended. -/
def u8 (b : Bytes) (o : Nat) : Nat := (b.getD o 0).toNat

/-- The little-endian number of n bytes at an offset. -/
def leAt (b : Bytes) (o : Nat) : Nat → Nat
  | 0 => 0
  | n + 1 => u8 b o + 256 * leAt b (o + 1) n

def u16 (b : Bytes) (o : Nat) : Nat := leAt b o 2
def u24 (b : Bytes) (o : Nat) : Nat := leAt b o 3
def u32 (b : Bytes) (o : Nat) : Nat := leAt b o 4
def u40 (b : Bytes) (o : Nat) : Nat := leAt b o 5
def u48 (b : Bytes) (o : Nat) : Nat := leAt b o 6
def u64 (b : Bytes) (o : Nat) : Nat := leAt b o 8

/-- The n bytes at an offset, filled with zero where the string has ended. -/
def bytesAt (b : Bytes) (o n : Nat) : Bytes := (List.range n).map (fun i => b.getD (o + i) 0)

/-- A number as n little-endian bytes. -/
def le : Nat → Nat → Bytes
  | 0, _ => []
  | n + 1, v => BitVec.ofNat 8 v :: le n (v / 256)

/-- n bytes of zero. -/
def zeros (n : Nat) : Bytes := List.replicate n 0

/-- Whether every byte is zero. -/
def allZero (b : Bytes) : Bool := b.all (fun x => x == 0)

/-- A list cut or filled with zero bytes to n. -/
def fit (n : Nat) (b : Bytes) : Bytes := bytesAt b 0 n

/-- The MAC address that is the fused base plus n, the most significant byte first (R333, R430). -/
def fusedMac (n : Nat) : Bytes := (le 6 (Config.fusedBase + n)).reverse

/-! ### The check value of R353 -/

/-- The six parameters of R353. -/
structure CrcParams where
  /-- Width W. -/
  w : Nat
  /-- Polynomial G. -/
  g : Nat
  /-- Initial value I. -/
  i : Nat
  /-- Final XOR X. -/
  x : Nat
  /-- Reflect-in. -/
  refIn : Bool
  /-- Reflect-out. -/
  refOut : Bool
  deriving DecidableEq, Repr

/-- The low n bits of a number in reverse order. -/
def reverseBits : Nat → Nat → Nat
  | 0, _ => 0
  | n + 1, v => v % 2 * 2 ^ n + reverseBits n (v / 2)

/-- One bit of a symbol into the register (R353). -/
def crcBit (p : CrcParams) (reg : Nat) (b : Bool) : Nat :=
  let shifted := reg * 2 % 2 ^ p.w
  if (bitOf reg (p.w - 1)) != b then Nat.xor shifted (p.g % 2 ^ p.w) else shifted

/-- The s bits of a symbol, from bit s − 1 down to bit 0, into the register (R353). -/
def crcBits (p : CrcParams) (d : Nat) : Nat → Nat → Nat
  | 0, reg => reg
  | s + 1, reg => crcBits p d s (crcBit p reg (bitOf d s))

/-- One symbol of s bits into the register (R353). -/
def crcSymbol (p : CrcParams) (s reg d : Nat) : Nat :=
  crcBits p (if p.refIn then reverseBits s d else d) s reg

/-- The register after a list of symbols, from a running value (R353, R357). -/
def crcRun (p : CrcParams) (s : Nat) (reg : Nat) (l : List Nat) : Nat := l.foldl (fun r d => crcSymbol p s r d) reg

/-- The result that a running value stands for (R353). -/
def crcFinal (p : CrcParams) (reg : Nat) : Nat :=
  Nat.xor (if p.refOut then reverseBits p.w reg else reg) (p.x % 2 ^ p.w)

/-- The check value of a list of symbols of s bits (R353). -/
def crcOf (p : CrcParams) (s : Nat) (l : List Nat) : Nat := crcFinal p (crcRun p s (p.i % 2 ^ p.w) l)

/-- The bytes of a string as symbols. -/
def symbols (b : Bytes) : List Nat := b.map (fun x => x.toNat)

/-- The presets of Table 1 of the check-value chapter (R354). -/
def crcPreset : Nat → CrcParams
  | 1 => ⟨32, 0x04C11DB7, 0xFFFFFFFF, 0xFFFFFFFF, true, true⟩
  | 2 => ⟨32, 0x04C11DB7, 0xFFFFFFFF, 0, false, false⟩
  | 3 => ⟨18, 0x00031, 0, 0, true, true⟩
  | 4 => ⟨64, 0x42F0E1EBA9EA3693, 0, 0, false, false⟩
  | _ => ⟨64, 0x42F0E1EBA9EA3693, 0xFFFFFFFFFFFFFFFF, 0xFFFFFFFFFFFFFFFF, false, false⟩

/-- The check value of a byte string under a preset (R354). -/
def crcPresetOf (n : Nat) (b : Bytes) : Nat := crcOf (crcPreset n) 8 (symbols b)

/-! ### Free values -/

/-- The next free value, and the state with the model's counter advanced (log entry 2). -/
def drawFree (s : State) : Nat × State := (Config.freeValue s.free, { s with free := s.free + 1 })

/-- The next free byte string of n bytes, and the state with the model's counter advanced (log entry 2). -/
def drawBytes (n : Nat) (s : State) : Bytes × State :=
  (fit n (Config.freeBytes s.free n), { s with free := s.free + 1 })

end Sys2Proof.Machine
end

