-- ==== Sys2Proof/Machine/Time.lean ====
section
/-! DEFINITION. Media time: the fields of the MTB, the tick schedules of R32, frame guards and targets (R39, R42), and the passing
of MGT cycles (R33). Times are in units of 2^-32 ns, which is the unit of the MTB fraction (R22). -/

namespace Sys2Proof.Machine

/-- One nanosecond. -/
def nsUnit : Nat := 4294967296

/-- One microsecond. -/
def usUnit : Nat := 1000 * nsUnit

/-- One millisecond. -/
def msUnit : Nat := 1000000 * nsUnit

/-- One second. -/
def secUnit : Nat := 1000000000 * nsUnit

/-- The seconds of a time (R22). -/
def secOf (t : Nat) : Nat := t / secUnit

/-- The nanoseconds of a time (R22). -/
def nsOf (t : Nat) : Nat := t / nsUnit % 1000000000

/-- The fraction of a time (R22). -/
def fracOf (t : Nat) : Nat := t % nsUnit

/-- The nominal increment of R23: 7 ns and a fraction of 0x684B_DA13. -/
def nominalInc : Nat := 7 * nsUnit + 0x684BDA13

/-- The increment while MGT runs on FRC, exactly 10 ns (R31). -/
def frcInc : Nat := 10 * nsUnit

/-- An increment held within ±500 ppm of nominal (R23). -/
def clampInc (v : Int) : Nat :=
  (clampI ((nominalInc : Int) - nominalInc / 2000) ((nominalInc : Int) + nominalInc / 2000) v).toNat

/-- The mode code of R12. -/
def modeCode : Mode → Nat
  | .hold => 0
  | .boot => 1
  | .configure => 2
  | .solo => 3
  | .active => 4
  | .standby => 5
  | .resync => 6
  | .quiescent => 7
  | .update => 8
  | .safeHold => 9
  | .service => 10
  | .halt => 11

/-- Whether the management plane is alive: M1 to M10, in which the MTB counts and the collector runs (R24, R395). -/
def alive (m : Mode) : Bool :=
  match m with
  | .hold | .halt => false
  | _ => true

/-- Whether row and frame ticks run: M3, M4, M5, M6 and M8 (R35). -/
def ticksRun (m : Mode) : Bool :=
  match m with
  | .solo | .active | .standby | .resync | .update => true
  | _ => false

/-- The mode whose behaviour M8 keeps: the mode it was entered from (R12). -/
def actingMode (s : State) : Mode := if s.mode.mode = .update then s.mode.updateFrom else s.mode.mode

/-- The modes of R17 in which every output is safe. -/
def safeMode (m : Mode) : Bool :=
  match m with
  | .hold | .boot | .safeHold | .service | .halt => true
  | _ => false

/-- Frame rate N/D of a rate code (R26). -/
def rateN : Nat → Nat
  | 0 => 24000
  | 1 => 24
  | 2 => 25
  | 3 => 30000
  | 4 => 30
  | 5 => 50
  | 6 => 60000
  | 7 => 60
  | 8 => 100
  | 9 => 120000
  | _ => 120

/-- The divisor D of a rate code (R26). -/
def rateD (c : Nat) : Nat := if c = 0 ∨ c = 3 ∨ c = 6 ∨ c = 9 then 1001 else 1

/-- Total lines H of a raster code (Table 3 of the time chapter, R59). -/
def totalLines : Nat → Nat
  | 0 => 4500
  | 1 => 2250
  | 2 => 1125
  | _ => 750

/-- Active luma width of a raster code (R53). -/
def activeW : Nat → Nat
  | 0 => 7680
  | 1 => 3840
  | 2 => 1920
  | _ => 1280

/-- Active luma height of a raster code (R53). -/
def activeH : Nat → Nat
  | 0 => 4320
  | 1 => 2160
  | 2 => 1080
  | _ => 720

/-- CTU rows R of a raster code (R53). -/
def ctuRows : Nat → Nat
  | 0 => 68
  | 1 => 34
  | 2 => 17
  | _ => 12

/-- Tile columns of a raster code (R53). -/
def tileCols (raster : Nat) : Nat := if raster = 0 then 4 else 1

/-- The sample tick s (R32). -/
def sampleTickAt (n : Nat) : Nat := n * secUnit / 48000

/-- The frame tick T_n (R32). -/
def frameTickAt (rate n : Nat) : Nat := n * rateD rate * secUnit / rateN rate

/-- Row tick m of frame n (R32). -/
def rowTickAt (raster rate n m : Nat) : Nat :=
  (n * totalLines raster + 64 * m) * rateD rate * secUnit / (rateN rate * totalLines raster)

/-- The frame period in units of time, rounded up. -/
def framePeriod (rate : Nat) : Nat := ceilDiv (rateD rate * secUnit) (rateN rate)

/-- The last frame whose tick the MTB has reached. -/
def frameNow (rate t : Nat) : Nat := ((t + 1) * rateN rate - 1) / (rateD rate * secUnit)

/-- The guard of frame n: row tick floor(H / 64) of frame n − 1 (R39). -/
def guardAt (raster rate n : Nat) : Nat := rowTickAt raster rate (n - 1) (totalLines raster / 64)

/-- The next frame still open at a time: the first whose guard the MTB has not reached (R39, R42). -/
def nextOpen (raster rate t : Nat) : Nat :=
  let n := frameNow rate t + 1
  if t < guardAt raster rate n then n else n + 1

/-- The frame a 32-bit target denotes, seen from the next open frame o, and whether it is late (R42). -/
def resolveTarget (o v : Nat) : Nat × Bool :=
  if v = 0 then (o, false)
  else
    let d := (v + 2 ^ 32 - o % 2 ^ 32) % 2 ^ 32
    if d < 2 ^ 31 then (o + d, false) else (o, true)

/-- The source codes that the discipline lists, in order of priority, none left out (R26). -/
def listedSources (s : State) : List Nat := s.mtb.pri.filter (fun k => k != 0)

/-- The first listed source that is present, 0 for none (R27). -/
def selectedSource (s : State) : Nat := ((listedSources s).find? (fun k => s.mtb.present.contains k)).getD 0

/-- The times that the MTB can show: its seconds have 48 bits (R22). -/
def mtbSpan : Nat := 2 ^ 48 * secUnit

/-- The core domains of the root clock (Table 3 of R365). -/
inductive Domain where
  | enc | fab | core | mem | ctl | aud | mgt
  deriving DecidableEq, Repr

/-- The divisor of a domain from PLL_R (R365). -/
def pllDivisor : Domain → Nat
  | .enc | .fab => 2
  | .core => 3
  | .mem => 4
  | .ctl => 6
  | .aud => 11
  | .mgt => 22

/-- Whether a domain runs on FRC, at FRC/2, in a mode; in M9 the fabric stops too (R365). -/
def runsOnFrc (m : Mode) : Domain → Bool
  | .core | .ctl | .mgt => true
  | .fab => m != .safeHold
  | .enc | .mem | .aud => false

/-- The frequency of a domain in Hz, 0 when it is stopped: an integer division of the 2.970 GHz of PLL_R or of the 200 MHz of FRC (R363,
R364, R365). -/
def domainHz (s : State) (d : Domain) : Nat :=
  if s.clk.rootFrc then (if runsOnFrc s.mode.mode d then 200000000 / 2 else 0) else 2970000000 / pllDivisor d

/-- n MGT cycles pass: the MTB takes the increment n times, its seconds wrapping past 48 bits, and the cycle count and the uptime
grow (R22, R444). -/
def passCycles (n : Nat) (s : State) : State :=
  { s with mtb := { s.mtb with
      t := (s.mtb.t + n * s.mtb.inc) % mtbSpan
      mgt := s.mtb.mgt + n
      uptime := s.mtb.uptime + n * (2700000000 / domainHz s .mgt) } }

/-- The machine in the first MGT cycle in which the MTB has reached a time (R33); none when that cycle has already passed, or
while the MTB does not count. -/
def atTime (t : Nat) (s : State) : Option State :=
  if alive s.mode.mode = false then none
  else if t + s.mtb.inc ≤ s.mtb.t ∧ 0 < s.mtb.inc then none
  else some (passCycles (ceilDiv (t - s.mtb.t) s.mtb.inc) s)

/-- The MTB stepped to a value (R28, R31). The times kept for durations in progress move with it, since a step lets no time
pass. -/
def stepMtb (t : Nat) (s : State) : State :=
  let f := fun (m : Nat) => m + t - s.mtb.t
  { s with
    mtb := { s.mtb with t := t }
    mode := { s.mode with m2Start := f s.mode.m2Start }
    red := { s.red with vaDownAt := f s.red.vaDownAt, hbAt := f s.red.hbAt
                        hbEdgeAt := s.red.hbEdgeAt.map f, hrwHbAt := s.red.hrwHbAt.map f }
    run := { s.run with claimLost := s.run.claimLost.map f, lastSwap := f s.run.lastSwap }
    hrw := { s.hrw with
      vh0UpAt := s.hrw.vh0UpAt.map f
      barriers := tmap s.hrw.barriers (fun _ b => { b with started := b.started.map f }) }
    drm := { s.drm with stackOf := tmap s.drm.stackOf (fun _ x =>
      { x with waiting := x.waiting.map (fun w => { w with at_ := f w.at_ }), awakeAt := f x.awakeAt, idleFrom := f x.idleFrom, readAt := f x.readAt })
                        pcs := tmap s.drm.pcs (fun _ x => { x with dueAt := f x.dueAt, late := x.late.map (fun w => (w.1, f w.2)) })
                        scrubAt := f s.drm.scrubAt, remapAt := f s.drm.remapAt }
    lnk := { s.lnk with
      eth := tmap s.lnk.eth (fun _ x => { x with
        pausedUntil := x.pausedUntil.map f, pausedAt := f x.pausedAt, askedAt := f x.askedAt })
      vals := tmap s.lnk.vals (fun _ x => { x with
        trainAt := f x.trainAt, nakAt := f x.nakAt, rxAt := f x.rxAt, txAt := f x.txAt, stepAt := f x.stepAt
        wakeAt := f x.wakeAt, askedAt := f x.askedAt }) }
    egr := { s.egr with
      sampledAt := f s.egr.sampledAt
      legs := tmap s.egr.legs (fun _ l => { l with pcrAt := f l.pcrAt })
      ports := tmap s.egr.ports (fun _ p => { p with classes := tmap p.classes (fun _ c => { c with filled := f c.filled }) }) }
    ing := { s.ing with policers := tmap s.ing.policers (fun _ p => { p with last := f p.last }) }
    pvd := { s.pvd with
      cores := tmap s.pvd.cores (fun _ c => { c with since := f c.since, startedAt := f c.startedAt })
      items := s.pvd.items.map (fun i => { i with retryAt := f i.retryAt }) }
    pins := { s.pins with ppsFallAt := f s.pins.ppsFallAt }
    pwr := { s.pwr with sampleAt := f s.pwr.sampleAt }
    sec := { s.sec with fuseAt := f s.sec.fuseAt, update := s.sec.update.map (fun u => { u with lastChunk := f u.lastChunk }) } }

/-- The machine at a time, or now when that time has passed. -/
def noEarlier (t : Nat) (s : State) : State := (atTime t s).getD s

/-- The machine at an uptime, or now when it has passed; MGT time counts whatever steps the MTB takes (R444). -/
def afterUptime (u : Nat) (s : State) : State :=
  if alive s.mode.mode then passCycles (ceilDiv (u - s.mtb.uptime) (2700000000 / domainHz s .mgt)) s else s

/-- Whole seconds since entry to M1, HST_UPTIME_S (R444). -/
def uptimeS (s : State) : Nat := s.mtb.uptime / 2700000000

/-- Whether the partner is in force: a pair record has been taken and no clash was found (R245, R461). -/
def pairInForce (s : State) : Bool := s.red.paired && !s.red.clash

/-- Whether a heartbeat has come within 2 ms: an edge on PAIR_HB_IN, or with RED_HB_HEDGEROW a Hedgerow frame; after a clash
PAIR_HB_IN is ignored (R246, R261, R348, R461). -/
def heartbeatPresent (s : State) : Bool :=
  let within := fun (x : Option Nat) => match x with | some a => decide (s.mtb.t ≤ a + 2 * msUnit) | none => false
  pairInForce s && (within s.red.hbEdgeAt || (s.red.hbHedgerow && within s.red.hrwHbAt))

/-- Whether a channel runs in the present mode (R20, R35, R70). -/
def chanRunning (s : State) (c : Nat) : Bool :=
  match tget s.enc.chans c with
  | none => false
  | some ch => ch.taken && (ch.st == 1)

/-- Whether row and frame ticks run now. M8 behaves as the mode it was entered from (R12, R35; log entry 15). -/
def ticking (s : State) : Bool := ticksRun (actingMode s)

/-- The channels that run, rising. -/
def runningChans (s : State) : List Nat :=
  if ticking s then tkeysOf s.enc.chans (fun _ ch => ch.taken && (ch.st == 1)) else []

/-- A report with its detail words stands on its path to the fault collector (R384). -/
def raiseWith (source inst d0 d1 : Nat) (s : State) : State :=
  { s with flt := { s.flt with due := s.flt.due ++ [⟨source, inst, d0 % 2 ^ 32, d1 % 2 ^ 32⟩] } }

/-- A unit of the device raises a report; its detail words, which no chapter defines, are free values (R384, R393, log entry 32). -/
def raise (source inst : Nat) (s : State) : State :=
  raiseWith source inst (Config.freeValue s.free) (Config.freeValue (s.free + 1)) { s with free := s.free + 2 }

end Sys2Proof.Machine
end

