-- ==== Sys2Proof/Machine/Rate.lean ====
section
/-! DEFINITION. The rate unit: geometry, floors, budgets, caps, targets, verdicts and the fullness of one context (R53, R59,
R105 to R118). Sizes are in bits; slice keys are 4 × row + tile column. -/

namespace Sys2Proof.Machine

/-! ### Geometry and lattices (R50, R53, R59, R106) -/

/-- CTUs per slice of a raster (R53). -/
def sliceCtus : Nat → Nat
  | 0 => 30
  | 1 => 60
  | 2 => 30
  | _ => 20

/-- The key of a slice. -/
def sliceKey (row tile : Nat) : Nat := 4 * row + tile

/-- Pixel rate of a raster at a rate, rounded up (R50). -/
def pixelRate (raster rate : Nat) : Nat := ceilDiv (activeW raster * activeH raster * rateN rate) (rateD rate)

/-- f_slice (R106). -/
def floorSlice (raster : Nat) : Nat := 768 + 4 * sliceCtus raster

/-- f_row (R106). -/
def floorRow (raster : Nat) : Nat := tileCols raster * floorSlice raster

/-- f_pic (R106). -/
def floorPic (raster : Nat) : Nat := ctuRows raster * floorRow raster

/-- The last source row that row j of a context reads, rho(j) (R59). -/
def rhoOf (rs rx j : Nat) : Nat :=
  if activeH rx < activeH rs then
    min (activeH rs - 1) (ceilDiv (64 * (j + 1) * activeH rs) (activeH rx) - 1 + 8 * ceilDiv (activeH rs) (activeH rx)) / 64
  else j

/-- Arrival ticks a(j) of the first n rows of a context, on its own lattice, latest first (R34, R59). -/
def arrivalsDown (rs rx : Nat) : Nat → List Nat
  | 0 => []
  | n + 1 =>
    let prev := arrivalsDown rs rx n
    let a := ceilDiv ((rhoOf rs rx n + 1) * totalLines rx) (totalLines rs)
    match prev with
    | p :: _ => (if a ≤ p then p + 1 else a) :: prev
    | [] => [a]

/-- The arrival tick a(j) of row j of a context of raster rx in a channel of raster rs (R34, R59). -/
def arrivalTick (rs rx j : Nat) : Nat :=
  if activeH rx < activeH rs then (arrivalsDown rs rx (j + 1)).headD 0 else j + 1

/-- The rows of a context whose arrival tick is m − d. -/
def rowsAt (rs rx m d : Nat) : List Nat :=
  if m < d then [] else (List.range (ctuRows rx)).filter (fun j => arrivalTick rs rx j == m - d)

/-! ### Effective bitrates (R74, R104, R105) -/

/-- Default bitrate of a context without a record, kb/s (R104). -/
def defaultKbps : Nat → Nat
  | 0 => 200000
  | 1 => 60000
  | 2 => 15000
  | _ => 6000

/-- b for a bitrate in kb/s (R105). -/
def bpsOf (k : Nat) : Nat := 64 * ceilDiv (k * 1000) 64

/-- kmin (R105). -/
def kminOf (raster rate : Nat) : Nat := max 1000 (ceilDiv (5 * floorPic raster * rateN rate) (4 * rateD rate * 1000))

/-- L_b of R104 and R117. -/
def bufMax (l : Nat) : Nat := if 4 ≤ l then l else 2

/-- Effective ENC_RC_QP_MAX (Table 1 of the rate chapter). -/
def qpMaxOf (codec v : Nat) : Nat :=
  if v = 0 then (if codec = 0 then 55 else 51) else min v (if codec = 0 then 63 else 51)

/-- Levels of Table 2 of the coding chapter: VVC and HEVC idc, MaxLumaPs, MaxLumaSr, MaxBR in kb/s (R74). -/
def levelTable : List (Nat × Nat × Nat × Nat × Nat) :=
  [(64, 120, 2228224, 66846720, 30000), (67, 123, 2228224, 133693440, 50000), (80, 150, 8912896, 267386880, 100000),
   (83, 153, 8912896, 534773760, 160000), (86, 156, 8912896, 1069547520, 240000), (96, 180, 35651584, 1069547520, 240000),
   (99, 183, 35651584, 2139095040, 480000)]

/-- The level signalled (R74). -/
def levelOf (codec raster rate bMax : Nat) : Nat :=
  match levelTable.find? (fun l =>
      decide (activeW raster * activeH raster ≤ l.2.2.1 ∧ pixelRate raster rate ≤ l.2.2.2.1 ∧ bMax ≤ l.2.2.2.2 * 1000)) with
  | some l => if codec = 0 then l.1 else l.2.1
  | none => if codec = 0 then 102 else 186

/-- Effective bitrates, buffer, QP limits, reserve and level of a context, fixed at admission (R104, R105, R117), and X, the user-data reserve with the
largest non-VCL units (R108). -/
def fixRates (ch : Chan) (c : Ctx) : Ctx :=
  let kreq := clamp 1000 800000 c.kbpsCfg
  let kmin := kminOf c.raster ch.rate
  let k := max kmin kreq
  let kmax := max k (min 800000 (if c.maxKbps = 0 then 2 * kreq else max kreq c.maxKbps))
  let lb := bufMax ch.delayL
  let ud := if c.captions then max 8 c.ud16 else c.ud16
  { c with
    kmin := kmin, k := k, kmax := kmax, b := bpsOf k, bMax := bpsOf kmax, raised := k != kreq
    bufEff := if c.rcBuf = 0 then lb else clamp 1 lb c.rcBuf
    qpMax := qpMaxOf c.codec c.qpMax
    qpMin := min c.qpMin (qpMaxOf c.codec c.qpMax)
    qp := clamp (min c.qpMin (qpMaxOf c.codec c.qpMax)) (qpMaxOf c.codec c.qpMax) c.qp
    ud16 := ud
    x := 128 * ud + Config.nonVclMax c.codec c.raster c.chroma ch.rate (if ch.frameMode then ch.delayF else ch.delayL)
    level := levelOf c.codec c.raster ch.rate (bpsOf kmax) }

/-! ### Picture quantities (R107) -/

/-- b_r: b_max in capped VBR, b otherwise (R107, R114, R115). -/
def rateBps (c : Ctx) : Nat := if c.rcMode = 1 then c.bMax else c.b

/-- Bits of the picture n frames after n0 at a bitrate: T_n (R107). DESIGN CHOICE: the products are exact; what one over 64 bits would
give, no rule states (log entry 113). -/
def pictureBits (rate b n : Nat) : Nat := (n + 1) * b * rateD rate / rateN rate - n * b * rateD rate / rateN rate

/-- Bsz (R107, R116). -/
def bufferBits (ch : Chan) (c : Ctx) : Nat :=
  if ch.frameMode then ceilDiv (ch.delayF * rateBps c * rateD ch.rate) (rateN ch.rate)
  else ceilDiv (c.bufEff * rateBps c * 64 * rateD ch.rate) (rateN ch.rate * totalLines c.raster)

/-- a_r (R107). -/
def drain (p : Pic) (raster r : Nat) : Nat := (r + 1) * p.t / ctuRows raster - r * p.t / ctuRows raster

/-- floor(16 × log2 x), exact (R111). -/
def lg (x : Nat) : Nat := Nat.log2 (max 1 x ^ 16)

/-- The quotient of an integer rounded up. -/
def ceilDivI (a : Int) (b : Nat) : Int := -((-a) / (b : Int))

/-! ### Sequences and complexities (R114, R128, R131, R138) -/

/-- A context at the start of a coded layer video sequence (R76, R91 to R93, R114). Its β and its complexity history start with
the first row of the sequence that opens, since rows of the picture before may still be in their stages. -/
def startSequence (frame : Nat) (c : Ctx) : Ctx :=
  { c with seqFrame := some frame, restart := false, f := 0, slots := [], acksKept := [], pLoss := 0, g := 65536,
           sizes := [], rateBase := 0, alf := none, sweepAt := none, nextSweep := c.sweepG
           sweepBroken := false }

/-- β and the complexity history at the first row of a sequence that opens its analysis or its coding: 128, and nothing kept
(R111, R114, R131). -/
def enterSequence (p : Pic) (c : Ctx) : Ctx :=
  if p.starts && c.ratesAt != p.seq then { c with ratesAt := p.seq, beta := 128, wPrev := [], wHist := [] } else c

/-- The blind value of a slice (R131, R138). -/
def blindValue (raster : Nat) : Nat := 64 * sliceCtus raster

/-- A slice's entry in the complexity history; the blind value before there is one (R128, R131). -/
def historyOf (c : Ctx) (row tile : Nat) : Nat := tgetD c.wPrev (sliceKey row tile) (blindValue c.raster)

/-- The tile columns of a raster. -/
def tilesOf (raster : Nat) : List Nat := List.range (tileCols raster)

/-- A row's entries in the complexity history, summed. -/
def historyRow (c : Ctx) (row : Nat) : Nat := sumOf ((tilesOf c.raster).map (fun t => historyOf c row t))

/-- The w_(r,t) that budgets of a row use: the picture's own, or at L = 3 the previous picture's (R110, R111, R117). -/
def budgetW (l3 : Bool) (c : Ctx) (p : Pic) (row tile : Nat) : Nat :=
  if l3 then historyOf c row tile else tgetD p.w (sliceKey row tile) (historyOf c row tile)

/-- κ_n (R114). -/
def kappa (c : Ctx) : Nat :=
  match c.wHist with
  | [] => 256
  | w :: _ => clamp 64 1024 (256 * w / (sumOf c.wHist / c.wHist.length))

/-- V_n (R114). -/
def allowance (c : Ctx) (p : Pic) : Nat := p.tAvg * kappa c * p.g / 16777216

/-! ### Opening a picture (R108, R109, R118) -/

/-- The POC of the newest reference of a picture: the previous picture or, in a loss picture, the newest acknowledged slot; none
where it has none (R77, R106). -/
def newestRef (p : Pic) : Option Nat :=
  if p.idr || p.starts then none else if p.loss then p.ltr else some (p.f - 1)

/-- The active references of a picture, the same in L0 and L1: the previous picture and the current long-term reference, or in a loss
picture the newest acknowledged one alone (R77). -/
def refsOf (p : Pic) : List (Nat × Bool) :=
  if p.idr || p.starts then []
  else (if p.loss then [] else [(p.f - 1, false)]) ++ (p.ltr.toList.map (fun v => (v, true)))

/-- The exact size of the floor slice of a slice, at most f_slice (R106). -/
def floorSizeOf (c : Ctx) (p : Pic) (key : Nat) : Nat :=
  min (Config.floorBits c.codec c.raster key p.f (refsOf p) (tgetD p.qps key 0)) (floorSlice c.raster)

/-- The syntax of the floor slice of a slice: each CTU one 64×64 CU in skip mode, its merge candidate of zero motion on the newest
reference, SAO and ALF off (R106). -/
def floorSyntaxOf (raster : Nat) (p : Pic) (key : Nat) : FloorSlice :=
  { address := key, poc := p.f, refs := refsOf p, qp := tgetD p.qps key 0, ctus := sliceCtus raster, mergeRef := newestRef p
    sao := false, alf := false }

/-- What of the reserve U a picture's user data uses: its caption SEI and the host SEI messages placed in it (R108, R292). -/
def userDataBits (p : Pic) : Nat := min p.u (p.capBits + 8 * p.seiBytes)

/-- What remains of U for host SEI (R292). -/
def reserveLeft (p : Pic) (u : Nat) : Nat := u - (p.capBits + 8 * p.seiBytes)

/-- Row 0 opens its coding interval: Q_n enters F and P_n is fixed (R108, R109, R118). For an excess picture Q_n is the size of its
reduced units within its bounds (log entry 14). -/
def openPicture (c : Ctx) (p : Pic) : Ctx × Pic :=
  let excess := decide ((p.bsz : Int) < c.fullness)
  let u := if excess then 0 else 128 * c.ud16
  let q := if excess then min (Config.reducedBits p.nonVcl) (min p.nonVcl (p.t / 5)) else p.nonVcl + u
  let v : Int := (p.t : Int) + p.bsz - c.fullness - q
  let v := if c.rcMode = 1 then min v (allowance c p) else v
  let floorBound := decide (v < (floorPic c.raster : Int))
  let p := { p with
    opened := true, u := u, q := q, p := if floorBound then floorPic c.raster else v.toNat
    excess := excess, floorBound := floorBound }
  ({ c with fullness := c.fullness + q, lastP := p.p }, p)

/-! ### Row budgets (R110, R111, R115, R117) -/

/-- The emitted sizes of the rows before r. -/
def spentBefore (p : Pic) (r : Nat) : Nat := sumOf ((p.emitted.filter (fun e => decide (e.1 < 4 * r))).map (fun e => e.2))

/-- dq_g: the QP of a quantisation group moves with its activity against the slice's (R111). -/
def groupDelta (aq act actS : Nat) : Int := clampI (-6) 6 ((aq : Int) * ((lg act : Int) - lg actS) / 256)

/-- corr after CTU j of n: the coded size so far, c, against e_j = floor(t × j / n) (R111). -/
def stepCorrection (target n j c : Nat) (corr : Int) : Int :=
  let e := target * j / n
  if e + target / 8 < c then min 6 (corr + 1)
  else if (c : Int) < (e : Int) - (target / 8 : Nat) then max (-6) (corr - 1)
  else corr

/-- The QPs of the quantisation groups of a slice, CTU by CTU from CTU j of n: q_s + dq_g + corr, clipped; in constant QP, the
configured QP alone (R111, R115). -/
def groupQps (c : Ctx) (q target actS n : Nat) : Nat → Int → List (List Nat) → List Nat → List Nat
  | _, _, [], _ => []
  | j, corr, acts :: rest, lengths =>
    let qp := fun (act : Nat) =>
      if c.rcMode = 2 then c.qp
      else (clampI c.qpMin c.qpMax ((q : Int) + groupDelta c.aq act actS + corr)).toNat
    acts.map qp ++ groupQps c q target actS n (j + 1) (stepCorrection target n j (lengths.headD 0) corr) rest lengths.tail

/-- Quantisation groups of 32×32 in each CTU of a row (R78, R80). -/
def groupsPerCtu (raster row : Nat) : Nat := 2 * ceilDiv (min 64 (activeH raster - 64 * row)) 32

/-- The activities of a slice's groups; 1 for every group where Coppice gave none (R128, R138). -/
def actsOf (c : Ctx) (p : Pic) (key : Nat) : List (List Nat) :=
  tgetD p.acts key (List.replicate (sliceCtus c.raster) (List.replicate (groupsPerCtu c.raster (key / 4)) 1))

/-- q̄_s: the mean QP of a slice's quantisation groups, rounded down (R111). -/
def meanQp (c : Ctx) (p : Pic) (key : Nat) (lengths : List Nat) : Nat :=
  let l := groupQps c (tgetD p.qps key 0) (tgetD p.targets key 1) (tgetD p.actS key 1) (sliceCtus c.raster) 1 0
    (actsOf c p key) lengths
  sumOf l / max 1 l.length

/-- A slice's QP (R111, R115). -/
def sliceQp (c : Ctx) (w target : Nat) : Nat :=
  if c.rcMode = 2 then c.qp
  else
    let v := ceilDivI (6 * ((lg w : Int) + c.beta - lg target)) 16
    (clampI c.qpMin c.qpMax v).toNat

/-- The budget of row r: caps, targets and QPs of its slices, and the exact sizes of the floor slices that the floor path builds
for them (R106, R110, R111, R115, R117). -/
def openRow (l3 : Bool) (r : Nat) (c : Ctx) (p : Pic) : Pic :=
  let fs := floorSlice c.raster
  let frow := floorRow c.raster
  let rows := ctuRows c.raster
  let e : Int := (p.p : Int) - spentBefore p r - ((rows - r) * frow : Nat)
  let cr := (max (frow : Int) (min (frow + e) ((p.bsz : Int) - c.fullness + drain p c.raster r))).toNat
  let ws := (tilesOf c.raster).map (fun t => max 1 (budgetW l3 c p r t))
  let wr := sumOf ws
  let wAll := wr + sumOf (((List.range rows).filter (fun i => decide (r < i))).map (fun i => historyRow c i))
  let ur := min (cr : Int) (frow + e * wr / wAll)
  (tilesOf c.raster).foldl (fun p t =>
    let w := ws.getD t 1
    let cap := fs + (cr - frow) * w / wr
    let target := (max 1 ((fs : Int) + (ur - frow) * w / wr)).toNat
    let k := sliceKey r t
    let p := { p with caps := tset p.caps k cap, targets := tset p.targets k target, qps := tset p.qps k (sliceQp c w target) }
    { p with floorSize := tset p.floorSize k (floorSizeOf c p k) })
    { p with rowCaps := tset p.rowCaps r cr }

/-! ### Verdicts (R108, R111, R112) -/

/-- The model value β after the slices of a row that were not replaced at their verdict, in the order of their tile columns
(R111, R121). -/
def betaAfter (row : Nat) (c : Ctx) (p : Pic) : Int :=
  (tilesOf c.raster).foldl (fun (b : Int) t =>
    match tget p.observed (sliceKey row t) with
    | some o => b + (o - b) / 4
    | none => b) c.beta

/-- A row whose slices all have their sizes enters F, and β follows its slices (R108, R111). A row of an earlier sequence leaves β
alone, and so does a slice that has its size already. -/
def rowIntoFullness (r : Nat) (c : Ctx) (p : Pic) : Ctx × Pic :=
  let keys := (tilesOf c.raster).map (fun t => sliceKey r t)
  if p.rowsIn.contains r || !keys.all (fun k => thas p.emitted k) then (c, p)
  else
    let size := sumOf (keys.map (fun k => tgetD p.emitted k 0))
    ({ c with fullness := c.fullness + size - drain p c.raster r
              beta := if c.ratesAt = p.seq then betaAfter r c p else c.beta }, { p with rowsIn := sadd p.rowsIn r })

/-- The mean, rounded down, of q̄_s over the slices of a picture that are emitted as coded; 0 where there is none (R122). -/
def pictureQp (p : Pic) : Nat :=
  let l := (p.qpMeans.filter (fun e => !p.floors.contains e.1)).map (fun e => e.2)
  if l.isEmpty then 0 else sumOf l / l.length

/-- The end of the picture once its last row has entered F: the unused part of U leaves F, filler or the zero bound follows, and
its size and mean QP are kept (R108, R114, R122). -/
def endPicture (c : Ctx) (p : Pic) : Ctx × Pic :=
  if p.closed || decide (p.rowsIn.length < ctuRows c.raster) then (c, p)
  else
    let unused := if p.excess then 0 else p.u - userDataBits p
    let f := c.fullness - unused
    let filler := if c.rcMode = 0 ∧ f < -40 then ((-f) / 8).toNat else 0
    let f := if c.rcMode = 0 then f + 8 * filler else max 0 f
    let size := sumOf (p.emitted.map (fun e => e.2)) + (p.q - unused) + 8 * filler
    ({ c with
       fullness := f
       lastQp := pictureQp p
       sizes := if c.seqFrame = p.seq then (⟨p.f, size, p.tAvg⟩ :: c.sizes).take 264 else c.sizes },
     { p with closed := true, filler := filler })

/-- A slice gets its emitted size as a floor slice, and its reconstruction is the co-located block of the newest reference (R37,
R106, R112). -/
def giveFloor (raster key bits : Nat) (p : Pic) : Pic :=
  { p with emitted := tset p.emitted key bits, floors := sadd p.floors key, floorSize := tset p.floorSize key bits
           recon := tset p.recon key (.copied (newestRef p)), floorSyntax := tset p.floorSyntax key (floorSyntaxOf raster p key)
           alfUse := tset p.alfUse key .off }

/-- A slice is emitted as coded: its size, its mean QP and β_obs, which enters β with its row (R111, R122). -/
def giveCoded (key bits qp w : Nat) (p : Pic) : Pic :=
  { p with emitted := tset p.emitted key bits, qpMeans := tset p.qpMeans key qp, recon := tset p.recon key .coded
           observed := tset p.observed key ((lg bits : Int) - lg w + (16 * qp / 6 : Nat)) }

/-- A slice that had its verdict as coded is replaced by its floor slice: the floor size takes the place of the coded size in F,
in the sizes of later budgets and in the size of its picture, and its QP leaves ENC_RC_LAST_QP; its β_obs stands (R112, R114,
R122). -/
def replaceCoded (key bits : Nat) (c : Ctx) (p : Pic) : Ctx × Pic :=
  match tget p.emitted key with
  | none => (c, p)
  | some old =>
    if p.floors.contains key then (c, p)
    else
      let c := if p.rowsIn.contains (key / 4) then { c with fullness := c.fullness + bits - old } else c
      let q := giveFloor c.raster key bits p
      if p.closed then
        ({ c with lastQp := if c.sizes.head?.any (fun z => z.f == p.f) then pictureQp q else c.lastQp
                  sizes := if c.seqFrame = p.seq
                    then c.sizes.map (fun z => if z.f = p.f then { z with size := z.size + bits - old } else z) else c.sizes }, q)
      else (c, q)

/-! ### The correction g (R114) -/

/-- g from the pictures of frames max(0, f − 263) to f − 8 (R114); none while the window holds no picture. -/
def correctionOf (f : Nat) (c : Ctx) : Option Nat :=
  let l := c.sizes.filter (fun p => decide (p.f + 8 ≤ f) && decide (f ≤ p.f + 263))
  let st := sumOf (l.map (fun p => p.tAvg))
  let ss := sumOf (l.map (fun p => p.size))
  if f < 8 ∨ st = 0 then none
  else some (clampI 16384 262144 (65536 * (2 * (st : Int) - ss) / st)).toNat

end Sys2Proof.Machine
end

