-- ==== Sys2Proof/Machine/Coding.lean ====
section
/-! DEFINITION. What a context signals: its parameter sets at the start of each coded layer video sequence, and the type, references,
regions, filters, parts and SEI messages of each picture (R54, R65, R73 to R90, R96, R118, R120, R136). -/

namespace Sys2Proof.Machine

/-! ### Parameter sets (R54, R73 to R85, R120) -/

/-- general_profile_idc of a context, by its codec and effective chroma format (R73, Table 1). -/
def profileIdc (c : Ctx) : Nat := if c.codec = 0 then (if c.chroma = 0 then 1 else 33) else (if c.chroma = 0 then 2 else 4)

/-- The other profile signalling of Table 1: the compatibility flags set, and the constraint flags of Main 4:2:2 10 (R73). -/
def profileFlags (c : Ctx) : List Nat × List Bool :=
  if c.codec = 0 then ([], [])
  else if c.chroma = 0 then ([2], [])
  else ([], [true, true, false, true, false, false, false, false, true])

/-- The VUI of every context of a channel, from its colour record and its rate (R85, Table 6). -/
def vuiOf (ch : Chan) : Vui :=
  let d := rateD ch.rate
  let scale := if d = 1001 then rateN ch.rate else 1000 * rateN ch.rate
  let units := if d = 1001 then 1001 else 1000
  match ch.colour with
  | 0 => ⟨1, 1, 1, 0, units, scale, false⟩
  | 1 => ⟨9, 14, 9, 2, units, scale, false⟩
  | 2 => ⟨9, 16, 9, 2, units, scale, false⟩
  | _ => ⟨9, if ch.hdrSei.testBit 2 then 14 else 18, 9, 2, units, scale, false⟩

/-- Whether LMCS is applied: in VVC contexts of a BT.2100 PQ channel (R82). -/
def lmcsOn (ch : Chan) (c : Ctx) : Bool := c.codec == 0 && ch.colour == 2

/-- How the pictures of a context are divided: at 8K four subpictures of one tile and 68 slices each in VVC, four uniform tile columns
of 30 CTBs in HEVC; otherwise one tile (R54, R83). -/
def layoutOf (c : Ctx) : Layout :=
  if c.raster = 0 then
    { tiles := 4, tileCtus := 30, filterAcross := true, explicitSlices := 272
      subpictures := if c.codec = 0 then 4 else 0, subpicSlices := if c.codec = 0 then 68 else 0 }
  else { tiles := 1, tileCtus := sliceCtus c.raster }

/-- initial_cpb_removal_delay in 90 kHz units, with the bitrate and buffer in force (R120). -/
def removalDelay (ch : Chan) (c : Ctx) : Nat :=
  ceilDiv (90000 * (bufferBits ch c + c.x)) (max 1 (rateBps c))

/-- The HRD parameters, with b_hrd, Bsz and X as they stand (R120, Table 7). -/
def hrdOf (ch : Chan) (c : Ctx) : Hrd :=
  { bitRateValue := rateBps c / 64 - 1
    cpbSizeValue := ceilDiv (bufferBits ch c + c.x) 16 - 1
    cbr := c.rcMode == 0
    tickDivisor := if ch.frameMode then none else some 254 }

/-- The parameter sets of a context, built at the start of a coded layer video sequence (R73 to R85, R120). -/
def buildSets (ch : Chan) (c : Ctx) : ParamSets :=
  { profile := profileIdc c
    compatible := (profileFlags c).1
    constraints := (profileFlags c).2
    level := c.level
    chromaFormat := 1 + c.chroma
    vpsId := if c.codec = 0 then none else some 0
    tools := if c.codec = 0 then .vvc {} else .hevc {}
    layout := layoutOf c
    vui := vuiOf ch
    hrd := hrdOf ch c
    lmcs := if lmcsOn ch c then some {} else none }

/-- The parameter sets of a context built and stored (R83). -/
def storeSets (ch : Chan) (c : Ctx) : Ctx := { c with sets := some (buildSets ch c) }

/-! ### Regions of a picture (R88, R89, R96) -/

/-- CTU columns of a raster (R88). -/
def ctuColumns (raster : Nat) : Nat := sliceCtus raster * tileCols raster

/-- The refresh columns of a picture at position i of a sweep, from the first to the one after the last (R88). -/
def refreshColumns (c : Ctx) (i : Nat) : Nat × Nat := (i * c.sweepW, min ((i + 1) * c.sweepW) (ctuColumns c.raster))

/-- The virtual boundary of a sweep picture, in luma samples: in VVC, in every picture of the sweep but the last (R88). -/
def boundaryOf (c : Ctx) (p : Pic) : Option Nat :=
  match p.sweep with
  | some i => if c.codec = 0 ∧ i + 1 < c.sweepS then some ((i + 1) * c.sweepW * 64) else none
  | none => none

/-- Whether a CU of the clean region or of the refresh columns may take a reference block that ends before column `stop`, in a
sweep picture whose previous picture is clean before column `clean`: in VVC the block with its interpolation support lies within,
in HEVC it keeps more than 8 luma samples from the edge (R89). -/
def cleanReference (codec clean stop : Nat) : Bool := if codec = 0 then decide (stop ≤ clean) else decide (stop + 8 < clean)

/-- The luma column at or before which such a reference block ends: what picture i − 1 has refreshed is clean in it (R89; log
entry 106). -/
def cleanReach (c : Ctx) (p : Pic) : Option Nat :=
  p.sweep.map (fun i => if c.codec = 0 then i * c.sweepW * 64 else i * c.sweepW * 64 - 9)

/-- The columns coded intra: the refresh columns, and in a loss picture the clean region with them (R88, R96). -/
def intraColumns (c : Ctx) (p : Pic) : Option (Nat × Nat) :=
  p.sweep.map (fun i => if p.loss then (0, (refreshColumns c i).2) else refreshColumns c i)

/-! ### The type, references and filters of a picture (R76, R77, R81, R88, R91, R118, R136) -/

/-- The type of a picture: IDR at the start after M2 or at the POC limit, in VVC a GDR picture at the start of a sweep (R76, R88). -/
def kindOf (c : Ctx) (p : Pic) : PicKind :=
  if p.idr then .idr else if p.sweepStart && c.codec == 0 then .gdr else .trailing

/-- The ALF filters of a picture: those derived for it, of which an excess picture has one luma filter, and the fixed sets alone in
an IDR picture, in a GDR picture that starts a sequence and where nothing was derived (R81, R118). -/
def alfOf (c : Ctx) (p : Pic) : AlfUse :=
  if c.codec ≠ 0 then .off
  else if p.idr || p.starts then .fixedOnly
  else
    match c.alf with
    | none => .fixedOnly
    | some a => if a.apsId = p.f % 8 then (if p.excess then .aps a.apsId 1 0 0 0 else .aps a.apsId a.luma a.chroma a.ccCb a.ccCr)
                else .fixedOnly

/-- The ALF filters of a slice: none in a floor slice, and from the row at which a cut acts the fixed sets alone (R81, R106, R136). -/
def sliceAlf (p : Pic) (key : Nat) : AlfUse :=
  if p.floors.contains key then .off
  else
    match p.head.alf with
    | .off => .off
    | a => if p.cutAt.any (fun k => decide (k ≤ key / 4)) then .fixedOnly else a

/-! ### The access unit (R83, R84, R86, R120) -/

/-- Whether the parameter sets go ahead of a picture: an IDR picture or the first picture of a sweep (R83). -/
def leadsSets (p : Pic) : Bool := p.idr || p.sweepStart

/-- The parts of a picture's access unit in the order sent: with the parameter sets ahead of the first slice of every IDR picture and
of the first picture of every sweep; `alf` where the picture has an ALF APS. In VVC the picture header is a NAL unit of its own, ahead
of the slices (R76, R81, R83; log entry 107). -/
def unitParts (ch : Chan) (c : Ctx) (leads alf : Bool) : List UnitPart :=
  let sets := if c.codec = 0 then [.sps, .pps] ++ (if lmcsOn ch c then [.lmcsAps] else []) else [.vps, .sps, .pps]
  [.delimiter] ++ (if leads then sets else []) ++ [.prefixSei] ++ (if alf && c.codec == 0 then [.alfAps] else []) ++
  (if c.codec = 0 then [.pictureHeader] else []) ++ [.slices]

/-- Removal time of decoding unit r after its picture's, in sub-picture clock ticks (R120). -/
def duRemoval (raster r : Nat) : Nat := ceilDiv (256 * 64 * r) (totalLines raster)

/-- The HDR messages that go with the parameter sets: ENC_HDR_SEI bits 0 and 1 count for ENC_COLOUR 2 and 3, bit 2 for 3 (R84,
R99). -/
def hdrMessages (ch : Chan) : List SeiMessage :=
  (if decide (2 ≤ ch.colour) && ch.hdrSei.testBit 0 then [.masteringDisplay ch.mdcv] else []) ++
  (if decide (2 ≤ ch.colour) && ch.hdrSei.testBit 1 then [.contentLight ch.maxCll ch.maxFall] else []) ++
  (if ch.colour == 3 && ch.hdrSei.testBit 2 then [.alternativeTransfer 18] else [])

/-- The caption message of a picture's cc_data triples (R86). -/
def captionMessage (triples : List Nat) : SeiMessage := .captions 0xB5 0x0031 0x47413934 0x03 triples

/-- Bytes with emulation prevention added, behind a number of zero bytes: a 3 goes in after two zeros and ahead of a byte up to 3
(R292). -/
def withEmulation : Nat → Bytes → Bytes
  | _, [] => []
  | z, b :: l =>
    let run := if b.toNat = 0 then 1 else 0
    if 2 ≤ z ∧ b.toNat ≤ 3 then 3 :: b :: withEmulation run l else b :: withEmulation (if b.toNat = 0 then z + 1 else 0) l

/-- The SEI messages that a picture carries, with their values; a host message has payloadType 4 or 5 by its kind (R84, R86, R120, R292;
Table 5). -/
def seiMessages (ch : Chan) (c : Ctx) (p : Pic) : List SeiMessage :=
  (if leadsSets p then [.bufferingPeriod (removalDelay ch c) 0] else []) ++ [.pictureTiming] ++
  (if ch.frameMode then [] else (List.range (ctuRows c.raster)).map (fun r => .decodingUnit r (duRemoval c.raster r))) ++
  (if leadsSets p then hdrMessages ch else []) ++
  (if p.sweepStart && c.codec == 1 then [.recoveryPoint (c.sweepS - 1) true false] else []) ++
  (if p.triples.isEmpty then [] else [captionMessage p.triples]) ++
  p.seiMsgs.map (fun m => .hostData (if m.kind = 0 then 4 else 5) (withEmulation 0 m.data))

/-- What a picture signals, as its first row opens its coding interval (R76, R77, R81 to R91, R96). -/
def headOf (ch : Chan) (c : Ctx) (p : Pic) : PicHead :=
  { kind := kindOf c p
    intraOnly := p.idr
    refs := refsOf p
    refsInHeader := c.codec == 0
    endOfSequence := p.head.endOfSequence
    generated := if p.starts && !p.idr then some 512 else none
    pocLsb := p.f % 2 ^ 16
    recoveryPoc := if p.sweepStart && c.codec == 0 then some (c.sweepS - 1) else none
    boundary := boundaryOf c p
    refresh := p.sweep.map (refreshColumns c)
    intraColumns := intraColumns c p
    cleanReach := cleanReach c p
    alf := alfOf c p
    lmcs := lmcsOn ch c
    parts := unitParts ch c (leadsSets p) (match alfOf c p with | .aps _ _ _ _ _ => true | _ => false)
    sei := seiMessages ch c p }

/-- The SEI of a picture whose first row has opened follows what its user data becomes afterwards (R84, R87). -/
def refreshSei (ch : Chan) (c : Ctx) (p : Pic) : Pic :=
  if p.opened then { p with head := { p.head with sei := seiMessages ch c p } } else p

/-! ### Motion search and reconstruction (R58, R65, R89, R129) -/

/-- The positions searched around a guide: ±32 × ±32 (R65). -/
def guideWindow (g : Int × Int) : SearchWindow := { x0 := g.1 - 32, x1 := g.1 + 32, y0 := g.2 - 32, y1 := g.2 + 32 }

/-- Whether a CTU column of a picture lies in its clean region or its refresh columns (R88, R89). -/
def cleanColumn (c : Ctx) (p : Pic) (col : Nat) : Bool :=
  match p.sweep with
  | some i => decide (col < (refreshColumns c i).2)
  | none => false

/-- The right edge, in luma samples, of what picture i − 1 of a sweep has refreshed (R88, R89). -/
def cleanEdge (c : Ctx) (p : Pic) : Option Nat := p.sweep.map (fun i => i * c.sweepW * 64)

/-- The references of a CTU: none where the picture codes its column intra, the previous picture alone in the clean region, and otherwise
those of the picture; the guides apply to the short-term reference alone (R77, R88, R89, R96, R129). -/
def ctuRefs (c : Ctx) (p : Pic) (col : Nat) (guides : List (Int × Int)) : List RefPlan :=
  let intra := match intraColumns c p with | some (a, b) => decide (a ≤ col ∧ col < b) | none => false
  let clean := cleanColumn c p col
  if intra then []
  else ((refsOf p).filter (fun r => !(clean && r.2))).map (fun r =>
    { poc := r.1, longTerm := r.2, windows := if r.2 then [] else (guides.take 2).map guideWindow })

/-- Where the engine searches for a CTU: in each reference the direct range, and around the guides the windows, at integer positions and
then to quarter-sample accuracy in HEVC and to sixteenth-sample accuracy in VVC. In the clean region and the refresh columns the previous
picture is used only as far as it is clean, and no merge, TMVP or SbTMVP candidate that would leave that region is chosen (R65, R89). -/
def searchPlan (c : Ctx) (p : Pic) (col : Nat) (guides : List (Int × Int)) : SearchPlan :=
  let clean := cleanColumn c p col
  { refs := ctuRefs c p col guides
    passes := [1, if c.codec = 0 then 16 else 4]
    clean := if clean then cleanEdge c p else none
    barred := if clean then (if c.codec = 0 then [.merge, .tmvp, .sbTmvp] else [.merge, .tmvp]) else [] }

/-- Whether a plan examines an integer vector in a reference: within the direct range or within a window (R65). -/
def examines (pl : SearchPlan) (r : RefPlan) (v : Int × Int) : Bool :=
  decide (v.1.natAbs ≤ pl.reach.1 ∧ v.2.natAbs ≤ pl.reach.2) ||
    r.windows.any (fun w => decide (w.x0 ≤ v.1 ∧ v.1 ≤ w.x1 ∧ w.y0 ≤ v.2 ∧ v.2 ≤ w.y1))

/-- Whether a candidate, found by search or of a barred kind, may be chosen: its reference block with the interpolation support ends
before column `stop`, within the region that the plan allows (R89). -/
def mayChoose (codec : Nat) (pl : SearchPlan) (stop : Nat) : Bool :=
  match pl.clean with
  | none => true
  | some edge => cleanReference codec edge stop

/-! ### In-loop filters (R58, R62) -/

/-- The reach across a shared edge of an in-loop filter, in samples (R62). -/
def filterReach (f : LoopFilter) : Nat :=
  match f with
  | .deblocking => 8
  | .sao => 1
  | .alf | .ccAlf => 3

/-- A filter of the slice of a tile column at the edge that it shares with column `other`: it reads the columns nearest the edge beyond
it and keeps its own side (R62). -/
def edgeUse (raster tile other : Nat) (f : LoopFilter) : EdgeUse :=
  let x := 64 * sliceCtus raster * max tile other
  { filter := f, other := other, reads := if tile < other then (x, x + filterReach f) else (x - filterReach f, x) }

/-- Luma lines of a CTU of a row above the ALF virtual boundary: all but the bottom four, and all of them in the last row (R58). -/
def linesAbove (raster row : Nat) : Nat := if row + 1 = ctuRows raster then activeH raster - 64 * row else 60

/-- The ALF and CC-ALF flags of the CTUs of a slice, decided from the samples above the virtual boundary; 0 where the slice has no ALF
(R58). -/
def ctuAlfFlags (x : Nat) (c : Ctx) (p : Pic) (key : Nat) : List Nat :=
  (List.range (sliceCtus c.raster)).map (fun i =>
    match tgetD p.alfUse key .off with
    | .off => 0
    | .fixedOnly => Config.alfFlags x p.frame key i (linesAbove c.raster (key / 4)) % 2
    | .aps _ _ _ _ _ => Config.alfFlags x p.frame key i (linesAbove c.raster (key / 4)) % 32)

/-- The last reference row that row r may read: direct search reaches row r + 3, a guide's window row r + 6 (R58). -/
def lastRowRead (row : Nat) (guides : List (Int × Int)) : Nat := if guides.isEmpty then row + 3 else row + 6

/-- Lines of a plane through the in-loop filters once the coding of row r has closed: all but the bottom four luma lines and two
chroma lines of the row, and all of the picture with its last row (R58). -/
def filteredLines (raster chroma row : Nat) : Nat × Nat :=
  let k := if chroma = 0 then 2 else 1
  if row + 1 = ctuRows raster then (activeH raster, activeH raster / k)
  else (64 * (row + 1) - 4, 64 * (row + 1) / k - 2)

/-- The ALF derivation of the next picture: up to 25 luma filters, 8 chroma alternatives and 4 CC-ALF filters for each of Cb and Cr,
in an APS of at most 1,536 bytes with identifier n mod 8 (R81, R108; log entry 105). -/
def derivedAlf (x n next : Nat) : AlfSet :=
  let k := fun (i limit : Nat) => min limit (Config.alfCount x n i)
  { apsId := next % 8, luma := k 0 25, chroma := k 1 8, ccCb := k 2 4, ccCr := k 3 4, bytes := k 4 1536 }

end Sys2Proof.Machine
end

