-- ==== Sys2Proof/Machine/Flags.lean ====
section
/-! DEFINITION. Packing of register words from their fields, and the parts of words that writes reach (R7: reserved bits read
zero). -/

namespace Sys2Proof.Machine

/-- A register word from fields, each a value and the position of its lowest bit. -/
def packWord (l : List (Nat × Nat)) : Nat := l.foldl (fun a p => a + p.1 * 2 ^ p.2) 0 % 2 ^ 32

/-- A field of a register word held within its width. -/
def fieldOf (w v : Nat) : Nat := v % 2 ^ w

/-- The low 32 bits of a count. -/
def loWord (v : Nat) : Nat := v % 2 ^ 32

/-- The bits 63 to 32 of a count. -/
def hiWord (v : Nat) : Nat := v / 2 ^ 32 % 2 ^ 32

/-- What a write of 1s clears in a W1C field. -/
def w1c (present written : Nat) : Nat := Nat.xor present (Nat.land present written)

end Sys2Proof.Machine
end

