-- ==== Sys2Proof/Machine/Mail.lean ====
section
/-! DEFINITION. Mailbox messages, the rings and sessions that carry them, interrupts, replies and events (R434 to R443). -/

namespace Sys2Proof.Machine

/-- The reply status codes of R435. -/
inductive Status where
  | ok | wrongMode | notOwner | busy | unknownOpcode | notReady | notInPartition
  deriving DecidableEq, Repr

/-- The code of a status (Table 11 of the host chapter). -/
def statusCode : Status → Nat
  | .ok => 0x0000
  | .wrongMode => 0x0101
  | .notOwner => 0x0102
  | .busy => 0x0103
  | .unknownOpcode => 0x0104
  | .notReady => 0x0106
  | .notInPartition => 0x0107

/-- Bytes a message occupies: 16 + 16 × ceil(length / 16) (R434). -/
def msgSize (m : Msg) : Nat := 16 + 16 * ceilDiv m.payload.length 16

/-! ### Interrupts (R442) -/

/-- The MSI-X vector of cause i. -/
def vectorOf (r : Ring) (i : Nat) : Nat := bitsOf r.vec (3 * i + 2) (3 * i)

/-- A cause that is set raises its vector, at once or when its moderation interval ends (R442). -/
def raiseCause (r : Ring) (i : Nat) : Ring :=
  if bitOf r.mask i then r
  else if bitOf r.moderating i then { r with deferred := setBit r.deferred i }
  else { r with raised := vectorOf r i :: r.raised
                moderating := if r.modUs = 0 then r.moderating else setBit r.moderating i }

/-- A cause's event: its bit is set and it raises its vector (R442). -/
def setCause (r : Ring) (i : Nat) : Ring := raiseCause { r with cause := setBit r.cause i } i

/-- Cause numbers of Table 8. -/
def causeReply : Nat := 0
def causeEvent : Nat := 1
def causeMode : Nat := 2
def causeFault : Nat := 3
def causeRplFull : Nat := 4
def causeRingErr : Nat := 5

/-! ### The reply ring (R438) -/

/-- Bytes free in the reply ring. -/
def ringRoom (r : Ring) : Nat := 2 ^ r.rplSize - (r.rplTail + 2 ^ 32 - r.rplHead) % 2 ^ 32

/-- Whether a message is an event. -/
def isEvent (m : Msg) : Bool := bitOf m.flags 1

/-- A message into the reply ring: the tail advances and its causes are set (R438, R442). -/
def ringWrite (r : Ring) (m : Msg) : Ring :=
  let r := { r with rplTail := (r.rplTail + msgSize m) % 2 ^ 32, written := m :: r.written }
  let r := setCause r (if isEvent m then causeEvent else causeReply)
  if m.opcode = 0x0D40 ∧ isEvent m = true then setCause r causeFault else r

/-- The waiting messages that now have room, in order, into the ring (R438). -/
def ringFlush (r : Ring) : List Msg → Ring
  | [] => { r with waiting := [] }
  | m :: ms => if r.en ∧ msgSize m ≤ ringRoom r then ringFlush (ringWrite r m) ms else { r with waiting := m :: ms }

/-- A message for the ring: written when nothing waits before it and there is room, held otherwise with RPL_FULL set (R438). -/
def ringPush (r : Ring) (m : Msg) : Ring :=
  if r.waiting.isEmpty ∧ r.en ∧ msgSize m ≤ ringRoom r then ringWrite r m
  else
    let r := { r with waiting := r.waiting ++ [m] }
    if r.en then setCause r causeRplFull else r

/-- Whether a message would be held. -/
def ringHolds (r : Ring) (m : Msg) : Bool := !(r.waiting.isEmpty && r.en && decide (msgSize m ≤ ringRoom r))

/-! ### Partitions and transports (R426, R429) -/

/-- The partition a transport binds: 0–15 are PCIe functions, 16 + i is session i. -/
def partOf (s : State) (transport : Nat) : Option Nat :=
  if transport < 16 then
    (s.hst.parts.find? (fun p => p.2.function = some transport)).map (fun p => p.1)
  else
    match tget s.hst.sessions (transport - 16) with
    | some x => if x.opened then some x.partition else none
    | none => none

/-- A partition's settings and counters. -/
def part (s : State) (p : Nat) : Part := tgetD s.hst.parts p {}

/-- The state with a partition changed. -/
def setPart (s : State) (p : Nat) (f : Part → Part) : State :=
  { s with hst := { s.hst with parts := tupd s.hst.parts p {} f } }

/-- The ring of a function. -/
def ring (s : State) (f : Nat) : Ring := tgetD s.hst.rings f {}

/-- The state with a ring changed. -/
def setRing (s : State) (f : Nat) (g : Ring → Ring) : State :=
  { s with hst := { s.hst with rings := tupd s.hst.rings f {} g } }

/-- The state with a session changed, where it is open or opening. -/
def setSession (s : State) (i : Nat) (f : Session → Session) : State :=
  { s with hst := { s.hst with sessions := tmod s.hst.sessions i f } }

/-- The view a transport reads registers through (R441). -/
def view (s : State) (transport : Nat) : View := tgetD s.hst.views transport {}

/-- The state with a view changed. -/
def setView (s : State) (transport : Nat) (f : View → View) : State :=
  { s with hst := { s.hst with views := tupd s.hst.views transport {} f } }

/-- The open sessions of a partition, in order. -/
def sessionsOf (s : State) (p : Nat) : List Nat := tkeysOf s.hst.sessions (fun _ x => x.opened && x.partition == p)

/-- The quotas and counters of a partition. -/
def quota (s : State) (p : Nat) : Quota := tgetD s.pvd.quotas p {}

/-- The state with a partition's quotas changed. -/
def setQuota (s : State) (p : Nat) (f : Quota → Quota) : State :=
  { s with pvd := { s.pvd with quotas := tupd s.pvd.quotas p {} f } }

/-- A message sent over a transport: into the function's reply ring, or on the session (R432, R438). A completion the ring has no
room for is counted in PVD_P_REPLY_HELD. -/
def sendOn (s : State) (transport p : Nat) (m : Msg) : State :=
  if transport < 16 then
    let held := ringHolds (ring s transport) m && !isEvent m
    let s := setRing s transport (fun r => ringPush r m)
    if held then setQuota s p (fun q => { q with replyHeld := bump32 q.replyHeld }) else s
  else
    setSession s (transport - 16) (fun x => { x with sent := m :: x.sent, deviceCtr := (x.deviceCtr + 1) % 2 ^ 64 })

/-! ### Replies in request order (R284, R435) -/

/-- The replies at the front of a partition's queue of requests, sent (R284). -/
def releaseReplies (s : State) (p : Nat) : List Slot → State
  | [] => setPart s p (fun x => { x with slots := [] })
  | sl :: rest =>
    match sl.reply with
    | some m => releaseReplies (sendOn s sl.transport p m) p rest
    | none => setPart s p (fun x => { x with slots := sl :: rest })

/-- The first slot a request waits in, given its reply. -/
def answerSlot (r : Req) (m : Msg) : List Slot → List Slot
  | [] => []
  | sl :: rest =>
    if sl.transport = r.transport ∧ sl.seq = r.seq ∧ sl.tag = r.tag ∧ sl.reply = none then
      { sl with reply := some m } :: rest
    else sl :: answerSlot r m rest

/-- The reply to a request: a refusal is counted, a clamp is counted and flagged, and the replies that are now due in request
order are sent (R284, R435 to R437). Only OK and BUSY carry data. -/
def reply (p : Nat) (r : Req) (opcode : Nat) (st : Status) (clamped : Bool) (data : Bytes) (s : State) : State :=
  let m : Msg :=
    { opcode := opcode, partition := p, flags := if clamped && st == .ok then 5 else 1, seq := r.seq, tag := r.tag,
      payload := le 2 (statusCode st) ++ [0, 0] ++ (if st == .ok || st == .busy then data else []) }
  let s := setPart s p (fun x =>
    { x with
      refusals := if st == .ok then x.refusals else bump32 x.refusals
      wrongMode := if st == .wrongMode then bump32 x.wrongMode else x.wrongMode
      clamps := if clamped && st == .ok then bump32 x.clamps else x.clamps
      slots := answerSlot r m x.slots })
  releaseReplies s p (part s p).slots

/-- The partition that a request came from; the owner where its transport is gone. -/
def callerOf (s : State) (r : Req) : Nat := (partOf s r.transport).getD 0

/-- The reply to a request that waited, sent to the partition of its transport. -/
def replyTo (r : Req) (opcode : Nat) (st : Status) (clamped : Bool) (data : Bytes) (s : State) : State :=
  reply (callerOf s r) r opcode st clamped data s

/-! ### Events (R443) -/

/-- The oldest event dropped from a list of messages. -/
def dropEvent : List Msg → List Msg
  | [] => []
  | m :: ms => if isEvent m then ms else m :: dropEvent ms

/-- The events a partition holds that it has not been sent. -/
def eventsHeld (s : State) (p : Nat) : Nat :=
  (part s p).evtHeld.length +
    (match (part s p).function with
     | some f => ((ring s f).waiting.filter isEvent).length
     | none => 0)

/-- Beyond 256 events the oldest is dropped and counted; reported as HST_EVT_LOST (R443, R445). -/
def limitEvents (s : State) (p : Nat) : State :=
  if eventsHeld s p ≤ 256 then s
  else
    let s :=
      match (part s p).evtHeld with
      | _ :: rest => setPart s p (fun x => { x with evtHeld := rest })
      | [] =>
        match (part s p).function with
        | some f => setRing s f (fun r => { r with waiting := dropEvent r.waiting })
        | none => s
    raise 0x1D3 p (setPart s p (fun x => { x with evtLost := bump32 x.evtLost }))

/-- An event to a partition: into its reply ring and to each of its open sessions, or held while it has neither (R443). -/
def sendEvent (p opcode : Nat) (payload : Bytes) (s : State) : State :=
  let m : Msg :=
    { opcode := opcode, partition := p, flags := 2, seq := ((part s p).evtSeq + 1) % 2 ^ 32, tag := 0, payload := payload }
  let s := setPart s p (fun x => { x with evtSeq := (x.evtSeq + 1) % 2 ^ 32 })
  let ringUp := match (part s p).function with | some f => (ring s f).en | none => false
  let s :=
    match ringUp, (part s p).function with
    | true, some f => sendOn s f p m
    | _, _ => s
  let s := (sessionsOf s p).foldl (fun s i => sendOn s (16 + i) p m) s
  let s :=
    if ringUp || !(sessionsOf s p).isEmpty then s
    else setPart s p (fun x => { x with evtHeld := x.evtHeld ++ [m] })
  limitEvents s p

/-- The events held for want of a transport, sent once a partition has one (R443). -/
def flushHeld (p : Nat) (s : State) : State :=
  let ringUp := match (part s p).function with | some f => (ring s f).en | none => false
  if ringUp || !(sessionsOf s p).isEmpty then
    let held := (part s p).evtHeld
    let s := setPart s p (fun x => { x with evtHeld := [] })
    held.foldl (fun s m =>
      let s := match ringUp, (part s p).function with
        | true, some f => sendOn s f p m
        | _, _ => s
      (sessionsOf s p).foldl (fun s i => sendOn s (16 + i) p m) s) s
  else s

/-- The partitions that exist in force: the owner and every bound partition, rising. -/
def partitions (s : State) : List Nat := (List.range 16).filter (fun p => p == 0 || (part s p).bound)

/-- An event to every partition (R443). -/
def sendEventAll (opcode : Nat) (payload : Bytes) (s : State) : State :=
  (partitions s).foldl (fun s p => sendEvent p opcode payload s) s

/-- The mode event, opcode 0x0D41, with the cause HST_INT_MODE of every bound function (R442, R443). -/
def modeEvent (newMode oldMode : Mode) (s : State) : State :=
  let s := (s.hst.parts.filterMap (fun p => p.2.function)).foldl (fun s f => setRing s f (fun r => setCause r causeMode)) s
  sendEventAll 0x0D41
    (le 1 (modeCode newMode) ++ le 1 (modeCode oldMode) ++ le 1 (b2n s.mode.degraded) ++ [0] ++
      le 4 (secOf s.mtb.t) ++ le 4 (nsOf s.mtb.t)) s

/-! ### Taking a request (R436) -/

/-- Modes in which no request is answered (R439). -/
def deaf (m : Mode) : Bool :=
  match m with
  | .hold | .boot | .halt => true
  | _ => false

/-- The responder takes a request: partition, owner and mode are judged in the order of R436, and the body does the rest with
the caller's partition in hand. In M0, M1 and M11 no request is taken. A request over a transport that binds no partition is
answered by nobody. -/
def takeRequest (opcode : Nat) (ownerOnly : Bool) (legal : Mode → Bool) (r : Req) (body : Nat → State → State)
    (s : State) : State :=
  if deaf s.mode.mode then s
  else
    match partOf s r.transport with
    | none => s
    | some p =>
      let s := setPart s p (fun x => { x with slots := x.slots ++ [⟨r.transport, r.seq, r.tag, none⟩] })
      if r.hdrPartition ≠ p then reply p r opcode .notInPartition false [] s
      else if ownerOnly && p != 0 then reply p r opcode .notOwner false [] s
      else if legal s.mode.mode = false then reply p r opcode .wrongMode false [] s
      else body p s

/-- Whether the header length was clamped (R434, R437). -/
def lenClamped (r : Req) : Bool := decide (4096 < r.len)

/-- The payload a request carries: HST_M_LEN bytes, at most 4,096 (R434). -/
def payloadOf (r : Req) : Bytes := r.payload.take (min r.len 4096)

/-! ### Hellos (R431, R433, R439) -/

/-- The modes in which sessions are served: M2 to M10 (R430, R439). -/
def serves (m : Mode) : Bool := !deaf m

/-- A hello answered with a refusal frame (R433). -/
def refuseHello (port peer : Nat) (st : Status) (s : State) : State :=
  { s with hst := { s.hst with refused := (port, peer, statusCode st) :: s.hst.refused } }

/-- The place of a new session: the lowest that holds none, then the lowest whose handshake is not complete; none with sixteen open
(R433). -/
def freeSession (s : State) : Option Nat :=
  match (List.range 16).find? (fun i => !thas s.hst.sessions i) with
  | some i => some i
  | none => (List.range 16).find? (fun i => !(tgetD s.hst.sessions i {}).opened)

/-- A hello taken (R431, R433): ignored on a fenced port and during a lockout; refused where the binding does not allow the port or the
sessions are used up; otherwise answered with a challenge under a new session ID. The challenge and the key that it agrees are free values
(log entry 137). -/
def answerHello (port p peer : Nat) (s : State) : State :=
  if 1 < port ∨ s.hst.mgFaults.contains port = true ∨ (part s p).lockout = true then s
  else if 15 < p ∨ (part s p).bound = false ∨ bitOf (part s p).mg port = false then refuseHello port peer .notInPartition s
  else if (part s p).sessions ≤ (sessionsOf s p).length then refuseHello port peer .busy s
  else
    match freeSession s with
    | none => refuseHello port peer .busy s
    | some i =>
      let (ident, s) := drawFree s
      let (v, s) := drawFree s
      let x : Session :=
        { partition := p, port := port, ident := ident % 2 ^ 32, hostCtr := 0, deviceCtr := 2 ^ 63 + 1, peer := peer
          lastFrame := s.mtb.uptime, challenge := Config.sessionChallenge v, key := Config.sessionKey v }
      { s with hst := { s.hst with sessions := tset s.hst.sessions i x } }

/-- The hellos that waited for M2, taken in order (R439). -/
def serveHellos (s : State) : State :=
  s.hst.hellos.foldl (fun s h => answerHello h.1 h.2.1 h.2.2 s) { s with hst := { s.hst with hellos := [] } }

/-! ### Scope (R426) -/

/-- Whether a channel lies in a partition's scope. -/
def ownsChannel (s : State) (p c : Nat) : Bool := p == 0 || bitOf (part s p).channels c

/-- Whether a decode context lies in a partition's scope. -/
def ownsDecode (s : State) (p d : Nat) : Bool := p == 0 || bitOf (part s p).decode d

/-- The channel of an encode context. -/
def chanOfCtx (s : State) (x : Nat) : Option Nat := (tget s.enc.ctxs x).map (fun c => c.channel)

/-- Whether an encode context lies in a partition's scope. -/
def ownsCtx (s : State) (p x : Nat) : Bool :=
  p == 0 || (match chanOfCtx s x with | some c => bitOf (part s p).channels c | none => false)

/-- Whether an egress flow leg lies in a partition's scope. -/
def ownsLeg (s : State) (p l : Nat) : Bool :=
  p == 0 || (match tget s.egr.legs l with | some x => bitOf (part s p).channels x.channel | none => false)

/-- The channels that have a given source as a member of their alignment group. -/
def chansOfMember (s : State) (t i : Nat) : List Nat :=
  tkeysOf s.ing.groups (fun _ g => g.members.any (fun m => m.2.srcType == t && m.2.src == i))

/-- The channels with an ingress flow as a member (R197 codes the source types). -/
def chansOfFlow (s : State) (f : Nat) : List Nat := chansOfMember s 1 f

/-- The channels with an AES3 input as a member. -/
def chansOfAes (s : State) (i : Nat) : List Nat := chansOfMember s 2 i

end Sys2Proof.Machine
end

