-- ==== Sys2Proof/Machine/Send.lean ====
section
/-! DEFINITION. What a device sends on its Valsin ports: frames queued by class, sent into the replay buffer, and the ways to the
partner over VA and to the neighbours of the tree (R247, R325, R326, R330, R340, R342). -/

namespace Sys2Proof.Machine

/-- The frame of a queue that goes first: the lowest class, and the oldest of it (R247, R325). -/
def nextFrame (q : List OutFrame) : Option OutFrame :=
  q.foldl (fun b f => match b with
    | none => some f
    | some g => if f.cls < g.cls then some f else some g) none

/-- The time at which a frame that may be sent now leaves: the first one 2.0 µs after a wake began (R330). -/
def leavesAt (now : Nat) (x : ValPort) : Nat := max now (x.wakeAt + 2 * usUnit)

/-- Up to n frames of the queue are sent while the direction is awake and the replay buffer holds fewer than 256 frames. A frame sent
acknowledges too (R326, R330). -/
def flushFrames (now : Nat) : Nat → ValPort → ValPort
  | 0, x => x
  | n + 1, x =>
    match nextFrame x.queue with
    | none => x
    | some f =>
      if x.st = 2 ∧ x.txAsleep = false ∧ x.replay.length < 256 then
        flushFrames now n { x with
          queue := x.queue.erase f, replay := x.replay ++ [{ f with seq := x.txSeq }], txSeq := (x.txSeq + 1) % 65536
          ackOwed := false, txAt := leavesAt now x }
      else x

/-- Every frame that may be sent is sent. -/
def flushPort (now : Nat) (x : ValPort) : ValPort := flushFrames now x.queue.length x

/-- A frame queued on a Valsin port and sent when its turn comes; nothing is queued while the port is not up (R326). -/
def sendLink (v cls : Nat) (msg : LinkMsg) (s : State) : State :=
  { s with lnk := { s.lnk with vals := tmod s.lnk.vals v (fun x =>
      if x.st = 2 then flushPort s.mtb.t { x with queue := x.queue ++ [{ cls := cls, msg := msg }] } else x) } }

/-- Pair traffic sent on VA, in a class of Table 1 of the pair chapter (R247). -/
def sendVa (cls : Nat) (msg : LinkMsg) (s : State) : State := if pairInForce s && s.red.vaUp then sendLink 0 cls msg s else s

/-! ### The tree's ports (R338, R340, R350) -/

/-- The child ports in use, VH1 to VH4 of HRW_DOWN (R350). -/
def childPorts (s : State) : List Nat := [1, 2, 3, 4].filter (fun k => bitOf s.hrw.down k)

/-- Whether VH port k is up. -/
def vhUp (s : State) (k : Nat) : Bool := bitOf s.hrw.portsUp k

/-- The child ports that are in use and up. -/
def childrenUp (s : State) : List Nat := (childPorts s).filter (vhUp s)

/-- A Hedgerow frame sent on VH port k, in its class. -/
def sendTree (k cls : Nat) (msg : LinkMsg) (s : State) : State := if vhUp s k then sendLink (k + 1) cls msg s else s

/-- A Hedgerow frame sent to every child (R342, R343). -/
def sendDown (cls : Nat) (msg : LinkMsg) (s : State) : State := (childrenUp s).foldl (fun s k => sendTree k cls msg s) s

/-- A Hedgerow frame sent to the parent (R342). -/
def sendUp (cls : Nat) (msg : LinkMsg) (s : State) : State := sendTree 0 cls msg s

end Sys2Proof.Machine
end

