-- ==== Sys2Proof/Machine/Changes.lean ====
section
/-! DEFINITION. Runtime changes: which device decides, the target frame, the commit on one device or on both, and the change that is
forwarded (R39, R40, R42, R264, R440). -/

namespace Sys2Proof.Machine

/-- A channel. -/
def chan (s : State) (c : Nat) : Chan := tgetD s.enc.chans c {}

/-- The state with a channel changed, where it has one. -/
def modChan (s : State) (c : Nat) (f : Chan → Chan) : State :=
  { s with enc := { s.enc with chans := tmod s.enc.chans c f } }

/-- The state with a context changed, where it has one. -/
def modCtx (s : State) (x : Nat) (f : Ctx → Ctx) : State :=
  { s with enc := { s.enc with ctxs := tmod s.enc.ctxs x f } }

/-- The state with a picture in flight of a context, and the context, changed. -/
def modPic (s : State) (x frame : Nat) (f : Ctx → Pic → Ctx × Pic) : State :=
  match tget s.enc.ctxs x with
  | none => s
  | some c =>
    match c.pics.find? (fun p => p.frame == frame) with
    | none => s
    | some p =>
      let r := f c p
      modCtx s x (fun _ => { r.1 with pics := r.1.pics.map (fun q => if q.frame = frame then r.2 else q) })

/-- A picture in flight of a context. -/
def picOf (s : State) (x frame : Nat) : Option Pic :=
  match tget s.enc.ctxs x with
  | none => none
  | some c => c.pics.find? (fun p => p.frame == frame)

/-! ### Which device decides (R264) -/

/-- Whether this device decides runtime changes: an unpaired device, the holder of the claim, or with no claim held the device of
the higher ID; never a device in M6 (R114, R264). -/
def decides (s : State) : Bool :=
  if !pairInForce s then true
  else if actingMode s == .resync then false
  else if s.red.partnerMode = 6 then true
  else if s.red.claim != 0 || s.red.partnerClaim != 0 then decide (s.red.partnerClaim < s.red.claim)
  else decide (s.red.peerId < s.hrw.ident)

/-- Whether a change accepted now is committed here: this device decides, or VA is down (R264). -/
def decidesHere (s : State) : Bool := decides s || !s.red.vaUp

/-- Whether a commit also goes to the partner (R264). -/
def commitsToPartner (s : State) : Bool := pairInForce s && s.red.vaUp

/-- The next frame of a channel still open (R42). -/
def openFrame (s : State) (ch : Chan) : Nat := nextOpen ch.raster ch.rate s.mtb.t

/-- The earliest frame that a change accepted now may name: the next open frame, and with a partner the first whose guard lies at
least 50 µs ahead (R42, R264). -/
def earliestTarget (s : State) (ch : Chan) : Nat :=
  if commitsToPartner s then nextOpen ch.raster ch.rate (s.mtb.t + 50 * usUnit - 1) else openFrame s ch

/-- The frame at which a change with a named 32-bit target applies, and whether the target was late (R42, R264). -/
def targetFrame (s : State) (ch : Chan) (named : Nat) : Nat × Bool :=
  let t := resolveTarget (openFrame s ch) (named % 2 ^ 32)
  (max (earliestTarget s ch) (if named % 2 ^ 32 = 0 then 0 else t.1), t.2)

/-- What a commit of a change records at once: the bitrate last commanded, and a splice committed late on the legs of its flow
(R123, R237). -/
def noteCommit (late : Bool) (change : ShadowChange) (s : State) : State :=
  match change with
  | .bitrate x kbps => modCtx s x (fun c => { c with kbpsCfg := kbps })
  | .splice flow _ _ =>
    if late then { s with egr := { s.egr with legs := tmap s.egr.legs (fun k l =>
      if k = flow ∨ (l.twoLegs = true ∧ k / 2 = flow / 2) then { l with spliceLate := bump 16 l.spliceLate } else l) } }
    else s
  | _ => s

/-- The last moment of a host SEI message for picture n: row tick min(L, 4) (R291). -/
def seiDeadline (ch : Chan) (n : Nat) : Nat := rowTickAt ch.raster ch.rate n (min ch.delayL 4)

/-- A host SEI message decided for a frame: placed in its picture while that is in flight, its deadline has not passed and the
reserve holds it; carried with the next picture and counted late where one of these fails; kept for a picture still to come
(R292). -/
def commitSei (x frame kind : Nat) (data : Bytes) (item : Option Nat) (s : State) : State :=
  match tget s.enc.ctxs x with
  | none => s
  | some c =>
    let ch := chan s c.channel
    let next := match ch.lastFrame with | some n => n + 1 | none => 0
    let m : SeiMsg := { frame := frame, size := (withEmulation 0 data).length, item := item, kind := kind, data := data }
    let inTime := decide (s.mtb.t ≤ seiDeadline ch frame)
    let queue := fun (n : Nat) (s : State) =>
      modCtx s x (fun c => { c with seiQueue := c.seiQueue ++ [{ m with frame := n }] })
    let late := fun (s : State) => modChan (queue (max next (frame + 1)) s) c.channel (fun h => { h with seiLate := bump32 h.seiLate })
    match picOf s x frame with
    | some p =>
      if inTime && !p.excess && decide (8 * m.size ≤ reserveLeft p (128 * c.ud16)) then
        modPic s x frame (fun c p => (c, refreshSei ch c { p with seiBytes := p.seiBytes + m.size, seiMsgs := p.seiMsgs ++ [m] }))
      else late s
    | none => if inTime && decide (next ≤ frame) then queue frame s else late s

/-- What a later change makes of a committed one of the same parameter, which it replaces: a graphics update that keeps the position
or the slot keeps those committed. None where the two are of different parameters, as two acknowledgements, two loss reports and two
splices are (R40). -/
def replacedBy (old new : ShadowChange) : Option ShadowChange :=
  match old, new with
  | .bitrate x _, .bitrate y _ => if x = y then some new else none
  | .correction x _, .correction y _ => if x = y then some new else none
  | .layer l _ _ _ _, .layer m _ _ _ _ => if l = m then some new else none
  | .graphics l _ pos slot, .graphics m v pos' slot' =>
    if l = m then some (.graphics m v (pos' <|> pos) (slot' <|> slot)) else none
  | .expected k _, .expected j _ => if k = j then some new else none
  | .portRestart p, .portRestart q => if p = q then some new else none
  | _, _ => none

/-- Whether a commit stands in the shadow set to be replaced by a change: it is of the same parameter, and its frame tick lies past the
last one reached. One whose tick has been reached is copied at that tick, before any write of the same MGT cycle lands (R39, R40). -/
def replaces (now : Nat) (change : ShadowChange) (k : Commit) : Bool := decide (now < k.frame) && (replacedBy k.change change).isSome

/-- A shadow set with a change committed, `now` being the last frame whose tick has been reached: what is committed and not yet applied
of the same parameter is replaced (R40). DESIGN CHOICE: the replaced value applies at the frame of the later commit, whatever frame the
earlier one named, so nothing is applied at the earlier frame; R40 says that the committed value is replaced and not at which of two
frames (log entry 141). -/
def intoShadow (now frame : Nat) (change : ShadowChange) (l : List Commit) : List Commit :=
  let old := l.find? (replaces now change)
  let merged := (old.bind (fun k => replacedBy k.change change)).getD change
  l.filter (fun k => !replaces now change k) ++ [⟨frame, merged⟩]

/-- A change committed with its frame: it enters the channel's shadow set, and a late one is counted; a host SEI message goes to its
context (R39, R40, R42, R292). DESIGN CHOICE: CLK_SHADOW_LATE is counted per channel and no register shows it, since no table of the
channel status block gives it an offset (log entry 112). -/
def commitAt (c frame : Nat) (late : Bool) (change : ShadowChange) (item : Option Nat) (s : State) : State :=
  match change with
  | .sei x kind data => commitSei x frame kind data item s
  | _ =>
    noteCommit late change (modChan s c (fun h =>
      { h with shadow := intoShadow (frameNow h.rate s.mtb.t) frame change h.shadow
               shadowLate := if late then bump32 h.shadowLate else h.shadowLate }))

/-- The commit of a deciding device: local, and sent to the partner (R264). -/
def commitBoth (c frame : Nat) (late : Bool) (change : ShadowChange) (item : Option Nat) (s : State) : State :=
  let s := commitAt c frame late change item s
  if commitsToPartner s then
    sendVa 3 (.change c frame change) { s with run := { s.run with toPartner := ⟨frame, change⟩ :: s.run.toPartner } }
  else s

/-- A change that this device does not decide is noted and sent to the device that does (R264). -/
def forward (f : Fwd) (named : Nat) (s : State) : State :=
  sendVa 3 (.change f.channel named f.change) { s with run := { s.run with forwards := s.run.forwards ++ [f] } }

/-- A change from this device's own control plane or from RTCP: committed where this device decides, forwarded otherwise
(R264). -/
def changeOf (c named : Nat) (change : ShadowChange) (s : State) : State :=
  match tget s.enc.chans c with
  | none => s
  | some ch =>
    if decidesHere s then
      let t := targetFrame s ch named
      commitBoth c t.1 t.2 change none s
    else forward { channel := c, change := change } named s

/-- A change that a mailbox command asks for: answered with its data and the low 32 bits of the target frame, at once where this
device decides, and once the target is known where it forwards (R264, R437). -/
def changeFor (p : Nat) (r : Req) (opcode c named : Nat) (clamped : Bool) (data : Bytes) (change : ShadowChange)
    (s : State) : State :=
  match tget s.enc.chans c with
  | none => reply p r opcode .notReady false [] s
  | some ch =>
    if decidesHere s then
      let t := targetFrame s ch named
      reply p r opcode .ok clamped (data ++ le 4 t.1) (commitBoth c t.1 t.2 change none s)
    else
      forward { req := some r, opcode := opcode, channel := c, change := change, clamped := clamped, data := data } named s

/-- The first forward of a list that carries a change for a channel, and the rest. -/
def takeForward (c : Nat) (change : ShadowChange) : List Fwd → Option Fwd × List Fwd
  | [] => (none, [])
  | f :: l =>
    if f.channel = c ∧ f.change = change then (some f, l)
    else
      let (g, m) := takeForward c change l
      (g, f :: m)

/-- Modes in which a runtime change takes effect (R439, R440). -/
def changeLegal (m : Mode) : Bool := ticksRun m

end Sys2Proof.Machine
end

