-- ==== Sys2Proof/Machine/Operands.lean ====
section
/-! DEFINITION. Operand forms: fields of a record or of a command's payload, each with its clamp (R6, R437). -/

namespace Sys2Proof.Machine

/-- A value read from a payload and whether it was clamped (R437). -/
structure Fld where
  val : Nat
  clamped : Bool
  deriving DecidableEq, Repr

/-- A value held within bounds, marked when that changed it (R437). -/
def fclamp (lo hi v : Nat) : Fld := ⟨clamp lo hi v, clamp lo hi v != v⟩

/-- An 8-bit field with its bounds. -/
def f8 (b : Bytes) (o lo hi : Nat) : Fld := fclamp lo hi (u8 b o)

/-- A 16-bit field with its bounds. -/
def f16 (b : Bytes) (o lo hi : Nat) : Fld := fclamp lo hi (u16 b o)

/-- A 32-bit field with its bounds. -/
def f32 (b : Bytes) (o lo hi : Nat) : Fld := fclamp lo hi (u32 b o)

/-- A field whose value 0 stands for a default and whose other values have bounds. -/
def orDefault (v d lo hi : Nat) : Nat := if v = 0 then d else clamp lo hi v

/-- A signed 8-bit field. -/
def s8 (b : Bytes) (o : Nat) : Int := toSigned 8 (u8 b o)

/-- A signed 16-bit field. -/
def s16 (b : Bytes) (o : Nat) : Int := toSigned 16 (u16 b o)

/-- A signed 32-bit field. -/
def s32 (b : Bytes) (o : Nat) : Int := toSigned 32 (u32 b o)

/-- The even value at or below a value. -/
def even (v : Nat) : Nat := v / 2 * 2

end Sys2Proof.Machine
end

