-- ==== Sys2Proof/Machine/Ops.lean ====
section
/-! DEFINITION. The operations over addressed bytes: HBM by client address, and the slate planes. A list of cells stands in one
canonical form: addresses strictly rising, and no cell equal to what an unlisted address reads as (R178, R299, R300). -/

namespace Sys2Proof.Machine

/-- The byte at an address of a list of cells, where it is listed. -/
def cellGet : List Host.Cell → Nat → Option Byte
  | [], _ => none
  | (a, v) :: t, n => if a = n then some v else cellGet t n

/-- A byte put at an address, addresses kept rising. -/
def cellPut : List Host.Cell → Nat → Byte → List Host.Cell
  | [], n, v => [(n, v)]
  | (a, w) :: t, n, v =>
    if n < a then (n, v) :: (a, w) :: t else if n = a then (n, v) :: t else (a, w) :: cellPut t n v

/-- The cell at an address taken out. -/
def cellDrop : List Host.Cell → Nat → List Host.Cell
  | [], _ => []
  | (a, w) :: t, n => if a = n then t else (a, w) :: cellDrop t n

/-- A byte written where an unlisted address reads as a default: writing the default removes the cell. -/
def cellSet (dflt : Option Byte) (l : List Host.Cell) (n : Nat) (v : Byte) : List Host.Cell :=
  if dflt = some v then cellDrop l n else cellPut l n v

/-- Bytes written at rising addresses. -/
def cellWrite (dflt : Option Byte) (l : List Host.Cell) (n : Nat) : Bytes → List Host.Cell
  | [] => l
  | b :: t => cellWrite dflt (cellSet dflt l n b) (n + 1) t

/-- The addresses of a list of cells rise strictly from a bound. -/
def cellsFrom : Nat → List Host.Cell → Bool
  | _, [] => true
  | n, (a, _) :: t => decide (n ≤ a) && cellsFrom (a + 1) t

/-- The canonical form of a list of cells. -/
def cellsWf (dflt : Option Byte) (l : List Host.Cell) : Bool := cellsFrom 0 l && l.all (fun c => dflt != some c.2)

/-- The first address beyond the client address space: 63 GiB (R300). -/
def hbmEnd : Nat := 0xFC0000000

/-- What an unlisted HBM address reads as: no value, since the spec gives HBM no contents after power-on (log entry 17). -/
def hbmUnlisted : Option Byte := none

/-- The canonical form of HBM, all of it inside the client address space (R300). -/
def hbmWf (l : List Host.Cell) : Bool := cellsWf hbmUnlisted l && l.all (fun c => decide (c.1 < hbmEnd))

/-- The pseudo-channel that Table 1 gives an address, before retirement (R299). -/
def tableChannel (a : Nat) : Nat := Nat.xor (bitsOf a 14 8) (bitsOf a 27 21)

/-- The row of an address (R299). -/
def rowOf (a : Nat) : Nat := bitsOf a 35 21

/-- The bank of an address (R299). -/
def bankOf (a : Nat) : Nat := Nat.xor (bitsOf a 20 17) (bitsOf a 24 21)

/-- The ordinal of a block in a normal row (R310). -/
def ordinalOf (a : Nat) : Nat := 64 * rowOf a + 4 * bankOf a + bitsOf a 16 15

/-- The blocks of a pseudo-channel in normal rows, and the spare slots a first retirement fills (R310). -/
def normalBlocks : Nat := 2064384
def firstSlots : Nat := 16255

/-- The blocks that the latest retirement moves (R310). -/
def blocksToMove (s : State) : Nat := if s.drm.order.length ≤ 1 then normalBlocks else normalBlocks + firstSlots

/-- The blocks of 256 bytes that a pseudo-channel passes in a second at its full rate of 23.76 GB/s (R297, R311). -/
def blocksPerSecond : Nat := 92812500

/-- The blocks that the copy in progress has passed, in ascending ordinal; those of the last copy where none is in progress (R311).
DESIGN CHOICE: the copy runs evenly at the pseudo-channel's full rate from its beginning (log entry 147). -/
def copiedBlocks (s : State) : Nat :=
  if s.drm.remapActive then min (blocksToMove s) ((s.mtb.t - s.drm.remapAt) * blocksPerSecond / secUnit) else s.drm.remap

/-- The pseudo-channels not in a list, in ascending number (R310). -/
def liveList (gone : List Nat) : List Nat := (List.range 128).filter (fun p => !gone.contains p)

/-- Where a block of 256 bytes lies: its pseudo-channel, row, bank and place within the row (R299). -/
structure BlockPlace where
  pc : Nat
  row : Nat
  bank : Nat
  block : Nat
  deriving DecidableEq, Repr

/-- The place that Table 1 gives an address (R299). -/
def tablePlace (a : Nat) : BlockPlace := ⟨tableChannel a, rowOf a, bankOf a, bitsOf a 16 15⟩

/-- Spare slot k of a pseudo-channel (R310). -/
def slotPlace (pc k : Nat) : BlockPlace := ⟨pc, 32256 + k / 64, k / 4 % 16, k % 4⟩

/-- Whether the copy in progress has yet to reach the block of ordinal o of pseudo-channel p, and no write has marked it copied
(R311). -/
def notCopied (s : State) (p o : Nat) : Bool :=
  s.drm.remapActive && s.drm.remapPc == p && decide (copiedBlocks s ≤ o) && !s.drm.remapWritten.contains o

/-- The place of the block of ordinal o of retired pseudo-channel p, at `home` until it is copied: the first retirement fills slots 0 to
16,254 of its live list, the second the slots from 16,255 (R310, R311). -/
def movedPlace (s : State) (p o : Nat) (home : BlockPlace) : BlockPlace :=
  if notCopied s p o then home
  else
    let k := s.drm.order.idxOf p
    let live := liveList (s.drm.order.take (k + 1))
    slotPlace (live.getD (o % live.length) p) (firstSlots * k + o / live.length)

/-- The place at which an address is served: a block of the first retirement whose slot lay in the second has moved with it (R299, R310,
R311). -/
def placeOf (s : State) (a : Nat) : BlockPlace :=
  let t := tablePlace a
  if s.drm.order.contains t.pc then
    let m := movedPlace s t.pc (ordinalOf a) t
    if m.pc ≠ t.pc ∧ s.drm.order.contains m.pc = true then movedPlace s m.pc (normalBlocks + ordinalOf a / 127) m else m
  else t

/-- The pseudo-channel that serves an address (R299, R310, R311). -/
def channelOf (s : State) (a : Nat) : Nat := (placeOf s a).pc

/-- The ordinal, in the pseudo-channel whose copy is in progress, of the block that an address lies in, if it lies in one of them
(R310, R311). -/
def copyingOrdinal (s : State) (a : Nat) : Option Nat :=
  if s.drm.remapActive = false then none
  else if tableChannel a = s.drm.remapPc then some (ordinalOf a)
  else if s.drm.order.contains (tableChannel a) && (slotPlace ((liveList (s.drm.order.take 1)).getD (ordinalOf a % 127) 0)
      (ordinalOf a / 127)).pc == s.drm.remapPc then some (normalBlocks + ordinalOf a / 127)
  else none

/-- The blocks marked copied once n bytes at an address have been written: during a copy each block of its pseudo-channel that they meet
(R311). -/
def markedBlocks (a n : Nat) (s : State) : List Nat :=
  if s.drm.remapActive then
    ((List.range ((a + n + 255) / 256 - a / 256)).map (fun i => 256 * (a / 256 + i))).foldl (fun l b =>
      match copyingOrdinal s b with | some o => sadd l o | none => l) s.drm.remapWritten
  else s.drm.remapWritten

/-- The accesses of 32 bytes that n bytes at an address lie in (R298). -/
def accessHit (a n k : Nat) : Bool := decide (a / 32 ≤ k ∧ 32 * k < a + n)

/-- Bytes written to HBM; nothing is written outside the client address space (R300), a write to a poisoned access clears its
poison (R308), and during a copy a write marks its blocks copied (R311). -/
def hbmWrite (a : Nat) (b : Bytes) (s : State) : State :=
  let w := b.take (hbmEnd - a)
  { s with drm := { s.drm with
      mem := cellWrite hbmUnlisted s.drm.mem a w
      remapWritten := markedBlocks a w.length s
      poison := s.drm.poison.filter (fun k => !accessHit a w.length k) } }

/-- The poisoned accesses that n bytes at an address meet (R308). -/
def poisonedIn (s : State) (a n : Nat) : List Nat := s.drm.poison.filter (accessHit a n)

/-- Poisoned reads counted and reported, each against the pseudo-channel that serves it (R308). -/
def reportPoison (l : List Nat) (s : State) : State :=
  l.foldl (fun s k => raise 0x069 (channelOf s (32 * k)) { s with drm := { s.drm with ueCount := bump32 s.drm.ueCount } }) s

/-- n bytes read from HBM: zero in a poisoned access (R308); a byte that nothing has written is an open value (log entry 17). -/
def hbmRead (a n : Nat) (s : State) : Bytes × State :=
  let (f, s') := drawBytes n s
  ((List.range n).map (fun i =>
    if s.drm.poison.contains ((a + i) / 32) then 0 else (cellGet s.drm.mem (a + i)).getD (f.getD i 0)), s')

end Sys2Proof.Machine
end

