-- ==== Sys2Proof/Machine/Items.lean ====
section
/-! DEFINITION. Work items: the wait store, the ready queues, dependence counters, and release in the order of a flow with all that a
host item does at its release (R279 to R292). -/

namespace Sys2Proof.Machine

/-! ### Places of an item -/

/-- The unit of a deadline, 1.024 µs (R279). -/
def deadlineUnit : Nat := 1024 * nsUnit

/-- The deadline of a time: rounded down to its unit (R279). -/
def deadlineOf (t : Nat) : Nat := t / deadlineUnit

/-- Whether a deadline lies more than 32,000 µs ahead (R279). -/
def parks (s : State) (deadline : Nat) : Bool := decide (s.mtb.t + 32000 * usUnit < deadline * deadlineUnit)

/-- The state with its dispatcher changed. -/
def setPvd (s : State) (f : Pvd → Pvd) : State := { s with pvd := f s.pvd }

/-- The item with an order of submission. -/
def itemOf (s : State) (order : Nat) : Option Item := s.pvd.items.find? (fun i => i.order == order)

/-- The state with an item changed. -/
def setItem (s : State) (order : Nat) (f : Item → Item) : State :=
  setPvd s (fun p => { p with items := p.items.map (fun i => if i.order = order then f i else i) })

/-- The items in the wait store: waiting or parked (R281). -/
def waitDepth (s : State) : Nat := (s.pvd.items.filter (fun i => i.place == .waiting || i.place == .parked)).length

/-- The entries of a ready queue. -/
def queueLen (s : State) (q : Nat) : Nat := (s.pvd.items.filter (fun i => i.place == .queued q)).length

/-- Whether an item lies in its flow's window of 256 (R284). -/
def inFlowWindow (s : State) (i : Item) : Bool :=
  decide ((i.seq + 2 ^ 24 - tgetD s.pvd.heads i.flow 0) % 2 ^ 24 < 256)

/-- Whether an item in the wait store is ready, lies in its flow's window, and its queue has an entry free (R281, R282, R284). -/
def mayQueue (s : State) (i : Item) : Bool :=
  i.place == .waiting && i.ready && inFlowWindow s i && decide (queueLen s i.queue < 1024)

/-- The peaks that reads clear (R296). -/
def notePeaks (s : State) : State :=
  setPvd s (fun p => { p with
    waitPeak := max p.waitPeak (waitDepth s)
    queuePeaks := (List.range 64).foldl (fun t q =>
      if tgetD t q 0 < queueLen s q then tset t q (queueLen s q) else t) p.queuePeaks })

/-- The descriptor of an item, with the deadline field written from the full count (R279, Table 2). -/
def descriptorOf (i : Item) : Nat :=
  i.cls % 2 ^ 8 * 2 ^ 120 + i.flow % 2 ^ 12 * 2 ^ 104 + i.seq % 2 ^ 24 * 2 ^ 80 + (i.counter.getD 0xFFFFF) % 2 ^ 20 * 2 ^ 60 +
    i.deadline % 2 ^ 16 * 2 ^ 44 + i.payload % 2 ^ 36 * 2 ^ 4 + i.retries % 4 * 4 + b2n (decide (i.queue < 48)) * 2 +
    b2n i.host.isSome

/-- Ready items enter their queues in the order of submission, each as its descriptor (R279, R281, R282). -/
def promote (s : State) : State :=
  notePeaks ((s.pvd.items.map (fun i => i.order)).foldl (fun s k =>
    match itemOf s k with
    | some i => if mayQueue s i then setItem s k (fun i => { i with place := .queued i.queue, word := descriptorOf i }) else s
    | none => s) (notePeaks s))

/-- A work item enters the dispatcher: it gets its sequence and is parked or waits until it is ready (R279, R281). -/
def submit (i : Item) (s : State) : State :=
  let seq := tgetD s.pvd.next i.flow 0
  let ready := match i.counter with | some k => tgetD s.pvd.counters k 0 == 0 | none => true
  let i := { i with seq := seq, order := s.pvd.order, ready := ready, place := if parks s i.deadline then .parked else .waiting }
  promote (setPvd s (fun p => { p with
    items := p.items ++ [i], order := p.order + 1, next := tset p.next i.flow ((seq + 1) % 2 ^ 24) }))

/-! ### Dependence counters (R280) -/

/-- A fault of a counter: reported and counted (R280). -/
def counterFault (k : Nat) (s : State) : State :=
  raise 0x062 k (setPvd s (fun p => { p with cntFaults := bump32 p.cntFaults }))

/-- A counter decremented; at zero it stays and the decrement is a fault. The items that wait on one that reaches zero are ready from then
on (R280, R281). -/
def decrement (s : State) (k : Nat) : State :=
  let v := tgetD s.pvd.counters k 0
  if v = 0 then counterFault k s
  else if v = 1 then setPvd s (fun p => { p with
    counters := tdel p.counters k, items := p.items.map (fun i => if i.counter = some k then { i with ready := true } else i) })
  else setPvd s (fun p => { p with counters := tset p.counters k (v - 1) })

/-! ### Release (R284) -/

/-- An item leaves its flow: its decrements are made and the head advances (R280, R284). -/
def retireItem (i : Item) (s : State) : State :=
  let s := i.decrements.foldl decrement s
  setPvd s (fun p => { p with
    items := p.items.filter (fun j => j.order != i.order), heads := tset p.heads i.flow ((i.seq + 1) % 2 ^ 24) })

/-- The retry hint of R287: µs until the earliest deadline of a partition's items in flight. -/
def retryHint (s : State) (p : Nat) : Nat :=
  let l := (s.pvd.items.filter (fun i => match i.host with | some h => h.partition == p | none => false)).map (fun i => i.deadline)
  match l with
  | [] => 1000
  | d :: ds => clamp 100 100000 (ceilDiv ((ds.foldl min d) * deadlineUnit - s.mtb.t) usUnit)

/-- How a host item's release ends: it waits for something further, it is complete at a frame, or it is refused. -/
inductive Ending where
  | waits | complete (frame : Nat) | refused (status : Status)
  deriving DecidableEq, Repr

/-- What a change waits for after its commit: a flip for the slot it displaces, a splice for the tick that queues its section, an SEI
message for its picture; any other change is complete at its commit (R170, R291). -/
def afterCommit (order frame : Nat) (change : ShadowChange) (s : State) : Ending :=
  match change with
  | .graphics _ _ _ (some _) => .waits
  | .splice _ _ _ => .waits
  | .sei x _ _ => if ((tgetD s.enc.ctxs x {}).seiQueue).any (fun m => m.item == some order) then .waits else .complete frame
  | _ => .complete frame

/-- A host item's change is committed for a frame; commits are numbered in their order (R170, R264, R291). -/
def markCommitted (order frame : Nat) (s : State) : State :=
  setItem (setPvd s (fun p => { p with commits := p.commits + 1 })) order (fun i =>
    { i with host := i.host.map (fun h => { h with target := frame, committed := true, waits := true, commitNo := s.pvd.commits + 1 }) })

/-- A host item's change is committed here for a frame (R42, R264, R285). -/
def commitItem (order : Nat) (h : HostItem) (ch : Chan) (s : State) : State × Ending :=
  let least := match h.change with
    | .sei _ _ _ => if commitsToPartner s then earliestTarget s ch else 0
    | _ => earliestTarget s ch
  let frame := max h.target least
  let late := match h.change with
    | .sei _ _ _ => false
    | _ => h.missed || decide (h.target < openFrame s ch)
  let s := commitBoth h.channel frame late h.change (some order) s
  let s := if late then setQuota s h.partition (fun q => { q with late := bump32 q.late }) else s
  let s := markCommitted order frame s
  (s, afterCommit order frame h.change s)

/-- Whether a splice names a flow that is not a TS flow (R237). -/
def notTs (s : State) (flow : Nat) : Bool :=
  match tget s.egr.legs flow with
  | some l => l.kind != 1
  | none => true

/-- Bytes of a graphics slot (R169, Table 3 of the composition chapter). -/
def slotBytes (g : GLayer) : Nat := 128 + 5 * g.maxW * g.maxH

/-- The HBM address of a slot of a layer, 0 A and 1 B (R169). -/
def slotAddr (g : GLayer) (slot : Nat) : Nat := if slot = 0 then g.addrA else g.addrB

/-- The contents of a slot of a layer, as port VA reads them (R265, R266). -/
def slotData (g : GLayer) (slot : Nat) (s : State) : Bytes × State := hbmRead (slotAddr g slot) (slotBytes g) s

/-- Bytes of a slot, from an offset, that the partner copied (R265). -/
def writeSlot (c layer slot offset : Nat) (data : Bytes) (s : State) : State :=
  match tget (tgetD s.cmps c {}).g layer with
  | none => s
  | some g => hbmWrite (slotAddr g slot + offset) (data.take (slotBytes g - offset)) s

/-- A slot copied whole that is the current one of its layer (R266). -/
def installSlot (c layer slot : Nat) (data : Bytes) (s : State) : State :=
  let s := writeSlot c layer slot 0 data s
  { s with cmps := tmod s.cmps c (fun x => { x with g := tmod x.g layer (fun g => { g with slot := some (slot % 2) }) }) }

/-- A slot's new contents start on their way to the partner, read through port 44 (R11, R247, R265, R308). -/
def startCopy (c layer slot : Nat) (copy : SlotCopy) (s : State) : State :=
  let (data, s) := match tget (tgetD s.cmps c {}).g layer with
    | some g => slotData g slot (reportPoison (poisonedIn s (slotAddr g slot) (slotBytes g)) s)
    | none => ([], s)
  sendVa 5 (.va (.slot c layer slot 0 data)) { s with cmps := tmod s.cmps c (fun x =>
    { x with g := tmod x.g layer (fun g => { g with copying := g.copying ++ [copy] }) }) }

/-- What a host item does at its release: its change is committed here, copied to the partner first where it flips a graphics slot, or
forwarded to the deciding device (R237, R264, R265, R440). -/
def hostEffect (order : Nat) (h : HostItem) (s : State) : State × Ending :=
  let wait := fun (s : State) => setItem s order (fun i => { i with host := i.host.map (fun h => { h with waits := true }) })
  match tget s.enc.chans h.channel with
  | none => (s, .refused .notReady)
  | some ch =>
    if changeLegal s.mode.mode = false then (s, .refused .wrongMode)
    else if ch.st ≠ 1 then (s, .refused .notReady)
    else
      match h.change with
      | .splice flow w b =>
        if notTs s flow then
          ({ s with egr := { s.egr with legs := tmod s.egr.legs flow (fun l => { l with spliceDisc := bump 16 l.spliceDisc }) } },
            .complete h.target)
        else if decidesHere s then commitItem order { h with change := .splice flow w b } ch s
        else (wait (forward { channel := h.channel, change := h.change, item := some order } h.target s), .waits)
      | .graphics layer v pos (some k) =>
        if !decidesHere s then
          (wait (forward { channel := h.channel, change := h.change, item := some order } h.target s), .waits)
        else if commitsToPartner s then
          let copy : SlotCopy := { change := .graphics layer v pos (some k), target := h.target, missed := h.missed, item := some order }
          (wait (startCopy h.channel layer k copy s), .waits)
        else commitItem order h ch s
      | _ =>
        if decidesHere s then commitItem order h ch s
        else (wait (forward { channel := h.channel, change := h.change, item := some order } h.target s), .waits)

/-- The one reply of a host item (R289, R440). -/
def answerItem (h : HostItem) (st : Status) (data : Bytes) (s : State) : State := replyTo h.req 0x0E10 st h.clamped data s

/-- Whether the reply to a request waits for room in its reply ring (R293, R438). -/
def replyWaits (s : State) (r : Req) : Bool :=
  decide (r.transport < 16) && (ring s r.transport).waiting.any (fun m => !isEvent m && m.seq == r.seq && m.tag == r.tag)

/-- A host item answered: it is released with its reply. Where the reply ring is full the completion is held in the item's flow until the
reply has room (R284, R293). -/
def answered (i : Item) (h : HostItem) (st : Status) (data : Bytes) (s : State) : State :=
  let s := answerItem h st data s
  if replyWaits s h.req then
    setItem s i.order (fun i => { i with place := .done, host := i.host.map (fun h => { h with waits := true, answered := true }) })
  else retireItem i s

/-- The item at the head of a flow, where it has run to completion and waits for nothing further. -/
def releasable (s : State) (flow : Nat) : Option Item :=
  s.pvd.items.find? (fun i => i.flow == flow && i.seq == tgetD s.pvd.heads flow 0 && i.place == .done &&
    (match i.host with | some h => !h.waits | none => true))

/-- Items of a flow released in sequence order (R284, R286). -/
def releaseFlow (flow : Nat) : Nat → State → State
  | 0, s => s
  | n + 1, s =>
    match releasable s flow with
    | none => s
    | some i =>
      match i.host with
      | none => releaseFlow flow n (retireItem i s)
      | some h =>
        if i.empty then
          releaseFlow flow n (answered i h .busy (le 4 (retryHint s h.partition)) s)
        else
          match hostEffect i.order h s with
          | (s, .waits) => s
          | (s, .complete f) => releaseFlow flow n (answered i h .ok (le 4 f) s)
          | (s, .refused st) => releaseFlow flow n (answered i h st [] s)

/-- Every item of a flow that may now be released, and the items this makes ready. -/
def release (flow : Nat) (s : State) : State := promote (releaseFlow flow s.pvd.items.length s)

/-- A host item that waited is complete (R170, R264, R291). -/
def finishItem (order frame : Nat) (s : State) : State :=
  match itemOf s order with
  | none => s
  | some i =>
    match i.host with
    | none => s
    | some h => if h.answered then s else release i.flow (answered i h .ok (le 4 frame) s)

/-- A host item that waited is refused with nothing applied (R264, R440). -/
def refuseItem (order : Nat) (st : Status) (s : State) : State :=
  match itemOf s order with
  | none => s
  | some i =>
    match i.host with
    | none => s
    | some h => if h.answered then s else release i.flow (answered i h st [] s)

/-- The host items whose replies have found room are released, each with what it held back in its flow (R293). -/
def releaseAnswered (s : State) : State :=
  (s.pvd.items.map (fun i => i.order)).foldl (fun s k =>
    match itemOf s k with
    | none => s
    | some i => if i.host.any (fun h => h.answered && !replyWaits s h.req) then release i.flow (retireItem i s) else s) s

/-- Whether a host item's change is committed after the guard of the frame it named (R42, R285). -/
def afterGuard (h : HostItem) (frame : Nat) : Bool :=
  match h.change with
  | .sei _ _ _ => false
  | _ => h.missed || decide (h.target < frame)

/-- A late commit of a host item counted for its partition in PVD_P_LATE (R285). -/
def countLate (order frame : Nat) (s : State) : State :=
  match (itemOf s order).bind (fun i => i.host) with
  | some h => if afterGuard h frame then setQuota s h.partition (fun q => { q with late := bump32 q.late }) else s
  | none => s

/-- The target of a host item that waited for it is known: its change is committed at a frame (R264). -/
def itemDecided (order frame : Nat) (change : ShadowChange) (s : State) : State :=
  let s := markCommitted order frame (countLate order frame s)
  match afterCommit order frame change s with
  | .complete f => finishItem order f s
  | _ => s

/-- Whether a committed item of a channel is complete once frame n's tick has applied its change: a splice section is queued, a flip
displaced nothing, an SEI message is placed (R170, R237, R292). -/
def appliedAt (s : State) (c n : Nat) (i : Item) : Bool :=
  match i.host with
  | none => false
  | some h =>
    h.committed && h.channel == c && decide (h.target ≤ n) &&
      (match h.change with
       | .graphics l _ _ _ =>
         (match tget (tgetD s.cmps c {}).g l with
          | some g => (match g.displaced with | some d => d.item != some i.order | none => true)
          | none => true)
       | .sei x _ _ => !((tgetD s.enc.ctxs x {}).seiQueue).any (fun m => m.item == some i.order)
       | _ => true)

/-- The host items of a channel that frame n's tick completes (R291). -/
def completeApplied (c n : Nat) (s : State) : State :=
  ((s.pvd.items.filter (appliedAt s c n)).map (fun i => i.order)).foldl (fun s k =>
    match (itemOf s k).bind (fun i => i.host) with
    | some h => finishItem k (match h.change with | .sei _ _ _ => n | _ => h.target) s
    | none => s) s

/-! ### Discards, retries and failures (R38, R285, R286) -/

/-- A caption item that is discarded leaves its picture's caption data to be merged ahead of the next picture's, which counts as
caption SEI carried late (R87, R100). -/
def missCaptions (i : Item) (s : State) : State :=
  match Config.captionContext i.cls i.flow with
  | none => s
  | some x =>
    match tget s.enc.ctxs x with
    | none => s
    | some c =>
      match c.pics with
      | [] => s
      | p :: l =>
        if p.triples.isEmpty then s
        else
          let s := modCtx s x (fun c =>
            { c with capCarry := c.capCarry ++ p.triples
                     pics := refreshSei (chan s c.channel) c { p with triples := [], capBits := 0 } :: l })
          modChan s c.channel (fun h => { h with seiLate := bump32 h.seiLate })

/-- An item is released empty as a late item: TICK_OVERRUN is reported for it (R38, R284). -/
def emptyItem (i : Item) (s : State) : State :=
  let s := setItem s i.order (fun i => { i with place := .done, empty := true })
  release i.flow (raise 0x061 i.flow (missCaptions i s))

/-- The backoff of a retry: 25, 50 and 100 µs (R286). -/
def backoff (retry : Nat) : Nat := 25 * 2 ^ (retry - 1) * usUnit

/-- An item that could not complete: queued again after a backoff, or failed at its fourth retry (R286). -/
def retryItem (i : Item) (s : State) : State :=
  if i.retries < 3 then
    setItem (setPvd s (fun p => { p with retries := bump32 p.retries })) i.order
      (fun i => { i with place := .backoff, retries := i.retries + 1, retryAt := s.mtb.t + backoff (i.retries + 1) })
  else emptyItem i (setPvd s (fun p => { p with failed := bump32 p.failed }))

/-- The state with a core changed. -/
def setCore (s : State) (k : Nat) (f : Core → Core) : State := setPvd s (fun p => { p with cores := tmod p.cores k f })

/-- A core's busy time is added to its pool's in the present second, to the present moment (R296). -/
def noteBusy (k : Nat) (s : State) : State :=
  match tget s.pvd.cores k with
  | none => s
  | some c =>
    match c.busy with
    | none => s
    | some _ =>
      let d := s.mtb.t - c.since
      let s := setPvd s (fun p => if c.live then { p with liveBusy := p.liveBusy + d } else { p with svcBusy := p.svcBusy + d })
      setCore s k (fun c => { c with since := s.mtb.t })

/-- A core is free; one that was to move is now in the live pool (R278). -/
def freeCore (k : Nat) (s : State) : State :=
  setCore (noteBusy k s) k (fun c => { c with busy := none, live := c.live || c.moving, moving := false })

/-- The item a core runs. -/
def runsOn (s : State) (k : Nat) : Option Item := s.pvd.items.find? (fun i => i.place == .running k)

/-- The work a stopped core had in progress is retried (R277, R286, R390). -/
def dropCoreItem (k : Nat) (s : State) : State :=
  match runsOn s k with
  | some i => retryItem i (freeCore k s)
  | none => freeCore k s

/-- Live items held through M9 are discarded and counted at the first tick after the return (Table 1 of the dispatcher chapter). -/
def dropHeldLive (s : State) : State :=
  if s.pvd.dropLive && s.mode.mode != .safeHold then
    let live := (s.pvd.items.filter (fun i => decide (48 ≤ i.queue) && i.place != .done)).map (fun i => i.order)
    live.foldl (fun s k =>
      match itemOf s k with
      | some i => emptyItem i (setPvd s (fun p => { p with discards := bump32 p.discards }))
      | none => s) (setPvd s (fun p => { p with dropLive := false }))
  else s

end Sys2Proof.Machine
end

