-- ==== Sys2Proof/Machine/Units.lean ====
section
/-! DEFINITION. What each unit does when the fault collector fences, retires or retries it (R388, R390, and the chapters' own
rules). -/

namespace Sys2Proof.Machine

/-! ### Channels and flows (R19, R67) -/

/-- A flow leg that stops sends nothing more (R67, R240). -/
def stopLeg (l : Leg) : Leg := if l.st = 0 then l else { l with st := 3, queue := [], fwd := [], made := [] }

/-- The legs that pass a test, stopped. -/
def stopLegsWhere (p : Nat → Leg → Bool) (s : State) : State :=
  { s with egr := { s.egr with legs := tmap s.egr.legs (fun k l => if p k l then stopLeg l else l) } }

/-- An encode context that stops: it codes no more and its flows send nothing more (R67). -/
def stopContext (x : Nat) (s : State) : State :=
  let s := { s with enc := { s.enc with ctxs := tmod s.enc.ctxs x (fun c => { c with stopped := true }) } }
  stopLegsWhere (fun _ l => decide (l.kind ≤ 1) && l.source == x) s

/-- A channel disabled after a fault: ENC_CH_STATE 3, ENC_CH_REFUSED 0, its contexts and flows stopped; what admission charged
stays charged (R19). -/
def disableChannel (c : Nat) (s : State) : State :=
  match tget s.enc.chans c with
  | none => s
  | some ch =>
    if ch.st = 1 then
      let s := modChan s c (fun h => { h with st := 3, refused := 0 })
      let s := ch.ctxs.foldl (fun s x => stopContext x s) s
      stopLegsWhere (fun _ l => l.channel == c) s
    else s

/-! ### Floor slices (R70, R90, R112) -/

/-- Whether a slice's columns overlap the refresh columns of a sweep position (R88, R90). -/
def overlapsRefresh (c : Ctx) (tile : Nat) (i : Option Nat) : Bool :=
  match i with
  | none => false
  | some i =>
    let lo := i * c.sweepW
    let hi := min ((i + 1) * c.sweepW) (sliceCtus c.raster * tileCols c.raster)
    decide (lo < (tile + 1) * sliceCtus c.raster) && decide (tile * sliceCtus c.raster < hi)

/-- Whether a floor slice of a picture breaks its sweep (R90). -/
def breaksSweep (c : Ctx) (p : Pic) (tile : Nat) : Bool :=
  p.sweep.isSome && (overlapsRefresh c tile p.sweep || (c.codec == 1 && overlapsRefresh c tile p.prevSweep))

/-- A slice emitted as a floor slice is counted, and may break the sweep of its picture, which is counted once; where that is the latest
sweep, the next picture starts a new one (R70, R90, R100). -/
def countFloor (x key : Nat) (p : Pic) (s : State) : State :=
  match tget s.enc.ctxs x with
  | none => s
  | some c =>
    let s := modChan s c.channel (fun h => { h with floorSlices := bump32 h.floorSlices })
    if breaksSweep c p (key % 4) && c.brokenSweep != p.sweepFrame then
      let latest := c.seqFrame == p.seq && (c.sweepAt.map (fun a => c.seqFrame.getD 0 + a) == p.sweepFrame)
      let s := modCtx s x (fun c => { c with sweepBroken := c.sweepBroken || latest, brokenSweep := p.sweepFrame })
      modChan s c.channel (fun h => { h with gdrRestarts := bump32 h.gdrRestarts })
    else s

/-- A slice coded and not yet through entropy coding is replaced by its floor slice (R66, R112, R390). -/
def replaceSlice (x frame key : Nat) (s : State) : State :=
  match picOf s x frame with
  | none => s
  | some p =>
    if !thas p.emitted key || p.floors.contains key then s
    else
      let s := modPic s x frame (fun c p => replaceCoded key (tgetD p.floorSize key (floorSlice c.raster)) c p)
      countFloor x key p s

/-- The slices of a picture's tile column that have a verdict and have not finished entropy coding. -/
def openSlices (p : Pic) (t : Nat) : List Nat :=
  (tkeys p.emitted).filter (fun k => k % 4 == t && !p.rowsDone.contains (k / 4))

/-- The tile columns of a context that an engine carries. -/
def tilesOn (c : Ctx) (e : Nat) : List Nat :=
  (List.range c.engines.length).filter (fun t => c.engines.getD t 18 == e)

/-- Whether a channel's last frame tick came in the present MGT cycle, so that a retirement now counts as before it (R66). -/
def tickedNow (s : State) (c : Nat) : Bool := (chan s c).tickMgt == some s.mtb.mgt

/-- The pictures of a context that were in flight before the present MGT cycle (R66). -/
def picsInFlight (s : State) (c : Ctx) : List Pic :=
  c.pics.filter (fun p => !(tickedNow s c.channel && (chan s c.channel).lastFrame == some p.frame))

/-- From a retirement on, every slice of the engine that has not finished entropy coding in the pictures in flight is a floor
slice (R66, R112). -/
def floorInFlight (e : Nat) (s : State) : State :=
  (tkeysOf s.enc.ctxs (fun _ c => c.engines.contains e && !c.stopped)).foldl (fun s x =>
    match tget s.enc.ctxs x with
    | none => s
    | some c =>
      (picsInFlight s c).foldl (fun s p =>
        (tilesOn c e).foldl (fun s t =>
          let s := (openSlices p t).foldl (fun s k => replaceSlice x p.frame k s) s
          modPic s x p.frame (fun c p => (c, { p with floorTiles := sadd p.floorTiles t }))) s) s) s

/-- A retry of an engine: its slices in the coding stage end as floor slices, and those in the entropy stage are replaced
(R390). -/
def floorRetry (e : Nat) (s : State) : State :=
  (tkeysOf s.enc.ctxs (fun _ c => c.engines.contains e && !c.stopped)).foldl (fun s x =>
    match tget s.enc.ctxs x with
    | none => s
    | some c =>
      c.pics.foldl (fun s p =>
        (tilesOn c e).foldl (fun s t =>
          let s := (openSlices p t).foldl (fun s k => replaceSlice x p.frame k s) s
          let due := (tkeys p.caps).filter (fun k => k % 4 == t && !thas p.emitted k)
          modPic s x p.frame (fun c p => (c, { p with floorDue := due.foldl sadd p.floorDue }))) s) s) s

/-! ### Encode engines (R66, R67) -/

/-- An engine; engines of the reset pool are in service, EE16 and EE17 spare (R71). -/
def engine (s : State) (e : Nat) : Engine := tgetD s.enc.pool.engines e {}

/-- The state with an engine changed. -/
def setEngine (s : State) (e : Nat) (f : Engine → Engine) : State :=
  { s with enc := { s.enc with pool := { s.enc.pool with engines := tupd s.enc.pool.engines e {} f } } }

/-- The spares, lowest first. -/
def spares (s : State) : List Nat := (List.range 18).filter (fun e => (engine s e).st == .spare)

/-- The channels with work on an engine (R51). -/
def chansOnEngine (s : State) (e : Nat) : List Nat :=
  tkeysOf s.enc.chans (fun _ ch => (ch.st == 1) && (ch.engines.contains e || ch.groupEe == some e))

/-- The contexts of a running channel that an engine carries. -/
def ctxsOnEngine (s : State) (e : Nat) : List Nat :=
  tkeysOf s.enc.ctxs (fun _ c => c.engines.contains e && !c.stopped)

/-- With no spare left, the contexts on a retired engine are disabled: the whole channel, or only the further contexts of an 8K
channel's group engine (R67). -/
def loseEngineOf (e c : Nat) (s : State) : State :=
  match tget s.enc.chans c with
  | none => s
  | some ch =>
    if ch.engines.length = 4 ∧ ch.engines.contains e = false then
      let s := ch.ctxs.foldl (fun s x =>
        match tget s.enc.ctxs x with
        | some k => if k.further && k.engines.contains e then stopContext x s else s
        | none => s) s
      modChan s c (fun h => { h with ctxLost := true })
    else disableChannel c s

/-- ENC_SPARES_LEFT falls by one. -/
def takeSpare (s : State) : State :=
  { s with enc := { s.enc with pool := { s.enc.pool with sparesLeft := s.enc.pool.sparesLeft - 1 } } }

/-- What a spare on floor duty does: the retired engines it stands for and the channels it will take over (R66). -/
abbrev Duty := List Nat × List Nat

/-- Duties in ascending number of the engine first retired (R67). -/
def insertDuty (d : Duty) : List Duty → List Duty
  | [] => [d]
  | x :: l => if d.1.headD 18 < x.1.headD 18 then d :: x :: l else x :: insertDuty d l

/-- The spares put on floor duty in the present MGT cycle, rising (R67). -/
def assignedNow (s : State) : List Nat :=
  (List.range 18).filter (fun e => (engine s e).st == .floorDuty && (engine s e).assignedAt == some s.mtb.mgt)

/-- A duty is given to the lowest spare. Among the spares put on floor duty in one MGT cycle the lower-numbered engine has the
lower-numbered spare (R66, R67). -/
def giveDuty (sp : Nat) (d : Duty) (s : State) : State :=
  let now := assignedNow s
  let duties := insertDuty d (now.foldl (fun l e => insertDuty ((engine s e).standsFor, (engine s e).takeover) l) [])
  ((now ++ [sp]).zip duties).foldl (fun s p => setEngine s p.1 (fun x =>
    { x with st := .floorDuty, standsFor := p.2.1, takeover := p.2.2, assignedAt := some s.mtb.mgt })) s

/-- The strips and beats that were awaited from an engine come from the spare whose floor path stands in for it (R63, R66). -/
def readdress (e sp : Nat) (s : State) : State :=
  { s with enc := { s.enc with pool := { s.enc.pool with
      engines := tmap s.enc.pool.engines (fun _ x =>
        { x with awaiting := x.awaiting.map (fun a => if a.sender = e then { a with sender := sp } else a) }) } } }

/-- The engine that a list of engines names, the spare that stands for it put in its place (R66). -/
def swapEngines (olds : List Nat) (sp : Nat) (l : List Nat) : List Nat := l.map (fun k => if olds.contains k then sp else k)

/-- The settings of a retired engine's HBM port pass to the spare's (R66). -/
def movePort (e sp : Nat) (s : State) : State :=
  let old := tgetD s.drm.ports e {}
  { s with drm := { s.drm with ports := tupd s.drm.ports sp {} (fun q => { q with target := old.target, floor := old.floor }) } }

/-- A spare on floor duty takes over a channel of the engines it stands for, at that channel's frame tick: the tile column or
contexts, the context slots and the settings of the HBM port; when no channel is left it is in service (R66, R67). -/
def takeOver (sp c n : Nat) (s : State) : State :=
  let x := engine s sp
  if x.st = .floorDuty ∧ x.takeover.contains c = true then
    let swap := swapEngines x.standsFor sp
    let s := modChan s c (fun h =>
      { h with engines := swap h.engines
               groupEe := h.groupEe.map (fun g => if x.standsFor.contains g then sp else g)
               floorDuty := false
               takeovers := satAdd 16 h.takeovers 1
               takeoverFrame := n % 2 ^ 32 })
    let s := { s with enc := { s.enc with ctxs := tmap s.enc.ctxs (fun _ k =>
      if k.channel = c then { k with engines := swap k.engines } else k) } }
    let olds := x.standsFor.map (engine s)
    let s := movePort (x.standsFor.headD sp) sp s
    setEngine s sp (fun y =>
      let left := sdel y.takeover c
      { y with
        takeover := left
        load := maxOf (olds.map (fun o => o.load))
        slots := maxOf (olds.map (fun o => o.slots))
        whole := olds.findSome? (fun o => o.whole)
        st := if left.isEmpty then .inService else .floorDuty
        standsFor := if left.isEmpty then [] else y.standsFor })
  else s

/-- The work of retired engines is put on the lowest spare's floor path until its takeover, or, with no spare, is disabled. A
channel whose frame tick came in the present MGT cycle is taken over at that tick. The Boolean says whether a spare was found
(R66, R67). -/
def assignSpare (olds : List Nat) (chans : List Nat) (s : State) : State × Bool :=
  match spares s with
  | sp :: _ =>
    let s := giveDuty sp (olds, chans) s
    let s := chans.foldl (fun s c => modChan s c (fun h => { h with floorDuty := true })) s
    let s := readdress (olds.getLastD 18) sp (takeSpare s)
    (chans.foldl (fun s c =>
      if tickedNow s c then
        (List.range 18).foldl (fun s e => takeOver e c (((chan s c).lastFrame).getD 0) s) s
      else s) s, true)
  | [] =>
    (chans.foldl (fun s c =>
      let stands := (List.range 18).any (fun e => (engine s e).st == .floorDuty && (engine s e).takeover.contains c)
      let s := modChan s c (fun h => { h with floorDuty := stands })
      olds.foldl (fun s e => if (chansOnEngine s e).contains c then loseEngineOf e c s else s) s) s, false)

/-- An engine is retired (R66, R67). The Boolean says whether Degraded is due: a retirement that finds no spare left (R19). A
spare on floor duty hands on the engines it stands for and the channels it has taken over already. -/
def retireEngine (e : Nat) (s : State) : State × Bool :=
  let x := engine s e
  match x.st with
  | .retired => (s, false)
  | .spare =>
    let s := takeSpare (setEngine s e (fun y => { y with st := .retired }))
    (s, (spares s).isEmpty)
  | .floorDuty =>
    let moved := chansOnEngine s e
    let s := floorInFlight e s
    let s := setEngine s e (fun y => { y with st := .retired, standsFor := [], takeover := [], awaiting := [] })
    let (s, found) := assignSpare (x.standsFor ++ [e]) (x.takeover ++ moved) s
    (s, !found)
  | .inService =>
    let chans := chansOnEngine s e
    let s := floorInFlight e s
    let s := setEngine s e (fun y => { y with st := .retired, awaiting := [] })
    if chans.isEmpty then (s, (spares s).isEmpty)
    else
      let (s, found) := assignSpare [e] chans s
      (s, !found)

/-! ### Analysers, decoders, compositors, receivers (R138, R158, R177, R197, R214) -/

/-- An analyser retired: the channels that use it run blind (R138). -/
def retireAnalyser (a : Nat) (s : State) : State :=
  { s with enc := { s.enc with
      pool := { s.enc.pool with retiredAn := sadd s.enc.pool.retiredAn a }
      cps := tmap s.enc.cps (fun _ c =>
        if c.analysers.contains a || c.refineAn == some a then { c with blind := true } else c) } }

/-- A decode context disabled with state 3: its outputs show black, and its layers are not ready (R158). -/
def blackDecode (c : DecCtx) : DecCtx := { c with st := 3, shown := none, outs := [], waiting := [], display := {} }

/-- A decode engine retired: every context it carries is disabled with state 3 (R158). -/
def retireDecoder (e : Nat) (s : State) : State :=
  { s with dec := { s.dec with
      engines := tupd s.dec.engines e {} (fun x => { x with failed := true })
      ctxs := tmap s.dec.ctxs (fun _ c =>
        if c.engines.contains e && c.st == 1 then blackDecode c else c) } }

/-- A decode context disabled with state 3. -/
def disableDecode (d : Nat) (s : State) : State :=
  { s with dec := { s.dec with ctxs := tmod s.dec.ctxs d (fun c =>
      if c.st = 1 then blackDecode c else c) } }

/-- A compositor fenced: it is bypassed (R177). -/
def fenceCompositor (c : Nat) (s : State) : State :=
  { s with cmps := tupd s.cmps c {} (fun x => { x with fenced := true }) }

/-- An AES3 input fenced: AUD_IN_STATE 5 (R214, R215). -/
def fenceAesIn (i : Nat) (s : State) : State :=
  { s with aud := { s.aud with ins := tmod s.aud.ins i (fun x => { x with fenced := true, st := 5 }) } }

/-- An AES3 output fenced: AUD_OUT_STATE 3 (R214, R215). -/
def fenceAesOut (i : Nat) (s : State) : State :=
  { s with aud := { s.aud with outs := tmod s.aud.outs i (fun x => { x with st := 3 }) } }

/-- The channels of the legs that pass a test. -/
def chansOfLegs (s : State) (p : Nat → Leg → Bool) : List Nat :=
  ((s.egr.legs.filter (fun e => p e.1 e.2 && e.2.st == 1)).map (fun e => e.2.channel)).foldl
    (fun a c => if a.contains c then a else a ++ [c]) []

/-- A packetiser, scheduler or SRTP unit fenced: its flows stop and their channels are disabled (R240). -/
def fenceFlows (p : Nat → Leg → Bool) (s : State) : State :=
  let chans := chansOfLegs s p
  let s := stopLegsWhere p s
  chans.foldl (fun s c => disableChannel c s) s

/-! ### Box cores (R278) -/

/-- The service-pool cores that stay in it, rising. -/
def serviceCores (s : State) : List Nat := tkeysOf s.pvd.cores (fun _ c => !c.live && !c.moving)

/-- The live-pool cores, rising; a core that moves there counts from the cycle of the move (R278). -/
def liveCores (s : State) : List Nat := tkeysOf s.pvd.cores (fun _ c => c.live || c.moving)

/-- A Box core fenced. A live-pool core is replaced by the highest-numbered service core while the service pool has more than
4 (R278). -/
def fenceCore (k : Nat) (s : State) : State :=
  match tget s.pvd.cores k with
  | none => s
  | some c =>
    let s := dropCoreItem k s
    let s := { s with pvd := { s.pvd with cores := tdel s.pvd.cores k } }
    if (c.live || c.moving) && decide (4 < (serviceCores s).length) then
      let m := maxOf (serviceCores s)
      { s with pvd := { s.pvd with cores := tmod s.pvd.cores m (fun x =>
          if x.busy.isSome then { x with moving := true } else { x with live := true }) } }
    else s

/-! ### Memory (R310 to R312) -/

/-- A pseudo-channel; an absent one stands as reset. -/
def pcOf (s : State) (p : Nat) : Pc := tgetD s.drm.pcs p {}

/-- A stack; an absent one stands as reset. -/
def stack (s : State) (k : Nat) : Stack := tgetD s.drm.stackOf k {}

/-- The state with a stack changed. -/
def setStack (s : State) (k : Nat) (f : Stack → Stack) : State :=
  { s with drm := { s.drm with stackOf := tupd s.drm.stackOf k {} f } }

/-- A stack's exit begins; it takes 2.0 µs (R306). With the root on FRC in M7 the stack stays asleep and its requests wait (R370). -/
def beginExit (k : Nat) (s : State) : State :=
  if s.mode.mode == Mode.quiescent && s.clk.rootFrc then setStack s k (fun x => { x with sr := .asleep })
  else setStack s k (fun x => { x with sr := .exiting, awakeAt := s.mtb.t + 2 * usUnit })

/-- Every stack held in self-refresh (R365, R370). -/
def parkStacks (s : State) : State := (List.range 4).foldl (fun s k => setStack s k (fun x => { x with sr := .asleep })) s

/-- Holding the stacks in self-refresh changes the memory's part alone. -/
theorem parkStacks_frame (s : State) : parkStacks s = { s with drm := (parkStacks s).drm } := rfl

/-- Every stack that slept while requests waited for the root begins its exit (R306, R370). -/
def wakeWaiting (s : State) : State :=
  (List.range 4).foldl (fun s k =>
    if (stack s k).sr == SrState.asleep && !(stack s k).waiting.isEmpty then beginExit k s else s) s

/-- The delays of every pseudo-channel of a stack written for its band (R305). -/
def loadDelays (k : Nat) (s : State) : State :=
  { s with drm := { s.drm with pcs := (List.range 32).foldl (fun t i =>
      tupd t (32 * k + i) {} (fun x => { x with band := (stack s k).band, rewrite := false })) s.drm.pcs } }

/-- The delays of every stack written for the band of its temperature: in M2, ahead of the memory check (R305). -/
def trainMemory (s : State) : State := (List.range 4).foldl (fun s k => loadDelays k s) s

/-- A pseudo-channel retired; with two retired already, DRM_NO_SPARE is reported (R310, R312). The copy of its blocks starts unless
nothing needs to be copied (R311, R312). -/
def retirePc (p : Nat) (copy : Bool) (s : State) : State :=
  if (pcOf s p).retired then s
  else if 2 ≤ s.drm.order.length then raise 0x06B 0 s
  else
    { s with drm := { s.drm with
        pcs := tupd s.drm.pcs p {} (fun x => { x with retired := true })
        order := s.drm.order ++ [p]
        sparesLeft := s.drm.sparesLeft - 1
        remapPc := p
        remapActive := copy
        remap := 0
        remapAt := s.mtb.t
        remapWritten := [] } }

/-! ### Links and check-value units (R322, R331, R360) -/

/-! ### Ethernet ports (R321, R322) -/

/-- Whether a port may link up in a mode: in M2 only one that the MTB settings name (R321). -/
def mayLink (s : State) (p : Nat) : Bool :=
  match s.mode.mode with
  | .configure => p == s.mtb.ptpPort || p == s.mtb.ptpPort2
  | .quiescent => true
  | m => ticksRun m

/-- The ports that are down, may link up, are not fenced and whose PLL_E has been judged stable begin to train (R321). -/
def bringUp (s : State) : State :=
  { s with lnk := { s.lnk with eth := tmap s.lnk.eth (fun p x =>
      if x.st = 1 ∧ x.fenced = false ∧ mayLink s p = true ∧ (tgetD s.clk.src (5 + p / 4) {}).ready = true then { x with st := 2 }
      else x) } }

/-- The time that a pause has lasted is added to LNK_E_PAUSE_US, in whole microseconds, and the pause is over (R319, R335). -/
def endPause (now : Nat) (x : EthPort) : EthPort :=
  match x.pausedUntil with
  | none => x
  | some _ => { x with pausedUntil := none, longReported := false, pauseUs := bumpBy 32 x.pauseUs ((now - x.pausedAt) / usUnit) }

/-- An Ethernet port goes down; one that was up reports LNK_ETH_DOWN (R322, R335). -/
def ethDown (p : Nat) (s : State) : State :=
  let s := match tget s.lnk.eth p with
    | some x => if x.st = 3 then raise 0x06D p s else s
    | none => s
  { s with lnk := { s.lnk with eth := tmod s.lnk.eth p (fun x =>
      endPause s.mtb.t { x with st := 1, anDone := false, downs := if x.st = 3 then satAdd 16 x.downs 1 else x.downs }) } }

/-- A port's egress part of the state. -/
def egrPort (s : State) (p : Nat) : EgrPort := tgetD s.egr.ports p {}

/-- The state with a port's egress part changed. -/
def setEgrPort (s : State) (p : Nat) (f : EgrPort → EgrPort) : State :=
  { s with egr := { s.egr with ports := tupd s.egr.ports p {} f } }

/-- Whether a port is up (R322). -/
def portUp (s : State) (p : Nat) : Bool := (tgetD s.lnk.eth p {}).st == 3

/-- A frame of the management plane queued at a port, of a length that no rule states (R231, R319; log entry 76). -/
def queueOwn (p : Nat) (ptp : Bool) (s : State) : State :=
  let (v, s) := drawFree s
  let f : OwnFrame := { wire := 20 + v % 1523, vlan := (tgetD s.lnk.eth p {}).vlan, ptp := ptp, queuedAt := s.mtb.t }
  setEgrPort s p (fun x => { x with own := x.own ++ [f] })

/-- An Ethernet port fenced: it is treated as down (R322). -/
def fenceEth (p : Nat) (s : State) : State :=
  let s := ethDown p s
  { s with lnk := { s.lnk with eth := tmod s.lnk.eth p (fun x => { x with fenced := true }) } }

/-! ### The tree's ports (R340) -/

/-- The IDs of the subtrees below the child ports, those dropped left out. -/
def subtreeIds (s : State) : List Nat := s.hrw.maps.foldl (fun a m => a ++ m.2) []

/-- The IDs that occur in two subtrees, or that are this device's own (R340). -/
def clashing (s : State) : List Nat :=
  (subtreeIds s).filter (fun i => i == s.hrw.ident || decide (1 < ((subtreeIds s).filter (fun j => j == i)).length))

/-- The hops to the deepest device below this one. -/
def hopsBelow (s : State) : Nat := maxOf (s.hrw.depths.map (fun d => d.2))

/-- The depth that a device passes down: its own, or that of a device not admitted; none before a depth has come (R338, R340). -/
def depthDown (s : State) : Option Nat :=
  if s.hrw.tooDeep then some 6 else if s.hrw.depth < 7 then some s.hrw.depth else none

/-- The depth goes to a child, with D where the root broadcasts it (R340; log entry 132). -/
def announceTo (k : Nat) (tree : Option Nat) (s : State) : State :=
  match depthDown s with
  | some d => sendTree k 2 (.depth d tree) s
  | none => s

/-- The depth goes to every child (R340). -/
def announceDown (tree : Option Nat) (s : State) : State := (childrenUp s).foldl (fun s k => announceTo k tree s) s

/-- The map of the IDs of this device's subtree goes up (R340). -/
def sendMap (s : State) : State := sendUp 2 (.map (s.hrw.ident :: subtreeIds s) (hopsBelow s)) s

/-- Maps that changed: every device checks them for one ID in two places, the root sets HRW_DEVICES and D and broadcasts D, and any
other device sends its own map up (R340). -/
def judgeMaps (s : State) : State :=
  let bad := clashing s
  let s := if bad.isEmpty || s.hrw.idClash then s else raise 0x075 0 s
  let s := { s with hrw := { s.hrw with idClash := s.hrw.idClash || !bad.isEmpty, clashIds := bad } }
  if s.hrw.root then
    announceDown (some (hopsBelow s))
      { s with hrw := { s.hrw with devices := 1 + (subtreeIds s).length, treeDepth := hopsBelow s } }
  else sendMap s

/-- Whether the device is in a tree: its depth is known (R338, R351). -/
def inTree (s : State) : Bool := s.hrw.taken && decide (s.hrw.depth < 7) && !s.hrw.tooDeep

/-- The root's next sequence number (R342). -/
def nextTreeSeq (s : State) : Nat × State :=
  (s.hrw.nextSeq, { s with hrw := { s.hrw with nextSeq := (s.hrw.nextSeq + 1) % 2 ^ 32 } })

/-- A barrier of the tree. -/
def barrier (s : State) (k : Nat) : Barrier := tgetD s.hrw.barriers k {}

/-- The state with a barrier changed. -/
def setBarrier (s : State) (k : Nat) (f : Barrier → Barrier) : State :=
  { s with hrw := { s.hrw with barriers := tupd s.hrw.barriers k {} f } }

/-- Whether this device has arrived and every child port in use that is up has passed up an arrival (R344). -/
def barrierMet (s : State) (k : Nat) : Bool :=
  (barrier s k).own.isSome && (childrenUp s).all (fun c => (barrier s k).children.contains c)

/-- Whether a release now would be partial: a child port in use is down, or an arrival said so (R344). -/
def barrierPartial (s : State) (k : Nat) : Bool :=
  (barrier s k).isPartial || !(((childPorts s).filter (fun c => !vhUp s c)).isEmpty)

/-- The release reaches this device: the waiting owner is answered and the barrier is free (R344, R352). -/
def releaseBarrier (k : Nat) (isPartial : Bool) (s : State) : State :=
  let own := (barrier s k).own
  let s := { s with hrw := { s.hrw with
      barriers := tdel s.hrw.barriers k
      barPartial := if isPartial then bump32 s.hrw.barPartial else s.hrw.barPartial } }
  match own with
  | some r =>
    let b := payloadOf r
    replyTo r 0x0B12 .ok (decide (15 < u8 b 0) || decide (10000 < u16 b 2) || lenClamped r)
      (le 4 (nsOf s.mtb.t) ++ le 1 (b2n isPartial)) s
  | none => s

/-- A condition met at the root releases the barrier; below the root one arrival is passed up (R344). -/
def judgeBarrier (k : Nat) (s : State) : State :=
  if barrierMet s k then
    if s.hrw.root then
      let (n, s) := nextTreeSeq s
      let part := barrierPartial s k
      releaseBarrier k part (sendDown 3 (.release k n part) s)
    else if (barrier s k).passed then s
    else
      sendUp 3 (.arrival k (barrier s k).timeoutMs (barrierPartial s k)) (setBarrier s k (fun b => { b with passed := true }))
  else s

/-- Every barrier begun judged again: a child port that went down counts as having arrived (R344). -/
def rejudgeBarriers (s : State) : State := (tkeys s.hrw.barriers).foldl (fun s k => judgeBarrier k s) s

/-- The requests sent up the tree and not yet answered, answered NOT_READY: the device has left the tree, and no answer reaches it (R352;
log entry 139). -/
def failTreeRequests (s : State) : State :=
  let bs := s.hrw.broadcasts
  let cs := s.hrw.schedules
  let s := { s with hrw := { s.hrw with broadcasts := [], schedules := [] } }
  let s := bs.foldl (fun s r => replyTo r 0x0B10 .notReady false [] s) s
  cs.foldl (fun s r => replyTo r 0x0B11 .notReady false [] s) s

/-- The device leaves the tree until rediscovery, and its subtree with it (R340; log entry 134). -/
def leaveTree (s : State) : State := failTreeRequests (sendDown 2 (.depth 7 none) { s with hrw := { s.hrw with depth := 7 } })

/-- Whether a VH port is in use: VH0 of a member, and the ports HRW_DOWN names (R323, R350). -/
def vhInUse (s : State) (k : Nat) : Bool :=
  s.hrw.taken && ((k == 0 && s.hrw.role == 2) || (childPorts s).contains k)

/-- Discovery after a VH port in use came up or went down. A member whose VH0 comes up sends its map; one that loses VH0 leaves the
tree, with its subtree; a child that comes up gets the depth, and one that is lost takes its subtree out of the maps (R340; log entry
134). -/
def treeLink (k : Nat) (up : Bool) (s : State) : State :=
  if vhInUse s k = false ∨ vhUp s k = up then s
  else
    let s := { s with hrw := { s.hrw with portsUp := if up then setBit s.hrw.portsUp k else clearBit s.hrw.portsUp k } }
    if k = 0 then
      if up then sendMap { s with hrw := { s.hrw with vh0UpAt := some s.mtb.t, announced := false, noRoot := false } }
      else leaveTree { s with hrw := { s.hrw with vh0UpAt := none, announced := false } }
    else if up then announceTo k none s
    else rejudgeBarriers (judgeMaps { s with hrw := { s.hrw with maps := tdel s.hrw.maps k, depths := tdel s.hrw.depths k } })

/-- A request or host item whose change was forwarded and not decided is answered NOT_READY (R264). -/
def failForward (s : State) (f : Fwd) : State :=
  match f.item, f.req with
  | some k, _ => refuseItem k .notReady s
  | none, some r => replyTo r f.opcode .notReady false [] s
  | none, none => s

/-- Changes forwarded to the deciding device and not answered are answered NOT_READY once VA is lost (R264). -/
def failForwards (s : State) : State := s.run.forwards.foldl failForward { s with run := { s.run with forwards := [] } }

/-- A RED_SWAP_NOW forwarded to the active device and not answered is answered NOT_READY once VA is lost (R264, R275). -/
def failSwap (s : State) : State :=
  match s.run.swapAsked with
  | none => s
  | some h => replyTo h.req 0x0A11 .notReady false [] { s with run := { s.run with swapAsked := none } }

/-- VA goes down: the partner's claim is taken as zero, no higher claim is forwarded, comparisons end, and RED_VA_DOWN is reported (R248,
R251, R271, R273). -/
def dropVa (s : State) : State :=
  if s.red.vaUp then
    let s := failSwap <| failForwards { s with
      red := { s.red with vaUp := false, vaSilent := false, partnerClaim := 0, vaDownAt := s.mtb.t, yielded := false }
      run := { s.run with locals := [], partners := [], digest := none, digestSent := false, worse := [], srcJoins := [], srcSmall := [] } }
    if pairInForce s then raise 0x05C 0 s else s
  else s

/-- A Valsin port, 0 VA and 1 to 5 VH0 to VH4, is no longer up for what runs over it (R248, R340). -/
def valsinLost (v : Nat) (s : State) : State := if v = 0 then dropVa s else treeLink (v - 1) false s

/-- A Valsin port fenced: LNK_V_STATE 4 (R331). -/
def fenceValsin (v : Nat) (s : State) : State :=
  valsinLost v { s with lnk := { s.lnk with vals := tmod s.lnk.vals v (fun x => { x with st := 4 }) } }

/-- The modes in which Valsin ports train and work: M2 to M8 (R331). -/
def valsinMode (m : Mode) : Bool :=
  match m with
  | .configure | .quiescent => true
  | m => ticksRun m

/-- A Valsin port begins to train at step 0. What it had sent and not had acknowledged, and what was queued, is discarded and counted
(R326, R327); sequences start again (log entry 34). -/
def startTraining (v : Nat) (s : State) : State :=
  match tget s.lnk.vals v with
  | none => s
  | some x =>
    if x.st = 0 ∨ x.st = 4 then s
    else
      let s := if x.st = 2 then raise 0x071 v (valsinLost v s) else s
      { s with lnk := { s.lnk with vals := tmod s.lnk.vals v (fun x =>
          { x with
            st := 1, step := 0, common := 0, target := none, entering := true, entered := false, fallbackDone := false
            lastSet := none, trainAt := s.mtb.t, stepAt := s.mtb.t, trainings := satAdd 32 x.trainings 1
            lost := bumpBy 32 x.lost (x.replay.length + x.queue.length), txAsleep := false, rxAsleep := false, rxSeq := 0
            topSeq := 0, failed := 0, txSeq := 0, replay := [], queue := [], held := [], nak := none, ackOwed := false }) } }

/-- A Valsin port comes into use and trains (R323, R327). -/
def useValsin (v : Nat) (s : State) : State :=
  let x : ValPort := tgetD s.lnk.vals v {}
  if x.st = 0 then
    startTraining v { s with lnk := { s.lnk with vals := tset s.lnk.vals v { x with st := 3 } } }
  else s

/-- Every serial lane goes to electrical idle on entry to M9, M10 or M11 (R321, R331). -/
def linksIdle (s : State) : State :=
  let s := (tkeys s.lnk.eth).foldl (fun s p => ethDown p s) s
  let s := (List.range 5).foldl (fun s k => treeLink k false s) s
  { s with lnk := { s.lnk with vals := tmap s.lnk.vals (fun _ x =>
      if x.st = 1 ∨ x.st = 2 then { x with st := 3, step := 0, entering := false, entered := false, target := none } else x) } }

/-- Every lane in use trains again, on leaving M9 (R321, R327). -/
def linksRestart (s : State) : State := bringUp ((tkeys s.lnk.vals).foldl (fun s v => startTraining v s) s)

/-- A check-value unit fenced: a general unit 0–63, or fingerprint unit 64 + n; fewer than four fingerprint units suspend the
fingerprints (R360), and fewer than eight of CVU48–CVU63 suspend topiary (R173). -/
def fenceCvu (u : Nat) (s : State) : State :=
  if u < 64 then
    let s := { s with cvu := { s.cvu with units := tupd s.cvu.units u {} (fun x => { x with st := 3 }) } }
    if 48 ≤ u then { s with cvu := { s.cvu with topFenced := sadd s.cvu.topFenced u } } else s
  else
    let l := sadd s.cvu.fpFenced (u - 64)
    { s with cvu := { s.cvu with fpFenced := l, fpSuspended := s.cvu.fpSuspended || decide (28 < l.length) } }

/-- Topiary units in service (R173). -/
def topUnits (s : State) : Nat := 16 - s.cvu.topFenced.length

/-! ### Fencing and retrying an instance -/

/-- A fence, with whether Degraded is due (R388). -/
def fenced (s : State) : State × Bool := (s, true)

/-- A source that fences nothing (R388). -/
def fencesNothing (s : State) : State × Bool := (s, false)

/-- The unit or object that a source and instance name is fenced (R388). -/
def fenceInstance (src inst : Nat) (s : State) : State × Bool :=
  if src < 0x012 then
    retireEngine src s
  else if src < 0x024 then fenced (setEngine s (src - 0x012) (fun x => { x with floorFenced := true }))
  else if src = 0x024 then
    fenced (match chanOfCtx s inst with | some c => disableChannel c s | none => s)
  else if src < 0x035 then fenced (retireAnalyser (src - 0x025) s)
  else if src = 0x035 then fenced (disableChannel inst s)
  else if src < 0x03A then fenced (retireDecoder (src - 0x036) s)
  else if src = 0x03A then fenced (disableDecode inst s)
  else if src = 0x03B ∨ src = 0x03D then fenced (fenceCompositor inst s)
  else if src = 0x03C then fenced (disableChannel inst s)
  else if src < 0x04E then
    fenced { s with ing := { s.ing with sdiFenced := sadd s.ing.sdiFenced (src - 0x03E) } }
  else if src = 0x04E then
    fenced { s with ing := { s.ing with flows := tmod s.ing.flows inst (fun f => { f with fenced := true }) } }
  else if src = 0x04F then fenced (disableChannel (inst / 16) s)
  else if src = 0x050 then fenced (disableChannel inst s)
  else if src = 0x051 ∨ src = 0x054 then fenced (fenceAesIn inst s)
  else if src = 0x052 then fenced (fenceAesOut inst s)
  else if src = 0x053 then fenced (if inst < 32 then fenceAesIn inst s else fenceAesOut (inst - 32) s)
  else if src = 0x055 then
    fenced (match tget s.egr.legs inst with | some l => disableChannel l.channel s | none => s)
  else if src = 0x056 then fenced (fenceFlows (fun _ l => decide (l.kind ≤ 1) && l.source == inst) s)
  else if src = 0x057 then fenced (fenceFlows (fun _ l => l.port == inst) s)
  else if src = 0x058 then fenced (fenceFlows (fun k _ => k == inst) s)
  else if src = 0x064 ∨ src = 0x065 then fenced (fenceCore inst s)
  else if src = 0x067 ∨ src = 0x068 ∨ src = 0x069 ∨ src = 0x06A then
    fenced (retirePc inst true s)
  else if src = 0x06D ∨ src = 0x06E ∨ src = 0x06F ∨ src = 0x070 then fenced (fenceEth inst s)
  else if src = 0x071 ∨ src = 0x072 ∨ src = 0x073 ∨ src = 0x074 then fenced (fenceValsin inst s)
  else if src = 0x07A ∨ src = 0x07B then fenced (fenceCvu inst s)
  else if src = 0x1D4 then
    fenced { s with hst := { s.hst with ringFaults := sadd s.hst.ringFaults inst } }
  else if src = 0x1D5 then
    fenced { s with hst := { s.hst with mgFaults := sadd s.hst.mgFaults inst } }
  else fencesNothing s

/-- The row that an analyser has in progress will not complete (R138, R308, R390). -/
def breakAnalysis (a : Nat) (s : State) : State :=
  { s with enc := { s.enc with cps := tmap s.enc.cps (fun _ k =>
      if k.analysers.contains a || k.refineAn == some a then { k with broken := sadd k.broken a } else k) } }

/-- The row that a compositor has in progress will not complete (R177, R308, R390). -/
def breakComposition (c : Nat) (s : State) : State :=
  { s with cmps := tmod s.cmps c (fun x => { x with broken := true }) }

/-- A retry resets the instance's unit; the work it had in progress counts as a stage that did not complete, under R138 for an analyser
and R177 for a compositor (R308, R390). A Box core's item is retried under R286. -/
def retryUnit (src inst : Nat) (s : State) : State :=
  if src < 0x012 then setEngine (floorRetry src s) src (fun x => { x with awaiting := [] })
  else if 0x025 ≤ src ∧ src ≤ 0x034 then breakAnalysis (src - 0x025) s
  else if src = 0x03B then breakComposition inst s
  else if src = 0x065 then dropCoreItem inst s
  else s

end Sys2Proof.Machine
end

