-- ==== Sys2Proof/Machine/Modes.lean ====
section
/-! DEFINITION. Operating modes: claims, entry to a mode and all that happens with it, and the return to Hold (R12 to R19). -/

namespace Sys2Proof.Machine

/-! ### The source of a flow leg (R256 to R258) -/

/-- The source the claims select for a flow leg (R256). -/
def legSource (s : State) (l : Leg) : MergeSrc :=
  if !pairInForce s then .device
  else if actingMode s == .resync then .partner
  else if s.red.claim < s.red.partnerClaim then .partner
  else if s.red.claim != 0 || l.running then .device
  else .silent

/-- A leg sees the claims: a device that holds one runs its packetisers, and a source newly selected waits for its switch point
(R257, R258). Without a partner the leg takes the device at once. -/
def aimLeg (s : State) (l : Leg) : Leg :=
  let l := if s.red.claim != 0 || !pairInForce s then { l with running := true } else l
  let w := legSource s l
  if w = l.src ∨ pairInForce s = false then { l with src := w, want := none, wantPoint := none, nextPointAt := none }
  else if l.want = some w then l
  else { l with want := some w, wantAt := s.mtb.t, wantPoint := none, nextPointAt := none }

/-- Every leg sees the claims (R257). -/
def settleMerge (s : State) : State := { s with egr := { s.egr with legs := tmap s.egr.legs (fun _ l => aimLeg s l) } }

/-- A leg as egress starts: nothing was sent before, so its source is what the claims select (R256). -/
def startLeg (s : State) (l : Leg) : Leg :=
  let l := { l with running := s.red.claim != 0 || s.mode.mode == Mode.solo || s.mode.mode == Mode.active }
  { l with src := legSource s l, want := none, wantPoint := none, nextPointAt := none, forwarded := false }

/-- Every leg as egress starts. -/
def adoptMerge (s : State) : State := { s with egr := { s.egr with legs := tmap s.egr.legs (fun _ l => startLeg s l) } }

/-! ### Claims (R253, R259) -/

/-- The claim with an epoch for this device (R253). -/
def claimOf (epoch ident : Nat) : Nat := epoch * 1024 + ident % 1024

/-- The device takes a claim: with the epoch raised, saturating at 0x3F_FFFF, or with the pair epoch, at least 1 (R253). Claims
taken other than by swap are counted (R273). -/
def takeClaim (raised bySwap : Bool) (s : State) : State :=
  let e := if raised then min (s.red.epoch + 1) 0x3FFFFF else max s.red.epoch 1
  settleMerge { s with
    red := { s.red with
      claim := claimOf e s.hrw.ident
      epoch := e
      promotions := if bySwap then s.red.promotions else satAdd 32 s.red.promotions 1 }
    run := { s.run with claimLost := none, lastSwap := s.mtb.t, swapSkip := false } }

/-- The device sets its claim to zero. With VA down it also stops its heartbeats until VA is up, and its local flows 20 ms later
(R259). -/
def dropClaim (s : State) : State :=
  if s.red.claim = 0 then s
  else
    settleMerge { s with
      red := { s.red with claim := 0, hbStopped := s.red.hbStopped || !s.red.vaUp }
      run := { s.run with claimLost := if s.red.vaUp then none else some s.mtb.t } }

/-! ### What stops in M7 and M9, and what discards its state -/

/-- A decode context as after admission: nothing shown, nothing held (R157). -/
def stopDecode (c : DecCtx) : DecCtx :=
  { c with cpb := 0, params := [], lastSeq := none, lastNal := none, lastCc := none, cur := none, closed := [], closedPts := [], good := none, dpb := [],
           pending := [], recovered := false, waiting := [], outs := [], units := [], unitEngines := [], bands := [], gotSlices := [],
           shown := none, display := {}, concealed := false, decodedOne := false }

/-- A layer whose last ready picture and hold count are discarded (R176). DESIGN CHOICE: in M7 and M9 CMP_V_FALLBACK_ON shows every layer, even
an invisible one, on its fallback (log entry 145). -/
def stopLayer (v : VLayer) : VLayer := { v with ready := false, held := false, repeats := 0, showing := .fallback, image := {} }

/-- A group all of whose members are lost with their hold already spent; the loss is reported again at the first frame tick
(R196). -/
def stopGroup (g : Group) : Group :=
  { g with inputLost := false, members := tmap g.members (fun _ m =>
      { m with st := if m.st = 3 then 3 else 1, hold := g.holdF, repeating := false, phase := none, goodRun := 0, heard := false
               mismatch := false, short := false, underran := false, frames := [], captions := [], samples := [] }) }

/-- A converting port that will reacquire; a transparent one waits for its rate (R203, R206, R214). -/
def stopAesIn (i : AudIn) : AudIn :=
  if i.fenced || !i.taken then i
  else if i.transp then { i with st := 2, adapter := List.replicate 3 (0x1000000, 0x1000000) }
  else { i with st := 2, coarse := true, within := 0, deviated := false, gain := ⟨0, false⟩ }

/-- The data plane stops on entry to M7 or M9: decoders, compositors, ingest and audio discard what their rules say, pictures in
flight end, and in M7 every flow queue is emptied (R157, R176, R196, R214, R240). -/
def stopData (empty : Bool) (s : State) : State :=
  { s with
    enc := { s.enc with ctxs := tmap s.enc.ctxs (fun _ c => { c with pics := [] }) }
    dec := { s.dec with ctxs := tmap s.dec.ctxs (fun _ c => if c.st = 1 then stopDecode c else c) }
    cmps := tmap s.cmps (fun _ c => { c with v := tmap c.v (fun _ v => stopLayer v) })
    ing := { s.ing with groups := tmap s.ing.groups (fun _ g => stopGroup g) }
    aud := { s.aud with
      ins := tmap s.aud.ins (fun _ i => stopAesIn i), outs := tmap s.aud.outs (fun _ o => { o with sent := [], status := none }) }
    egr := if empty then { s.egr with legs := tmap s.egr.legs (fun _ l => { l with queue := [], fwd := [] }) } else s.egr }

/-- On return from M7 or M9 every running value and slot of the check-value units, those of topiary among them, is reset to its I
(R358, R360). -/
def resumeCvu (s : State) : State :=
  { s with
    cvu := { s.cvu with
      units := tmap s.cvu.units (fun _ u => { u with run := u.init % 2 ^ u.width })
      slots := [] }
    cmps := tmap s.cmps (fun _ c => { c with regions := tmap c.regions (fun _ r => { r with running := 0xFFFFFFFF }) }) }

/-- A context's local encoding state discarded (R16, R266). -/
def freshCtx (c : Ctx) : Ctx :=
  { c with f := 0, pLoss := 0, slots := [], acksKept := [], lossDue := false, sweepAt := none, nextSweep := 0,
           sweepBroken := false, alf := none, fullness := 0, fullnessTick := 0, rateBase := 0, beta := 128, g := 65536,
           wPrev := [], wHist := [], sizes := [], pics := [], seqFrame := none, restart := true }

/-- Each context starts with a gradual decoding refresh at its next frame tick (R16, R91). -/
def restartCtxs (s : State) : State :=
  { s with enc := { s.enc with ctxs := tmap s.enc.ctxs (fun _ c => if c.stopped then c else { c with restart := true }) } }

/-- The local encoding state is discarded (R16, R266). -/
def discardEncoding (s : State) : State :=
  { s with enc := { s.enc with ctxs := tmap s.enc.ctxs (fun _ c => freshCtx c) } }

/-! ### Update (R417) -/

/-- An update ends without a valid item: SEC_UPD_STATE 5, SEC_UPD_VERDICT 10, reported (R417, R423). A request that waits on it is
no longer legal and is answered WRONG_MODE (R440). -/
def abandonUpdate (s : State) : State :=
  match s.sec.update with
  | none => s
  | some u =>
    let s := { s with sec := { s.sec with update := none, updState := 5, updVerdict := 10 } }
    let s := match u.begun with | some r => replyTo r 0x0D13 .wrongMode false [] s | none => s
    let s := match u.ended with | some r => replyTo r 0x0D15 .wrongMode false [] s | none => s
    raise 0x1C5 u.kind s

/-! ### Held owner requests (R14, R15) -/

/-- Whether Table 3 has a row for an owner request in a mode (R13, R439). -/
def requestLegal (k : HeldKind) (m : Mode) : Bool :=
  match k, m with
  | .quiescent, .solo | .quiescent, .standby => true
  | .run, .quiescent => true
  | .update, .solo | .update, .standby | .update, .quiescent => true
  | .swap, .active | .swap, .standby => true
  | _, _ => false

/-- The opcode a held request came with. -/
def heldOpcode : HeldKind → Nat
  | .quiescent | .run => 0x0D33
  | .update => 0x0D13
  | .swap => 0x0A11

/-- A held request that the new mode has no row for is answered WRONG_MODE (R14, R15). -/
def overtakeHeld (s : State) : State :=
  match s.mode.held with
  | none => s
  | some h =>
    if requestLegal h.kind s.mode.mode then s
    else replyTo h.req (heldOpcode h.kind) .wrongMode false [] { s with mode := { s.mode with held := none } }

/-! ### Anti-rollback (R410) -/

/-- The bits that raise a counter to an SVN, one entry each. -/
def raiseBits (s : State) (ctr svn : Nat) : List Nat := List.replicate (svn - tgetD s.sec.fuses.counters ctr 0) ctr

/-- At the first entry to M3, M4, M5 or M6 after M2, and again where an interruption left bits, programming of the anti-rollback
counters starts: counter 0 to the firmware's SVN, counter SEC_H_CTR to SEC_H_SVN (R410). -/
def startAntiRollback (s : State) : State :=
  { s with sec := { s.sec with
      antiDone := true
      fuseAt := s.mtb.t + 20 * usUnit
      antiRollback := raiseBits s 0 s.sec.fwSvn ++
        (if s.sec.cfgCtr = 0 then [] else raiseBits s s.sec.cfgCtr s.sec.cfgSvn) } }

/-! ### Hold (R12, R24, R395, R411) -/

/-- The fuses, the flash and what it holds, which a reset leaves (R398, R399); an update in progress reads as abandoned (R417). -/
def secAfterReset (x : Sec) : Sec :=
  { fuses := x.fuses, svcCommand := x.svcCommand,
    updState := if x.update.isSome then 5 else 0, updVerdict := if x.update.isSome then 10 else 0 }

/-- The supervisor's part, which a reset leaves while VIN stays good: rails and supplies, PMBus, its fault log (R376, R393). -/
def pwrAfterReset (x : Pwr) : Pwr :=
  { supplyGood := x.supplyGood, debounce := x.debounce, railsUp := x.railsUp, railRising := x.railRising,
    retryWait := x.retryWait, railBad := x.railBad, pmbPage := x.pmbPage, pmbReply := x.pmbReply,
    pmbLogIndex := x.pmbLogIndex, pmbLogReply := x.pmbLogReply }

/-- The pins after entry to M0: outputs safe, GPIOs high-impedance, PAIR_HB_OUT at its last level (R17, R457). -/
def pinsAfterReset (x : Pins) : Pins :=
  { resetLow := x.resetLow, resetFilter := x.resetFilter, svcEn := x.svcEn, forcedSafe := true, hbOut := x.hbOut }

/-- A source or loop as it stands once its rail is up and no reset is held: running, and counted again (R366, R457). -/
def oscillator (i : Nat) : SourceSt := { running := true, counting := i == 2 }

/-- With every rail up the oscillator cells, FRC and SRC run; a release of RESET_N restarts every stability count, FRC's first
(R366, R376, R457). -/
def startOscillators (clk : Clk) : Clk :=
  { clk with src := (List.range 4).map (fun i => (i, oscillator i)) }

/-- The clocks after entry to M0: the oscillators run while the rails are up, and every stability count restarts, at once or at
the release of RESET_N (R366, R372, R457). -/
def clkAfterReset (s : State) : Clk :=
  if s.pwr.railsUp = 7 ∧ s.pins.resetLow = false then startOscillators {}
  else if s.pwr.railsUp = 7 then { src := (List.range 4).map (fun i => (i, { running := true })) }
  else {}

/-- Entry to Hold (M0): everything is reset but the fuses, the flash, the supervisor's part and the model's own queue and
counter (R12, R24, R393, R395, R411, R433). -/
def enterHold (s : State) : State :=
  { State.reset with
    clk := clkAfterReset s
    pwr := pwrAfterReset s.pwr
    pins := pinsAfterReset s.pins
    sec := secAfterReset s.sec
    flt := { supLog := s.flt.supLog }
    free := s.free
    pending := s.pending }

/-! ### Entry to every other mode -/

/-- Whether a mode belongs to M3 to M6, the modes in which a fresh pass of running begins. -/
def runMode (m : Mode) : Bool :=
  match m with
  | .solo | .active | .standby | .resync => true
  | _ => false

/-- Whether a mode is M3, M4 or M5 (R19). -/
def degradeMode (m : Mode) : Bool :=
  match m with
  | .solo | .active | .standby => true
  | _ => false

/-- The lowest-numbered source lost now, or 15 (R372). -/
def firstLostNow (s : State) : Nat :=
  match (tkeysOf s.clk.src (fun _ x => x.absent)) with
  | i :: _ => i
  | [] => 15

/-- What entry to M9 records (R31, R372, R383): when it began, the source lost first, and the MTB not traceable. In M9 MGT runs on
FRC: where the root is not there yet it moves now, a switch in progress ends, and a command that waits for one is answered
WRONG_MODE (R31, R372), as is a buffer write whose HBM requests are dropped (R307, R440). -/
def noteSafeHold (old : Mode) (s : State) : State :=
  let s := match s.clk.switchReply with
    | some r => replyTo r 0x0210 .wrongMode false [] s
    | none => s
  let s := s.hst.heldWrites.foldl (fun s w => replyTo w.req 0x0D32 .wrongMode false [] s) { s with hst := { s.hst with heldWrites := [] } }
  { s with
    clk := { s.clk with m9Start := s.mtb.uptime, firstLost := firstLostNow s
                        rootFrc := true, switchBusy := false, switchReply := none, switchStop := false }
    mtb := { s.mtb with onFrc := true, valid := false, inc := frcInc }
    pvd := { s.pvd with dropLive := true }
    mode := { s.mode with safeFrom := old } }

/-- What entry to a mode does to claims: M5, M6, M9 and M11 hold none (R12, R18, R259). -/
def claimOnEntry (m : Mode) (s : State) : State :=
  match m with
  | .standby | .resync | .safeHold | .halt => dropClaim s
  | _ => s

/-- What entry to M6 starts, and an output mismatch in it starts again: the state copy (R266, R267). -/
def startResync (s : State) : State :=
  { discardEncoding s with
    red := { s.red with resyncs := satAdd 32 s.red.resyncs 1, matchRun := 0 }
    run := { s.run with
      resyncAt := s.mtb.t, copying := true, joins := [], joined := [], bytes := 0, counting := false
      locals := [], partners := [], decided := 0, outBad := false, inBad := false, missed := false, badRun := 0 } }

/-- The mode itself, with the safety of the outputs, which a trip of R371 holds whatever mode is entered (R17, R371), the XSPI pins of M11
and the claim that a mode may not hold (R12, R18). -/
def switchMode (m : Mode) (s : State) : State :=
  claimOnEntry m { s with
    mode := { s.mode with mode := m, prev := s.mode.mode, changes := satAdd 32 s.mode.changes 1 }
    pins := { s.pins with forcedSafe := safeMode m || s.pins.tripped, ppsOut := s.pins.ppsOut && !safeMode m && !s.pins.tripped, xspiHiZ := m == .halt } }

/-- What entry to M9 and M7 stops, and what leaving M9 measures (R31, R157, R321, R372, R383, R417). -/
def stopOnEntry (m old : Mode) (s : State) : State :=
  let s := if old = .update ∧ s.sec.update.isSome ∧ m ≠ s.mode.updateFrom then abandonUpdate s else s
  let s := if (m = .quiescent ∨ m = .safeHold) ∧ ticksRun old = true then stopData (m == .quiescent) s else s
  let s := if m = .safeHold then noteSafeHold old s else s
  let s := if m = .safeHold ∨ m = .service ∨ m = .halt then linksIdle s else if old = .safeHold then linksRestart s else bringUp s
  if old = .safeHold then
      { s with clk := { s.clk with m9Us := min ((s.mtb.uptime - s.clk.m9Start) / 2700) (2 ^ 32 - 1) } } else s

/-- Every sleeping stack begins its exit (R306). -/
def wakeAll (s : State) : State :=
  (List.range 4).foldl (fun s k => if (stack s k).sr == SrState.asleep then beginExit k s else s) s

/-- A pass of running that begins after M7 or M9 resets the check-value units (R360); leaving M7, in which the stacks are held in
self-refresh, they begin their exit (R306). -/
def resumePass (m old : Mode) (s : State) : State :=
  let s := if runMode m = true ∧ old = .quiescent then wakeAll s else s
  if runMode m = true ∧ (old = .quiescent ∨ old = .safeHold) then resumeCvu s else s

/-- M3 entered from M7 or M9 starts every context with a refresh (R16). -/
def resumeSolo (m old : Mode) (s : State) : State :=
  if m = .solo ∧ (old = .quiescent ∨ old = .safeHold) then restartCtxs s else s

/-- M6 starts the state copy, and leaving it ends the copy (R266). -/
def copyOnEntry (m old : Mode) (s : State) : State :=
  if m = .resync then startResync { s with run := { s.run with m6At := s.mtb.t } }
  else if old = .resync then { s with run := { s.run with copying := false } }
  else s

/-- Entry to M2 is noted, and heartbeats are awaited from then on (R30, R248, R251). -/
def noteConfigure (m : Mode) (s : State) : State :=
  if m = .configure then { s with
      mode := { s.mode with m2Start := s.mtb.t }
      red := { s.red with vaDownAt := s.mtb.t, hbAt := s.mtb.t } }
  else s

/-- Anti-rollback programming at the first run mode after M2, or where bits were left (R410). -/
def rollbackOnEntry (m : Mode) (s : State) : State :=
  if runMode m = true ∧ (s.sec.antiDone = false ∨ s.sec.antiRollback ≠ []) then startAntiRollback s else s

/-- Degraded that waited for M3, M4 or M5 is set (R19). -/
def degradeOnEntry (m : Mode) (s : State) : State :=
  if degradeMode m = true ∧ s.flt.degradedPending = true then
    { s with mode := { s.mode with degraded := true }, flt := { s.flt with degradedPending := false } }
  else s

/-- Flow legs start with a pass of running, and see the claims at every other entry (R256, R257). -/
def mergeOnEntry (m old : Mode) (s : State) : State :=
  if runMode m = true ∧ (old = .configure ∨ old = .quiescent ∨ old = .safeHold) then adoptMerge s else settleMerge s

/-- A device that yielded remembers it in M3 only (R253). -/
def yieldOnEntry (m : Mode) (s : State) : State := { s with red := { s.red with yielded := s.red.yielded && m == .solo } }

/-- What entry to M2 and to the run modes starts (R16, R19, R256, R266, R360, R410). -/
def startOnEntry (m old : Mode) (s : State) : State :=
  yieldOnEntry m (mergeOnEntry m old (degradeOnEntry m (rollbackOnEntry m (noteConfigure m (copyOnEntry m old
    (resumeSolo m old (resumePass m old s)))))))

/-- A mode transition of Table 3 to any mode but M0, with all that its entry causes. -/
def enterMode (m : Mode) (s : State) : State :=
  modeEvent m s.mode.mode (overtakeHeld (startOnEntry m s.mode.mode (stopOnEntry m s.mode.mode (switchMode m s))))

/-- Entry to Boot (M1): the MTB starts at 0 s in FREERUN, and uptime and the collector's cycle count start (R13, R24, R389,
R444). -/
def enterBoot (s : State) : State :=
  enterMode .boot { s with mtb := { s.mtb with t := 0, mgt := 0, uptime := 0, servo := 0, inc := nominalInc } }

/-- Degraded is set in M3, M4 or M5, with the mode event that says so, and awaits those modes in M6, M7 and M8 (R19, R388). -/
def setDegraded (s : State) : State :=
  if degradeMode s.mode.mode then
    if s.mode.degraded then s
    else modeEvent s.mode.mode s.mode.mode { s with mode := { s.mode with degraded := true } }
  else
    match s.mode.mode with
    | .resync | .quiescent | .update => { s with flt := { s.flt with degradedPending := true } }
    | _ => s

end Sys2Proof.Machine
end

