-- ==== Sys2Proof/Machine/Faults.lean ====
section
/-! DEFINITION. The fault collector: sources, severities, permanence, the log and every reaction to a report (chapter 19). -/

namespace Sys2Proof.Machine

/-! ### Sources (R384, R423, R445) -/

/-- Whether a source is reserved, so that it never reports (R384, R423, R445). -/
def reservedSource (src : Nat) : Bool :=
  decide ((0x08E ≤ src ∧ src ≤ 0x1BF) ∨ (0x1C7 ≤ src ∧ src ≤ 0x1CF) ∨ 0x1D6 ≤ src)

/-- Whether a source is of kind hardware (Table 1 of the fault chapter, R423, R445). -/
def hardwareSource (src : Nat) : Bool :=
  decide (src ≤ 0x023 ∨ (0x025 ≤ src ∧ src ≤ 0x034) ∨ (0x036 ≤ src ∧ src ≤ 0x039) ∨ src = 0x03B ∨
    (0x03E ≤ src ∧ src ≤ 0x04E) ∨ src = 0x051 ∨ src = 0x052 ∨ (0x056 ≤ src ∧ src ≤ 0x058) ∨ src = 0x065 ∨ src = 0x066 ∨
    src = 0x068 ∨ src = 0x069 ∨ src = 0x06B ∨ src = 0x06C ∨ src = 0x070 ∨ src = 0x074 ∨ src = 0x07A ∨
    (0x07C ≤ src ∧ src ≤ 0x088) ∨ src = 0x08A ∨ src = 0x08D ∨ src = 0x1C3 ∨ src = 0x1C6 ∨ src = 0x1D4 ∨ src = 0x1D5)

/-- Default severity of a source (Table 1 of the fault chapter, R271, R294, R332, R381,
R423, R445). -/
def defaultSeverity (src : Nat) : Nat :=
  if src ≤ 0x023 then 3
  else if src = 0x024 ∨ src = 0x035 ∨ src = 0x03C ∨ src = 0x04F ∨ src = 0x053 ∨ src = 0x055 then 1
  else if 0x025 ≤ src ∧ src ≤ 0x034 then 5
  else if (0x036 ≤ src ∧ src ≤ 0x039) ∨ src = 0x03B ∨ (0x03E ≤ src ∧ src ≤ 0x04E) ∨ src = 0x051 ∨ src = 0x052 then 4
  else if src = 0x03A ∨ src = 0x054 ∨ src = 0x067 ∨ src = 0x06F ∨ src = 0x07B then 0
  else if src = 0x03D ∨ src = 0x050 then 2
  else if 0x056 ≤ src ∧ src ≤ 0x059 then 5
  else if src = 0x05A ∨ src = 0x05B ∨ src = 0x061 ∨ src = 0x06A ∨ src = 0x071 ∨ src = 0x08B then 1
  else if src = 0x064 ∨ src = 0x069 then 3
  else if src = 0x065 ∨ src = 0x070 ∨ src = 0x074 ∨ src = 0x07A then 4
  else if src = 0x066 ∨ src = 0x06B ∨ src = 0x06C ∨ src = 0x084 ∨ src = 0x087 ∨ src = 0x08A ∨ src = 0x08D then 7
  else if (0x07C ≤ src ∧ src ≤ 0x083) ∨ src = 0x086 ∨ src = 0x088 then 6
  else if src = 0x1C1 ∨ src = 0x1D0 then 0
  else if src = 0x1C4 ∨ src = 0x1D3 then 1
  else if src = 0x1C6 then 7
  else if src = 0x1D4 ∨ src = 0x1D5 then 4
  else 2

/-- Whether a source is CLK_LOSS, PWR_SUPPLY or PWR_OC, to which severity 6 is available (R386). -/
def sixSource (src : Nat) : Bool := decide ((0x07C ≤ src ∧ src ≤ 0x083) ∨ src = 0x086 ∨ src = 0x088)

/-- Minimum severity of a source, 0 for none (Table 1 of the fault chapter, R423). -/
def minimumSeverity (src : Nat) : Nat :=
  if sixSource src then 6
  else if src = 0x066 ∨ src = 0x06B ∨ src = 0x06C ∨ src = 0x084 ∨ src = 0x087 ∨ src = 0x08A ∨ src = 0x08D ∨ src = 0x1C6
  then 7
  else 0

/-- How many instances a source has (Table 1 of the fault chapter, R423, R445). -/
def instancesOf (src : Nat) : Nat :=
  if src = 0x024 ∨ src = 0x056 then 128
  else if src = 0x035 ∨ src = 0x03B ∨ src = 0x03C ∨ src = 0x03D ∨ src = 0x050 ∨ (0x059 ≤ src ∧ src ≤ 0x05B) then 64
  else if src = 0x03A ∨ src = 0x051 ∨ src = 0x054 then 32
  else if src = 0x04E ∨ src = 0x04F then 1024
  else if src = 0x052 ∨ src = 0x057 ∨ src = 0x06E ∨ src = 0x06D ∨ src = 0x06F ∨ src = 0x070 ∨
    (0x1D0 ≤ src ∧ src ≤ 0x1D3) then 16
  else if src = 0x053 then 48
  else if src = 0x055 ∨ src = 0x058 ∨ src = 0x061 then 4096
  else if src = 0x062 then 65536
  else if src = 0x063 then 65
  else if src = 0x064 ∨ src = 0x065 ∨ (0x067 ≤ src ∧ src ≤ 0x06A) then 128
  else if src = 0x06C ∨ src = 0x1C0 ∨ src = 0x1C5 then 4
  else if 0x071 ≤ src ∧ src ≤ 0x074 then 6
  else if src = 0x079 then 16
  else if src = 0x07A then 96
  else if src = 0x07B then 64
  else if src = 0x086 then 6
  else if src = 0x087 ∨ src = 0x1D4 ∨ src = 0x1D5 then 2
  else if src = 0x08C then 512
  else if src = 0x1C2 then 255
  else 1

/-- The key of a source and instance in the collector's tables. -/
def faultKey (src inst : Nat) : Nat := src * 65536 + inst

/-! ### Severity, N and W (R386, R389, R396) -/

/-- The severity that records give, before its bounds (R386, R396). -/
def configuredSeverity (s : State) (src inst : Nat) : Nat :=
  match tget s.flt.rules (faultKey src inst), tget s.flt.rules (faultKey src 0xFFFF) with
  | some r, _ => r.sev
  | none, some r => r.sev
  | none, none => defaultSeverity src

/-- The effective severity of a source and instance (R386, R175). -/
def severityOf (s : State) (src inst : Nat) : Nat :=
  if src = 0x03D then
    match tget s.cmps inst with
    | some c => if c.taken then (if c.topSev = 6 then 5 else c.topSev) else 2
    | none => 2
  else
    let v := max (configuredSeverity s src inst) (minimumSeverity src)
    if v = 6 ∧ sixSource src = false then 5 else v

/-- The severity record that applies to a source and instance. -/
def ruleFor (s : State) (src inst : Nat) : SevRule :=
  match tget s.flt.rules (faultKey src inst), tget s.flt.rules (faultKey src 0xFFFF) with
  | some r, _ => r
  | none, some r => r
  | none, none => {}

/-- Effective N (R389, R396). -/
def permN (s : State) (src inst : Nat) : Nat := if (ruleFor s src inst).n = 0 then s.flt.defN else (ruleFor s src inst).n

/-- Effective W in seconds (R389, R396). -/
def permW (s : State) (src inst : Nat) : Nat := if (ruleFor s src inst).w = 0 then s.flt.defW else (ruleFor s src inst).w

/-- The reports of a history within the W that precede now (R389). -/
def recentReports (s : State) (src inst : Nat) : List Nat :=
  (tgetD s.flt.history (faultKey src inst) []).filter (fun c => decide (s.mtb.mgt ≤ c + permW s src inst * 135000000))

/-! ### Whose instance it is (R394) -/

/-- The partitions besides the owner that hold one of some channels. -/
def partsOfChans (s : State) (l : List Nat) : List Nat :=
  (List.range 16).filter (fun p => p != 0 && l.any (fun c => bitOf (part s p).channels c))

/-- The channels that an instance of a source belongs to. -/
def chansOfInstance (s : State) (src inst : Nat) : List Nat :=
  if src = 0x024 ∨ src = 0x056 then (chanOfCtx s inst).toList
  else if src = 0x035 ∨ src = 0x03B ∨ src = 0x03C ∨ src = 0x03D ∨ src = 0x050 ∨ (0x059 ≤ src ∧ src ≤ 0x05B) then [inst]
  else if src = 0x04E then chansOfFlow s inst
  else if src = 0x04F then [inst / 16]
  else if src = 0x051 ∨ src = 0x054 then chansOfAes s inst
  else if src = 0x053 ∧ inst < 32 then chansOfAes s inst
  else if src = 0x052 then ((tget s.aud.outs inst).map (fun o => o.channel)).toList
  else if src = 0x053 then ((tget s.aud.outs (inst - 32)).map (fun o => o.channel)).toList
  else if src = 0x055 ∨ src = 0x058 then ((tget s.egr.legs inst).map (fun l => l.channel)).toList
  else []

/-- FLT_E_PARTS as a list: the owner, and every partition that the instance belongs to (R393, R394). -/
def partsOfInstance (s : State) (src inst : Nat) : List Nat :=
  0 :: (if src = 0x03A then (List.range 16).filter (fun p => p != 0 && bitOf (part s p).decode inst)
        else if 0x1D0 ≤ src ∧ src ≤ 0x1D3 then (if inst = 0 then [] else [inst])
        else partsOfChans s (chansOfInstance s src inst))

/-! ### The log (R393) -/

/-- The 32 bytes of a log entry (Table 4 of the fault chapter). -/
def logBytes (e : LogEntry) : Bytes :=
  le 4 e.seq ++ le 2 e.source ++ le 2 e.inst ++ le 1 e.sev ++ le 1 e.flags ++ le 1 e.mode ++ le 1 e.hist ++
    le 4 e.sec ++ le 4 e.ns ++ le 2 e.parts ++ [0, 0] ++ le 4 e.detail0 ++ le 4 e.detail1

/-- An entry into the supervisor's log of 64 entries (R393). -/
def supervisorLog (e : LogEntry) (s : State) : State :=
  { s with flt := { s.flt with supLog := (e :: s.flt.supLog).take 64 } }

/-- An entry of the supervisor's own, for an FRC start failure or a rail sequence failure (R393). -/
def supervisorEntry (d0 d1 : Nat) (s : State) : State :=
  supervisorLog { source := 0xFFFF, mode := modeCode s.mode.mode, detail0 := d0 % 2 ^ 32, detail1 := d1 % 2 ^ 32 } s

/-- A report written to the log, and to the supervisor's log at severity 5 or above (R393). -/
def writeLog (r : Report) (sev flags hist : Nat) (s : State) : State :=
  let e : LogEntry :=
    { seq := (s.flt.logSeq + 1) % 2 ^ 32, source := r.source, inst := r.inst, sev := sev, flags := flags, mode := modeCode s.mode.mode,
      hist := min hist 15, sec := secOf s.mtb.t % 2 ^ 32, ns := nsOf s.mtb.t,
      parts := maskOf (partsOfInstance s r.source r.inst) 16, detail0 := r.d0, detail1 := r.d1 }
  let s := { s with flt := { s.flt with
      log := (e :: s.flt.log).take 1024
      logSeq := (s.flt.logSeq + 1) % 2 ^ 32
      logWrapped := s.flt.logWrapped || decide (1024 ≤ s.flt.log.length)
      lastSeq := tset s.flt.lastSeq (faultKey r.source r.inst) ((s.flt.logSeq + 1) % 2 ^ 32) } }
  if 5 ≤ sev then supervisorLog e s else s

/-- The fault event of the newest log entry, to the owner and the partitions concerned (R394). -/
def faultEvent (r : Report) (s : State) : State :=
  match s.flt.log with
  | e :: _ => (partsOfInstance s r.source r.inst).foldl (fun s p => sendEvent p 0x0D40 (logBytes e) s) s
  | [] => s

/-! ### Reactions (R387 to R392) -/

/-- A report is counted, for its source and instance and for each partition that sees it (R387, R397). -/
def countReport (src inst : Nat) (s : State) : State :=
  let s := { s with flt := { s.flt with counts := tupd s.flt.counts (faultKey src inst) 0 bump32 } }
  (partsOfInstance s src inst).foldl (fun s p => setPart s p (fun x => { x with reports := bump32 x.reports })) s

/-- Whether fencing the instance takes something out of use (R388). -/
def fencesSomething (src : Nat) : Bool :=
  hardwareSource src || decide (src = 0x024 ∨ src = 0x035 ∨ src = 0x03A ∨ src = 0x03C ∨ src = 0x03D ∨ src = 0x04F ∨
    src = 0x050 ∨ (0x053 ≤ src ∧ src ≤ 0x055) ∨ src = 0x064 ∨ src = 0x067 ∨ src = 0x06A ∨
    (0x06D ≤ src ∧ src ≤ 0x073) ∨ src = 0x07B)

/-- The instance is fenced until the next pass through M2, and Degraded is set where that is due (R388). -/
def fenceReport (src inst : Nat) (s : State) : State :=
  if fencesSomething src then
    let (s, d) := fenceInstance src inst s
    let s := settleMerge s
    let s := { s with flt := { s.flt with
        fenced := sadd s.flt.fenced (faultKey src inst), retrying := sdel s.flt.retrying (faultKey src inst) } }
    if d then setDegraded s else s
  else s

/-- The pulse of a report at severity 5: 675 MGT cycles from the next cycle, or to 675 cycles after this report when one runs
(R392). -/
def startPulse (s : State) : State :=
  { s with flt := { s.flt with pulseUntil :=
      match s.flt.pulseUntil with
      | none => some (s.mtb.mgt + 676)
      | some e => some (max e (s.mtb.mgt + 675)) } }

/-- The unit reaction of a report that is acted on (R387, R389, R390). -/
def unitReaction (r : Report) (sev : Nat) (permanent merged : Bool) (s : State) : State :=
  if permanent then
    fenceReport r.source r.inst { s with flt := { s.flt with retired := satAdd 32 s.flt.retired 1 } }
  else if sev = 3 ∧ (hardwareSource r.source = true ∨ r.source = 0x03D) ∧ merged = false then
    retryUnit r.source r.inst { s with flt := { s.flt with
      retrying := sadd s.flt.retrying (faultKey r.source r.inst) } }
  else if sev = 4 ∨ sev = 5 then fenceReport r.source r.inst s
  else s

/-- Whether the device keeps its claim on a report at 5: in M3, or in M8 entered from M3 (R259, R387). -/
def keepsClaim (s : State) : Bool := actingMode s == .solo

/-- One report, taken by the collector: counted, logged, its event raised and its unit reaction made. The number is the severity
whose mode reaction is due, 0 for none (R387 to R394). A report for an instance already fenced or retired is only counted and
logged (R391); one that arrives while its retry is in progress is merged (R390). -/
def collect (path : Bool) (r : Report) (s : State) : State × Nat :=
  if reservedSource r.source then (s, 0)
  else if s.flt.unsupervised.contains r.source && !path then (s, 0)
  else
    let key := faultKey r.source r.inst
    let sev := severityOf s r.source r.inst
    let s := countReport r.source r.inst s
    if s.flt.fenced.contains key then
      (if 1 ≤ sev then writeLog r sev (4 + 2 * b2n path) (recentReports s r.source r.inst).length s else s, 0)
    else
      let merged := s.flt.retrying.contains key
      let held := recentReports s r.source r.inst
      let entered := hardwareSource r.source && decide (2 ≤ sev) && decide (sev ≤ 5) && !merged
      let permanent := entered && decide (permN s r.source r.inst ≤ held.length)
      let s := if entered then
          { s with flt := { s.flt with history := tset s.flt.history key (s.mtb.mgt :: held) } } else s
      let s := if 1 ≤ sev then
          writeLog r sev (b2n permanent + 2 * b2n path) (held.length + b2n entered) s else s
      let s := if 2 ≤ sev then faultEvent r s else s
      let s := unitReaction r sev permanent merged s
      let s := if sev = 5 then (if keepsClaim s then startPulse s else startPulse (dropClaim s)) else s
      (s, if 5 ≤ sev then sev else 0)

/-- The order of R391: ascending source, then ascending instance. -/
def insertReport (r : Report) : List Report → List Report
  | [] => [r]
  | x :: l =>
    if r.source < x.source ∨ (r.source = x.source ∧ r.inst < x.inst) then r :: x :: l else x :: insertReport r l

/-- Reports in the order in which the collector takes those of one cycle (R391). -/
def sortReports (l : List Report) : List Report := l.foldl (fun a r => insertReport r a) []

/-- Several reports of one cycle taken in order, with the highest severity whose mode reaction is due (R391). -/
def collectAll (l : List Report) (s : State) : State × Nat :=
  l.foldl (fun a r => let (s, v) := collect false r a.1; (s, max v a.2)) (s, 0)

/-- The mode reaction of the highest severity (R387, R391): M11 at 7, M9 at 6, and from M4 to M5 with Degraded set at 5. -/
def modeReaction (v : Nat) (s : State) : State :=
  if v = 7 then enterMode .halt s
  else if v = 6 then (if s.mode.mode = .safeHold then s else enterMode .safeHold s)
  else if v = 5 ∧ s.mode.mode = .active then enterMode .standby (setDegraded s)
  else s

/-- The reports that are due, taken by the collector while it runs; outside M1 to M10 they are lost (R391, R395). -/
def settleOnce (s : State) : State :=
  let due := sortReports s.flt.due
  let s := { s with flt := { s.flt with due := [] } }
  if alive s.mode.mode then
    let (s, v) := collectAll due s
    modeReaction v s
  else s

/-- Every report that a command raised, and those that these raise in turn (R391). -/
def settle (s : State) : State :=
  let s := if s.flt.due.isEmpty then s else settleOnce s
  let s := if s.flt.due.isEmpty then s else settleOnce s
  if s.flt.due.isEmpty then s else settleOnce s

/-- A command's answer: the state with every report it raised taken by the collector. -/
def done (s : State) : Outcome := .next (settle s)

/-! ### ERR_OUT_N (R392) -/

/-- Whether a hold is latched. -/
def errHeld (s : State) : Bool := s.flt.holdLatched || (s.flt.holdDegraded && s.mode.degraded)

/-- Whether the device pulls ERR_OUT_N low: in the safe state of R17, which Configure lifts for other outputs alone, or under
R392. -/
def errDriven (s : State) : Bool :=
  safeMode s.mode.mode || s.mode.mode == .configure || s.pins.forcedSafe || s.flt.pulseUntil.isSome || errHeld s

end Sys2Proof.Machine
end

