-- ==== Sys2Proof/Machine/Records.lean ====
section
/-! DEFINITION. What every configuration record has in common: when it is taken, what discards it, and the view over the whole image
(R6, R405 to R407). -/

namespace Sys2Proof.Machine

/-- A record that cannot be taken is discarded and counted in ENC_POOL_ORPHAN (R6, R69). -/
def orphan (s : State) : State :=
  { s with enc := { s.enc with pool := { s.enc.pool with orphan := bump32 s.enc.pool.orphan } } }

/-- A record has been applied: SEC_REC_TAKEN counts it (R424). -/
def applied (s : State) : State := { s with sec := { s.sec with recTaken := bump32 s.sec.recTaken } }

/-- A record shorter than its table is discarded, counted in SEC_REC_SHORT and reported (R405, R423). -/
def shortRecord (s : State) : State :=
  raise 0x1C1 0 { s with sec := { s.sec with recShort := bump 16 s.sec.recShort } }

/-- A record discarded by type is counted in SEC_REC_UNKNOWN and reported (R405, R423). -/
def unknownRecord (s : State) : State :=
  raise 0x1C1 0 { s with sec := { s.sec with recUnknown := bump 16 s.sec.recUnknown } }

/-- A record of at least n bytes is handed to its body, which applies or discards it; a shorter one is discarded (R405). -/
def sized (n : Nat) (b : Bytes) (body : State → State) (s : State) : State :=
  if b.length < n then shortRecord s else body s

/-- Records are taken in M2, after the image has been verified and before admission has run (R404, R407). -/
def recordsOpen (s : State) : Bool := s.mode.mode == .configure && s.mode.configured && !s.mode.admitted

/-- A record command: the record joins the image and is taken under the rules of its type (R407). -/
def recordCommand (type : Nat) (b : Bytes) (body : Bytes → State → State) (s : State) : Outcome :=
  if recordsOpen s then
    done (body b { s with sec := { s.sec with image := s.sec.image ++ [(type, b)] } })
  else .next s

/-- Whether the image holds a record of a type that passes a test (R407). -/
def inImage (s : State) (type : Nat) (p : Bytes → Bool) : Bool := s.sec.image.any (fun r => r.1 == type && p r.2)

/-- How many records of a type in the image pass a test. -/
def countImage (s : State) (type : Nat) (p : Bytes → Bool) : Nat :=
  (s.sec.image.filter (fun r => r.1 == type && p r.2)).length

/-- Whether the image names an encode channel (R68). -/
def imageHasChannel (s : State) (c : Nat) : Bool := inImage s 0x0801 (fun b => decide (8 ≤ b.length) && clamp 0 63 (u8 b 0) == c)

/-- RECORD_PADDING (R406): ignored; its head was counted by the framing walk. -/
def recPadding (_b : Bytes) (s : State) : State := s

/-- RECORD_PADDING (R406). -/
def execRecordPadding (b : Bytes) (s : State) : Outcome := recordCommand 0x0000 b recPadding s

/-- RECORD_UNKNOWN_TYPE (R405). -/
def execRecordUnknownType (type : Nat) (b : Bytes) (s : State) : Outcome :=
  recordCommand type b (fun _ => unknownRecord) s

/-! ### Records of the clock, power, pin and fault chapters -/

/-- The GPIO record, type 0x0101 (R451). -/
def recGpio (b : Bytes) (s : State) : State :=
  sized 8 b (fun s =>
    if s.pins.gpioTaken then orphan s
    else applied { s with pins := { s.pins with
      gpioTaken := true, gpioOe := u16 b 0, gpioOut := u16 b 2, gpioSafeOe := u16 b 4, gpioSafeLvl := u16 b 6 } }) s

/-- GPIO_RECORD (R451). -/
def execGpioRecord (b : Bytes) (s : State) : Outcome := recordCommand 0x0101 b recGpio s

/-- The supply record, type 0x0201 (R382). -/
def recSupply (b : Bytes) (s : State) : State :=
  sized 4 b (fun s =>
    if s.pwr.supplyTaken then orphan s
    else applied { s with pwr := { s.pwr with
      supplyTaken := true
      ocMa := orDefault (u16 b 0) 36000 20000 36000
      alertW := orDefault (u16 b 2) 0 100 300 } }) s

/-- SUPPLY_RECORD (R382). -/
def execSupplyRecord (b : Bytes) (s : State) : Outcome := recordCommand 0x0201 b recSupply s

/-- A priority code outside 0 to 3 is treated as 0 (R26). -/
def priOf (v : Nat) : Nat := if v ≤ 3 then v else 0

/-- The MTB discipline record, type 0x0220 (R26). -/
def recMtb (b : Bytes) (s : State) : State :=
  sized 20 b (fun s =>
    if s.mtb.recordTaken then orphan s
    else applied { s with mtb := { s.mtb with
      recordTaken := true
      pri := [priOf (u8 b 0), priOf (u8 b 1), priOf (u8 b 2)]
      domain := clamp 0 127 (u8 b 3)
      ptpPort := clamp 0 17 (u8 b 4)
      ptpPort2 := if u8 b 5 ≤ 17 then u8 b 5 else 255
      delayMech := clamp 0 1 (u8 b 6)
      frameRate := clamp 0 10 (u8 b 7)
      ppsEdge := clamp 0 1 (u8 b 8)
      lossMs := clamp 10 10000 (u16 b 10)
      lockNs := clamp 10 100000 (u32 b 12)
      slewPpb := clamp 1 100000 (u32 b 16) } }) s

/-- MTB_DISCIPLINE_RECORD (R26). -/
def execMtbDisciplineRecord (b : Bytes) (s : State) : Outcome := recordCommand 0x0220 b recMtb s

/-- Whether a severity record names a source and instance it may name (R396). -/
def severityNamed (src inst : Nat) : Bool :=
  !reservedSource src && src != 0x03D && (inst == 0xFFFF || decide (inst < instancesOf src))

/-- The severity record, type 0x0C01 (R386, R396). -/
def recSeverity (b : Bytes) (s : State) : State :=
  sized 8 b (fun s =>
    let key := faultKey (u16 b 0) (u16 b 2)
    if severityNamed (u16 b 0) (u16 b 2) = false ∨ thas s.flt.rules key = true then orphan s
    else
      let rule : SevRule := ⟨clamp 0 7 (u8 b 4), clamp 0 15 (u8 b 5), clamp 0 3600 (u16 b 6)⟩
      applied { s with flt := { s.flt with rules := tset s.flt.rules key rule } }) s

/-- SEVERITY_RECORD (R396). -/
def execSeverityRecord (b : Bytes) (s : State) : Outcome := recordCommand 0x0C01 b recSeverity s

/-- The general fault record, type 0x0C02 (R396). -/
def recGeneralFault (b : Bytes) (s : State) : State :=
  sized 8 b (fun s =>
    if s.flt.generalTaken then orphan s
    else applied { s with flt := { s.flt with
      generalTaken := true
      errHold := clamp 0 2 (u8 b 0)
      defN := orDefault (u8 b 1) 3 1 15
      defW := orDefault (u16 b 2) 10 1 3600 } }) s

/-- GENERAL_FAULT_RECORD (R396). -/
def execGeneralFaultRecord (b : Bytes) (s : State) : Outcome := recordCommand 0x0C02 b recGeneralFault s

/-! ### Fault commands outside the records (R385, R387, R390, R392) -/

/-- FAULT_REPORT (R387). -/
def execFaultReport (src inst d0 d1 : Nat) (s : State) : Outcome := done (raiseWith src inst d0 d1 s)

/-- ERR_PULSE_END (R392): the pulse ends and FLT_ERR_HOLD decides whether the pin is held. -/
def execErrPulseEnd (s : State) : Outcome :=
  match s.flt.pulseUntil with
  | none => .next s
  | some e =>
    let s := if s.mtb.mgt < e then passCycles (e - s.mtb.mgt) s else s
    .next { s with flt := { s.flt with
      pulseUntil := none
      holdLatched := s.flt.holdLatched || s.flt.errHold == 1
      holdDegraded := s.flt.holdDegraded || s.flt.errHold == 2 } }

/-- UNIT_RESUME (R390). -/
def execUnitResume (src inst : Nat) (s : State) : Outcome :=
  if s.flt.retrying.contains (faultKey src inst) then
    .next { s with flt := { s.flt with retrying := sdel s.flt.retrying (faultKey src inst) } }
  else .next s

/-- FLT_PATH (R385): the path fault is reported and the source is unsupervised; a source with a minimum severity counts as
reporting, once, in the same cycle. -/
def execFltPath (src : Nat) (s : State) : Outcome :=
  if alive s.mode.mode && decide (src < 512) && !reservedSource src && !s.flt.unsupervised.contains src then
    let (d0, s) := drawFree s
    let (d1, s) := drawFree s
    let (s, a) := collect true ⟨0x08C, src, d0 % 2 ^ 32, d1 % 2 ^ 32⟩ s
    let s := { s with flt := { s.flt with unsupervised := sadd s.flt.unsupervised src } }
    let (s, b) := if minimumSeverity src = 0 then (s, 0) else collect true ⟨src, 0, d1 % 2 ^ 32, d0 % 2 ^ 32⟩ s
    done (modeReaction (max a b) s)
  else .next s

/-- FAULT_PATH_RESTORE (R385). -/
def execFaultPathRestore (src : Nat) (s : State) : Outcome :=
  .next { s with flt := { s.flt with unsupervised := sdel s.flt.unsupervised src } }

end Sys2Proof.Machine
end

