-- ==== Sys2Proof/Machine/CheckValues.lean ====
section
/-! DEFINITION. The general check-value units and the fingerprint units (R353 to R362). -/

namespace Sys2Proof.Machine

/-- A general unit; an absent one stands as reset. -/
def cvUnit (s : State) (u : Nat) : CvUnit := tgetD s.cvu.units u {}

/-- The state with a general unit changed, where it has one. -/
def modUnit (s : State) (u : Nat) (f : CvUnit → CvUnit) : State :=
  { s with cvu := { s.cvu with units := tmod s.cvu.units u f } }

/-- The parameters of a unit (R353). -/
def unitParams (x : CvUnit) : CrcParams := ⟨x.width, x.poly, x.init, x.xor, x.refIn, x.refOut⟩

/-- Bits of a tap's symbols (R355): SDI words have 10, everything else 8. -/
def symbolBits (tapKind : Nat) : Nat := if tapKind = 3 then 10 else 8

/-- Whether the units run: M3 to M8 but M7 (R360). -/
def cvuRuns (s : State) : Bool := ticking s

/-- Symbols fed to a unit's running value (R353, R357). -/
def feedUnit (l : List Nat) (x : CvUnit) : CvUnit :=
  { x with run := crcRun (unitParams x) (symbolBits x.tapKind) x.run l }

/-- The end of a span: the result is latched, the running value returns to I and the span is counted (R355). -/
def endSpan (x : CvUnit) : CvUnit :=
  { x with result := crcFinal (unitParams x) x.run, run := x.init % 2 ^ x.width, spans := bump32 x.spans }

/-- The MTB whole second latches the result of a continuous span and leaves the running value (R355). -/
def latchContinuous (x : CvUnit) : CvUnit :=
  { x with result := crcFinal (unitParams x) x.run, spans := bump32 x.spans }

/-- Symbols that pass a tap, for every unit that observes it in READ mode: `spanEnd` says which span codes end with them (R355,
R356). -/
def tapSymbols (kind index : Nat) (l : List Nat) (spanEnd : List Nat) (s : State) : State :=
  if cvuRuns s then
    { s with cvu := { s.cvu with units := tmap s.cvu.units (fun _ x =>
        if x.st = 1 ∧ x.tapKind = kind ∧ x.tapIndex = index ∧ x.mode = 0 then
          let y := feedUnit l x
          if spanEnd.contains x.span then endSpan y else y
        else x) } }
  else s

/-- Every continuous span latched at the whole second (R355). -/
def tapSecond (s : State) : State :=
  if cvuRuns s then
    { s with cvu := { s.cvu with units := tmap s.cvu.units (fun _ x =>
        if x.st = 1 ∧ x.span = 0 then latchContinuous x else x) } }
  else s

/-- Bytes of a check value, k = ceil(W / 8) (R356). -/
def checkBytes (x : CvUnit) : Nat := ceilDiv x.width 8

/-- The lowest unit that strips an ingress flow, if one does (R356). -/
def stripUnit (s : State) (flow : Nat) : Option Nat :=
  (s.cvu.units.find? (fun u => u.2.taken && u.2.mode == 2 && u.2.tapKind == 1 && u.2.tapIndex == flow)).map (fun u => u.1)

/-- A datagram that a fenced unit does not compare is counted (R360). -/
def passUnchecked (u : Nat) (s : State) : State := modUnit s u (fun y => { y with unchecked := bump32 y.unchecked })

/-- A mismatch is counted and reported, and CVU_ACTION decides (R356, R360). -/
def stripMismatch (u : Nat) (x : CvUnit) (s : State) (rest : Bytes) : State × Bytes × Bool :=
  (raise 0x07B u (modUnit s u (fun y => { y with mismatches := bump32 y.mismatches })), rest, x.action == 0)

/-- What a STRIP unit does with a datagram: the payload without its value, and whether it is passed on. The span starts from the running
value, which software may have seeded (R356, R357, R360). DESIGN CHOICE: of a datagram shorter than its value nothing is left, and no
span is counted (log entry 130). -/
def stripCheck (u : Nat) (payload : Bytes) (s : State) : State × Bytes × Bool :=
  let x := cvUnit s u
  let k := checkBytes x
  let rest := payload.take (payload.length - k)
  if x.st = 3 then (passUnchecked u s, rest, true)
  else if payload.length < k then stripMismatch u x s rest
  else
    let y := endSpan (feedUnit (symbols rest) x)
    let s := modUnit s u (fun _ => y)
    if leAt payload (payload.length - k) k = y.result then (s, rest, true) else stripMismatch u x s rest

/-- The k bytes an APPEND unit adds to a leg's datagrams, 0 where none appends (R356). -/
def appendBytes (s : State) (leg : Nat) : Nat :=
  match s.cvu.units.find? (fun u => u.2.taken && u.2.mode == 1 && u.2.tapKind == 2 && u.2.tapIndex == leg) with
  | some u => checkBytes u.2
  | none => 0

/-! ### The general unit record (R355, R361) -/

/-- The greatest index of a tap kind (Table 2 of the check-value chapter). -/
def tapMax (kind : Nat) : Nat :=
  if kind = 1 then 1023 else if kind = 2 then 4095 else if kind = 3 then 15 else if kind = 4 then 63 else 31

/-- The effective mode on a tap (R355). -/
def tapMode (kind mode : Nat) : Nat :=
  if (kind = 1 ∧ mode = 2) ∨ (kind = 2 ∧ mode = 1) then mode else 0

/-- The effective span on a tap; APPEND and STRIP work on packets (R355, R356). -/
def tapSpan (kind mode span : Nat) : Nat :=
  if mode ≠ 0 then 1
  else if kind ≤ 2 then (if span ≤ 1 then span else 1)
  else if kind ≤ 5 then (if span = 2 ∨ span = 3 then span else 2)
  else (if span = 4 ∨ span = 0 then span else 4)

/-- Whether the object that a tap watches was taken; the records of flows, channels and contexts come before those of the units (R6,
R361, R407). -/
def tapTaken (s : State) (kind index : Nat) : Bool :=
  if kind = 1 then thas s.ing.flows index
  else if kind = 2 then thas s.egr.legs index
  else if kind = 4 then (tgetD s.enc.chans index {}).taken
  else if kind = 5 then thas s.dec.ctxs index
  else true

/-- Whether topiary holds CVU48 to CVU63: some region is taken (R173). -/
def topiaryHolds (s : State) : Bool :=
  s.cvu.topHeld || inImage s 0x0705 (fun b => decide (16 ≤ b.length) && imageHasChannel s (clamp 0 63 (u8 b 0)))

/-- The parameters of a record: a preset, or the custom fields with the bits above W − 1 ignored (R353, R354, R361). -/
def recordParams (b : Bytes) : CrcParams :=
  let preset := clamp 0 5 (u8 b 2)
  if preset = 0 then
    let w := clamp 1 64 (u8 b 3)
    ⟨w, u64 b 16 % 2 ^ w, u64 b 24 % 2 ^ w, u64 b 32 % 2 ^ w, bitOf (u8 b 4) 0, bitOf (u8 b 4) 1⟩
  else crcPreset preset

/-- The general unit record, type 0x0F01 (R355, R361). -/
def recGeneralUnit (b : Bytes) (s : State) : State :=
  sized 40 b (fun s =>
    let u := clamp 0 63 (u8 b 0)
    let kind := clamp 1 6 (u8 b 5)
    let index := clamp 0 (tapMax kind) (u16 b 6)
    if (cvUnit s u).taken || (topiaryHolds s && decide (48 ≤ u)) || !tapTaken s kind index then orphan s
    else
      let p := recordParams b
      let mode := tapMode kind (clamp 0 2 (u8 b 1))
      let x : CvUnit :=
        { taken := true, st := if (cvUnit s u).st = 3 then 3 else 1, mode := mode, tapKind := kind, tapIndex := index,
          span := tapSpan kind mode (u8 b 8), action := clamp 0 1 (u8 b 9), partition := clamp 0 15 (u8 b 10),
          width := p.w, poly := p.g, init := p.i, xor := p.x, refIn := p.refIn, refOut := p.refOut,
          run := p.i % 2 ^ p.w }
      applied { s with cvu := { s.cvu with units := tset s.cvu.units u x } }) s

/-- GENERAL_UNIT_RECORD (R361). -/
def execGeneralUnitRecord (b : Bytes) (s : State) : Outcome := recordCommand 0x0F01 b recGeneralUnit s

/-- CVU_SELFTEST_DONE (R360): units that fail are fenced until the next pass through M2; 64 + n names fingerprint unit n. -/
def execCvuSelftestDone (failing : List Nat) (s : State) : Outcome :=
  if s.mode.mode = .configure then .next ((failing.filter (fun u => decide (u < 96))).foldl (fun s u => fenceCvu u s) s)
  else .next s

/-! ### The running value (R357) -/

/-- Whether the caller sees a unit: the owner, or the unit's partition (R357, R362). -/
def seesUnit (s : State) (transport u : Nat) : Bool :=
  match partOf s transport with
  | some p => p == 0 || ((cvUnit s u).taken && (cvUnit s u).partition == p)
  | none => false

/-- Whether the running value of a unit may be written: the unit is neither held nor fenced, and the mode is one of M3 to M8 (R357). -/
def runWritable (s : State) (u : Nat) : Bool := (cvUnit s u).st == 1 && (cvuRuns s || s.mode.mode == .quiescent)

/-- A write to CVU_RUN_LO is staged (R357). -/
def stageRun (transport u value : Nat) (s : State) : State :=
  if decide (u < 64) && seesUnit s transport u && runWritable s u then
    setView s transport (fun v => { v with staged := tset v.staged u (loWord value) })
  else s

/-- A write to CVU_RUN_HI loads both halves; ignored for a unit held or fenced, and outside M3 to M8 (R357). -/
def loadRun (transport u value : Nat) (s : State) : State :=
  if seesUnit s transport u && runWritable s u then
    let lo := tgetD (view s transport).staged u 0
    modUnit s u (fun x => { x with run := (loWord value * 2 ^ 32 + lo) % 2 ^ x.width })
  else s

/-- CVU_RUN_LO_WRITE (R357). -/
def execCvuRunLoWrite (transport u value : Nat) (s : State) : Outcome := .next (stageRun transport u value s)

/-- CVU_RUN_HI_WRITE (R357). -/
def execCvuRunHiWrite (transport u value : Nat) (s : State) : Outcome := .next (loadRun transport u value s)

/-- CVU_RUN_LO_READ (R357): the low word is returned and the high word latched. -/
def execCvuRunLoRead (transport u : Nat) (s : State) : Outcome :=
  if decide (u < 64) && seesUnit s transport u then
    let run := (cvUnit s u).run
    .next (setView s transport (fun v =>
      { v with last := [loWord run], latch := tset v.latch (0x7010 + 0x20 * u) (hiWord run) }))
  else .next s

end Sys2Proof.Machine
end

