-- ==== Sys2Proof/Machine/Picture.lean ====
section
/-! DEFINITION. What the rules compute of samples and vectors (R44, R65, R127 to R129, R132, R146, R162, R163, R172, R324). -/

namespace Sys2Proof.Machine

/-! ### Samples (R146, R162, R163, R172) -/

/-- A sample of a layer over the sample below it, α out of 255 (R162). -/
def blend (alpha layer below : Nat) : Nat := (alpha * layer + (255 - alpha) * below + 127) / 255

/-- The layers from the bottom up, each with its α and its sample, blended onto the background (R162). -/
def blendAll (background : Nat) (layers : List (Nat × Nat)) : Nat := layers.foldl (fun below l => blend l.1 l.2 below) background

/-- The order of stacking: Z, then video before graphics, then the number; a graphics layer is 8 + its number (R162). -/
def stackedBelow (z1 n1 z2 n2 : Nat) : Bool := decide (z1 < z2) || (z1 == z2 && decide (n1 < n2))

/-- One row of Table 1: a component from R′, G′ and B′ in Q14, shifted arithmetically and clipped to 4 to 1,019 (R163). -/
def matrixRow (offset kr kg kb : Int) (r g b : Nat) : Nat :=
  (max 4 (min 1019 (offset + (kr * r + kg * g + kb * b + 8192) / 16384))).toNat

/-- Y, Cb and Cr of a graphics pixel with the matrix that ENC_COLOUR selects (R163, Table 1). -/
def graphicsYcc (colour r g b : Nat) : Nat × Nat × Nat :=
  if colour = 0 then
    (matrixRow 64 2983 10034 1013 r g b, matrixRow 512 (-1644) (-5531) 7175 r g b, matrixRow 512 7175 (-6517) (-658) r g b)
  else
    (matrixRow 64 3686 9512 832 r g b, matrixRow 512 (-2004) (-5171) 7175 r g b, matrixRow 512 7175 (-6598) (-577) r g b)

/-- Whether a line carries chroma: every line at 4:2:2, even lines at 4:2:0 (R172). -/
def chromaLine (chroma y : Nat) : Bool := chroma == 1 || y % 2 == 0

/-- A sample as the two bytes that a signature takes (R172). -/
def sampleBytes (v : Nat) : Bytes := [BitVec.ofNat 8 v, BitVec.ofNat 8 (v % 1024 / 256)]

/-- The bytes of one line of a region: luma, then Cb and Cr where the line carries chroma (R172). -/
def regionLineBytes (chroma y : Nat) (luma cb cr : List Nat) : Bytes :=
  (luma ++ (if chromaLine chroma y then cb ++ cr else [])).flatMap sampleBytes

/-- A decoded luma or chroma sample of 8 or 10 bits as delivered (R146). -/
def deliveredSample (bits v : Nat) : Nat := if bits = 8 then 4 * v else v

/-- Chroma of a 4:4:4 line brought to 4:2:2: pairs averaged, half rounded up (R146). -/
def halveChroma : List Nat → List Nat
  | a :: b :: rest => ((a + b + 1) / 2) :: halveChroma rest
  | _ => []

/-- Chroma lines of a 4:2:0 picture brought to 4:2:2: each line twice (R146). -/
def repeatChroma (lines : List (List Nat)) : List (List Nat) := lines.flatMap (fun l => [l, l])

/-- Chroma of a monochrome line of a delivered picture (R146). -/
def monochrome (width : Nat) : List Nat := List.replicate (width / 2) 512

/-! ### Search and analysis (R65, R89, R127 to R129, R132) -/

/-- A vector in whole luma samples. -/
abbrev MotionVec := Int × Int

/-- The order that breaks ties: |x| + |y|, then y, then x (R127). -/
def beforeVec (a b : MotionVec) : Bool :=
  let na := a.1.natAbs + a.2.natAbs
  let nb := b.1.natAbs + b.2.natAbs
  decide (na < nb) || (na == nb && (decide (a.2 < b.2) || (a.2 == b.2 && decide (a.1 < b.1))))

/-- The candidate of the least cost, ties broken as R127 says. -/
def bestVec (cost : MotionVec → Nat) : List MotionVec → Option MotionVec
  | [] => none
  | v :: rest =>
    match bestVec cost rest with
    | none => some v
    | some w => if cost v < cost w ∨ (cost v = cost w ∧ beforeVec v w = true) then some v else some w

/-- The block's cost: the smaller of its intra and inter costs (R127). -/
def blockCost (intra inter : Nat) : Nat := min intra inter

/-- A cost of a block cut by the bottom of the picture, from that of its active lines (R127). -/
def cutCost (cost lines : Nat) : Nat := cost * 16 / lines

/-- A block is changed (R135). -/
def changedBlock (intra inter : Nat) : Bool := decide (intra < inter)

/-- act_g of a quantisation group from the intra costs of its blocks (R128). -/
def groupActivity (intra : List Nat) : Nat := max 1 intra.sum

/-- act_s of a slice from the activities of its groups (R128). -/
def sliceActivity (groups : List Nat) : Nat := max 1 (groups.sum / groups.length)

/-- How often a vector occurs among a CTU's block vectors (R129). -/
def votes (vs : List MotionVec) (v : MotionVec) : Nat := vs.countP (fun w => w == v)

/-- The vector that occurs most often, ties broken as R127 says (R129). -/
def mostFrequent (all among : List MotionVec) : Option MotionVec := bestVec (fun v => all.length - votes all v) among

/-- Whether direct search leaves a vector to the guides (R129). -/
def outsideDirect (v : MotionVec) : Bool := decide (224 < v.1.natAbs) || decide (96 < v.2.natAbs)

/-- Whether a position lies in the direct search range (R65). -/
def directRange (v : MotionVec) : Bool := decide (v.1.natAbs ≤ 256) && decide (v.2.natAbs ≤ 128)

/-- The guides of a CTU from its block vectors, candidates inside the direct search left out (R129). -/
def guidesOf (vs : List MotionVec) : List MotionVec :=
  match mostFrequent vs vs with
  | none => []
  | some g =>
    let far := vs.filter (fun v => decide (32 < (v.1 - g.1).natAbs) || decide (32 < (v.2 - g.2).natAbs))
    ([g] ++ (mostFrequent far far).toList).filter outsideDirect

/-- The guides that the engine applies: none where they are off, in a loss picture, in the first picture of a sequence, and at or
below a cut row (R129, R136). -/
def guidesInForce (enabled loss first : Bool) (cutRow : Option Nat) (row : Nat) (vs : List MotionVec) : List MotionVec :=
  if !enabled || loss || first || cutRow.any (fun c => decide (c ≤ row)) then [] else guidesOf vs

/-- A source vector scaled to a rendition of width and height Wx × Hx from Ws × Hs (R132). -/
def scaledVec (ws hs wx hx : Nat) (v : MotionVec) : MotionVec :=
  ((v.1 * wx).fdiv ws, (v.2 * hx).fdiv hs)

/-- The luma sample of the source whose block gives a rendition block at (x, y) its vector (R132). -/
def sourceSample (ws hs wx hx x y : Nat) : Nat × Nat := ((x + 8) * ws / wx, (y + 8) * hs / hx)

/-! ### Delay and link rates (R44, R324) -/

/-- The delay of a row from the arrival of its last line to its first packet, in lines of the raster, before the 12 µs: L row
ticks, and for a partial last row also the rest of its tick (R44). -/
def delayLines (raster l row : Nat) : Nat := 64 * l + (64 - min 64 (activeH raster - 64 * row))

/-- That delay in units of time, the 12 µs with it, rounded down (R44). -/
def rowDelay (raster rate l row : Nat) : Nat :=
  delayLines raster l row * rateD rate * secUnit / (rateN rate * totalLines raster) + 12 * usUnit

/-- A step of the Valsin rate ladder (R324, Table 2). -/
structure LadderStep where
  /-- Line rate in kBd (R324). -/
  kBaud : Nat
  /-- PAM4 modulation; NRZ otherwise (R324). -/
  pam4 : Bool
  /-- 128b/130b coding; 8b/10b otherwise (R324). -/
  blocks : Bool
  /-- Bit rate of a lane in kb/s (R324). -/
  laneKbps : Nat
  deriving DecidableEq, Repr

/-- The four steps of the ladder, from step 0 (R324). -/
def ladder : List LadderStep :=
  [⟨3341250, false, false, 3341250⟩, ⟨13365000, false, false, 13365000⟩, ⟨26730000, true, true, 53460000⟩,
   ⟨53460000, true, true, 106920000⟩]

/-- The bits of data in a comma block (R324). -/
def commaBlock : List Nat := List.replicate 4 0x7C5A3E1F

end Sys2Proof.Machine
end

