-- ==== Sys2Proof/Machine/Coppice.lean ====
section
/-! DEFINITION. Coppice: what an analyser computes of the composed luma of a row, on the source raster and on a rendition's (R127 to
R132, R135 to R138). -/

namespace Sys2Proof.Machine

/-! ### Luma samples -/

/-- A luma picture as its size and its samples by position: the composed picture, or a rendition's scaled picture. -/
structure Luma where
  /-- Width in samples. -/
  w : Nat
  /-- Active height in lines. -/
  h : Nat
  /-- The sample at x, y. -/
  at_ : Nat → Nat → Nat

/-- The luma of a composed picture (R127). -/
def lumaOf (raster : Nat) (p : Planes) : Luma :=
  { w := activeW raster, h := activeH raster, at_ := fun x y => (tgetD p.lines y {}).y.getD x 0 }

/-- A position brought inside a picture. -/
def inside (n : Nat) (v : Int) : Nat := (clampI 0 ((n : Int) - 1) v).toNat

/-- A rendition's scaled picture: each sample from the 8×8 source samples around its place (R59, R132; log entry 109). -/
def scaledLuma (src : Luma) (w h : Nat) : Luma :=
  { w := w, h := h
    at_ := fun x y =>
      let cx := x * src.w / w
      let cy := y * src.h / h
      Config.scaledSample src.w w x src.h h y ((List.range 8).flatMap (fun j => (List.range 8).map (fun i =>
        src.at_ (inside src.w ((cx : Int) + i - 3)) (inside src.h ((cy : Int) + j - 3))))) }

/-- Lines of a block that lie in the picture (R127). -/
def blockLines (p : Luma) (by_ : Nat) : Nat := min 16 (p.h - 16 * by_)

/-- The samples of a block displaced by a vector, line by line. -/
def blockAt (p : Luma) (bx by_ lines : Nat) (v : MotionVec) : List (List Nat) :=
  (List.range lines).map (fun j => (List.range 16).map (fun i =>
    p.at_ (inside p.w ((16 * bx + i : Nat) + v.1)) (inside p.h ((16 * by_ + j : Nat) + v.2))))

/-! ### SATD (R127) -/

/-- The sums of the first half with the second and the differences after them. -/
def butterfly (l : List Int) : List Int :=
  let k := l.length / 2
  (List.zipWith (· + ·) (l.take k) (l.drop k)) ++ (List.zipWith (· - ·) (l.take k) (l.drop k))

/-- The Hadamard transform of eight values. -/
def hadamard8 (l : List Int) : List Int :=
  let a := butterfly l
  let b := butterfly (a.take 4) ++ butterfly (a.drop 4)
  butterfly (b.take 2) ++ butterfly ((b.drop 2).take 2) ++ butterfly ((b.drop 4).take 2) ++ butterfly (b.drop 6)

/-- Rows to columns of a square of eight. -/
def transpose8 (m : List (List Int)) : List (List Int) := (List.range 8).map (fun i => m.map (fun r => r.getD i 0))

/-- SATD of an 8×8 square of differences: the sum of the magnitudes of its Hadamard transform (R127; log entry 108). -/
def satd8 (m : List (List Int)) : Nat :=
  (((transpose8 (m.map hadamard8)).map hadamard8).flatten.map Int.natAbs).sum

/-- The differences of two blocks. -/
def blockDiff (a b : List (List Nat)) : List (List Int) :=
  List.zipWith (fun p q => List.zipWith (fun (x y : Nat) => (x : Int) - y) p q) a b

/-- SATD of a block of 16 columns, as the sum over its 8×8 squares (R127). -/
def satd (d : List (List Int)) : Nat :=
  ((List.range (d.length / 8)).map (fun j =>
    let rows := (d.drop (8 * j)).take 8
    satd8 (rows.map (fun r => r.take 8)) + satd8 (rows.map (fun r => r.drop 8)))).sum

/-! ### Intra cost (R127) -/

/-- The mean of samples, half rounded up; 512 where there is none (log entry 108). -/
def meanSample (l : List Nat) : Nat := if l.isEmpty then 512 else (l.sum + l.length / 2) / l.length

/-- The intra cost of a block: the smallest SATD against its DC, horizontal and vertical predictions, from the composed samples of the
picture above and to the left; 512 where there are none. DESIGN CHOICE: where only one side exists, the DC prediction is the mean of that
side (R127; log entry 108). -/
def intraSatd (p : Luma) (bx by_ : Nat) : Nat :=
  let lines := blockLines p by_
  let block := blockAt p bx by_ lines (0, 0)
  let above := if by_ = 0 then [] else (List.range 16).map (fun i => p.at_ (16 * bx + i) (16 * by_ - 1))
  let left := if bx = 0 then [] else (List.range lines).map (fun j => p.at_ (16 * bx - 1) (16 * by_ + j))
  let dc := meanSample (above ++ left)
  let cost := fun (f : Nat → Nat → Nat) =>
    satd (blockDiff block ((List.range lines).map (fun j => (List.range 16).map (fun i => f i j))))
  min (cost (fun _ _ => dc)) (min (cost (fun _ j => left.getD j 512)) (cost (fun i _ => above.getD i 512)))

/-! ### Motion search (R127, R132) -/

/-- Whether a block displaced by a vector lies whole inside the picture (R127). -/
def vecInside (p : Luma) (bx by_ : Nat) (v : MotionVec) : Bool :=
  decide (0 ≤ (16 * bx : Nat) + v.1 ∧ (16 * bx : Nat) + v.1 + 16 ≤ p.w ∧ 0 ≤ (16 * by_ : Nat) + v.2 ∧
    (16 * by_ : Nat) + v.2 + blockLines p by_ ≤ p.h)

/-- The vectors around a centre, on a grid of a step, n steps each way, within ±1,024 × ±512 and with the block inside the picture
(R127). -/
def around (p : Luma) (bx by_ step nx ny : Nat) (c : MotionVec) : List MotionVec :=
  ((List.range (2 * ny + 1)).flatMap (fun j => (List.range (2 * nx + 1)).map (fun i =>
    (c.1 + step * ((i : Int) - nx), c.2 + step * ((j : Int) - ny))))).filter (fun v =>
      decide (v.1.natAbs ≤ 1024 ∧ v.2.natAbs ≤ 512) && vecInside p bx by_ v)

/-- SATD of a block against the other picture at a vector (R127). -/
def interSatd (cur ref : Luma) (bx by_ : Nat) (v : MotionVec) : Nat :=
  let lines := blockLines cur by_
  satd (blockDiff (blockAt cur bx by_ lines (0, 0)) (blockAt ref bx by_ lines v))

/-- SATD at a reduced resolution (R127; log entry 108). -/
def coarseCost (cur ref : Luma) (bx by_ divisor : Nat) (v : MotionVec) : Nat :=
  let lines := blockLines cur by_
  Config.coarseSatd divisor (blockAt cur bx by_ lines (0, 0)).flatten (blockAt ref bx by_ lines v).flatten

/-- The motion vector of a block: at 1:4 resolution over the whole range, at 1:2 within ±4 around the best, at full resolution within
±2 around the best (R127). DESIGN CHOICE: the ±4 of the second pass counts full-resolution samples, in steps of 2 (log entry 108). -/
def searchVec (cur ref : Luma) (bx by_ : Nat) : MotionVec :=
  let v1 := (bestVec (coarseCost cur ref bx by_ 4) (around ref bx by_ 4 256 128 (0, 0))).getD (0, 0)
  let v2 := (bestVec (coarseCost cur ref bx by_ 2) (around ref bx by_ 2 2 2 v1)).getD v1
  (bestVec (interSatd cur ref bx by_) (around ref bx by_ 1 2 2 v2)).getD v2

/-- The vectors within n of a centre on both axes. -/
def square (n : Nat) (c : MotionVec) : List MotionVec :=
  (List.range (2 * n + 1)).flatMap (fun j => (List.range (2 * n + 1)).map (fun i => (c.1 + ((i : Int) - n), c.2 + ((j : Int) - n))))

/-- A rendition's vector: the source's scaled and refined within ±4 on the scaled pictures, whether or not a candidate lies whole in the
picture before, whose edge samples stand for those beyond it (R132; log entry 108). -/
def refineVec (cur ref : Luma) (bx by_ : Nat) (v : MotionVec) : MotionVec :=
  (bestVec (interSatd cur ref bx by_) (square 4 v)).getD v

/-! ### The fields of a row (R127 to R132, R135, R138) -/

/-- What analysis gives for a block: its vector and costs (R127). -/
structure BlockFields where
  /-- The motion vector. -/
  vec : MotionVec
  /-- The intra cost. -/
  intra : Nat
  /-- The inter cost. -/
  inter : Nat

/-- The key of a block. -/
def blockKey (bx by_ : Nat) : Nat := 1024 * by_ + bx

/-- The fields of a block whose vector is found by `find`; in the first picture of a sequence the inter cost is the intra cost and the
motion is zero (R127, R131). -/
def blockFields (cur ref : Luma) (first : Bool) (find : Nat → Nat → MotionVec) (bx by_ : Nat) : BlockFields :=
  let lines := blockLines cur by_
  let intra := cutCost (intraSatd cur bx by_) lines
  if first then ⟨(0, 0), intra, intra⟩
  else
    let v := find bx by_
    ⟨v, intra, cutCost (interSatd cur ref bx by_ v) lines⟩

/-- What analysis gives for the slice of a row and tile column (R128, R129, R135). -/
structure SliceFields where
  /-- Sum of block costs. -/
  cost : Nat
  /-- act_g of each CTU's quantisation groups. -/
  acts : List (List Nat)
  /-- The guides of each CTU. -/
  guides : List (List MotionVec)
  /-- The vectors of the blocks, by key. -/
  vecs : List (Nat × MotionVec)
  /-- Changed blocks. -/
  changed : Nat
  /-- Blocks. -/
  blocks : Nat

/-- Block rows of a CTU row. -/
def blockRows (p : Luma) (row : Nat) : List Nat :=
  (List.range 4).filterMap (fun j => if 16 * (4 * row + j) < p.h then some (4 * row + j) else none)

/-- The fields of the slice that starts at CTU column `first` and has n CTUs, from those of its blocks (R128, R129, R135). -/
def sliceFields (p : Luma) (row start n : Nat) (f : Nat → Nat → BlockFields) : SliceFields :=
  let rows := blockRows p row
  let blocksOf := fun (ctu : Nat) => rows.flatMap (fun y => (List.range 4).map (fun i => (4 * ctu + i, y)))
  let groupsOf := fun (ctu : Nat) => [0, 1].flatMap (fun gy => [0, 1].filterMap (fun gx =>
    let l := (rows.filter (fun y => y / 2 == 2 * row + gy)).flatMap (fun y => [0, 1].map (fun i => (4 * ctu + 2 * gx + i, y)))
    if l.isEmpty then none else some (groupActivity (l.map (fun b => (f b.1 b.2).intra)))))
  let ctus := (List.range n).map (fun i => start + i)
  let all := ctus.flatMap blocksOf
  { cost := (all.map (fun b => blockCost (f b.1 b.2).intra (f b.1 b.2).inter)).sum
    acts := ctus.map groupsOf
    guides := ctus.map (fun c => guidesOf ((blocksOf c).map (fun b => (f b.1 b.2).vec)))
    vecs := all.map (fun b => (blockKey b.1 b.2, (f b.1 b.2).vec))
    changed := all.countP (fun b => changedBlock (f b.1 b.2).intra (f b.1 b.2).inter)
    blocks := all.length }

/-- The fields of a slice whose analyser overran or is retired: zero vectors, no guides, every act 1 (R138). -/
def noFields (c : Ctx) (row : Nat) : SliceFields :=
  { cost := 0, acts := List.replicate (sliceCtus c.raster) (List.replicate (groupsPerCtu c.raster row) 1)
    guides := [], vecs := [], changed := 0, blocks := 0 }

/-- The fields of a slice of a context: on the composed pictures at the channel's raster, on the scaled pictures with the source's
vectors scaled and refined at a smaller one (R127, R132). DESIGN CHOICE: where the place of R132 lies below the source picture, as in the last
block row of a 1,080-line rendition, no source block contains it, and the search starts from (0, 0) (log entry 108). -/
def analyse (rs : Nat) (c : Ctx) (now before : Planes) (srcVecs : Tab MotionVec) (first : Bool) (row t : Nat) : SliceFields :=
  let cur := lumaOf rs now
  let ref := lumaOf rs before
  let start := t * sliceCtus c.raster
  if c.raster = rs then
    sliceFields cur row start (sliceCtus c.raster) (blockFields cur ref first (searchVec cur ref))
  else
    let w := activeW c.raster
    let h := activeH c.raster
    let small := scaledLuma cur w h
    let smallRef := scaledLuma ref w h
    let find := fun (bx by_ : Nat) =>
      let at_ := sourceSample cur.w cur.h w h (16 * bx) (16 * by_)
      let v := tgetD srcVecs (blockKey (at_.1 / 16) (at_.2 / 16)) (0, 0)
      refineVec small smallRef bx by_ (scaledVec cur.w cur.h w h v)
    sliceFields small row start (sliceCtus c.raster) (blockFields small smallRef first find)

end Sys2Proof.Machine
end

