-- ==== Sys2Proof/Machine/Encode.lean ====
section
/-! DEFINITION. Encode engines, coding and rate control: records, self-test, engine placement, the stages of a row, verdicts,
references and the commands that read them (chapters 3 to 6). -/

namespace Sys2Proof.Machine

/-! ### Records (R68, R69, R98, R99, R104, R139) -/

/-- The encode channel record, type 0x0801. A second record for a number makes that channel fail admission (R68). -/
def recEncodeChannel (b : Bytes) (s : State) : State :=
  sized 8 b (fun s =>
    let n := clamp 0 63 (u8 b 0)
    let old := tgetD s.enc.chans n {}
    let ch := if old.taken then { old with dup := true } else
      { old with
        taken := true, raster := clamp 0 2 (u8 b 1), rate := clamp 0 10 (u8 b 2), frameMode := u8 b 3 != 0
        delayL := orDefault (u8 b 4) 4 3 32, delayF := clamp 1 2 (u8 b 5), chroma := clamp 0 1 (u8 b 6) }
    applied { s with enc := { s.enc with chans := tset s.enc.chans n ch } }) s

/-- ENCODE_CHANNEL_RECORD (R68). -/
def execEncodeChannelRecord (b : Bytes) (s : State) : Outcome := recordCommand 0x0801 b recEncodeChannel s

/-- The raster of a context: the channel's for the source-resolution context, never larger and never 7680×4320 for a further
one (R49). -/
def contextRaster (ch : Chan) (first : Bool) (code : Nat) : Nat :=
  if first then ch.raster else max (clamp 0 3 code) (max ch.raster 1)

/-- The encode context record, type 0x0802 (R49, R69). DESIGN CHOICE: a record that repeats a used number and would also be beyond the
eighth of its channel counts in ENC_POOL_ORPHAN alone, since its context is named already; R69 gives the cases no order (log entry
110). -/
def recEncodeContext (b : Bytes) (s : State) : State :=
  sized 8 b (fun s =>
    let x := clamp 0 127 (u8 b 0)
    let n := clamp 0 63 (u8 b 1)
    let ch := tgetD s.enc.chans n {}
    if thas s.enc.ctxs x || !ch.taken then orphan s
    else if 8 ≤ ch.ctxs.length then
      orphan (modChan s n (fun h => { h with droppedCtx := bump 8 h.droppedCtx }))
    else
      let first := ch.ctxs.isEmpty
      let raster := contextRaster ch first (u8 b 3)
      let c : Ctx :=
        { channel := n, codec := clamp 0 1 (u8 b 2), raster := raster, chroma := min (clamp 0 1 (u8 b 4)) ch.chroma
          further := !first, kbpsCfg := defaultKbps raster }
      let s := modChan s n (fun h => { h with ctxs := h.ctxs ++ [x] })
      applied { s with enc := { s.enc with ctxs := tset s.enc.ctxs x c } }) s

/-- ENCODE_CONTEXT_RECORD (R69). -/
def execEncodeContextRecord (b : Bytes) (s : State) : Outcome := recordCommand 0x0802 b recEncodeContext s

/-- The context coding record, type 0x0803 (R98). -/
def recContextCoding (b : Bytes) (s : State) : State :=
  sized 8 b (fun s =>
    let x := clamp 0 127 (u8 b 0)
    match tget s.enc.ctxs x with
    | none => orphan s
    | some c =>
      if c.codingTaken then orphan s
      else applied (modCtx s x (fun c =>
        { c with codingTaken := true, gdrMs := orDefault (u16 b 2) 1000 100 10000, anchorK := orDefault (u8 b 4) 30 4 240
                 feedback := u8 b 5 % 16, captions := u8 b 6 != 0 }))) s

/-- CONTEXT_CODING_RECORD (R98). -/
def execContextCodingRecord (b : Bytes) (s : State) : Outcome := recordCommand 0x0803 b recContextCoding s

/-- The channel colour record, type 0x0804 (R99). -/
def recChannelColour (b : Bytes) (s : State) : State :=
  sized 32 b (fun s =>
    let n := clamp 0 63 (u8 b 0)
    let ch := tgetD s.enc.chans n {}
    if !ch.taken || ch.colourTaken then orphan s
    else applied (modChan s n (fun h =>
      { h with
        colourTaken := true, colour := clamp 0 3 (u8 b 1), hdrSei := u8 b 2 % 8
        mdcv := (List.range 8).map (fun i => clamp 0 50000 (u16 b (4 + 2 * i))) ++
          [clamp 50000 100000000 (u32 b 20), clamp 1 50000 (u32 b 24)]
        maxCll := u16 b 28, maxFall := u16 b 30 }))) s

/-- CHANNEL_COLOUR_RECORD (R99). -/
def execChannelColourRecord (b : Bytes) (s : State) : Outcome := recordCommand 0x0804 b recChannelColour s

/-- The rate-control record, type 0x0805; its values are made effective at admission (R104, R105). -/
def recRateControl (b : Bytes) (s : State) : State :=
  sized 16 b (fun s =>
    let x := clamp 0 127 (u8 b 0)
    match tget s.enc.ctxs x with
    | none => orphan s
    | some c =>
      if c.rcTaken then orphan s
      else applied (modCtx s x (fun c =>
        { c with rcTaken := true, rcMode := clamp 0 2 (u8 b 1), rcBuf := u8 b 2, aq := clamp 0 96 (u8 b 3), kbpsCfg := u32 b 4
                 maxKbps := u32 b 8, qpMin := u8 b 12, qpMax := u8 b 13, qp := u8 b 14, ud16 := u8 b 15 }))) s

/-- RATE_CONTROL_RECORD (R104). -/
def execRateControlRecord (b : Bytes) (s : State) : Outcome := recordCommand 0x0805 b recRateControl s

/-- The state with a channel's Coppice words changed. -/
def setCp (s : State) (c : Nat) (f : CpChan → CpChan) : State :=
  { s with enc := { s.enc with cps := tupd s.enc.cps c {} f } }

/-- The Coppice record, type 0x0806 (R139). -/
def recCoppice (b : Bytes) (s : State) : State :=
  sized 4 b (fun s =>
    let n := clamp 0 63 (u8 b 0)
    if !(tgetD s.enc.chans n {}).taken || (tgetD s.enc.cps n {}).taken then orphan s
    else applied (setCp s n (fun c =>
      { c with taken := true, cutPct := if u8 b 1 = 0 then 0 else clamp 10 100 (u8 b 1), guides := u8 b 2 != 0 }))) s

/-- COPPICE_RECORD (R139). -/
def execCoppiceRecord (b : Bytes) (s : State) : Outcome := recordCommand 0x0806 b recCoppice s

/-! ### Self-test (R46, R125, R141) -/

/-- The elements of a list below n, rising. -/
def below (n : Nat) (l : List Nat) : List Nat := (List.range n).filter (fun i => l.contains i)

/-- The states that self-test gives the engines: the sixteen lowest that pass in service, the rest spare, those that fail out of
use (R46, R71). -/
def testedEngines (passing : List Nat) : Tab Engine :=
  let ok := below 18 passing
  (List.range 18).map (fun e =>
    (e, { st := if !ok.contains e then .retired else if (ok.take 16).contains e then .inService else .spare }))

/-- ENGINE_SELFTEST_DONE (R46, R125, R141): in M2, before admission. -/
def execEngineSelftestDone (engines analysers decoders : List Nat) (s : State) : Outcome :=
  if s.mode.mode = .configure ∧ s.mode.admitted = false then
    .next { s with
      enc := { s.enc with pool := { s.enc.pool with
        engines := testedEngines engines
        sparesLeft := (below 18 engines).length - 16
        analysers := below 16 analysers
        retiredAn := [] } }
      dec := { s.dec with engines := (List.range 4).map (fun e => (e, { failed := !decoders.contains e })) } }
  else .next s

/-! ### Engine share (R50, R51, R125) -/

/-- The charge of a context (R50). -/
def ctxCharge (rate : Nat) (c : Ctx) : Nat :=
  let r := pixelRate c.raster rate
  if c.further then max (ceilDiv (r * 11) 20) 125000000 else max r 125000000

/-- The in-service engines that have an analyser, rising: the i-th in-service engine is paired with the i-th analyser (R125). -/
def pairedEngines (s : State) : List (Nat × Nat) :=
  ((List.range 18).filter (fun e => (engine s e).st == .inService)).zip s.enc.pool.analysers

/-- The lowest-numbered in-service engine, not of a list, with room for a charge and a number of contexts; a spare never counts (R4,
R51). -/
def engineWithRoom (s : State) (share slots : Nat) (not : List Nat) : Option Nat :=
  ((pairedEngines s).map (fun p => p.1)).find? (fun e =>
    let x := engine s e
    !not.contains e && x.whole.isNone && decide (x.load + share ≤ 1000000000) && decide (x.slots + slots ≤ 8))

/-- Placement of a channel: its tile engines, its group engine, and the share charged (R51); none where an engine is missing. -/
def placeChannel (s : State) (ch : Chan) : Option (List Nat × Option Nat × Nat) :=
  let cs := ch.ctxs.filterMap (fun x => tget s.enc.ctxs x)
  if ch.raster = 0 then
    let cols := (((pairedEngines s).map (fun p => p.1)).filter (fun e =>
      (engine s e).slots == 0 && (engine s e).whole.isNone)).take 4
    let fur := cs.filter (fun c => c.further)
    let group := sumOf (fur.map (ctxCharge ch.rate))
    if cols.length < 4 then none
    else if group = 0 then some (cols, none, 4000000000)
    else match engineWithRoom s group fur.length cols with
      | some g => some (cols, some g, 4000000000 + group)
      | none => none
  else
    let total := sumOf (cs.map (ctxCharge ch.rate))
    match engineWithRoom s total cs.length [] with
    | some g => some ([g], some g, total)
    | none => none

/-- The engines of a channel are charged and its contexts placed (R51). -/
def takeEngines (n : Nat) (cols : List Nat) (group : Option Nat) (charge : Nat) (s : State) : State :=
  match tget s.enc.chans n with
  | none => s
  | some ch =>
    let full := ch.raster == 0
    let s := if full then cols.foldl (fun s e => setEngine s e (fun x =>
      { x with whole := some n, load := 1000000000, slots := 1 })) s else s
    let s := match group with
      | some g => setEngine s g (fun x =>
          { x with load := x.load + (if full then charge - 4000000000 else charge)
                   slots := x.slots + (if full then ch.ctxs.length - 1 else ch.ctxs.length) })
      | none => s
    let s := ch.ctxs.foldl (fun s x => modCtx s x (fun c =>
      { c with engines := if full && !c.further then cols else group.toList })) s
    modChan s n (fun h => { h with engines := cols, groupEe := group, charge := charge })

/-- The analysers of an admitted channel, which runs blind where one of them was retired in this pass through M2 (R125, R126, R138,
R140). -/
def takeAnalysers (n : Nat) (s : State) : State :=
  match tget s.enc.chans n with
  | none => s
  | some ch =>
    let an := fun e => tget (pairedEngines s) e
    let smaller := ch.ctxs.any (fun x => match tget s.enc.ctxs x with
      | some c => c.further && decide (ch.raster < c.raster)
      | none => false)
    let own := ch.engines.filterMap an
    let refine := if smaller then ch.groupEe.bind an else none
    setCp s n (fun c => { c with
      analysers := own, refineAn := refine, blind := (own ++ refine.toList).any s.enc.pool.retiredAn.contains })

/-! ### Sweeps and references (R88 to R97) -/

/-- The sweep values of a context (R88). -/
def sweepValues (rate : Nat) (c : Ctx) : Ctx :=
  let g := max 1 (c.gdrMs * rateN rate / (rateD rate * 1000))
  let w := ceilDiv (sliceCtus c.raster * tileCols c.raster) g
  { c with sweepG := g, sweepW := w, sweepS := ceilDiv (sliceCtus c.raster * tileCols c.raster) w, nextSweep := g }

/-- The newest POC among the slots that pass a test. -/
def newestSlot (l : Tab LtSlot) (p : LtSlot → Bool) : Option Nat :=
  l.foldl (fun a e => if p e.2 then (match a with
    | some v => some (max v e.2.poc)
    | none => some e.2.poc) else a) none

/-- The slot with the oldest POC among those that pass a test. -/
def oldestSlot (l : Tab LtSlot) (p : LtSlot → Bool) : Option Nat :=
  (l.foldl (fun (a : Option (Nat × Nat)) e => if p e.2 then (match a with
    | some v => if e.2.poc < v.2 then some (e.1, e.2.poc) else some v
    | none => some (e.1, e.2.poc)) else a) none).map (fun v => v.1)

/-- The slot an anchor enters (R93). -/
def slotFor (l : Tab LtSlot) : Nat :=
  match (List.range 4).find? (fun i => !thas l i) with
  | some i => i
  | none =>
    match oldestSlot l (fun x => !x.ack) with
    | some i => i
    | none => (oldestSlot l (fun x => some x.poc != newestSlot l (fun y => y.ack))).getD 0

/-- At the frame tick of picture f, the anchor f − 2 enters a slot (R93, R95). -/
def enterAnchor (c : Ctx) : Ctx :=
  if 2 ≤ c.f ∧ (c.f - 2) % c.anchorK = 0 then
    let poc := c.f - 2
    { c with slots := tset c.slots (slotFor c.slots) ⟨poc, c.acksKept.contains poc⟩, acksKept := sdel c.acksKept poc }
  else c

/-- Whether a slot is eligible (R94). -/
def eligible (c : Ctx) (x : LtSlot) : Bool := x.ack || decide (c.pLoss ≤ x.poc)

/-- The current long-term reference (R94). -/
def currentLtr (c : Ctx) : Option Nat := newestSlot c.slots (eligible c)

/-- An acknowledgement applied: to its slot, kept for an anchor coded and not yet in a slot, or ignored. The Boolean says that it
is ignored (R95). -/
def acknowledge (f poc : Nat) (c : Ctx) : Ctx × Bool :=
  if c.slots.any (fun e => e.2.poc == poc) then
    ({ c with slots := tmap c.slots (fun _ x => if x.poc = poc then { x with ack := true } else x) }, false)
  else if poc % c.anchorK = 0 ∧ poc < f ∧ f ≤ poc + 2 then ({ c with acksKept := sadd c.acksKept poc }, false)
  else (c, true)

/-- The position in a sweep of the picture f, given where the latest sweep started (R88). -/
def sweepPosition (c : Ctx) : Option Nat :=
  match c.sweepAt with
  | some a => if a ≤ c.f ∧ c.f - a < c.sweepS then some (c.f - a) else none
  | none => none

/-! ### The shadow set's encode part (R40, R95 to R97, R114, R119) -/

/-- POC of the picture whose frame tick is frame n, in the running sequence. -/
def pocAt (c : Ctx) (n : Nat) : Nat := match c.seqFrame with | some a => n - a | none => 0

/-- A bitrate change takes effect at frame n (R119). -/
def applyBitrate (x kbps n : Nat) (s : State) : State :=
  modCtx s x (fun c =>
    { c with k := clamp c.kmin c.kmax kbps, b := bpsOf (clamp c.kmin c.kmax kbps), rateBase := pocAt c n })

/-- An acknowledgement takes effect at frame n (R95). -/
def applyAcknowledge (x poc n : Nat) (s : State) : State :=
  match tget s.enc.ctxs x with
  | none => s
  | some c =>
    let r := acknowledge (pocAt c n) poc c
    let s := modCtx s x (fun _ => r.1)
    if r.2 then modChan s c.channel (fun h => { h with ackIgnored := bump32 h.ackIgnored }) else s

/-- A loss report takes effect at the coming picture (R96). -/
def applyLoss (x : Nat) (s : State) : State := modCtx s x (fun c => { c with lossDue := true })

/-- g takes effect (R114). -/
def applyCorrection (x g : Nat) (s : State) : State := modCtx s x (fun c => { c with g := clamp 16384 262144 g })

/-! ### Frame tick of a context (R76, R88 to R97, R107, R114, R123) -/

/-- The first f that ends a coded layer video sequence (R92). -/
def pocLimit : Nat := 2130706432

/-- Whether the picture of a frame starts a coded layer video sequence with an IDR picture (R76, R92). -/
def startsIdr (c : Ctx) (n : Nat) : Bool :=
  match c.seqFrame with
  | none => !c.restart
  | some a => !c.restart && decide (pocLimit ≤ n - a)

/-- The sequence, sweep and references of the picture of frame n, with what of the channel's counters it advances: a loss picture,
a loss action with no acknowledged slot (R76, R88 to R97). -/
def stepReferences (n : Nat) (c : Ctx) : Ctx × Pic × Bool × Bool :=
  let idr := startsIdr c n
  let gdr := c.restart
  let ends := (idr || gdr) && (c.seqFrame.isSome || gdr)
  let last := match c.pics with | p :: _ => if idr || gdr then none else p.sweep | [] => none
  let broken := c.sweepBroken
  let lossDue := c.lossDue
  let c := if idr || gdr then startSequence n c else c
  let c := { c with f := pocAt c n, lossDue := false }
  let c := enterAnchor c
  let starts := gdr || (!idr && (c.f == c.nextSweep || broken) && decide (c.f < pocLimit))
  let c := if starts then { c with sweepAt := some c.f, nextSweep := c.f + c.sweepG, sweepBroken := false } else c
  let acked := c.slots.any (fun e => e.2.ack)
  let loss := lossDue && acked
  let c := if loss then { c with pLoss := c.f } else c
  let at_ := sweepPosition c
  let p : Pic :=
    { frame := n, f := c.f, idr := idr, loss := loss, seq := c.seqFrame, starts := idr || gdr, sweepStart := starts
      head := { endOfSequence := ends }
      ltr := if loss then newestSlot c.slots (fun x => x.ack) else currentLtr c
      sweep := at_, prevSweep := last, sweepFrame := at_.map (fun i => n - i) }
  (c, p, loss, lossDue && !acked)

/-- Host SEI waiting for frame n or before is placed while it fits the reserve; what does not fit waits for the next picture and
is late. The result is the messages placed, the messages left, and how many are late (R84, R292). -/
def placeSei (n room : Nat) : List SeiMsg → List SeiMsg × List SeiMsg × Nat
  | [] => ([], [], 0)
  | m :: l =>
    if n < m.frame then
      let (b, rest, late) := placeSei n room l
      (b, m :: rest, late)
    else if 8 * m.size ≤ room then
      let (b, rest, late) := placeSei n (room - 8 * m.size) l
      (m :: b, rest, late)
    else
      let (b, rest, late) := placeSei n room l
      (b, { m with frame := n + 1 } :: rest, late + 1)

/-- Bits of U that a picture's caption SEI uses (R86, R108). -/
def captionSize (u : Nat) (triples : List Nat) : Nat := if triples.isEmpty then 0 else min (Config.captionBits triples.length) u

/-- The quantities of a picture fixed at its frame tick: T_n, T^avg_n, Bsz and g in force, its non-VCL size, which with U is at most X,
captions and host SEI (R41, R86, R87, R107, R108, R114). The number is how many SEI messages and caption triples are late or
dropped. -/
def stepBudget (ch : Chan) (n nonVcl : Nat) (triples : List Nat) (c : Ctx) (p : Pic) : Ctx × Pic × Nat :=
  let all := if c.captions then c.capCarry ++ triples else []
  let u := 128 * c.ud16
  let cap := captionSize u (all.take 31)
  let (msgs, rest, late) := placeSei n (u - cap) c.seiQueue
  ({ c with capCarry := [], seiQueue := rest, fullnessTick := c.fullness },
   { p with
     nonVcl := min nonVcl (c.x - u)
     t := pictureBits ch.rate (rateBps c) (c.f - c.rateBase)
     tAvg := pictureBits ch.rate c.b (c.f - c.rateBase)
     bsz := bufferBits ch c, g := c.g, triples := all.take 31, capBits := cap
     seiBytes := sumOf (msgs.map (fun m => m.size)), seiMsgs := msgs },
   (all.length - 31) + late)

/-- Whether this device codes frame n of a channel: a device in M6 codes from the join frame on (R266). -/
def codesFrame (s : State) (c n : Nat) : Bool :=
  match actingMode s with
  | .resync => thas s.run.joins c && decide (tgetD s.run.joins c 0 ≤ n)
  | _ => true

/-- Whether the contexts of a channel stand for themselves at a frame tick: in M6 they wait for the small state, which brings the picture
of the join frame (R266). -/
def hasState (s : State) (c : Nat) : Bool :=
  match actingMode s with
  | .resync => s.run.joined.contains c
  | _ => true

/-- The caption triples that a channel's ancillary members brought for its frame (R86, R187). -/
def channelCaptions (s : State) (c : Nat) : List Nat := (tgetD s.ing.groups c {}).captions

/-- A context at its channel's frame tick; at the start of a sequence its parameter sets are built (R32, R83, R97). -/
def ctxFrameTick (n : Nat) (env : FrameEnv) (s : State) (x : Nat) : State :=
  match tget s.enc.ctxs x with
  | none => s
  | some c =>
    match tget s.enc.chans c.channel with
    | none => s
    | some ch =>
      if c.stopped || !codesFrame s c.channel n || !hasState s c.channel || c.pics.any (fun p => p.frame == n) then s
      else
        let (c, p, loss, noAck) := stepReferences n c
        let c := if p.starts then storeSets ch c else c
        let (c, p, late) := stepBudget ch n (tgetD env.nonVcl x 0) (channelCaptions s c.channel) c p
        let s := modCtx s x (fun _ => { c with pics := (p :: c.pics).take 3 })
        modChan s c.channel (fun h =>
          { h with
            lossPics := if loss then bump32 h.lossPics else h.lossPics
            lossNoAck := if noAck then bump32 h.lossNoAck else h.lossNoAck
            seiLate := bumpBy 32 h.seiLate late })

/-! ### Row stages (R55, R56, R103, R110, R128, R131, R135 to R138) -/

/-- Whether a channel runs analysis and coding together: L = 3 in sub-frame mode (R56). -/
def lowDelay (ch : Chan) : Bool := ch.delayL == 3 && !ch.frameMode

/-- Row ticks from a row's arrival tick to the opening of its coding (R55, R56). -/
def codingOpens (ch : Chan) : Nat := if lowDelay ch then 1 else 2

/-- The overruns of one stage of a row of a context. -/
def overrunsOf (env : RowEnv) (st : Stage) (x row : Nat) : List Overrun :=
  env.incomplete.filter (fun o => o.stage == st && o.context == x && o.row == row)

/-- The tile columns of a row whose analysis is incomplete: those whose analyser overran, met a poisoned read or was reset (R138, R308, R390). -/
def missedTiles (s : State) (env : RowEnv) (ch x row : Nat) (source : Bool) : List Nat :=
  let k := tgetD s.enc.cps ch {}
  let broken := if source then (List.range k.analysers.length).filter (fun i => k.broken.contains (k.analysers.getD i 18))
    else match k.refineAn with | some a => if k.broken.contains a then [0] else [] | none => []
  (overrunsOf env .analysis x row).map (fun o => o.tile) ++ broken

/-- What broke the row of the analysers of a context is over with the row (R308, R390). -/
def clearBroken (ch : Nat) (source : Bool) (s : State) : State :=
  setCp s ch (fun k => { k with broken :=
    if source then k.broken.filter (fun a => !k.analysers.contains a) else k.broken.filter (fun a => k.refineAn != some a) })

/-- The fields of a row enter the picture: w, and the activities, guides and vectors of its slices; a column whose analyser overran
takes its complexity from the history, and a blind channel the blind value, with zero vectors, no guides and every act 1 (R128, R129,
R131, R138). -/
def takeFields (blind : Bool) (missed : List Nat) (row : Nat) (fields : Nat → SliceFields) (c : Ctx) (p : Pic) : Pic :=
  (tilesOf c.raster).foldl (fun p t =>
    let key := sliceKey row t
    let absent := blind || missed.contains t
    let f := if absent then noFields c row else fields t
    let w := if blind then blindValue c.raster else if absent then historyOf c row t else max 1 (f.cost / 256)
    { p with
      w := tset p.w key w
      acts := tset p.acts key f.acts
      actS := tset p.actS key (sliceActivity f.acts.flatten)
      guides := tset p.guides key f.guides
      vectors := f.vecs.foldl (fun l v => tset l v.1 v.2) p.vectors
      changed := tupd p.changed row 0 (fun n => n + f.changed) }) p

/-- The complexity history as a row closes: at the start of a sequence every entry of a column takes row 0's w, and with the last row
the history is the picture's own (R114, R128, R131). A picture of an earlier sequence leaves it alone. -/
def keepHistory (missed : List Nat) (row : Nat) (c : Ctx) (p : Pic) : Ctx :=
  if c.ratesAt ≠ p.seq then c
  else
    let c := if p.starts ∧ row = 0 then
        (tilesOf c.raster).foldl (fun c t =>
          if missed.contains t then c
          else (List.range (ctuRows c.raster)).foldl (fun c r =>
            { c with wPrev := tset c.wPrev (sliceKey r t) (tgetD p.w (sliceKey row t) 0) }) c) c
      else c
    if row + 1 = ctuRows c.raster then
      { c with wPrev := p.w, wHist := (sumOf (p.w.map (fun e => e.2)) :: c.wHist).take 256 }
    else c

/-- In a cut picture the history entries of the rows below row c hold the mean of rows c − 1 and c (R136). DESIGN CHOICE: where a
rendition's first cut row is its row 0, which has no row above it, its history stands (log entry 143). -/
def cutHistory (row : Nat) (c : Ctx) (p : Pic) : Ctx :=
  if row = 0 ∨ row + 1 = ctuRows c.raster then c
  else (tilesOf c.raster).foldl (fun c t =>
    let v := (tgetD p.w (sliceKey (row - 1) t) 0 + tgetD p.w (sliceKey row t) 0) / 2
    (List.range (ctuRows c.raster)).foldl (fun c r =>
      if row < r then { c with wPrev := tset c.wPrev (sliceKey r t) v } else c) c) c

/-- The vectors of the source picture of a frame, which a rendition's start from (R132). -/
def sourceVectors (s : State) (ch : Chan) (n : Nat) : Tab MotionVec :=
  match ch.ctxs.head? with
  | some x => match picOf s x n with | some p => p.vectors | none => []
  | none => []

/-- The analysis of row `row` of a context closes: its fields are those that the composed pictures give (R127 to R132, R137, R138). A
further context at the channel's raster takes the source's fields, and its analyser does no work for it (R126). DESIGN CHOICE: an
overrun of another analyser of a channel that runs blind is neither reported nor counted, since no field of the row is taken from an
analyser (log entry 144). -/
def analysisCloses (n row : Nat) (env : RowEnv) (x : Nat) (s : State) : State :=
  match tget s.enc.ctxs x, picOf s x n with
  | some c, some p =>
    match tget s.enc.chans c.channel with
    | none => s
    | some ch =>
      let blind := (tgetD s.enc.cps c.channel {}).blind
      let source := ch.ctxs.headD x
      let works := x == source || c.raster != ch.raster
      let by_ := if works then x else source
      let missed := missedTiles s env c.channel by_ row (by_ == source)
      let held := fun (m : Nat) => (((tgetD s.cmps c.channel {}).pics.find? (fun q => q.frame == some m)).getD {})
      let fields := analyse ch.raster c (held n) (held (n - 1)) (sourceVectors s ch n) p.starts row
      let c := enterSequence p c
      let p := takeFields blind missed row fields c p
      let s := modPic s x n (fun _ _ => (keepHistory missed row c p, p))
      if works && !missed.isEmpty && !blind then
        raise 0x035 c.channel (setCp s c.channel (fun k => { k with overruns := bump32 k.overruns }))
      else s
  | _, _ => s

/-- Blocks of a row over all tile columns (R135). -/
def rowBlocks (raster row : Nat) : Nat := ceilDiv (activeW raster) 16 * ceilDiv (min 64 (activeH raster - 64 * row)) 16

/-- Scene-cut detection on the source row that closes, on its changed blocks over all tile columns (R130, R131, R135, R136). -/
def detectCut (ch : Nat) (n row rows : Nat) (first missed : Bool) (changed blocks : Nat) (s : State) : State :=
  setCp s ch (fun c =>
    let c := if row = 0 then { c with picture := n, rowMet := false, cutNow := none, first := first
                                      cutBefore := if c.picture + 1 = n then c.cutNow else none } else c
    let met := !missed && !c.blind && !c.first && decide (0 < c.cutPct) && decide (c.cutPct * blocks ≤ 100 * changed)
    let cut := decide (1 ≤ row) && c.rowMet && met && c.cutNow.isNone
    let c := { c with rowMet := met }
    let c := if cut then { c with cutNow := some row, cutRow := row, cuts := bump32 c.cuts } else c
    if row + 1 = rows then { c with cutLast := c.cutNow.isSome } else c)

/-- The cut row of a frame's source picture, as far as its analysis has come; late rows of a rendition read the frame before
(R135). -/
def cutOf (k : CpChan) (n : Nat) : Option Nat :=
  if k.picture = n then k.cutNow else if k.picture = n + 1 then k.cutBefore else none

/-- Whether row j is the first cut row of a context in the picture of a frame (R135). -/
def firstCutRow (s : State) (ch rs : Nat) (n row : Nat) (c : Ctx) : Bool :=
  match cutOf (tgetD s.enc.cps ch {}) n with
  | none => false
  | some k => decide (k ≤ rhoOf rs c.raster row) && (row == 0 || decide (rhoOf rs c.raster (row - 1) < k))

/-! ### The Pleach ring (R60 to R64, R112) -/

/-- Segments from engine a rising to engine b; segment i joins EE i to EE i + 1 mod 18 (R60, R64). -/
def risingSegments (a b : Nat) : List Nat := (List.range ((b + 18 - a) % 18)).map (fun i => (a + i) % 18)

/-- Segments from engine a falling to engine b (R60). -/
def fallingSegments (a b : Nat) : List Nat := (List.range ((a + 18 - b) % 18)).map (fun i => (a + 17 - i) % 18)

/-- The route of a train: the shorter path around the ring, on equal paths rising; the other direction where that crosses a segment
that the channel's routes avoid (R60, R64). -/
def ringRoute (avoided : List Nat) (a b : Nat) : Bool × List Nat :=
  let up := risingSegments a b
  let down := fallingSegments a b
  let rising := decide (up.length ≤ down.length)
  let rising := if (if rising then up else down).any avoided.contains then !rising else rising
  (rising, if rising then up else down)

/-- Whether a train is a strip, which covers samples (R61). -/
def coversSamples (kind : StripKind) : Bool :=
  match kind with
  | .stripA | .stripB => true
  | .verdict _ | .statistics => false

/-- Chroma rows that a strip covers (R61). -/
def stripChroma (chroma : Nat) : Nat := if chroma = 0 then 32 else 64

/-- Beats of a strip's samples: 16 columns of the luma and the two chroma planes, eight samples to a beat (R61). -/
def sampleBeats (chroma : Nat) : Nat := (16 * 64 + 2 * 16 * stripChroma chroma) / 8

/-- Beats of a train: for strip A its samples and one for each 4×4 block, for strip B its samples, one for a verdict (R61, R81, R112). -/
def trainBeats (kind : StripKind) (chroma : Nat) : Nat :=
  match kind with
  | .stripA => sampleBeats chroma + 64
  | .stripB => sampleBeats chroma
  | .verdict _ => 1
  | .statistics => Config.statisticsBeats chroma

/-- The samples that a train holds (R61). -/
def trainStage (kind : StripKind) : SampleStage :=
  match kind with
  | .stripA => .reconstructed
  | .stripB => .deblockedSao
  | .verdict _ | .statistics => .none

/-- What strip A tells of each 4×4 block (R61, Table 5). -/
def stripSide (kind : StripKind) : List SideField :=
  match kind with
  | .stripA => [.predictionMode, .motionVectors, .referenceIndices, .qp, .codedFlags, .transformEdges, .predictionEdges]
  | .stripB | .verdict _ | .statistics => []

/-- A train from one engine to another, with what it covers and holds: 16 columns of each plane, 64 luma rows and 32 or 64 chroma rows;
`floor` where it is built from the floor reconstruction (R60, R61, R63). -/
def trainFor (avoided : List Nat) (chroma dest : Nat) (floor : Bool) (strip : Strip) : Train :=
  let r := ringRoute avoided strip.sender dest
  let covers := coversSamples strip.kind
  { strip := strip, dest := dest, rising := r.1, segments := r.2, beats := trainBeats strip.kind chroma
    columns := if covers then 16 else 0, lumaRows := if covers then 64 else 0
    chromaRows := if covers then stripChroma chroma else 0
    stage := trainStage strip.kind, side := stripSide strip.kind
    sideBlocks := if (stripSide strip.kind).isEmpty then 0 else 64, floor := floor }

/-- The engine whose path sends for an engine: the spare on floor duty for it, or itself (R63, R66). -/
def pathEngine (s : State) (e : Nat) : Nat :=
  ((List.range 18).find? (fun k => (engine s k).st == .floorDuty && (engine s k).standsFor.contains e)).getD e

/-- The neighbours of a tile column (R60). -/
def neighbours (tiles t : Nat) : List Nat := (if t = 0 then [] else [t - 1]) ++ (if t + 1 < tiles then [t + 1] else [])

/-- Whether two trains carry the same thing: kind, sender, context, tile column and row. -/
def sameTrain (a b : Strip) : Bool :=
  a.sender == b.sender && a.context == b.context && a.tile == b.tile && a.row == b.row &&
    (match a.kind, b.kind with
     | .stripA, .stripA => true
     | .stripB, .stripB => true
     | .verdict _, .verdict _ => true
     | .statistics, .statistics => true
     | _, _ => false)

/-- A train sent to an engine; a later one of its kind takes the place of an earlier (R60, R112). -/
def sendTrain (t : Train) (s : State) : State :=
  { s with enc := { s.enc with pool := { s.enc.pool with
      trains := s.enc.pool.trains.filter (fun u => !(sameTrain u.strip t.strip && u.dest == t.dest)) ++ [t] } } }

/-- What the engine of a tile column of an 8K row sends each neighbour: strips of the given kinds (R60, R61, R112). -/
def sendStrips (x row t : Nat) (floor : Bool) (kinds : List StripKind) (c : Ctx) (s : State) : State :=
  let avoided := tgetD s.enc.pool.ringAvoided c.channel []
  let sender := pathEngine s (c.engines.getD t 18)
  (neighbours c.engines.length t).foldl (fun s u =>
    kinds.foldl (fun s k =>
      sendTrain (trainFor avoided c.chroma (pathEngine s (c.engines.getD u 18)) floor ⟨k, sender, x, t, row⟩) s) s) s

/-- The strips and verdict beats that a tile engine of an 8K row awaits from its neighbours: strip A for deblocking the shared edge,
strip B for SAO, ALF and CC-ALF of its own columns, and the verdict ahead of both (R60 to R62, R112). -/
def stripsFor (s : State) (x row t : Nat) (engines : List Nat) : List Strip :=
  (neighbours engines.length t).flatMap (fun u =>
    let e := pathEngine s (engines.getD u 18)
    [⟨.stripA, e, x, u, row⟩, ⟨.stripB, e, x, u, row⟩, ⟨.verdict 0, e, x, u, row⟩])

/-- Whether an engine awaits a train of a tile column: of one of the given kinds (R63). -/
def awaits (s : State) (e x u row : Nat) (kinds : List StripKind) : Bool :=
  (engine s e).awaiting.any (fun a => kinds.any (fun k => sameTrain a { a with kind := k }) && a.context == x && a.tile == u && a.row == row)

/-- An in-loop filter is applied at the edge that tile column t of a row shares with column u (R62). -/
def filterEdge (x row t u : Nat) (filters : List LoopFilter) (s : State) : State :=
  match tget s.enc.ctxs x with
  | none => s
  | some c =>
    match c.pics.find? (fun p => thas p.caps (sliceKey row t)) with
    | none => s
    | some p =>
      modPic s x p.frame (fun c p =>
        let uses := filters.map (edgeUse c.raster t u)
        (c, { p with edges := tupd p.edges (sliceKey row t) [] (fun l => l ++ uses.filter (fun f => !l.contains f)) }))

/-- A train that arrives at the engine of tile column t from column u: with strip A and the verdict in hand the shared edge is deblocked,
and with every edge of the column deblocked its strips B leave; from strip B the engine applies SAO, and in VVC ALF and CC-ALF, to its own
columns (R61, R62, R112). -/
def useStrip (x row t u : Nat) (kind : StripKind) (c : Ctx) (s : State) : State :=
  let e := pathEngine s (c.engines.getD t 18)
  let waits := fun (v : Nat) => awaits s e x v row [.stripA, .verdict 0]
  match kind with
  | .stripA | .verdict _ =>
    if waits u then s
    else
      let s := filterEdge x row t u [.deblocking] s
      if (neighbours c.engines.length t).any waits then s else sendStrips x row t false [.stripB] c s
  | .stripB => filterEdge x row t u (if c.codec = 0 then [.sao, .alf, .ccAlf] else [.sao]) s
  | .statistics =>
    match c.pics.find? (fun p => p.lumaLines == activeH c.raster) with
    | some p => modPic s x p.frame (fun c p => (c, { p with statsIn := sadd p.statsIn u }))
    | none => s

/-- The engines of a row that opens: a retried engine resumes, and an 8K row sends its strips A and awaits those of its neighbours (R60 to
R63, R390). -/
def enginesOpen (x row : Nat) (c : Ctx) (s : State) : State :=
  (List.range c.engines.length).foldl (fun s t =>
    let e := c.engines.getD t 18
    let s := if c.engines.length = 4 then
        let strips := stripsFor s x row t c.engines
        sendStrips x row t false [.stripA] c (setEngine s e (fun y => { y with awaiting := y.awaiting ++ strips }))
      else s
    { s with flt := { s.flt with retrying := sdel s.flt.retrying (faultKey e 0) } }) s

/-- The neighbours of a slice that is replaced await the strips A built from its floor reconstruction (R63, R112). -/
def awaitFloor (x row t : Nat) (c : Ctx) (s : State) : State :=
  let a : Strip := ⟨.stripA, pathEngine s (c.engines.getD t 18), x, t, row⟩
  (neighbours c.engines.length t).foldl (fun s u =>
    setEngine s (pathEngine s (c.engines.getD u 18)) (fun y =>
      if y.awaiting.any (sameTrain a) then y else { y with awaiting := y.awaiting ++ [a] })) s

/-- The verdict of a slice goes to its neighbours, with its emitted size; after a replacement strips A built from the floor
reconstruction go too (R63, R112). -/
def sendVerdict (x row t bits : Nat) (replaced : Bool) (c : Ctx) (s : State) : State :=
  if c.engines.length = 4 then
    let s := sendStrips x row t false [.verdict bits] c s
    if replaced then awaitFloor x row t c (sendStrips x row t true [.stripA] c s) else s
  else s

/-! ### The order in which an engine and its entropy coder serve their items (R48) -/

/-- A slice that an engine has to code, or its entropy coder: its context, frame and key, when it was opened and the tick by which it is
due. -/
structure CodingItem where
  /-- Context. -/
  context : Nat
  /-- Frame. -/
  frame : Nat
  /-- Slice key. -/
  key : Nat
  /-- Its stage's opening tick. -/
  opening : Nat
  /-- Its deadline tick. -/
  deadline : Nat

/-- The items of an engine that have opened and are not done: slices without a verdict for the engine, slices with one for its entropy
coder (R48, R55). -/
def itemsOn (s : State) (coder : Bool) (e : Nat) : List CodingItem :=
  s.enc.ctxs.flatMap (fun q =>
    let c := q.2
    let ch := chan s c.channel
    if c.stopped || !c.engines.contains e then []
    else c.pics.flatMap (fun p =>
      let open_ := fun (k : Nat) =>
        if coder then thas p.emitted k && !p.rowsDone.contains (k / 4)
        else !thas p.emitted k && !p.floorTiles.contains (k % 4) && !p.floorDue.contains k
      ((tkeys p.caps).filter (fun k => (tilesOn c e).contains (k % 4) && open_ k)).map (fun k =>
        let m := arrivalTick ch.raster c.raster (k / 4) + codingOpens ch + b2n coder
        ⟨q.1, p.frame, k, rowTickAt c.raster ch.rate p.frame m, rowTickAt c.raster ch.rate p.frame (m + 1)⟩)))

/-- Whether an item is served before another: by deadline tick, on equal deadlines by context number (R48). -/
def servedBefore (a b : CodingItem) : Bool :=
  decide (a.deadline < b.deadline) || (a.deadline == b.deadline && decide (a.context < b.context))

/-- The item that an engine serves next (R48). -/
def nextSlice (l : List CodingItem) : Option CodingItem :=
  l.foldl (fun b i => match b with
    | some k => if servedBefore i k then some i else some k
    | none => some i) none

/-- Whether an engine has come to the end of a slice: the slice is the one served next, or the one whose CTU was being coded as the last
row opened, which is not interrupted; an engine whose stage will not complete keeps no order (R48, R308). -/
def inTurn (s : State) (e : Nat) (v : SliceResult) : Bool :=
  let key := sliceKey v.row v.tile
  (engine s e).broken || (engine s e).inCtu == some (v.context, v.frame, key) ||
    (match nextSlice (itemsOn s false e) with
     | some i => i.context == v.context && i.frame == v.frame && i.key == key
     | none => true)

/-- As a row opens, the CTU in coding on each engine of a context goes on to its end (R48). -/
def keepCtu (c : Ctx) (s : State) : State :=
  c.engines.foldl (fun s e =>
    let running := (itemsOn s false e).filter (fun i => decide (i.opening + s.mtb.inc ≤ s.mtb.t))
    setEngine s e (fun y => { y with inCtu := (nextSlice running).map (fun i => (i.context, i.frame, i.key)) })) s

/-- The tile columns of a context whose slices the entropy coder has not reached: behind one of a lower context number that is incomplete at
the same tick, on the same engine (R48). -/
def behindCoder (s : State) (env : RowEnv) (x : Nat) (c : Ctx) : List Nat :=
  (tilesOf c.raster).filter (fun t => env.incomplete.any (fun o =>
    o.stage == .entropy && decide (o.context < x) &&
      (tgetD s.enc.ctxs o.context {}).engines.getD o.tile 18 == c.engines.getD t 18))

/-! ### Opening and closing rows -/

/-- An excess picture carries its captions with the next picture and each of its host SEI messages late (R100, R118). -/
def deferUserData (n : Nat) (c : Ctx) (p : Pic) : Ctx × Pic × Nat :=
  if p.excess then
    ({ c with capCarry := c.capCarry ++ p.triples
              seiQueue := p.seiMsgs.map (fun m => { m with frame := n + 1 }) ++ c.seiQueue },
     { p with triples := [], capBits := 0, seiBytes := 0, seiMsgs := [] },
     b2n (!p.triples.isEmpty) + p.seiMsgs.length)
  else (c, p, 0)

/-- A sweep broken by a floor slice of the picture before starts anew with this one, where its frame tick came before that slice
(R90). -/
def restartSweep (c : Ctx) (p : Pic) : Ctx × Pic :=
  if c.sweepBroken && !p.starts && c.seqFrame == p.seq then
    ({ c with sweepAt := some p.f, nextSweep := p.f + c.sweepG, sweepBroken := false },
     { p with sweep := some 0, sweepFrame := some p.frame, sweepStart := true })
  else (c, p)

/-- Row 0 opens a picture: its sweep, its budget, its user data and what it signals (R90, R108, R109, R118). -/
def startPicture (ch : Chan) (n : Nat) (c : Ctx) (p : Pic) : Ctx × Pic × Nat :=
  let (c, p) := restartSweep (enterSequence p c) p
  let (c, p) := openPicture c p
  let (c, p, late) := deferUserData n c p
  (c, { p with head := headOf ch c p }, late)

/-- The picture whose fields a row's coding uses: its own or, at L = 3, the one before (R56, R117). -/
def fieldsOf (l3 : Bool) (c : Ctx) (p : Pic) : Pic :=
  if l3 then (c.pics.find? (fun q => q.frame + 1 == p.frame && q.seq == p.seq)).getD { p with acts := [], actS := [], guides := [] }
  else p

/-- The guides in force in a CTU of a row (R129, R136). -/
def ctuGuides (k : CpChan) (p : Pic) (row : Nat) (guides : List MotionVec) : List MotionVec :=
  if !k.guides || p.loss || p.starts || p.cutAt.any (fun c => decide (c ≤ row)) then [] else guides

/-- Where the engines search in the slices of a row that opens, the ALF filters they may use, and the activities in force for its QPs
(R56, R65, R81, R111, R129). -/
def planRow (k : CpChan) (l3 : Bool) (row : Nat) (c : Ctx) (p : Pic) : Pic :=
  let q := fieldsOf l3 c p
  (tilesOf c.raster).foldl (fun p t =>
    let key := sliceKey row t
    let guides := tgetD q.guides key []
    { p with
      acts := match tget q.acts key with | some a => tset p.acts key a | none => p.acts
      actS := match tget q.actS key with | some a => tset p.actS key a | none => p.actS
      alfUse := tset p.alfUse key (sliceAlf p key)
      plans := tset p.plans key ((List.range (sliceCtus c.raster)).map (fun i =>
        searchPlan c p (t * sliceCtus c.raster + i) (ctuGuides k p row (guides.getD i [])))) }) p

/-- Row `row` of a context opens its coding interval: row 0 opens the picture, and every row gets its budget and its search (R65, R103,
R108 to R111, R118). -/
def codingOpensRow (n row : Nat) (x : Nat) (s : State) : State :=
  match tget s.enc.ctxs x, picOf s x n with
  | some c, some p =>
    match tget s.enc.chans c.channel with
    | none => s
    | some ch =>
      let (c, p, late) := if row = 0 then startPicture ch n c p else (c, p, 0)
      let excess := row == 0 && (p.excess || p.floorBound)
      let p := planRow (tgetD s.enc.cps c.channel {}) (lowDelay ch) row c p
      let p := openRow (lowDelay ch) row c p
      let s := modPic (keepCtu c s) x n (fun _ _ => (c, p))
      let s := modChan s c.channel (fun h =>
        { h with rcExcess := if excess then bump32 h.rcExcess else h.rcExcess, seiLate := bumpBy 32 h.seiLate late })
      enginesOpen x row c s
  | _, _ => s

/-- A sweep is counted when its last picture is complete and unbroken (R88, R100). -/
def countSweep (x n : Nat) (before : Pic) (s : State) : State :=
  match tget s.enc.ctxs x, picOf s x n with
  | some c, some p =>
    if p.closed && !before.closed && (p.sweepFrame != c.brokenSweep) && (p.sweep == some (c.sweepS - 1)) then
      modChan s c.channel (fun h => { h with sweeps := satAdd 32 h.sweeps 1 })
    else s
  | _, _ => s

/-- Whether a row belongs to the picture before the join frame that the source has named for its channel, in a context on the lattice of
1280×720 whose small state it has sent (R266). -/
def lateRow (s : State) (c : Ctx) (n : Nat) : Bool :=
  c.further && c.raster == 3 && s.run.srcSmall.contains c.channel && tget s.run.srcJoins c.channel == some (n + 1)

/-- A row whose slices all have sizes enters F, and the last one ends the picture (R108); the size of a row of the picture before a join
frame goes to the partner (R266). -/
def settleRow (x n row : Nat) (s : State) : State :=
  match tget s.enc.ctxs x, picOf s x n with
  | some c, some before =>
    let s := modPic s x n (fun c p =>
      let (c, p) := rowIntoFullness row c p
      endPicture c p)
    let after := (picOf s x n).getD before
    let s := if lateRow s c n && after.rowsIn.contains row && !before.rowsIn.contains row then
        sendVa 5 (.va (.verdict x row (sumOf ((tilesOf c.raster).map (fun t => tgetD after.emitted (sliceKey row t) 0))))) s
      else s
    countSweep x n before s
  | _, _ => s

/-- The size of a late row of the picture before the join frame enters F on the device that joins, with the row's drain (R108, R266). -/
def takeVerdict (x row bits : Nat) (s : State) : State :=
  if s.mode.mode = .resync then
    modCtx s x (fun c =>
      if c.further && c.raster == 3 then
        let n := c.f - 1 - c.rateBase
        let t := pictureBits (chan s c.channel).rate (rateBps c) n
        { c with fullness := c.fullness + bits - ((row + 1) * t / ctuRows c.raster - row * t / ctuRows c.raster : Nat) }
      else c)
  else s

/-- A slice without a size takes its floor slice, whose verdict and strips go to its neighbours (R37, R63, R66, R112). -/
def takeFloor (x n key : Nat) (s : State) : State :=
  match tget s.enc.ctxs x, picOf s x n with
  | some c, some p =>
    let bits := tgetD p.floorSize key (floorSizeOf c p key)
    let s := if thas p.emitted key then replaceSlice x n key s
      else countFloor x key p (modPic s x n (fun c p => (c, giveFloor c.raster key bits p)))
    let s := sendVerdict x (key / 4) (key % 4) bits true c s
    if c.engines.length = 4 then sendStrips x (key / 4) (key % 4) true [.stripB] c s else s
  | _, _ => s

/-- The slice of tile t at the closing tick of its coding interval: on floor duty or after a retry it is a floor slice, and a
slice whose stage is incomplete, that met a poisoned read, or that still awaits a strip, is abandoned as an overrun (R37, R63, R66, R112, R308, R390). -/
def closeSlice (n row x : Nat) (missed : List Overrun) (s : State) (t : Nat) : State :=
  match tget s.enc.ctxs x, picOf s x n with
  | some c, some p =>
    let key := sliceKey row t
    let e := c.engines.getD t 18
    let stalled := (engine s e).awaiting.any (fun a => a.context == x && a.row == row)
    if p.floorTiles.contains t || p.floorDue.contains key then
      if p.floors.contains key then s else takeFloor x n key s
    else if stalled || (engine s e).broken || missed.any (fun o => o.tile == t) || !thas p.emitted key then
      raise 0x024 x (modChan (takeFloor x n key s) c.channel (fun h => { h with overruns := bump32 h.overruns }))
    else s
  | _, _ => s

/-- Whether a row enters the ALF statistics: every row of a VVC context but the last of a further context on the lattice of 1280×720
(R81). -/
def inStatistics (c : Ctx) (row : Nat) : Bool :=
  c.codec == 0 && !(c.raster == 3 && c.further && row + 1 == ctuRows c.raster)

/-- The in-loop filters after the coding of a row: all but its bottom lines are done, the ALF flags of its CTUs are decided, and its
samples enter the ALF statistics of each tile column (R58, R81). -/
def filterRow (x n row : Nat) (s : State) : State :=
  modPic s x n (fun c p =>
    (c, { p with
      lumaLines := (filteredLines c.raster c.chroma row).1, chromaLines := (filteredLines c.raster c.chroma row).2
      alfFlags := (tilesOf c.raster).foldl (fun l t => tset l (sliceKey row t) (ctuAlfFlags x c p (sliceKey row t))) p.alfFlags
      alfStats := if inStatistics c row then
          (tilesOf c.raster).foldl (fun l t => tupd l t 0 (fun k => k + 1)) p.alfStats else p.alfStats }))

/-- After the last row of an 8K picture the engines of tile columns 1 to 3 send their ALF statistics to that of column 0 (R81). -/
def sendStatistics (x row : Nat) (c : Ctx) (s : State) : State :=
  if c.codec = 0 ∧ c.engines.length = 4 ∧ row + 1 = ctuRows c.raster then
    [1, 2, 3].foldl (fun s t =>
      sendTrain (trainFor (tgetD s.enc.pool.ringAvoided c.channel []) c.chroma (pathEngine s (c.engines.getD 0 18)) false
        ⟨.statistics, pathEngine s (c.engines.getD t 18), x, t, row⟩) s) s
  else s

/-- The trains of a row that is over are no longer on the ring. -/
def clearTrains (x row : Nat) (s : State) : State :=
  { s with enc := { s.enc with pool := { s.enc.pool with
      trains := s.enc.pool.trains.filter (fun t => !(t.strip.context == x && t.strip.row == row)) } } }

/-- The coding interval of a row closes (R37, R58, R63, R108). -/
def codingCloses (n row : Nat) (env : RowEnv) (x : Nat) (s : State) : State :=
  match tget s.enc.ctxs x, picOf s x n with
  | some c, some _ =>
    let s := (tilesOf c.raster).foldl (closeSlice n row x (overrunsOf env .coding x row)) s
    let s := c.engines.foldl (fun s e => setEngine s e (fun y =>
      { y with awaiting := y.awaiting.filter (fun a => !(a.context == x && a.row == row)), broken := false })) s
    settleRow x n row (sendStatistics x row c (filterRow x n row (clearTrains x row s)))
  | _, _ => s

/-- The entropy-coding interval of a row closes: an incomplete slice, and one that its coder has not reached behind it, is replaced as an
overrun (R37, R48). -/
def entropyCloses (n row : Nat) (env : RowEnv) (x : Nat) (s : State) : State :=
  match tget s.enc.ctxs x with
  | none => s
  | some c =>
    let missed := ((overrunsOf env .entropy x row).map (fun o => o.tile) ++ behindCoder s env x c).dedup
    let s := missed.foldl (fun s t =>
      match picOf s x n with
      | none => s
      | some p =>
        if p.floors.contains (sliceKey row t) then s
        else
          raise 0x024 x (modChan (takeFloor x n (sliceKey row t) s) c.channel (fun h => { h with overruns := bump32 h.overruns }))) s
    modPic s x n (fun c p => (c, { p with rowsDone := sadd p.rowsDone row }))

/-! ### Commands of the data plane -/

/-- Whether a train to an engine is on a route that a fenced segment cuts, so that it cannot be delivered (R64). -/
def routeCut (s : State) (e : Nat) (strip : Strip) : Bool :=
  s.enc.pool.trains.any (fun t => t.dest == e && sameTrain t.strip strip && t.segments.any s.enc.pool.ringFenced.contains)

/-- PLEACH_STRIP_ARRIVAL (R62 to R64, R81): a strip, a verdict beat or ALF statistics arrive and are used, and an engine that awaits
nothing more resumes. A train whose route crosses a fenced segment does not arrive. -/
def execPleachStripArrival (e : Nat) (strip : Strip) (s : State) : Outcome :=
  if routeCut s e strip then .next s
  else
    let s := setEngine s e (fun x => { x with awaiting := x.awaiting.filter (fun a => !sameTrain a strip) })
    let s := { s with enc := { s.enc with pool := { s.enc.pool with
      trains := s.enc.pool.trains.filter (fun t => !(t.dest == e && sameTrain t.strip strip)) } } }
    match tget s.enc.ctxs strip.context with
    | some c =>
      .next ((List.range c.engines.length).foldl (fun s t =>
        if pathEngine s (c.engines.getD t 18) = e then useStrip strip.context strip.row t strip.tile strip.kind c s else s) s)
    | none => .next s

/-- The exact coded size of a slice: the length counter after its last CTU (R111). -/
def codedSize (v : SliceResult) : Nat := v.lengths.getLastD 0

/-- The verdict of a slice whose budget is open: above its cap it is replaced by its floor slice and counted as a trip,
otherwise it is emitted as coded (R111, R112). -/
def verdictOf (v : SliceResult) (l3 : Bool) (c : Ctx) (p : Pic) : Ctx × Pic × Bool :=
  let key := sliceKey v.row v.tile
  if tgetD p.caps key 0 < codedSize v then
    ({ c with trips := satAdd 32 c.trips 1 }, giveFloor c.raster key (tgetD p.floorSize key (floorSizeOf c p key)) p, true)
  else
    (c, giveCoded key (codedSize v) (meanQp c p key v.lengths) (max 1 (budgetW l3 c p v.row v.tile)) p, false)

/-- SLICE_VERDICT (R48, R112): taken for a slice in its coding interval, on an engine that still codes it and has come to its end in the
order of R48; its verdict beat goes to the neighbours. -/
def execSliceVerdict (v : SliceResult) (s : State) : Outcome :=
  match tget s.enc.ctxs v.context, picOf s v.context v.frame with
  | some c, some p =>
    let key := sliceKey v.row v.tile
    match tget s.enc.chans c.channel with
    | none => .next s
    | some ch =>
      if c.stopped || !ticking s || !thas p.caps key || thas p.emitted key || p.floorTiles.contains v.tile ||
          p.floorDue.contains key || decide (4 ≤ v.tile) || !inTurn s (c.engines.getD v.tile 18) v then .next s
      else
        let (c', p', trip) := verdictOf v (lowDelay ch) c p
        let s := modPic s v.context v.frame (fun _ _ => (c', p'))
        let s := setEngine s (c.engines.getD v.tile 18) (fun y => { y with inCtu := none })
        let s := if trip then
            countFloor v.context key p' (modChan s c.channel (fun h => { h with rcTrips := bump32 h.rcTrips }))
          else s
        let s := sendVerdict v.context v.row v.tile (tgetD p'.emitted key 0) trip c s
        done (settleRow v.context v.frame v.row s)
  | _, _ => .next s

/-- ALF_DERIVATION (R81): with the last counted row of a VVC picture coded, and at 8K the statistics of columns 1 to 3 with the engine of
column 0, the ALF APS of the next picture is written. -/
def execAlfDerivation (x frame : Nat) (s : State) : Outcome :=
  match tget s.enc.ctxs x, picOf s x frame with
  | some c, some p =>
    let last := ctuRows c.raster - (if c.raster = 3 ∧ c.further then 2 else 1)
    if c.codec = 0 ∧ c.stopped = false ∧ p.rowsIn.contains last ∧ (c.engines.length = 4 → [1, 2, 3].all p.statsIn.contains) then
      .next (modCtx s x (fun c => { c with alf := some (derivedAlf x frame (p.f + 1)) }))
    else .next s
  | _, _ => .next s

/-- The machine at a channel's next frame tick, or now while it has none to come. -/
def atNextFrame (c : Nat) (s : State) : State :=
  let rate := (chan s c).rate
  if chanRunning s c && ticking s then noEarlier (frameTickAt rate (frameNow rate s.mtb.t + 1)) s else s

/-- RING_SEGMENT_REROUTE (R64): a ring segment is fenced, and at the channel's next frame tick its routes through it take the other
direction. -/
def execRingSegmentReroute (c seg : Nat) (s : State) : Outcome :=
  if seg < 18 ∧ c < 64 then
    let s := atNextFrame c { s with enc := { s.enc with pool := { s.enc.pool with
      ringFenced := sadd s.enc.pool.ringFenced seg } } }
    .next { s with enc := { s.enc with pool := { s.enc.pool with
      ringAvoided := tupd s.enc.pool.ringAvoided c [] (fun l => sadd l seg) } } }
  else .next s

/-- SPARE_TAKEOVER (R66): at the channel's frame tick the assigned spare takes over the engine's work. -/
def execSpareTakeover (e c frame : Nat) (s : State) : Outcome :=
  .next (takeOver e c frame (if ticking s && chanRunning s c then noEarlier (frameTickAt (chan s c).rate frame) s else s))

/-- G_RECOMPUTE (R114): the deciding device computes g of a capped-VBR context at f mod 32 = 0 and commits it for 8 frames
later; a late item leaves g unchanged (R38). -/
def execGRecompute (x frame : Nat) (s : State) : Outcome :=
  match tget s.enc.ctxs x with
  | none => .next s
  | some c =>
    let f := pocAt c frame
    let late := decide (guardAt (chan s c.channel).raster (chan s c.channel).rate (frame + 8) ≤ s.mtb.t)
    if decides s ∧ ticking s ∧ c.rcMode = 1 ∧ c.stopped = false ∧ c.seqFrame.isSome ∧ f % 32 = 0 ∧ late = false then
      match correctionOf f c with
      | some g => .next (commitBoth c.channel (frame + 8) false (.correction x g) none s)
      | none => .next s
    else .next s

/-- Row-tick index, on the context's lattice, at which a row's first packet leaves in sub-frame mode (R43, R59). -/
def emissionIndex (ch : Chan) (c : Ctx) (row : Nat) : Nat := arrivalTick ch.raster c.raster row + ch.delayL

/-- The emission time of a row (R43, R45). -/
def emissionTime (ch : Chan) (c : Ctx) (frame row : Nat) : Nat :=
  (if ch.frameMode then frameTickAt ch.rate (frame + 1 + ch.delayF)
   else rowTickAt c.raster ch.rate frame (emissionIndex ch c row)) + 12 * usUnit

/-- SLICE_EMISSION (R43): the emission time of a row is reached, and its slices' first packets are released toward the port. -/
def execSliceEmission (x frame row : Nat) (s : State) : Outcome :=
  match tget s.enc.ctxs x with
  | none => .next s
  | some c =>
    match tget s.enc.chans c.channel with
    | none => .next s
    | some ch =>
      let coded := match picOf s x frame with | some p => p.rowsDone.contains row | none => true
      if c.stopped || !coded || !chanRunning s c.channel then .next s
      else
        match atTime (emissionTime ch c frame row) s with
        | none => .next s
        | some s => .next (modCtx s x (fun c => { c with released := c.released + tileCols c.raster }))

/-! ### Registers of the channel status block and the pool (R70, R71, R100, R122, R140) -/

/-- Four engine or analyser numbers, one per byte, 0x1F for none. -/
def columnWord (l : List Nat) : Nat :=
  packWord ((List.range 4).map (fun i => (l.getD i 31, 8 * i)))

/-- Context slots i to i + 3, one byte each (R70). -/
def ctxMapWord (l : List Nat) (i : Nat) : Nat :=
  packWord ((List.range 4).map (fun k => (match l[i + k]? with | some x => 128 + x | none => 0, 8 * k)))

/-- The encode words of a channel status block, by offset (R70). -/
def encodeWord (h : Chan) (off : Nat) : Nat :=
  match off with
  | 0x00 => packWord [(h.st, 0), (h.refused, 2), (b2n (h.taken && h.frameMode), 5), (b2n h.floorDuty, 6), (b2n h.ctxLost, 7),
      (if h.taken then (if h.frameMode then h.delayF else h.delayL) else 0, 8), (h.ctxs.length, 16), (h.raster, 20), (h.rate, 24)]
  | 0x04 => columnWord h.engines
  | 0x08 => packWord [(h.groupEe.getD 31, 0), (ceilDiv h.charge 1000000, 8)]
  | 0x0C => ctxMapWord h.ctxs 0
  | 0x10 => ctxMapWord h.ctxs 4
  | 0x14 => loWord h.frames
  | 0x18 => hiWord h.frames
  | 0x1C => h.floorSlices
  | 0x20 => h.overruns
  | 0x24 => h.takeovers
  | 0x28 => h.takeoverFrame
  | 0x2C => h.droppedCtx
  | _ => 0

/-- The source-resolution context of a channel. -/
def sourceCtx (s : State) (h : Chan) : Option Ctx := match h.ctxs with | x :: _ => tget s.enc.ctxs x | [] => none

/-- The coding and rate words of a channel status block, by offset (R100, R122). -/
def codingWord (s : State) (h : Chan) (off : Nat) : Nat :=
  let c := (sourceCtx s h).getD {}
  match off with
  | 0x30 => packWord [(c.level, 0), (c.codec, 8), (h.colour, 9)]
  | 0x34 => h.sweeps
  | 0x38 => h.gdrRestarts
  | 0x3C => h.lossPics
  | 0x40 => h.lossNoAck
  | 0x44 => h.ackIgnored
  | 0x48 => h.seiLate
  | 0x4C => c.b
  | 0x50 => c.bMax
  | 0x54 => ofSigned 32 c.fullnessTick
  | 0x58 => h.rcTrips
  | 0x5C => h.rcExcess
  | 0x60 => packWord [(b2n (h.ctxs.any (fun x => (tgetD s.enc.ctxs x {}).raised)), 0),
      (b2n (h.shadow.any (fun k => match k.change with | .bitrate x _ => h.ctxs.head? == some x | _ => false)), 1), (c.rcMode, 2), (c.lastQp, 8)]
  | _ => 0

/-- The Coppice words of a channel status block, by offset (R140). -/
def coppiceWord (k : CpChan) (off : Nat) : Nat :=
  match off with
  | 0x64 => columnWord k.analysers
  | 0x68 => packWord [(k.refineAn.getD 31, 0), (b2n k.blind, 5), (b2n k.cutLast, 6), (k.cutRow, 7)]
  | 0x6C => k.cuts
  | 0x70 => k.overruns
  | _ => 0

/-- The code of an engine state (R71). -/
def engineCode (x : EngState) : Nat :=
  match x with
  | .inService => 0
  | .spare => 1
  | .retired => 2
  | .floorDuty => 3

/-- The engine pool registers, by offset (R71). -/
def poolWord (s : State) (off : Nat) : Nat :=
  match off with
  | 0x1C0 => packWord ((List.range 16).map (fun e => (engineCode (engine s e).st, 2 * e)))
  | 0x1C4 => packWord [(engineCode (engine s 16).st, 0), (engineCode (engine s 17).st, 2), (s.enc.pool.sparesLeft, 4)]
  | 0x1C8 => s.enc.pool.orphan
  | _ => 0

/-! ### Commands of the host (R72, R101, R123, R124) -/

/-- The modes of R72: M3 to M9. -/
def infoLegal (m : Mode) : Bool :=
  match m with
  | .solo | .active | .standby | .resync | .quiescent | .update | .safeHold => true
  | _ => false

/-- Words as little-endian bytes. -/
def wordBytes (l : List Nat) : Bytes := l.flatMap (fun w => le 4 w)

/-- ENC_CHANNEL_INFO, opcode 0x0810 (R72). -/
def cmdEncChannelInfo (r : Req) (s : State) : State :=
  takeRequest 0x0810 false infoLegal r (fun p s =>
    let c := f8 (payloadOf r) 0 0 63
    if !ownsChannel s p c.val then reply p r 0x0810 .notInPartition false [] s
    else
      let h := tgetD s.enc.chans c.val {}
      let words := (List.range 12).map (fun i => encodeWord h (4 * i))
      let ctxs := h.ctxs.flatMap (fun x =>
        let k := tgetD s.enc.ctxs x {}
        le 1 x ++ le 1 k.codec ++ le 1 k.raster ++ le 1 k.chroma)
      reply p r 0x0810 .ok (c.clamped || lenClamped r) (wordBytes words ++ ctxs) s) s

/-- ENC_CHANNEL_INFO (R72). -/
def execEncChannelInfo (r : Req) (s : State) : Outcome := done (cmdEncChannelInfo r s)

/-- ENC_POOL_INFO, opcode 0x0811 (R72). -/
def cmdEncPoolInfo (r : Req) (s : State) : State :=
  takeRequest 0x0811 true infoLegal r (fun p s =>
    reply p r 0x0811 .ok (lenClamped r) (wordBytes [poolWord s 0x1C0, poolWord s 0x1C4, poolWord s 0x1C8]) s) s

/-- ENC_POOL_INFO (R72). -/
def execEncPoolInfo (r : Req) (s : State) : Outcome := done (cmdEncPoolInfo r s)

/-- The flags of a long-term slot (Table 12 of the coding chapter). -/
def slotFlags (c : Ctx) (i : Nat) : Nat :=
  match tget c.slots i with
  | none => 0
  | some x => 1 + 2 * b2n x.ack + 4 * b2n (eligible c x) + 8 * b2n (currentLtr c == some x.poc)

/-- ENC_REF_NEXT_SWEEP: frames until the next sweep starts. After M7 or M9 it starts at the next frame tick; a broken sweep starts anew
with the next picture that opens; at the POC limit no sweep starts, and the schedule begins again with the IDR picture there (R90 to R92,
R101). -/
def nextSweepIn (c : Ctx) : Nat :=
  let due := if c.sweepBroken then c.f + b2n (c.pics.head?.elim true (fun p => p.opened)) else c.nextSweep
  if c.restart then 1 else if pocLimit ≤ due then pocLimit - c.f + c.sweepG else due - c.f

/-- The reply of ENC_REF_INFO (R101). -/
def refInfo (c : Ctx) : Bytes :=
  le 4 c.f ++ le 4 c.pLoss ++
  (List.range 4).flatMap (fun i => le 4 (match tget c.slots i with | some x => x.poc | none => 0xFFFFFFFF)) ++
  (List.range 4).flatMap (fun i => le 1 (slotFlags c i)) ++
  le 2 ((sweepPosition c).getD 0xFFFF) ++ le 2 (nextSweepIn c) ++ le 2 c.sweepG ++ le 1 c.sweepW ++ [0] ++ le 2 c.sweepS ++
  [0, 0]

/-- ENC_REF_INFO, opcode 0x0812 (R101). -/
def cmdEncRefInfo (r : Req) (s : State) : State :=
  takeRequest 0x0812 false infoLegal r (fun p s =>
    let x := f8 (payloadOf r) 0 0 127
    if !ownsCtx s p x.val then reply p r 0x0812 .notInPartition false [] s
    else
      reply p r 0x0812 .ok (x.clamped || lenClamped r) (refInfo (tgetD s.enc.ctxs x.val {})) s) s

/-- ENC_REF_INFO (R101). -/
def execEncRefInfo (r : Req) (s : State) : Outcome := done (cmdEncRefInfo r s)

/-- The reply of ENC_RC_INFO for a context taken (R123). -/
def rcInfo (s : State) (c : Ctx) : Bytes :=
  let bsz := match tget s.enc.chans c.channel with | some ch => bufferBits ch c | none => 0
  le 4 c.b ++ le 4 c.bMax ++ le 4 c.kbpsCfg ++ le 4 (ofSigned 32 c.fullnessTick) ++ le 4 bsz ++ le 4 c.x ++ le 4 c.lastP ++
  le 2 (ofSigned 16 c.beta) ++ le 1 c.rcMode ++ le 1 c.lastQp ++ le 4 c.g ++ le 4 c.trips

/-- ENC_RC_INFO, opcode 0x0814 (R123). -/
def cmdEncRcInfo (r : Req) (s : State) : State :=
  takeRequest 0x0814 false infoLegal r (fun p s =>
    let x := f8 (payloadOf r) 0 0 127
    if !ownsCtx s p x.val then reply p r 0x0814 .notInPartition false [] s
    else
      let data := match tget s.enc.ctxs x.val with | some c => rcInfo s c | none => zeros 40
      reply p r 0x0814 .ok (x.clamped || lenClamped r) data s) s

/-- ENC_RC_INFO (R123). -/
def execEncRcInfo (r : Req) (s : State) : Outcome := done (cmdEncRcInfo r s)

/-- ENC_SET_BITRATE, opcode 0x0813: the change enters the shadow set for its target frame (R119, R124, R264). A context
that does not run is not ready (log entry 16). -/
def cmdEncSetBitrate (r : Req) (s : State) : State :=
  takeRequest 0x0813 false changeLegal r (fun p s =>
    let b := payloadOf r
    let x := f8 b 0 0 127
    if !ownsCtx s p x.val then reply p r 0x0813 .notInPartition false [] s
    else
      match tget s.enc.ctxs x.val with
      | none => reply p r 0x0813 .notReady false [] s
      | some c =>
        if c.stopped || !chanRunning s c.channel then reply p r 0x0813 .notReady false [] s
        else
          let k := clamp c.kmin c.kmax (u32 b 4)
          changeFor p r 0x0813 c.channel 0 (x.clamped || k != u32 b 4 || lenClamped r) (le 4 (bpsOf k)) (.bitrate x.val (u32 b 4)) s) s

/-- ENC_SET_BITRATE (R124). -/
def execEncSetBitrate (r : Req) (s : State) : Outcome := done (cmdEncSetBitrate r s)

end Sys2Proof.Machine
end

