-- ==== Sys2Proof/Machine/Decode.lean ====
section
/-! DEFINITION. Decode engines: records, admission, arriving streams and their damage, confidence outputs, and the command that reads
a context (chapter 7). -/

namespace Sys2Proof.Machine

/-- The state with a decode context changed, where it has one. -/
def modDec (s : State) (d : Nat) (f : DecCtx → DecCtx) : State :=
  { s with dec := { s.dec with ctxs := tmod s.dec.ctxs d f } }

/-- The decode context record, type 0x0820; a repeated number fails as a whole at admission (R144). -/
def recDecodeContext (b : Bytes) (s : State) : State :=
  sized 16 b (fun s =>
    let d := clamp 0 31 (u8 b 0)
    let c := match tget s.dec.ctxs d with
      | some c => { c with dup := true }
      | none =>
        let use := clamp 0 1 (u8 b 1)
        { use := use, codec := clamp 0 1 (u8 b 2), raster := clamp 0 3 (u8 b 3), rate := clamp 0 10 (u8 b 4)
          carriage := clamp 0 1 (u8 b 5), sdiOut := if use = 0 ∧ u8 b 6 < 4 then u8 b 6 else 255
          delay := orDefault (u8 b 7) (if use = 0 then 3 else 2) 1 8
          source := clamp 0 (if use = 0 then 127 else 1023) (u16 b 8), tsPid := clamp 0x10 0x1FFE (u16 b 10) }
    applied { s with dec := { s.dec with ctxs := tset s.dec.ctxs d c } }) s

/-- DECODE_CONTEXT_RECORD (R143, R144). -/
def execDecodeContextRecord (b : Bytes) (s : State) : Outcome := recordCommand 0x0820 b recDecodeContext s

/-! ### Admission (R142, R143, R147, R148) -/

/-- Gang size for a decode rate (R142). -/
def gangSize (rate : Nat) : Nat := if rate ≤ 1000000000 then 1 else if rate ≤ 2000000000 then 2 else 4

/-- A decode engine. -/
def decEngine (s : State) (e : Nat) : DecEngine := tgetD s.dec.engines e {}

/-- The engines a decode context takes; none where no set is free (R143). -/
def placeDecode (s : State) (rate : Nat) : Option (List Nat) :=
  let g := gangSize rate
  let free := fun e => let x := decEngine s e; !x.failed && !x.whole && x.slots == 0
  if g = 1 then
    ((List.range 4).find? (fun e =>
      let x := decEngine s e
      !x.failed && !x.whole && decide (x.load + max rate 125000000 ≤ 1000000000) && decide (x.slots < 8))).map (fun e => [e])
  else
    (((List.range 4).filter (fun e => e % g == 0)).map (fun e => (List.range g).map (fun i => e + i))).find?
      (fun l => l.all free)

/-- d_min of a confidence context (R148). -/
def confidenceDelay (ch : Chan) (c : Ctx) : Nat :=
  if ch.frameMode then ch.delayF + 2
  else ceilDiv ((ctuRows c.raster + 1 + ch.delayL) * 64) (totalLines c.raster) + 1

/-- A decode context's forced and raised values: a confidence context takes its encode context's codec, raster and rate, and at
least d_min (R144, R147, R148). None where its encode context was not taken. -/
def settleDecode (s : State) (c : DecCtx) : Option DecCtx :=
  if c.use = 1 then some c
  else
    match tget s.enc.ctxs c.source with
    | none => none
    | some x =>
      match tget s.enc.chans x.channel with
      | none => none
      | some ch => some { c with
          codec := x.codec, raster := x.raster, rate := ch.rate, delay := max c.delay (confidenceDelay ch x)
          sdiOut := if x.raster = 0 then 0 else c.sdiOut }

/-- The SDI outputs that a confidence context claims (R147). -/
def claimedOutputs (c : DecCtx) : List Nat :=
  if c.use ≠ 0 ∨ c.sdiOut = 255 then [] else if c.raster = 0 then [0, 1, 2, 3] else [c.sdiOut]

/-- The HBM charge of a decode context (R313). -/
def decodeHbm (c : DecCtx) : Nat := 15 * pixelRate c.raster c.rate + 200000000

/-- One decode context admitted, with the outputs claimed so far; limit is the HBM limit (R143, R147). -/
def admitDecode (limit : Nat) (a : State × List Nat) (d : Nat) : State × List Nat :=
  let s := a.1
  match tget s.dec.ctxs d with
  | none => a
  | some c =>
    let refuse := fun (k : Nat) => modDec s d (fun c => { c with st := 2, refused := k })
    match settleDecode s c with
    | none => (refuse 5, a.2)
    | some c =>
      if c.dup then (refuse 5, a.2)
      else
        let c := if (claimedOutputs c).any (fun o => a.2.contains o) then { c with sdiOut := 255 } else c
        let outs := claimedOutputs c ++ a.2
        let rate := pixelRate c.raster c.rate
        let s := modDec s d (fun _ => c)
        match placeDecode s rate with
        | none => (modDec s d (fun c => { c with st := 2, refused := 1 }), a.2)
        | some l =>
          if limit < s.drm.charged + decodeHbm c then (modDec s d (fun c => { c with st := 2, refused := 2 }), a.2)
          else
            let share := if gangSize rate = 1 then max rate 125000000 else 1000000000
            let s := { s with
              dec := { s.dec with engines := l.foldl (fun t e => tupd t e {} (fun x =>
                { x with load := x.load + share, slots := x.slots + 1, whole := x.whole || decide (1 < l.length) })) s.dec.engines }
              drm := { s.drm with charged := s.drm.charged + decodeHbm c } }
            (modDec s d (fun c => { c with st := 1, refused := 0, engines := l, charge := share, hbm := decodeHbm c }), outs)

/-- Whether a rate is fractional (R26, R374). -/
def fractional (rate : Nat) : Bool := rateD rate != 1

/-- The interface of an SDI output that a confidence context drives (R147, Table 2). -/
def sdiOutOf (d : Nat) (c : DecCtx) (o : Nat) : SdiOut :=
  { ctx := d, link := if c.raster ≤ 1 then 3 else if c.raster = 2 then 1 else 0, part := if c.raster = 0 then some o else none }

/-- The SDI outputs in use after admission (R147). -/
def settleSdiOuts (s : State) : State :=
  { s with dec := { s.dec with outputs := (List.range 4).filterMap (fun o =>
      (s.dec.ctxs.find? (fun e => e.2.st == 1 && (claimedOutputs e.2).contains o)).map (fun e => (o, sdiOutOf e.1 e.2 o))) } }

/-- PLL_S takes the family of the lowest-numbered confidence output in use; the outputs of the other family are left undriven
(R374). -/
def settlePllS (s : State) : State :=
  let used := s.dec.ctxs.filter (fun e => e.2.st == 1 && !(claimedOutputs e.2).isEmpty)
  match [0, 1, 2, 3].findSome? (fun o => used.find? (fun e => (claimedOutputs e.2).contains o)) with
  | none => s
  | some e =>
    let f := fractional e.2.rate
    { s with
      clk := { s.clk with sFract := f, sConflict := used.any (fun x => fractional x.2.rate != f) }
      dec := { s.dec with ctxs := tmap s.dec.ctxs (fun _ c =>
        { c with undriven := c.st == 1 && !(claimedOutputs c).isEmpty && fractional c.rate != f }) } }

/-! ### Counters of DEC_CTX_INFO, by their place in the reply (R160) -/

def decPictures : Nat := 0
def decConcealed : Nat := 1
def decCtus : Nat := 2
def decRange : Nat := 3
def decOverread : Nat := 4
def decCabac : Nat := 5
def decAddress : Nat := 6
def decParams : Nat := 7
def decGaps : Nat := 8
def decSubst : Nat := 9
def decGrey : Nat := 10
def decDropped : Nat := 11
def decLate : Nat := 12
def decRecoveries : Nat := 13
def decUndecoded : Nat := 14
def decRepeats : Nat := 15

/-- A counter of a decode context advanced, saturating (R160). -/
def countDec (k n : Nat) (c : DecCtx) : DecCtx := { c with counts := tupd c.counts k 0 (fun v => satAdd 32 v n) }

/-- The counter of a syntax error (Table 3 of the decode chapter). -/
def errorCounter (e : DecError) : Nat :=
  match e with
  | .range => decRange
  | .overread => decOverread
  | .cabac => decCabac
  | .address => decAddress
  | .paramSet => decParams

/-! ### Arriving streams (R149 to R152, R156) -/

/-- The size of a context's compressed buffer (R156). -/
def cpbSize : Nat := 67108864

/-- The 90 kHz count since the PTP epoch that a timestamp denotes, nearest the present (R149). -/
def resolvedCount (now pts : Nat) : Int :=
  let n := now * 90000 / secUnit
  (n : Int) + toSigned 32 (pts + 2 ^ 32 - n % 2 ^ 32)

/-- The MTB time nearest the present that a 90 kHz count denotes (R149). -/
def presentationTime (now pts : Nat) : Nat := (resolvedCount now pts).toNat * secUnit / 90000

/-- CTUs of a picture of a sequence. -/
def spsCtus (p : SpsIn) : Nat := ceilDiv p.width p.ctu * ceilDiv p.height p.ctu

/-- CTUs of a picture; none where no sequence parameter set is known. -/
def picCtus (p : DecPic) : Nat := p.sps.elim 0 spsCtus

/-- The CTUs decoded from good slices so far (R152, R153). -/
def coveredCtus (p : DecPic) : List Nat := (p.slices.filter (fun x => !x.bad)).flatMap (fun x => x.ctus)

/-- Good slices of a picture (R152). -/
def goodSlices (p : DecPic) : Nat := p.slices.countP (fun x => !x.bad)

/-- Closed pictures without a good slice leave the front of the queue: they are neither output nor kept as references, and no recovery
point completes across them (R152, R155). -/
def dropUndecoded : List DecPic → DecCtx → DecCtx
  | [], c => { c with closed := [] }
  | p :: rest, c =>
    if goodSlices p = 0 then
      dropUndecoded rest { c with cpb := c.cpb - p.bytes, pending := [], dpb := if p.ends then [] else c.dpb }
    else { c with closed := p :: rest }

/-- The open picture closes: it waits to be decoded, or is counted where it has no good slice (R152). -/
def closePicture (c : DecCtx) : DecCtx :=
  match c.cur with
  | none => c
  | some p =>
    let c := { c with cur := none, closedPts := p.pts :: c.closedPts.filter (fun x => x != p.pts) }
    let c := if goodSlices p = 0 then countDec decUndecoded 1 c else c
    dropUndecoded (c.closed ++ [p]) c

/-- The picture that a NAL unit belongs to is open: the first NAL unit of an access unit closes the last picture (R152). -/
def openFor (starts gap : Bool) (pts : Nat) (c : DecCtx) : DecCtx :=
  let c := if starts then closePicture c else c
  match c.cur with
  | some _ => c
  | none => { c with cur := some { pts := pts, gapBefore := gap } }

/-- The open picture changed. -/
def onCurrent (f : DecPic → DecPic) (c : DecCtx) : DecCtx := { c with cur := c.cur.map f }

/-- Whether a sequence parameter set lies within what a decode context accepts: its declared raster in both dimensions, a profile of
Table 1 of the coding chapter, by its identifier and its constraint flags, with the chroma formats and the bit depth of that profile, and
Level 6.2 (R145). -/
def spsAccepted (c : DecCtx) (p : SpsIn) : Bool :=
  decide (p.width ≤ activeW c.raster ∧ p.height ≤ activeH c.raster ∧ p.bits ≤ 10) &&
    (if c.codec = 0 then ((p.profile == 1 && decide (p.chroma ≤ 1)) || (p.profile == 33 && decide (p.chroma ≤ 3))) && decide (p.level ≤ 102)
     else ((p.profile == 2 && p.chroma == 1) || (p.profile == 4 && p.constraints == (profileFlags { codec := 1, chroma := 1 }).2 &&
       decide (p.chroma ≤ 2))) && decide (p.level ≤ 186))

/-- The key of a parameter set. -/
def setKey (n : Nat × Nat) : Nat := n.1 * 65536 + n.2

/-- The sequence parameter set that identifiers lead to through the sets held, at most three steps away. -/
def spsNamed (held : Tab HeldSet) : Nat → List (Nat × Nat) → Option SpsIn
  | 0, _ => none
  | k + 1, names => names.findSome? (fun n => (tget held (setKey n)).bind (fun h => h.sps <|> spsNamed held k h.names))

/-- The errors that the rules find in a NAL unit beside those of its syntax, each with its place in bit order: an identifier that is
not held, a slice address outside the picture or on a CTU already decoded, a dependent slice segment with none before it, and a
sequence parameter set beyond R145 (R145, R150, Table 3). -/
def foundErrors (c : DecCtx) (nal : NalIn) : List (Nat × DecError) :=
  let unheld := if nal.names.all (fun n => thas c.params (setKey n)) then [] else [(nal.nameAt, .paramSet)]
  let place := match nal.kind, c.cur with
    | .slice s, some p =>
      let total := ((p.sps <|> spsNamed c.params 3 nal.names).elim 0 spsCtus)
      if (s.dependent && p.slices.isEmpty) || s.ctus.any (fun a => decide (total ≤ a) || (coveredCtus p).contains a) then
        [(nal.addressAt, .address)] else []
    | .parameterSet _ _ (some p), _ => if spsAccepted c p then [] else [(nal.addressAt, .range)]
    | _, _ => []
  nal.errors ++ unheld ++ place

/-- The error met first in bit order (R150). -/
def firstError : List (Nat × DecError) → Option DecError
  | [] => none
  | e :: rest =>
    match rest.foldl (fun a x => if x.1 < a.1 then x else a) e with
    | (_, d) => some d

/-- A slice NAL unit discarded with the slice it belongs to (R150); the Boolean says that its slice was not discarded before. -/
def loseSlice (dependent : Bool) (p : DecPic) : DecPic × Bool :=
  let p := { p with lost := true }
  match dependent, p.slices with
  | true, x :: rest => ({ p with slices := { x with bad := true } :: rest }, !x.bad)
  | _, l => ({ p with slices := { bad := true } :: l, broken := false }, true)

/-- A slice NAL unit taken: its CTUs and the references it names (R150, R153, R154). -/
def takeSlice (sps : Option SpsIn) (s : SliceIn) (p : DecPic) : DecPic :=
  let slices := match s.dependent, p.slices with
    | true, x :: rest => { x with ctus := x.ctus ++ s.ctus, cuts := x.cuts ++ s.tileStarts } :: rest
    | _, l => { ctus := s.ctus, cuts := s.tileStarts, sync := s.sync } :: l
  { p with
    slices := slices, sps := p.sps <|> sps, poc := s.poc, random := p.random || s.random, idr := p.idr || s.idr
    broken := p.broken && s.dependent
    refs := p.refs ++ s.refs.filter (fun r => !p.refs.contains r), held := p.held ++ s.held.filter (fun r => !p.held.contains r) }

/-- A NAL unit taken into the buffer and parsed without an error. -/
def goodUnit (nal : NalIn) (c : DecCtx) : DecCtx :=
  match nal.kind with
  | .slice s => onCurrent (takeSlice (spsNamed c.params 3 nal.names) s) c
  | .pictureHeader r => onCurrent (fun p => { p with recovery := p.recovery <|> r }) c
  | .parameterSet kind ident sps => { c with params := tset c.params (setKey (kind, ident)) { names := nal.names, sps := sps } }
  | .recoveryPoint n => onCurrent (fun p => { p with recovery := some n }) c
  | .endOfSequence => onCurrent (fun p => { p with ends := true }) c
  | .sei | .ignored => c

/-- A gap came: after it the decoder goes on at the next NAL unit that is whole, and the dependent slice segments that follow belong to
a damaged slice (R150, R151). -/
def noteGap (starts : Bool) (c : DecCtx) : DecCtx :=
  let c := countDec decGaps 1 c
  if starts then c else onCurrent (fun p => { p with broken := true }) c

/-- How far a number of a width is ahead of another, as a signed difference. -/
def serialAhead (w new old : Nat) : Int := toSigned w (new + 2 ^ w - old % 2 ^ w)

/-- Whether a sequence number is missing before a number, after the last packet received (R150). A packet from before the last one is no
gap. -/
def seqMissing (seq : Nat) (c : DecCtx) : Bool := c.lastSeq.any (fun l => decide (1 < serialAhead 32 seq l))

/-- Whether a number is missing before the packets of a NAL unit or between them, where it was not met as they came one by one: each missing
number is one gap, and a last fragment that is lost is missing before what follows it (R150, R151). -/
def gapInSeq (nal : NalIn) (c : DecCtx) : Bool :=
  if c.lastSeq.any (fun l => decide (serialAhead 32 nal.seqFirst l ≤ 0)) then seqMissing nal.seqLast c
  else seqMissing nal.seqFirst c || decide (0 < nal.holes)

/-- Whether the continuity counter of the context's PID does not go on before a NAL unit or within it (R150). -/
def gapInCc (nal : NalIn) (c : DecCtx) : Bool :=
  c.carriage == 1 && nal.pid == c.tsPid && (nal.ccHole ||
    (c.lastNal.all (fun l => decide (0 ≤ serialAhead 32 nal.seqFirst l)) &&
      c.lastCc.any (fun k => nal.ccFirst % 16 != k && nal.ccFirst % 16 != (k + 1) % 16)))

/-- Whether a NAL unit follows a gap or holds one (R150). -/
def gapBeforeNal (nal : NalIn) (c : DecCtx) : Bool := gapInSeq nal c || gapInCc nal c

/-- The later of a number and one seen before. -/
def laterSeq (seq : Nat) (old : Option Nat) : Option Nat :=
  if old.any (fun l => decide (serialAhead 32 seq l < 0)) then old else some seq

/-- The packets that brought a NAL unit are the last seen, unless later ones were seen before; only those of the context's PID bring its
continuity counter. -/
def noteSeq (nal : NalIn) (c : DecCtx) : DecCtx :=
  let own := c.carriage = 0 ∨ nal.pid = c.tsPid
  let newest := laterSeq nal.seqLast c.lastNal == some nal.seqLast
  { c with
    lastSeq := laterSeq nal.seqLast c.lastSeq
    lastNal := if own then laterSeq nal.seqLast c.lastNal else c.lastNal
    lastCc := if own ∧ newest = true then some (nal.ccLast % 16) else c.lastCc }

/-- A NAL unit of the open picture: dropped at a full buffer, discarded as damaged, or good. A slice is counted once, a damaged SEI
message has no effect, and the Boolean says that damage is reported (R150, R151, R156, R158). -/
def judgeNal (nal : NalIn) (c : DecCtx) : DecCtx × Bool :=
  let dependent := match nal.kind with | .slice s => s.dependent | _ => false
  let slice := match nal.kind with | .slice _ => true | _ => false
  let lose := fun (c : DecCtx) =>
    if slice then (onCurrent (fun p => (loseSlice dependent p).1) c, c.cur.elim true (fun p => (loseSlice dependent p).2)) else (c, true)
  if cpbSize < c.cpb + nal.size then (countDec decDropped 1 (lose c).1, false)
  else if !nal.complete || (dependent && c.cur.any (fun p => p.broken)) then ((lose c).1, false)
  else
    match firstError (foundErrors c nal), nal.kind with
    | some _, .sei | some _, .recoveryPoint _ => (c, false)
    | some e, _ => let r := lose c; if r.2 then (countDec (errorCounter e) 1 r.1, true) else (r.1, false)
    | none, _ =>
      if dependent && c.cur.any (fun p => p.slices.head?.any (fun x => x.bad)) then (c, false)
      else (goodUnit nal (onCurrent (fun p => { p with bytes := p.bytes + nal.size }) { c with cpb := c.cpb + nal.size }), false)

/-- A NAL unit arrives: of another PID, late, ignored, or one of the open picture, which its packet's marker closes (R150 to R156). -/
def takeNal (nal : NalIn) (c : DecCtx) : DecCtx × Bool :=
  if c.carriage = 1 ∧ nal.pid ≠ c.tsPid then
    let gap := gapBeforeNal nal c
    let c := noteSeq nal c
    (if gap then noteGap false c else c, gap)
  else
    let gap := gapBeforeNal nal c
    let c := noteSeq nal c
    let starts := nal.newUnit || c.cur.any (fun p => p.pts != nal.pts)
    if nal.newUnit = false ∧ c.cur.any (fun p => p.pts == nal.pts) = false ∧ c.closedPts.contains nal.pts = true then
      (countDec decLate 1 (if gap then noteGap false c else c), gap)
    else if nal.kind = .ignored then
      let c := if gap then noteGap false c else c
      (if nal.marker && c.cur.any (fun p => p.pts == nal.pts) then closePicture c else c, gap)
    else
      let c := openFor starts gap nal.pts c
      let c := if gap then noteGap starts c else c
      let r := judgeNal nal c
      (if nal.marker then closePicture r.1 else r.1, r.2 || gap)

/-- A NAL unit for a layer source: the context takes it, and damage is reported as DEC_STREAM (R150, R158). -/
def receiveNal (d : Nat) (nal : NalIn) (s : State) : State :=
  match tget s.dec.ctxs d with
  | none => s
  | some c =>
    if c.st = 1 ∧ c.use = 1 ∧ ticking s = true then
      let r := takeNal nal c
      let s := modDec s d (fun _ => r.1)
      if r.2 then raise 0x03A d s else s
    else s

/-- A packet that ends no NAL unit, for a layer source: its number is the last received, and one missing before it is a gap (R150, R158). -/
def receivePart (d seq : Nat) (s : State) : State :=
  match tget s.dec.ctxs d with
  | none => s
  | some c =>
    if c.st = 1 ∧ c.use = 1 ∧ ticking s = true then
      let gap := seqMissing seq c
      let c := { c with lastSeq := laterSeq seq c.lastSeq }
      let s := modDec s d (fun _ => if gap then noteGap false c else c)
      if gap then raise 0x03A d s else s
    else s

/-- DECODE_NAL_RECEIVE (R150). -/
def execDecodeNalReceive (d : Nat) (nal : NalIn) (s : State) : Outcome := done (receiveNal d nal s)

/-- The declared frame period of a decode context's stream (R149). -/
def streamPeriod (c : DecCtx) : Nat := framePeriod c.rate

/-- DECODE_CLOSE_TIMEOUT (R152): DEC_DELAY × P_s after its presentation time, a picture still open is closed. -/
def execDecodeCloseTimeout (d : Nat) (s : State) : Outcome :=
  match tget s.dec.ctxs d with
  | none => .next s
  | some c =>
    match c.cur with
    | none => .next s
    | some p =>
      if c.st = 1 ∧ ticking s = true then
        let t := presentationTime s.mtb.t p.pts + c.delay * streamPeriod c
        .next (modDec (noEarlier t s) d closePicture)
      else .next s

/-! ### Concealment (R153) -/

/-- A rectangle of CTUs as its place and size in luma samples. -/
def ctuRect (p : SpsIn) (a : Nat) : Nat × Nat × Nat × Nat :=
  let cols := ceilDiv p.width p.ctu
  let x := a % cols * p.ctu
  let y := a / cols * p.ctu
  (x, y, min p.ctu (p.width - x), min p.ctu (p.height - y))

/-- The neighbours of a CTU in the order of R153 (above, left, right, below), each with the side of it that is shared. -/
def ctuNeighbours (p : SpsIn) (a : Nat) : List (Nat × Nat) :=
  let cols := ceilDiv p.width p.ctu
  (if cols ≤ a then [(a - cols, 0)] else []) ++ (if 0 < a % cols then [(a - 1, 1)] else []) ++
  (if a % cols + 1 < cols then [(a + 1, 2)] else []) ++ (if a + cols < spsCtus p then [(a + cols, 3)] else [])

/-- The vector of a missing CTU in whole luma samples, scaled by the POC distances and rounded toward zero: that of the first neighbour
decoded from a good slice whose block at the middle of the shared edge is inter-coded, zero where there is none (R153). -/
def concealVector (codec : Nat) (poc good : Int) (p : SpsIn) (covered : List Nat) (edges : List EdgeBlock) (a : Nat) : Int × Int :=
  let unit_ : Int := if codec = 0 then 16 else 4
  let found := ((ctuNeighbours p a).filter (fun n => covered.contains n.1)).findSome? (fun n =>
    (edges.find? (fun e => e.ctu == n.1 && e.side == n.2)).bind (fun e => e.l0 <|> e.l1))
  match found with
  | none => (0, 0)
  | some (x, y, ref) => ((x * (poc - good)).tdiv ((poc - ref) * unit_), (y * (poc - good)).tdiv ((poc - ref) * unit_))

/-- A vector clipped so that a CTU displaced by it lies inside the picture (R153). -/
def clipVector (p : SpsIn) (r : Nat × Nat × Nat × Nat) (v : Int × Int) : Int × Int :=
  (clampI (-(r.1 : Int)) ((p.width : Int) - r.1 - r.2.2.1) v.1, clampI (-(r.2.1 : Int)) ((p.height : Int) - r.2.1 - r.2.2.2) v.2)

/-- A sample of a plane. -/
def sampleAt (plane : List (List Nat)) (x y : Nat) (dflt : Nat) : Nat := (plane.getD y []).getD x dflt

/-- The sample level of mid-grey at a bit depth: 512 as delivered (R146, R153). -/
def midGrey (bits : Nat) : Nat := if bits = 8 then 128 else 512

/-- A plane, subsampled by sx and sy, with its missing CTUs copied from the good picture along their vectors, or mid-grey where there is
none (R153). Where a vector points between two chroma samples, the rule states no value (log entry 117). -/
def concealPlane (p : SpsIn) (sx sy : Nat) (missing : List Nat) (vec : Nat → Int × Int) (good : Option (List (List Nat)))
    (plane : List (List Nat)) : List (List Nat) :=
  let cols := ceilDiv p.width p.ctu
  (List.range (p.height / sy)).map (fun y => (List.range (p.width / sx)).map (fun x =>
    let a := y * sy / p.ctu * cols + x * sx / p.ctu
    if missing.contains a then
      match good with
      | none => midGrey p.bits
      | some g =>
        let v := vec a
        let at_ := fun (dx dy : Int) =>
          sampleAt g ((x : Int) + v.1.fdiv sx + dx).toNat ((y : Int) + v.2.fdiv sy + dy).toNat (midGrey p.bits)
        if v.1.fmod sx = 0 ∧ v.2.fmod sy = 0 then at_ 0 0
        else Config.chromaBetween (v.1.fmod sx).toNat (v.2.fmod sy).toNat [at_ 0 0, at_ 1 0, at_ 0 1, at_ 1 1]
    else sampleAt plane x y (midGrey p.bits)))

/-- Horizontal and vertical subsampling of a chroma format. -/
def chromaSub (chroma : Nat) : Nat × Nat := if chroma = 1 then (2, 2) else if chroma = 2 then (2, 1) else (1, 1)

/-- A decoded picture with its missing CTUs concealed, in its own format (R153). -/
def concealed (codec : Nat) (poc : Int) (p : SpsIn) (covered : List Nat) (good : Option DecRef) (pic : DecodedPicture) : DecRef :=
  let missing := (List.range (spsCtus p)).filter (fun a => !covered.contains a)
  let vec := fun a => match good with
    | none => (0, 0)
    | some g => clipVector p (ctuRect p a) (concealVector codec poc g.poc p covered pic.edges a)
  let sub := chromaSub p.chroma
  let chroma := fun (f : DecRef → List (List Nat)) (l : List (List Nat)) =>
    if p.chroma = 0 then [] else concealPlane p sub.1 sub.2 missing vec (good.map f) l
  { poc := poc, luma := concealPlane p 1 1 missing vec (good.map (fun g => g.luma)) pic.luma
    cb := chroma (fun g => g.cb) pic.cb, cr := chroma (fun g => g.cr) pic.cr }

/-! ### Delivery (R144, R146, R154, R155) -/

/-- A chroma plane of a picture brought to 4:2:2 (R146). -/
def deliveredChroma (p : SpsIn) (plane : List (List Nat)) : List (List Nat) :=
  let l := plane.map (fun r => r.map (deliveredSample p.bits))
  if p.chroma = 0 then List.replicate p.height (monochrome p.width)
  else if p.chroma = 1 then repeatChroma l
  else if p.chroma = 2 then l
  else l.map halveChroma

/-- A decoded picture as it is delivered: 4:2:2 with 10-bit samples (R146). A field-coded picture is a picture of its own. -/
def delivered (p : SpsIn) (r : DecRef) : Picture :=
  let cb := deliveredChroma p r.cb
  let cr := deliveredChroma p r.cr
  { w := p.width, h := p.height, chroma := 1
    lines := (List.range p.height).map (fun y =>
      (y, { y := (r.luma.getD y []).map (deliveredSample p.bits), cb := cb.getD y [], cr := cr.getD y [] })) }

/-- The bytes of a picture by line, in the form of R172. -/
def pictureBytes (p : Picture) : List Bytes := p.lines.map (fun l => regionLineBytes p.chroma l.1 l.2.y l.2.cb l.2.cr)

/-- A list cut before every element that passes a test with the one ahead of it. -/
def cutWhere (p : Nat → Nat → Bool) : List Nat → List (List Nat)
  | [] => []
  | [a] => [[a]]
  | a :: b :: rest =>
    match cutWhere p (b :: rest) with
    | l :: ls => if p a b then [a] :: l :: ls else (a :: l) :: ls
    | [] => [[a]]

/-- The entropy units of a picture in decoding order: a slice, each tile of a slice of several, or, where entropy coding sync is on, each of
its CTU rows (R144). -/
def entropyUnits (cols : Nat) (p : DecPic) : List (List Nat) :=
  (p.slices.reverse.filter (fun x => !x.bad)).flatMap (fun x =>
    cutWhere (fun a b => x.cuts.contains b || (x.sync && a / cols != b / cols)) x.ctus)

/-- The engines of a gang that a picture's entropy units go to, in decoding order: each to the one that becomes free first, ties to the
lower-numbered (R144). The list holds each engine with the time at which it is free. -/
def unitsOn : List (Nat × Nat) → List Nat → List Nat
  | _, [] => []
  | free, u :: rest =>
    match free with
    | [] => []
    | f :: fs =>
      let best := fs.foldl (fun a b => if b.2 < a.2 then b else a) f
      best.1 :: unitsOn (free.map (fun e => if e.1 = best.1 then (e.1, e.2 + u) else e)) rest

/-- The horizontal filter bands of a picture: one of whole CTU rows per engine, of equal height up to a row (R144; log entry 118). -/
def filterBands (engines : List Nat) (rows : Nat) : List (Nat × Nat) :=
  engines.zipIdx.map (fun e => (e.2 * rows / engines.length, e.1))

/-- The DPB as a picture finds it: what its reference picture set or lists keep (R154). -/
def keepRefs (p : DecPic) (c : DecCtx) : DecCtx :=
  { c with dpb := c.dpb.filter (fun d => p.held.contains d.poc || p.refs.any (fun r => r.1 == d.poc)) }

/-- The references of a picture that were never received: those named and not in the DPB (R154). -/
def missingRefs (c : DecCtx) (p : DecPic) : List (Int × Bool) := p.refs.filter (fun r => !c.dpb.any (fun d => d.poc == r.1))

/-- Recovery points at a picture in decoding order: those still awaited, and how many complete with it as their recovery picture (R155). A
picture that is not whole, and a gap before its first NAL unit, in which a picture may have gone missing, end every span that they lie in
(log entry 121). -/
def recoveryStep (pending : List Int) (p : DecPic) (whole : Bool) : List Int × Nat :=
  if !whole || p.lost then ([], 0)
  else if p.random then ([], 1)
  else
    let all := (if p.gapBefore then [] else pending) ++ (p.recovery.map (fun k => p.poc + k)).toList
    (all.filter (fun v => v != p.poc), (all.filter (fun v => v == p.poc)).length)

/-- A picture is output: its flag follows from it and from those output before it (R155); from the start of a context to its first
recovery point every picture is flagged (R157; log entry 121). Where no picture has the POC of a recovery picture, the one that follows in
output order is it. DESIGN CHOICE: DEC_CONCEALED clears as the recovery picture leaves the decoder, while Table 4 shows it cleared as the
picture is selected (log entry 121). -/
def outputPicture (o : DecOut) (c : DecCtx) : DecCtx :=
  let passed := c.pending.filter (fun v => decide (v < o.poc))
  let completes := o.completes || !passed.isEmpty
  let flag := !completes && (c.concealed || o.damaged || !c.recovered)
  countDec decPictures 1 (countDec decConcealed (b2n flag) (countDec decRecoveries passed.length { c with
    pending := c.pending.filter (fun v => decide (o.poc ≤ v))
    concealed := flag, recovered := c.recovered || completes, outs := ({ o with flagged := flag } :: c.outs).take 16 }))

/-- The picture that is first in output order of those that wait. -/
def firstOut : List DecOut → Option DecOut
  | [] => none
  | o :: rest => some (rest.foldl (fun a b => if b.poc < a.poc then b else a) o)

/-- Pictures leave in output order until no more than k wait; the number bounds the steps (R146). -/
def bumpOut : Nat → Nat → DecCtx → DecCtx
  | 0, _, c => c
  | n + 1, k, c =>
    if c.waiting.length ≤ k then c
    else
      match firstOut c.waiting with
      | none => c
      | some o => bumpOut n k (outputPicture o { c with waiting := c.waiting.filter (fun x => x != o) })

/-- The sequence parameter set of a picture, or for one without the declared raster. -/
def spsOr (c : DecCtx) (p : DecPic) : SpsIn := p.sps.getD ⟨activeW c.raster, activeH c.raster, 64, 0, 0, 2, 10, 0, []⟩

/-- The oldest closed picture completes decoding: references replaced, missing CTUs concealed, the picture kept as a reference and
output in its turn: an IDR picture follows all that wait, and an end of sequence sends them out (R144, R146, R153 to R155). A reference that was never received counts once for each picture that names it (log
entry 122). -/
def finishPicture (pic : DecodedPicture) (c : DecCtx) : DecCtx :=
  match c.closed with
  | [] => c
  | p :: rest =>
    let c := keepRefs p c
    let sps := spsOr c p
    let covered := coveredCtus p
    let units := entropyUnits (ceilDiv sps.width sps.ctu) p
    let missing := (List.range (spsCtus sps)).countP (fun a => !covered.contains a)
    let gone := missingRefs c p
    let grey := gone.countP (fun r => r.2 || c.dpb.isEmpty)
    let native := concealed c.codec p.poc sps covered c.good pic
    let out := delivered sps native
    let (pending, done_) := recoveryStep c.pending p (missing == 0)
    let o : DecOut :=
      { pts := p.pts, frame := p.frame, poc := p.poc, damaged := decide (0 < missing) || !gone.isEmpty, completes := decide (0 < done_)
        print := crcPresetOf 4 ((pictureBytes out).flatMap id), picture := out }
    let c := if p.idr then bumpOut c.waiting.length 0 c else c
    let c := { c with
      closed := rest, cpb := c.cpb - p.bytes, pending := pending
      good := if missing = 0 then some native else c.good
      dpb := if p.ends then [] else (native :: c.dpb).take 16
      waiting := c.waiting ++ [o], decodedOne := true
      units := units
      unitEngines := unitsOn (c.engines.map (fun e => (e, 0))) ((List.range units.length).map (fun i => pic.units.getD i 0))
      bands := filterBands c.engines (ceilDiv sps.height sps.ctu) }
    let c := countDec decCtus missing (countDec decRecoveries done_ (countDec decGrey grey (countDec decSubst (gone.length - grey) c)))
    dropUndecoded c.closed (bumpOut c.waiting.length (if p.ends then 0 else sps.reorder) c)

/-- The lines of a picture pass a tap: each ends a line span, and the last ends a picture span (R355). -/
def tapLines (kind index : Nat) : List Bytes → State → State
  | [], s => s
  | [l], s => tapSymbols kind index (symbols l) [2, 3] s
  | l :: m :: t, s => tapLines kind index (m :: t) (tapSymbols kind index (symbols l) [2] s)

/-- DECODE_PICTURE_DONE (R146): the oldest closed picture is decoded, and what the outputs gain passes their tap (R355). -/
def execDecodePictureDone (d : Nat) (pic : DecodedPicture) (s : State) : Outcome :=
  match tget s.dec.ctxs d with
  | none => .next s
  | some c =>
    if c.st = 1 ∧ ticking s = true ∧ c.closed ≠ [] then
      let c' := finishPicture pic c
      let new := (c'.outs.filter (fun o => !c.outs.contains o)).reverse
      .next (new.foldl (fun s o => tapLines 5 d (pictureBytes o.picture) s) (modDec s d (fun _ => c')))
    else .next s

/-! ### Confidence outputs (R147, R148) -/

/-- What a confidence context reads of a picture of its encode context: all of its slices as emitted, with what its header says of
references and recovery (R147, R154, R155). A picture with generated references names one that was never received (R91, R154). -/
def ownPicture (x : Ctx) (p : Pic) : DecPic :=
  let sps : SpsIn := ⟨activeW x.raster, activeH x.raster, 64, 0, 0, 1 + x.chroma, 10, 0, []⟩
  let slice := fun (k : Nat) =>
    ({ ctus := (List.range (sliceCtus x.raster)).map (fun i => k / 4 * ctuColumns x.raster + k % 4 * sliceCtus x.raster + i) } : SliceGot)
  { frame := p.frame, poc := p.f, sps := some sps
    slices := ((List.range (ctuRows x.raster)).flatMap (fun r => (tilesOf x.raster).map (fun t => slice (sliceKey r t)))).reverse
    held := x.slots.map (fun e => (e.2.poc : Int)) ++ (p.ltr.toList.map (fun v => (v : Int)))
    idr := p.idr
    refs := p.head.refs.map (fun r => ((r.1 : Int), r.2)) ++ (if p.head.generated.isSome then [((p.f : Int) - 1, false)] else [])
    random := p.head.kind == .idr, recovery := if p.sweepStart then some (x.sweepS - 1) else none }

/-- An end-of-sequence NAL unit ahead of a picture follows the last one in decoding order, or empties the DPB at once where that one
has been decoded (R91, R154). -/
def endBefore (c : DecCtx) : DecCtx :=
  match c.closed.getLast? with
  | none => { c with dpb := [] }
  | some p => { c with closed := c.closed.dropLast ++ [{ p with ends := true }] }

/-- At the verdicts of a row, a confidence context reads its slices from HBM; with the last one the picture is ready to decode. -/
def readSlices (x : Ctx) (p : Pic) (n : Nat) (c : DecCtx) : DecCtx :=
  let got := tgetD c.gotSlices p.frame 0 + n
  if got < ctuRows c.raster * tileCols c.raster then { c with gotSlices := tset c.gotSlices p.frame got }
  else
    let c := if p.head.endOfSequence then endBefore c else c
    { c with gotSlices := tdel c.gotSlices p.frame, closed := c.closed ++ [ownPicture x p] }

/-- The confidence contexts of an encode context read a row's slices. -/
def confidenceRow (x frame : Nat) (s : State) : State :=
  match tget s.enc.ctxs x, picOf s x frame with
  | some k, some p =>
    { s with dec := { s.dec with ctxs := tmap s.dec.ctxs (fun _ c =>
        if c.st = 1 ∧ c.use = 0 ∧ c.source = x then readSlices k p (tileCols c.raster) c else c) } }
  | _, _ => s

/-- Whether a context above 60 frames per second skips a picture: it shows only even frame numbers (R147). -/
def skipsPicture (rate frame : Nat) : Bool := decide (8 ≤ rate) && frame % 2 == 1

/-- At frame tick n of the channel, a confidence output shows picture n − d, or repeats and counts it (R148). DESIGN CHOICE: a context
without an output, or whose outputs are left undriven, counts its repeats too (log entry 114). -/
def showConfidence (n : Nat) (c : DecCtx) : DecCtx :=
  let want := n - c.delay
  if skipsPicture c.rate want || !c.decodedOne then c
  else
    match (c.outs ++ c.waiting).find? (fun o => o.frame == want) with
    | some o => { c with shown := some want, display := o.picture }
    | none => countDec decRepeats 1 c

/-- The confidence contexts of a channel at its frame tick (R148). -/
def confidenceTick (ch n : Nat) (s : State) : State :=
  { s with dec := { s.dec with ctxs := tmap s.dec.ctxs (fun _ c =>
      if c.st = 1 ∧ c.use = 0 ∧ chanOfCtx s c.source = some ch then showConfidence n c else c) } }

/-! ### Layer sources (R149) -/

/-- Whether a 90 kHz count, with a number of declared frame periods after it, lies no later than the frame tick n of a rate (R149): the
exact times are compared (log entry 119). -/
def noLaterThan (k : Int) (periods declared rate n : Nat) : Bool :=
  decide (k * (rateN declared * rateN rate : Nat) + (periods * rateD declared * 90000 * rateN rate : Nat) ≤
    ((n * rateD rate * 90000 * rateN declared : Nat) : Int))

/-- Whether it lies no earlier. -/
def noEarlierThan (k : Int) (periods declared rate n : Nat) : Bool :=
  decide (((n * rateD rate * 90000 * rateN declared : Nat) : Int) ≤
    k * (rateN declared * rateN rate : Nat) + (periods * rateD declared * 90000 * rateN rate : Nat))

/-- The latest decoded picture that a layer takes at frame tick n of its consumer, and whether it is ready (R149). -/
def layerPicture (c : DecCtx) (rate n : Nat) : Option (DecOut × Bool) :=
  let count := fun (o : DecOut) => resolvedCount (frameTickAt rate n) o.pts
  let cands := (c.outs ++ c.waiting).filter (fun o => noLaterThan (count o) c.delay c.rate rate n)
  let best := cands.foldl (fun (a : Option DecOut) o => match a with
    | some b => if count b < count o then some o else some b
    | none => some o) none
  best.map (fun o => (o, noEarlierThan (count o) (c.delay + 1) c.rate rate n))

/-! ### Registers and command (R159, R160) -/

/-- The decode registers, as the bits of contexts that pass a test allow (R159). -/
def decodeWord (s : State) (owner : Bool) (visible : Nat → Bool) (off : Nat) : Nat :=
  match off with
  | 0x1D0 => if owner then packWord ((List.range 4).map (fun e => (2 * b2n (decEngine s e).failed, 2 * e))) else 0
  | 0x1D4 => maskOf (tkeysOf s.dec.ctxs (fun d c => c.st == 1 && visible d)) 32
  | 0x1D8 => maskOf (tkeysOf s.dec.ctxs (fun d c => c.concealed && visible d)) 32
  | _ => 0

/-- The 68 bytes of DEC_CTX_INFO (R160). -/
def decInfo (c : DecCtx) : Bytes :=
  le 1 c.st ++ le 1 c.refused ++ le 1 (maskOf c.engines 8) ++ le 1 (b2n c.concealed + 2 * b2n c.decodedOne) ++
  (List.range 16).flatMap (fun k => le 4 (tgetD c.counts k 0))

/-- DEC_CTX_INFO, opcode 0x0820 (R160). -/
def cmdDecCtxInfo (r : Req) (s : State) : State :=
  takeRequest 0x0820 false infoLegal r (fun p s =>
    let d := f8 (payloadOf r) 0 0 31
    if !ownsDecode s p d.val then reply p r 0x0820 .notInPartition false [] s
    else reply p r 0x0820 .ok (d.clamped || lenClamped r) (decInfo (tgetD s.dec.ctxs d.val {})) s) s

/-- DEC_CTX_INFO (R160). -/
def execDecCtxInfo (r : Req) (s : State) : Outcome := done (cmdDecCtxInfo r s)

end Sys2Proof.Machine
end

