-- ==== Sys2Proof/Machine/Compose.lean ====
section
/-! DEFINITION. Composition: layers, readiness, fallbacks, graphics slots and topiary signatures (chapter 8). -/

namespace Sys2Proof.Machine

/-- A channel's compositor. -/
def cmp (s : State) (c : Nat) : Cmp := tgetD s.cmps c {}

/-- The state with a channel's compositor changed. -/
def setCmp (s : State) (c : Nat) (f : Cmp → Cmp) : State := { s with cmps := tupd s.cmps c {} f }



/-! ### Geometry of layers (R164, R165) -/

/-- An even value held between bounds. -/
def evenIn (lo hi v : Nat) : Nat := even (clamp lo hi v)

/-- A rectangle with even coordinates, clipped to a picture, at least 2 by 2 (R164, R171). -/
def clipRect (w h : Nat) (r : List Nat) : List Nat :=
  let x := min (even (r.getD 0 0)) (w - 2)
  let y := min (even (r.getD 1 0)) (h - 2)
  [x, y, clamp 2 (w - x) (even (r.getD 2 0)), clamp 2 (h - y) (even (r.getD 3 0))]

/-- The size of a layer's source picture: that of the picture it holds, or else the source's raster, or the channel's own where the
source is not configured (R164, R313). DESIGN CHOICE: a fill, which has no picture, takes the channel's own raster as its source, so
that a small fill window sets CMP_V_CLAMPED (log entry 116). -/
def sourceSize (s : State) (c : Nat) (v : VLayer) : Nat × Nat :=
  let r :=
    if v.srcType = 1 ∧ (chan s v.src).taken then (chan s v.src).raster
    else if v.srcType = 2 ∧ thas s.dec.ctxs v.src then (tgetD s.dec.ctxs v.src {}).raster
    else (chan s c).raster
  if v.held ∧ v.image.lines ≠ [] then (v.image.w, v.image.h) else (activeW r, activeH r)

/-- A crop clipped to its source; a size of 0 means the whole source (R164). DESIGN CHOICE: with only one of width and height 0 the whole
source is read on both axes (log entry 115). -/
def clipCrop (w h : Nat) (r : List Nat) : List Nat :=
  if even (r.getD 2 0) = 0 ∨ even (r.getD 3 0) = 0 then [0, 0, w, h]
  else
    let q := clipRect w h r
    [q.getD 0 0, q.getD 1 0, min 8192 (q.getD 2 2), q.getD 3 2]

/-- The drawn size of a crop in a window, with whether the ratio limits bind (R165). -/
def drawnSize (ws hs ww wh : Nat) : Nat × Nat × Bool :=
  if 16 * ww < ws ∨ 4 * wh < hs then
    let up := fun v => (v + 1) / 2 * 2
    if hs * 16 * ww ≤ ws * 4 * wh then
      let dw := ceilDiv ws 16
      (up dw, up (ceilDiv (wh * dw) ww), true)
    else
      let dh := ceilDiv hs 4
      (up (ceilDiv (ww * dh) wh), up dh, true)
  else (ww, wh, false)

/-- A video layer's effective crop, window and drawn size, with its CMP_V_CLAMPED bit (R164, R165). -/
def shapeLayer (s : State) (c : Nat) (v : VLayer) : VLayer :=
  let (sw, sh) := sourceSize s c v
  let crop := clipCrop sw sh v.cropCfg
  let win := clipRect (activeW (chan s c).raster) (activeH (chan s c).raster) v.winCfg
  let (dw, dh, bind_) := drawnSize (crop.getD 2 2) (crop.getD 3 2) (win.getD 2 2) (win.getD 3 2)
  let whole := v.cropCfg.getD 2 0 == 0 || v.cropCfg.getD 3 0 == 0
  { v with crop := crop, win := win, drawnW := dw, drawnH := dh
           clamped := bind_ || win != v.winCfg || (!whole && crop != v.cropCfg) }

/-- CMP_V_SRC held within the range of its type (Table 5 of the composition chapter). -/
def sourceIn (srcType src : Nat) : Nat := clamp 0 (if srcType = 1 then 63 else if srcType = 2 then 31 else 65535) src

/-! ### Records (R171, R173, R178) -/

/-- A composition record of a channel that has a 0x0801 record (R178). -/
def cmpRecord (n : Nat) (b : Bytes) (body : Nat → State → State) (s : State) : State :=
  sized n b (fun s =>
    let c := clamp 0 63 (u8 b 0)
    if (chan s c).taken then body c s else orphan s) s

/-- A slate dimension: 0 for none, otherwise even and within bounds. -/
def slateSide (hi v : Nat) : Nat := if v = 0 then 0 else evenIn 2 hi v

/-- The compositor record, type 0x0701 (R178). -/
def recCompositor (b : Bytes) (s : State) : State :=
  cmpRecord 8 b (fun c s =>
    if (cmp s c).taken then orphan s
    else
      let w := slateSide 7680 (u16 b 4)
      let h := slateSide 4320 (u16 b 6)
      applied (setCmp s c (fun x =>
        { x with taken := true, holdF := orDefault (u8 b 1) 3 1 30, topSev := clamp 0 7 (u8 b 2), slateW := w
                 slateH := if w = 0 then 0 else min h (even (4194304 / (5 * w))) }))) s

/-- COMPOSITOR_RECORD (R178). -/
def execCompositorRecord (b : Bytes) (s : State) : Outcome := recordCommand 0x0701 b recCompositor s

/-- A layer record that repeats one already taken is discarded (R178). -/
def dropLayer (c : Nat) (s : State) : State :=
  orphan (setCmp s c (fun x => { x with layerDropped := bump 8 x.layerDropped }))

/-- The video layer record, type 0x0702; its crop and window are settled at admission, over the whole image (R164, R178). -/
def recVideoLayer (b : Bytes) (s : State) : State :=
  cmpRecord 32 b (fun c s =>
    let l := clamp 0 3 (u8 b 1)
    if thas (cmp s c).v l then dropLayer c s
    else
      let t := clamp 0 2 (u8 b 3)
      let v : VLayer :=
        { z := clamp 0 15 (u8 b 2), srcType := t, src := sourceIn t (u16 b 4), opacity := u8 b 6, fallback := clamp 0 2 (u8 b 7)
          cropCfg := (List.range 4).map (fun i => u16 b (8 + 2 * i)), winCfg := (List.range 4).map (fun i => u16 b (16 + 2 * i))
          fill := (List.range 3).map (fun i => clamp 4 1019 (u16 b (24 + 2 * i))), visible := u8 b 30 != 0 }
      applied (setCmp s c (fun x => { x with v := tset x.v l (shapeLayer s c v) }))) s

/-- VIDEO_LAYER_RECORD (R178). -/
def execVideoLayerRecord (b : Bytes) (s : State) : Outcome := recordCommand 0x0702 b recVideoLayer s

/-- An open buffer address below 63 GiB for a number of bytes (R300; log entry 18). -/
def bufferAt (free size : Nat) : Nat := 256 * (free % ((hbmEnd - size) / 256 + 1))

/-- The graphics layer record, type 0x0703; firmware allocates its two slots (R169, R178). -/
def recGraphicsLayer (b : Bytes) (s : State) : State :=
  cmpRecord 12 b (fun c s =>
    let l := clamp 0 7 (u8 b 1)
    if thas (cmp s c).g l then dropLayer c s
    else
      let w := activeW (chan s c).raster
      let h := activeH (chan s c).raster
      let g : GLayer :=
        { z := clamp 0 15 (u8 b 2), visible := u8 b 3 != 0, x := evenIn 0 (w - 2) (u16 b 4), y := evenIn 0 (h - 2) (u16 b 6)
          maxW := evenIn 2 w (u16 b 8), maxH := evenIn 2 h (u16 b 10) }
      let (fa, s) := drawFree s
      let (fb, s) := drawFree s
      let g := { g with addrA := bufferAt fa (slotBytes g), addrB := bufferAt fb (slotBytes g) }
      applied (setCmp s c (fun x => { x with g := tset x.g l g }))) s

/-- GRAPHICS_LAYER_RECORD (R178). -/
def execGraphicsLayerRecord (b : Bytes) (s : State) : Outcome := recordCommand 0x0703 b recGraphicsLayer s

/-- The slate data record, type 0x0704: bytes beyond the slate's planes are ignored (R178). -/
def recSlateData (b : Bytes) (s : State) : State :=
  cmpRecord 12 b (fun c s =>
    let o := u32 b 4 / 4 * 4
    applied (setCmp s c (fun x =>
      { x with slate := cellWrite (some 0) x.slate o ((b.drop 8).take (5 * x.slateW * x.slateH - o)) }))) s

/-- SLATE_DATA_RECORD (R178). -/
def execSlateDataRecord (b : Bytes) (s : State) : Outcome := recordCommand 0x0704 b recSlateData s

/-- The widths of the regions that cross a line, summed (R171). -/
def lineLoad (l : Tab Region) (y : Nat) : Nat :=
  sumOf ((l.filter (fun e => decide (e.2.y ≤ y ∧ y < e.2.y + e.2.h))).map (fun e => e.2.w))

/-- Whether a region would overload some line (R171). -/
def overloads (l : Tab Region) (r : Region) (width : Nat) : Bool :=
  (r.y :: (l.map (fun e => e.2.y)).filter (fun y => decide (r.y ≤ y ∧ y < r.y + r.h))).any (fun y =>
    decide (2 * width < lineLoad l y + r.w))

/-- The region that a record of channel c describes, clipped to the picture (R171, R178). -/
def regionOf (s : State) (c : Nat) (b : Bytes) : Region :=
  let q := clipRect (activeW (chan s c).raster) (activeH (chan s c).raster) ((List.range 4).map (fun i => u16 b (4 + 2 * i)))
  { expSrc := clamp 0 9 (u8 b 2), x := q.getD 0 0, y := q.getD 1 0, w := q.getD 2 2, h := q.getD 3 2, host := u32 b 12 }

/-- A check-value unit held for topiary, set to the signature of R172 (R173, R362). -/
def heldUnit (x : CvUnit) : CvUnit :=
  let p := crcPreset 1
  { x with st := if x.st = 3 then 3 else 2, width := p.w, poly := p.g, init := p.i, xor := p.x, refIn := p.refIn, refOut := p.refOut, run := p.i }

/-- CVU48 to CVU63 are held for topiary once a region is taken (R173). -/
def holdTopUnits (s : State) : State :=
  if s.cvu.topHeld then s
  else
    { s with cvu := { s.cvu with
        topHeld := true, units := (List.range 16).foldl (fun t i => tupd t (48 + i) {} heldUnit) s.cvu.units } }

/-- The topiary region record, type 0x0705 (R171, R173, R178). -/
def recTopiaryRegion (b : Bytes) (s : State) : State :=
  cmpRecord 16 b (fun c s =>
    let k := clamp 0 15 (u8 b 1)
    let drop := fun (s : State) => setCmp s c (fun x => { x with topDropped := bump 8 x.topDropped })
    if thas (cmp s c).regions k then orphan (drop s)
    else
      let r := regionOf s c b
      if overloads (cmp s c).regions r (activeW (chan s c).raster) then drop s
      else
        let s := setCmp s c (fun x => { x with regions := tset x.regions k r })
        applied (holdTopUnits s)) s

/-- TOPIARY_REGION_RECORD (R171, R178). -/
def execTopiaryRegionRecord (b : Bytes) (s : State) : Outcome := recordCommand 0x0705 b recTopiaryRegion s

/-- Every video layer's shape settled over the whole image, and a slate fallback with no slate made a fill (R164, R178, R407). -/
def settleLayers (s : State) : State :=
  { s with cmps := tmap s.cmps (fun c x =>
      { x with v := tmap x.v (fun _ v =>
          let v := shapeLayer s c v
          { v with fallback := if v.fallback = 2 ∧ (x.slateW = 0 ∨ x.slateH = 0) then 1 else v.fallback }) }) }

/-! ### Pictures in HBM (R161, R194) -/

/-- The picture of a frame among those held. -/
def pictureAt (l : List Planes) (n : Nat) : Planes := (l.find? (fun p => p.frame == some n)).getD {}

/-- Lines of a frame written into the pictures held, newest first, of which the last three stay. -/
def putLines (n : Nat) (lines : List (Nat × PlaneLine)) (l : List Planes) : List Planes :=
  let write := fun (p : Planes) => { p with lines := lines.foldl (fun t e => tset t e.1 e.2) p.lines }
  if l.any (fun p => p.frame == some n) then l.map (fun p => if p.frame = some n then write p else p)
  else (write { frame := some n } :: l).take 3

/-- The active lines of a CTU row, by their numbers (R34). -/
def rowLineNumbers (raster row : Nat) : List Nat := (List.range (min 64 (activeH raster - 64 * row))).map (fun i => 64 * row + i)

/-- The samples of one component of a line: 0 luma, 1 Cb, 2 Cr. -/
def component (k : Nat) (l : PlaneLine) : List Nat := if k = 0 then l.y else if k = 1 then l.cb else l.cr

/-- A line from a function of component and place: the width in luma samples, chroma on the lines that carry it (R172). -/
def lineOf (width chroma y : Nat) (f : Nat → Nat → Nat) : PlaneLine :=
  let c := fun k => if chromaLine chroma y then (List.range (width / 2)).map (f k) else []
  { y := (List.range width).map (f 0), cb := c 1, cr := c 2 }

/-- Black: Y 64, Cb and Cr 512 (R148, R193). -/
def blackSample (k : Nat) : Nat := if k = 0 then 64 else 512

/-- A sample of a picture: the component, its place along the line, and the line. -/
def pictureSample (p : Picture) (k x y : Nat) : Nat := (component k (tgetD p.lines y {})).getD x 0

/-! ### Graphics and slates (R163, R167, R169) -/

/-- A pixel of colour and alpha planes in raster order: alpha, and Y, Cb or Cr of its colour; `byte` reads the planes (R163, R169,
Table 3). -/
def planePixel (byte : Nat → Nat) (colour w h k x y : Nat) : Nat × Nat :=
  let o := 4 * (y * w + x)
  let v := byte o + 256 * byte (o + 1) + 65536 * byte (o + 2) + 16777216 * byte (o + 3)
  let c := graphicsYcc colour (bitsOf v 29 20) (bitsOf v 19 10) (bitsOf v 9 0)
  (byte (4 * w * h + y * w + x), if k = 0 then c.1 else if k = 1 then c.2.1 else c.2.2)

/-- The slate over a sample, its top-left corner at (ox, oy), clipped to what it covers; a byte that no record supplies is zero (R167,
R178, R194). -/
def slateOver (x : Cmp) (colour k : Nat) (ox oy : Int) (px py below : Nat) : Nat :=
  let dx := (px : Int) - ox
  let dy := (py : Int) - oy
  if 0 ≤ dx ∧ dx < x.slateW ∧ 0 ≤ dy ∧ dy < x.slateH then
    let r := planePixel (fun o => ((cellGet x.slate o).getD 0).toNat) colour x.slateW x.slateH k dx.toNat dy.toNat
    blend r.1 r.2 below
  else below

/-- Where a slate stands to be centred in a rectangle's side. -/
def centred (start size slate : Nat) : Int := start + ((size : Int) - slate) / 2

/-- A line of a channel's slate, centred over black and clipped to the active picture; black where it has none (R194). -/
def slateLine (s : State) (c y : Nat) : PlaneLine :=
  let ch := chan s c
  let x := tgetD s.cmps c {}
  let w := activeW ch.raster
  lineOf w ch.chroma y (fun k i =>
    slateOver x ch.colour k (centred 0 w x.slateW) (centred 0 (activeH ch.raster) x.slateH) (if k = 0 then i else 2 * i) y (blackSample k))

/-! ### Layers (R161, R162, R164, R165, R167) -/

/-- A sample of a layer's scaled picture, from the crop samples that the filters span: four times the ratio and one more on each axis
(R165; log entry 109). Chroma is scaled in its own plane, also from 4:2:2 to 4:2:0. -/
def layerScaled (v : VLayer) (chroma k x y : Nat) : Nat :=
  let sub := fun (a : Nat) => if k = 0 then a else a / 2
  let rows := fun (f a : Nat) => if k = 0 ∨ f = 1 then a else a / 2
  let cw := sub (v.crop.getD 2 2)
  let ch := rows v.image.chroma (v.crop.getD 3 2)
  let dw := sub v.drawnW
  let dh := rows chroma v.drawnH
  let nh := 4 * ceilDiv cw dw + 1
  let nv := 4 * ceilDiv ch dh + 1
  let pick := fun (n c d i j : Nat) => (clampI 0 ((n : Int) - 1) ((j * n / d : Nat) + (i : Int) - (c / 2 : Nat))).toNat
  Config.layerSample cw dw x ch dh y ((List.range nv).flatMap (fun j => (List.range nh).map (fun i =>
    let line := rows v.image.chroma (v.crop.getD 1 0) + pick ch nv dh j y
    pictureSample v.image k (sub (v.crop.getD 0 0) + pick cw nh dw i x) (if k = 0 ∨ v.image.chroma = 1 then line else 2 * line))))

/-- What a video layer puts on a sample, with its α: nothing outside its window, where its scaled picture does not reach, or where it is
hidden; else its source, its fill colour, or the slate over the fill (R162, R165 to R167). The place is that of the luma sample with
which a chroma sample is co-sited. -/
def videoSample (cm : Cmp) (colour chroma k x y : Nat) (v : VLayer) : Option (Nat × Nat) :=
  let wx := v.win.getD 0 0
  let wy := v.win.getD 1 0
  let ww := v.win.getD 2 2
  let wh := v.win.getD 3 2
  let fill := v.fill.getD k 0
  if x < wx ∨ wx + ww ≤ x ∨ y < wy ∨ wy + wh ≤ y then none
  else
    match v.showing with
    | .hidden => none
    | .fallback =>
      if v.fallback = 0 then none
      else if v.fallback = 1 then some (v.opacity, fill)
      else some (v.opacity, slateOver cm colour k (centred wx ww cm.slateW) (centred wy wh cm.slateH) x y fill)
    | .live | .repeated =>
      if v.srcType = 0 then some (v.opacity, fill)
      else if x - wx < v.drawnW ∧ y - wy < v.drawnH then
        some (v.opacity, layerScaled v chroma k (if k = 0 then x - wx else (x - wx) / 2)
          (if k = 0 ∨ chroma = 1 then y - wy else (y - wy) / 2))
      else none

/-- What a graphics layer puts on a sample, from the bytes of its current slot: its picture at its position, of the width and height of
its header held to the layer's maximum, never scaled (R162, R163, R169). -/
def graphicsSample (bytes : Bytes) (colour k x y : Nat) (g : GLayer) : Option (Nat × Nat) :=
  let w := evenIn 2 g.maxW (u16 bytes 0)
  let h := evenIn 2 g.maxH (u16 bytes 2)
  if x < g.x ∨ g.x + w ≤ x ∨ y < g.y ∨ g.y + h ≤ y then none
  else some (planePixel (fun o => u8 bytes (128 + o)) colour w h k (x - g.x) (y - g.y))

/-- The layers of a frame as the compositor stacks them: Z value, place among equal Z values, and what each puts on a sample. -/
abbrev LayerStack := List (Nat × Nat × (Nat → Nat → Nat → Option (Nat × Nat)))

/-- A layer put in its place of the stack (R162). -/
def stackIn (e : Nat × Nat × (Nat → Nat → Nat → Option (Nat × Nat))) : LayerStack → LayerStack
  | [] => [e]
  | f :: rest => if stackedBelow e.1 e.2.1 f.1 f.2.1 then e :: f :: rest else f :: stackIn e rest

/-- The stack of a frame from the bottom up: its video layers, and its visible graphics layers with the bytes of their slots (R162,
R167). -/
def stackOf (cm : Cmp) (colour chroma : Nat) (p : FramePlan) (slots : Tab Bytes) : LayerStack :=
  let vs := p.v.map (fun e => (e.2.z, e.1, fun k x y => videoSample cm colour chroma k x y e.2))
  let gs := (p.g.filter (fun e => e.2.visible && e.2.slot.isSome)).map (fun e =>
    (e.2.z, 8 + e.1, fun k x y => graphicsSample (tgetD slots e.1 []) colour k x y e.2))
  (vs ++ gs).foldl (fun l e => stackIn e l) []

/-- A composed line: every layer blended onto the background in order; a chroma sample uses what stands at its co-sited luma sample
(R161, R162). -/
def composeLine (stack : LayerStack) (width chroma y : Nat) (background : PlaneLine) : PlaneLine :=
  lineOf width chroma y (fun k i =>
    blendAll ((component k background).getD i 0) (stack.filterMap (fun e => e.2.2 k (if k = 0 then i else 2 * i) y)))

/-! ### Layer changes from the shadow set (R168, R170, R182) -/

/-- A video layer's source, opacity and visibility change; a new source discards its last ready picture (R168, R180). -/
def applyLayer (c l srcType src opacity : Nat) (visible : Bool) (s : State) : State :=
  setCmp s c (fun x => { x with v := tmod x.v l (fun v =>
    let moved := v.srcType != srcType || v.src != src
    let v := { v with srcType := srcType, src := src, opacity := opacity, visible := visible }
    let v := if moved then { v with held := false, repeats := 0, image := {} } else v
    shapeLayer s c v) })

/-- A graphics layer's position: x and y as CMP_G_X and CMP_G_Y (R182). -/
def movedTo (s : State) (c : Nat) (pos : Option Nat) (g : GLayer) : GLayer :=
  match pos with
  | none => g
  | some v =>
    { g with x := evenIn 0 (activeW (chan s c).raster - 2) (v % 65536)
             y := evenIn 0 (activeH (chan s c).raster - 2) (v / 65536 % 65536) }

/-- The overlay item whose completion waits for the slot that a flip of a layer displaces: the one whose commit stands at the tick, which is
the last committed (R40, R170). -/
def flipItem (s : State) (c l n : Nat) : Option Nat :=
  (s.pvd.items.foldl (fun (a : Option (Nat × Nat)) i => match i.host with
    | some h =>
      if h.waits && h.committed && h.channel == c && decide (h.target ≤ n) && a.all (fun b => decide (b.2 < h.commitNo)) &&
          (match h.change with
           | .graphics k _ _ (some _) => k == l
           | _ => false) then some (i.order, h.commitNo) else a
    | none => a) none).map (fun a => a.1)

/-- A graphics layer flips, moves or is shown at frame n: the slot it leaves stays in use until its last frame is composed (R170,
R182). -/
def applyGraphics (c l n : Nat) (visible : Bool) (pos slot : Option Nat) (s : State) : State :=
  setCmp s c (fun x => { x with g := tmod x.g l (fun g =>
    let g := movedTo s c pos { g with visible := visible }
    match slot with
    | none => g
    | some k =>
      match g.slot with
      | none => { g with slot := some k }
      | some old =>
        if old = k then g
        else { g with slot := some k, displaced := some { slot := old, lastFrame := n - 1, item := flipItem s c l n } }) })

/-- A region's host value changes (R174, R182). -/
def applyExpected (c k v : Nat) (s : State) : State :=
  setCmp s c (fun x => { x with regions := tmod x.regions k (fun r => { r with host := v }) })

/-! ### The frame tick (R166, R167) -/

/-- The latest frame of an ingest source whose next frame tick is no later than a time (R166). -/
def sourceFrame (rate t : Nat) : Nat := frameNow rate t - 1

/-- Whether ingest delivered a frame of a channel with no member substituted: as its group has judged it, or, where the tick that ends
the frame fires in this cycle and is still to come, as it will (R33, R166, R193). -/
def deliveredWhole (s : State) (c m : Nat) : Bool :=
  match tget s.ing.groups c with
  | none => true
  | some g => g.wholeFrames.contains m ||
      ((chan s c).lastFrame == some m && g.members.all (fun e => e.2.st == 0 && !e.2.underran))

/-- The source picture that a video layer latches at frame tick n of its channel: whether it is ready, its frame number or presentation
time, and its samples (R149, R166). -/
def layerSource (s : State) (rate n : Nat) (v : VLayer) : Bool × Nat × Picture :=
  if v.srcType = 0 then (true, 0, {})
  else if v.srcType = 1 then
    match tget s.enc.chans v.src with
    | none => (false, 0, {})
    | some h =>
      let m := sourceFrame h.rate (frameTickAt rate n)
      let p := pictureAt (tgetD s.ing.pics v.src []) m
      (h.st == 1 && deliveredWhole s v.src m, m, { w := activeW h.raster, h := activeH h.raster, chroma := h.chroma, lines := p.lines })
  else
    match tget s.dec.ctxs v.src with
    | none => (false, 0, {})
    | some d =>
      match layerPicture d rate n with
      | some (o, ready) => (d.st == 1 && d.use == 1 && ready, o.pts, o.picture)
      | none => (false, 0, {})

/-- The presentation time in ns and the decode fingerprint of the picture that a layer latches from a decode context (R149, R249). -/
def latchedPrint (s : State) (rate n : Nat) (v : VLayer) : Option (Nat × Nat) :=
  if v.srcType = 2 then
    ((tget s.dec.ctxs v.src).bind (fun d => layerPicture d rate n)).map (fun r =>
      (presentationTime (frameTickAt rate n) r.1.pts / nsUnit, r.1.print))
  else none

/-- What a video layer shows in a frame, given its readiness and the picture latched (R167). DESIGN CHOICE: a layer whose fallback is
'hidden' counts as showing its fallback too (log entry 120). -/
def showLayer (holdF : Nat) (ready : Bool) (picture : Nat) (image : Picture) (v : VLayer) : VLayer :=
  let v := { v with ready := ready }
  if !v.visible then { v with showing := .hidden }
  else if ready then { v with showing := .live, held := true, repeats := 0, picture := picture, image := image }
  else if v.held ∧ v.repeats < holdF then { v with showing := .repeated, repeats := v.repeats + 1 }
  else { v with showing := .fallback }

/-- How many layers show a given thing. -/
def showingCount (t : Tab VLayer) (k : Showing) : Nat := (t.filter (fun e => e.2.showing == k)).length

/-- A channel's compositor at frame tick n: it latches one source picture per layer, judges readiness, and keeps what every row of the
frame is composed from (R41, R166, R167). DESIGN CHOICE: while it is fenced, CMP_V_READY, CMP_V_REPEAT and CMP_V_FALLBACK_ON keep the values
of the last frame tick before the fence (R177, R179; log entry 145). -/
def composeTick (c n : Nat) (s : State) : State :=
  let x := cmp s c
  if x.fenced || !thas s.cmps c then s
  else
    let v := tmap x.v (fun _ v =>
      let r := layerSource s (chan s c).rate n v
      shapeLayer s c (showLayer x.holdF r.1 r.2.1 r.2.2 { v with latched := if r.1 then latchedPrint s (chan s c).rate n v else none }))
    setCmp s c (fun x =>
      { x with v := v, repeats := bumpBy 32 x.repeats (showingCount v .repeated)
               fallbacks := bumpBy 32 x.fallbacks (showingCount v .fallback)
               plans := tset (x.plans.filter (fun e => decide (n ≤ e.1 + 1))) n { v := v, g := x.g } })

/-! ### Rows and regions (R172 to R177) -/

/-- The HBM address of the current slot of a graphics layer. -/
def currentSlot (g : GLayer) : Option Nat := g.slot.map (slotAddr g)

/-- The expected value of a region for a frame: the host's, or that of a visible graphics layer's current buffer where its header
marks it valid (R174). -/
def expectedOf (x : Cmp) (k : Nat) (r : Region) (s : State) : Option Nat × State :=
  if r.expSrc = 0 then (none, s)
  else if r.expSrc = 1 then (some r.host, s)
  else
    match tget x.g (r.expSrc - 2) with
    | none => (none, s)
    | some g =>
      match g.visible, currentSlot g with
      | true, some a =>
        let (h, s) := hbmRead a 128 s
        (if bitOf (u16 h 4) k then some (u32 h (64 + 4 * k)) else none, s)
      | _, _ => (none, s)

/-- Row 0 of a frame closes: every region takes its expected value for the frame and starts unspoiled (R174). DESIGN CHOICE:
CMP_TOP_MISMATCH_LAST is cleared here, so that it shows the frame in progress from then on (R179; log entry 145). -/
def startRegions (c : Nat) (s : State) : State :=
  let s := setCmp s c (fun x => { x with mismatchLast := 0, topRetry := s.flt.retrying.contains (faultKey 0x03D c) })
  (tkeys (cmp s c).regions).foldl (fun s k =>
    match tget (cmp s c).regions k with
    | none => s
    | some r =>
      let (e, s) := expectedOf (cmp s c) k r s
      setCmp s c (fun x => { x with regions := tmod x.regions k (fun r => { r with expected := e, spoiled := false }) })) s

/-- Whether comparison is suspended for want of topiary units (R173). -/
def topSuspended (s : State) : Bool := decide (topUnits s < 8)

/-- Whether a region's rectangle crosses a CTU row. -/
def crossesRow (r : Region) (row : Nat) : Bool := decide (r.y < 64 * (row + 1) ∧ 64 * row < r.y + r.h)

/-- The topiary units in service, lowest first (R173). -/
def freeTopUnits (s : State) : List Nat := ((List.range 16).map (fun i => 48 + i)).filter (fun u => !s.cvu.topFenced.contains u)

/-- One segment of a region is fed: the unit's running value is restored from the region's context slot, the segment is fed and the value
is saved back (R172, R173). -/
def feedSegment (c k unit : Nat) (first : Bool) (s : State) (bytes : Bytes) : State :=
  let start := if first then 0xFFFFFFFF else (tgetD (cmp s c).regions k {}).running
  let run := crcRun (crcPreset 1) 8 start (symbols bytes)
  modUnit (setCmp s c (fun x => { x with regions := tmod x.regions k (fun r => { r with running := run }) })) unit (fun u => { u with run := run })

/-- The bytes of a region on a composed line (R172). -/
def segmentBytes (chroma : Nat) (r : Region) (y : Nat) (l : PlaneLine) : Bytes :=
  let cut := fun (a : List Nat) => (a.drop (r.x / 2)).take (r.w / 2)
  regionLineBytes chroma y ((l.y.drop r.x).take r.w) (cut l.cb) (cut l.cr)

/-- The result of a region is final with the row of its last line, and is compared where it has an expected value and nothing keeps it
unchecked (R174, R175, R177). DESIGN CHOICE: a frame of a region set to off is not counted in CMP_TOP_UNCHECKED (log entry 145). -/
def closeRegion (c k : Nat) (s : State) : State :=
  let s := if (cmp s c).topRetry then
      setCmp { s with flt := { s.flt with retrying := sdel s.flt.retrying (faultKey 0x03D c) } } c
        (fun x => { x with topRetry := false })
    else s
  match tget (cmp s c).regions k with
  | none => s
  | some r =>
    let result := crcFinal (crcPreset 1) r.running
    let s := setCmp s c (fun x => { x with regions := tmod x.regions k (fun r => { r with last := result }) })
    if r.expSrc = 0 then s
    else
      match r.expected, r.spoiled || (cmp s c).fenced || topSuspended s with
      | some e, false =>
        if e = result then s
        else
          raise 0x03D c (setCmp s c (fun x =>
            { x with mismatchLast := setBit x.mismatchLast k, mismatches := bump32 x.mismatches }))
      | _, _ => setCmp s c (fun x => { x with unchecked := bump32 x.unchecked })

/-- A region at the closing of a row it crosses: its segments on the composed lines are fed in order, each through a free unit, and with
its last line its result is final (R172 to R174). `place` is its place among the regions of the row. -/
def feedRegion (c row chroma place : Nat) (lines : List (Nat × PlaneLine)) (k : Nat) (s : State) : State :=
  match tget (cmp s c).regions k with
  | none => s
  | some r =>
    let units := freeTopUnits s
    let own := lines.filter (fun l => decide (r.y ≤ l.1 ∧ l.1 < r.y + r.h))
    let s := if units.isEmpty then s else own.foldl (fun s l =>
      feedSegment c k (units.getD (place % units.length) 48) (l.1 == r.y) s (segmentBytes chroma r l.1 l.2)) s
    if (r.y + r.h - 1) / 64 = row then closeRegion c k s else s

/-- The bytes of the current slots of the visible graphics layers of a frame (R169). -/
def slotContents (p : FramePlan) (s : State) : Tab Bytes × State :=
  p.g.foldl (fun a e =>
    match e.2.visible, currentSlot e.2 with
    | true, some addr => let r := hbmRead addr (slotBytes e.2) a.2; (a.1 ++ [(e.1, r.1)], r.2)
    | _, _ => a) ([], s)

/-- The reads that a row makes of a slot: its header with the first row, and the lines of its two planes that the row crosses, each an
address and a number of bytes (R169). -/
def slotReads (g : GLayer) (data : Bytes) (row addr : Nat) : List (Nat × Nat) :=
  let w := evenIn 2 g.maxW (u16 data 0)
  let h := evenIn 2 g.maxH (u16 data 2)
  let a := 64 * row - g.y
  let b := min h (64 * row + 64 - g.y)
  (if row = 0 then [(addr, 128)] else []) ++
    (if a < b then [(addr + 128 + 4 * w * a, 4 * w * (b - a)), (addr + 128 + 4 * w * h + w * a, w * (b - a))] else [])

/-- The poisoned accesses that the compositor reads for a row of a frame (R308). -/
def rowPoison (p : FramePlan) (slots : Tab Bytes) (row : Nat) (s : State) : List Nat :=
  (p.g.flatMap (fun e =>
    match e.2.visible, currentSlot e.2 with
    | true, some addr => (slotReads e.2 (tgetD slots e.1 []) row addr).flatMap (fun r => poisonedIn s r.1 r.2)
    | _, _ => [])).dedup

/-- The composition of a row of frame n closes: its lines, composed from the ingest picture and the layers of the frame, are in HBM, those
that an incomplete stage had not reached as background alone, which spoils the regions that cross the row; the regions are fed (R161,
R174, R177). A fenced compositor is bypassed. DESIGN CHOICE: a row whose read came back poisoned is background from its first line, since
R308 does not say which lines the read was for (log entry 135). -/
def composeCloses (c n row : Nat) (env : RowEnv) (s : State) : State :=
  let ch := chan s c
  let missed := env.incomplete.find? (fun o => o.stage == .composition && o.row == row)
  let s := if row = 0 then startRegions c s else s
  let bg := pictureAt (tgetD s.ing.pics c []) n
  let plan := tgetD (cmp s c).plans n {}
  let (slots, s) := slotContents plan s
  let poison := if (cmp s c).fenced then [] else rowPoison plan slots row s
  let s := reportPoison poison s
  let broken := (cmp s c).broken || !poison.isEmpty
  let failed := missed.isSome || broken
  let stack := if (cmp s c).fenced then [] else stackOf (cmp s c) ch.colour ch.chroma plan slots
  let reach := 64 * row + (if broken then 0 else missed.elim 64 (fun o => o.lines))
  let lines := (rowLineNumbers ch.raster row).map (fun y =>
    (y, composeLine (if y < reach then stack else []) (activeW ch.raster) ch.chroma y (tgetD bg.lines y {})))
  let s := setCmp s c (fun x => { x with pics := putLines n lines x.pics, broken := false })
  let s := if failed then
      raise 0x03C c (setCmp s c (fun x => { x with regions := tmap x.regions (fun _ r =>
        if crossesRow r row then { r with spoiled := true } else r) }))
    else s
  let crossing := tkeysOf (cmp s c).regions (fun _ r => crossesRow r row)
  crossing.zipIdx.foldl (fun s e => feedRegion c row ch.chroma e.2 lines e.1 s) s

/-! ### Registers and commands (R179 to R181) -/

/-- The bits of the video layers that pass a test. -/
def layerBits (x : Cmp) (p : VLayer → Bool) : Nat := maskOf (tkeysOf x.v (fun _ v => p v)) 4

/-- A channel's composition words, by offset (R179). -/
def composeWord (x : Cmp) (off : Nat) : Nat :=
  match off with
  | 0x00 => packWord [(layerBits x (fun v => v.ready), 0), (layerBits x (fun v => v.showing == .repeated), 4),
      (layerBits x (fun v => v.showing == .fallback), 8), (layerBits x (fun v => v.clamped), 12),
      (maskOf (tkeysOf x.g (fun _ g => g.slot == some 1)) 8, 16), (b2n x.fenced, 24)]
  | 0x04 => packWord [(x.mismatchLast, 0), (maskOf (tkeys x.regions) 16, 16)]
  | 0x08 => x.mismatches
  | 0x0C => x.unchecked
  | 0x10 => x.repeats
  | 0x14 => x.fallbacks
  | 0x18 => packWord [(x.topDropped, 0), (x.layerDropped, 8)]
  | _ => 0

/-- The owner word at 0xB800 (R179). -/
def topWord (s : State) : Nat := packWord [(topUnits s, 0), (b2n (topSuspended s), 5)]

/-- CMP_CH_INFO, opcode 0x0710 (R181). -/
def cmdCmpChInfo (r : Req) (s : State) : State :=
  takeRequest 0x0710 false infoLegal r (fun p s =>
    let c := f8 (payloadOf r) 0 0 63
    if !ownsChannel s p c.val then reply p r 0x0710 .notInPartition false [] s
    else
      let x := cmp s c.val
      let addrs := (List.range 8).flatMap (fun l =>
        let g := tgetD x.g l {}
        le 8 g.addrA ++ le 8 g.addrB)
      reply p r 0x0710 .ok (c.clamped || lenClamped r)
        (wordBytes ((List.range 8).map (fun i => composeWord x (4 * i))) ++ addrs) s) s

/-- CMP_CH_INFO (R181). -/
def execCmpChInfo (r : Req) (s : State) : Outcome := done (cmdCmpChInfo r s)

/-- CMP_SET_LAYER, opcode 0x0711: a layer change through the shadow set (R180, R264). A layer with no record is not ready (log
entry 16). -/
def cmdCmpSetLayer (r : Req) (s : State) : State :=
  takeRequest 0x0711 false changeLegal r (fun p s =>
    let b := payloadOf r
    let c := f8 b 0 0 63
    if !ownsChannel s p c.val then reply p r 0x0711 .notInPartition false [] s
    else
      let l := f8 b 1 0 3
      let t := f8 b 2 0 2
      let vis := f8 b 3 0 1
      let src := sourceIn t.val (u16 b 4)
      let clamped := c.clamped || l.clamped || t.clamped || vis.clamped || src != u16 b 4 || lenClamped r
      if !thas (cmp s c.val).v l.val || !chanRunning s c.val then reply p r 0x0711 .notReady false [] s
      else
        let data := le 1 c.val ++ le 1 l.val ++ le 1 t.val ++ le 1 vis.val ++ le 2 src ++ le 1 (u8 b 6) ++ [0]
        changeFor p r 0x0711 c.val (u32 b 8) clamped data (.layer l.val t.val src (u8 b 6) (vis.val == 1)) s) s

/-- CMP_SET_LAYER (R180). -/
def execCmpSetLayer (r : Req) (s : State) : Outcome := done (cmdCmpSetLayer r s)

end Sys2Proof.Machine
end

