-- ==== Sys2Proof/Machine/Ingest.lean ====
section
/-! DEFINITION. Ingest: flows, alignment groups, formats, placement, loss and rejoin (chapter 9), and the ingress policers of
R238. -/

namespace Sys2Proof.Machine

/-- An alignment group of a channel. -/
def group (s : State) (c : Nat) : Group := tgetD s.ing.groups c {}

/-- The state with a group changed, where the channel has one. -/
def modGroup (s : State) (c : Nat) (f : Group → Group) : State :=
  { s with ing := { s.ing with groups := tmod s.ing.groups c f } }

/-- The state with a member changed, where the group has it. -/
def modMember (s : State) (c k : Nat) (f : Member → Member) : State :=
  modGroup s c (fun g => { g with members := tmod g.members k f })

/-- The state with an ingress flow changed, where it has a record. -/
def modFlow (s : State) (i : Nat) (f : InFlow → InFlow) : State :=
  { s with ing := { s.ing with flows := tmod s.ing.flows i f } }

/-! ### Records (R188, R190, R197) -/

/-- The ingress flow record, type 0x0501 (R197). A second record for a flow is discarded (log entry 19). -/
def recIngressFlow (b : Bytes) (s : State) : State :=
  sized 48 b (fun s =>
    let i := clamp 0 1023 (u16 b 0)
    if thas s.ing.flows i then orphan s
    else
      let f : InFlow :=
        { kind := clamp 0 4 (u8 b 2), family := clamp 0 1 (u8 b 3), portA := clamp 0 15 (u8 b 4)
          portB := if u8 b 5 ≤ 15 then some (u8 b 5) else none, udp := max 1 (u16 b 6), destA := bytesAt b 8 16
          destB := bytesAt b 24 16, pt := clamp 96 127 (u8 b 40), pdMs := orDefault (u8 b 41) 10 1 50
          vlan := clamp 0 4094 (u16 b 42), ssrc := u32 b 44 }
      applied { s with ing := { s.ing with flows := tset s.ing.flows i f } }) s

/-- INGRESS_FLOW_RECORD (R197). -/
def execIngressFlowRecord (b : Bytes) (s : State) : Outcome := recordCommand 0x0501 b recIngressFlow s

/-- The parts of a group's kind are quadrants (R188). -/
def quadrants (kind : Nat) : Bool := kind == 2 || kind == 4

/-- The frame period rounded up to a whole microsecond (R190). -/
def periodUs (rate : Nat) : Nat := ceilDiv (1000000 * rateD rate) (rateN rate)

/-- The alignment group record, type 0x0502; square division raises the offset to a frame period (R190, R197; log entry 20). -/
def recAlignmentGroup (b : Bytes) (s : State) : State :=
  sized 12 b (fun s =>
    let c := clamp 0 63 (u8 b 0)
    if (chan s c).taken = false ∨ thas s.ing.groups c = true then orphan s
    else
      let kind := clamp 0 4 (u8 b 1)
      let o := clampI (-100000) 100000 (s32 b 4)
      let low := quadrants kind && decide (o < periodUs (chan s c).rate)
      let g : Group :=
        { kind := kind, chroma := if kind ≤ 2 then 1 else clamp 0 1 (u8 b 2), holdF := orDefault (u8 b 3) 3 1 30
          offsetUs := if low then periodUs (chan s c).rate else o, rejoinF := orDefault (u8 b 8) 2 1 16, raised := low }
      applied { s with ing := { s.ing with groups := tset s.ing.groups c g } }) s

/-- ALIGNMENT_GROUP_RECORD (R197). -/
def execAlignmentGroupRecord (b : Bytes) (s : State) : Outcome := recordCommand 0x0502 b recAlignmentGroup s

/-- Whether a source suits a member type: the source type and, for a flow, its kind. A flow or an AES3 input without a record is no source
(R6, R188, R197, R407). -/
def sourceSuits (s : State) (type srcType src : Nat) : Bool :=
  if srcType = 0 then type != 1
  else if srcType = 2 then type == 1 && thas s.aud.ins src
  else
    match tget s.ing.flows src with
    | none => false
    | some f => if type = 0 then f.kind == 0 else if type = 1 then f.kind == 1 || f.kind == 2 else f.kind == 3

/-- Whether some group already has a source as a member; an SDI input's video and its ancillary space are two sources (R188). -/
def sourceTaken (s : State) (type srcType src : Nat) : Bool :=
  s.ing.groups.any (fun g => g.2.members.any (fun m =>
    m.2.srcType == srcType && m.2.src == src && (srcType != 0 || m.2.type == type)))

/-- The group member record, type 0x0503 (R188, R197). A member starts lost with its hold spent (R196). -/
def recGroupMember (b : Bytes) (s : State) : State :=
  sized 8 b (fun s =>
    let c := clamp 0 63 (u8 b 0)
    let k := clamp 0 15 (u8 b 1)
    let type := clamp 0 2 (u8 b 2)
    let t := clamp 0 2 (u8 b 3)
    let src := clamp 0 (if t = 0 then 15 else if t = 1 then 1023 else 31) (u16 b 4)
    if (chan s c).taken = false ∨ thas s.ing.groups c = false ∨ thas (group s c).members k = true ∨
        sourceSuits s type t src = false ∨ sourceTaken s type t src = true then orphan s
    else
      let m : Member :=
        { type := type, srcType := t, src := src, part := if type = 0 then clamp 0 3 (u8 b 6) else 0, hold := 30 }
      applied (modGroup s c (fun g => { g with members := tset g.members k m }))) s

/-- GROUP_MEMBER_RECORD (R197). -/
def execGroupMemberRecord (b : Bytes) (s : State) : Outcome := recordCommand 0x0503 b recGroupMember s

/-- Whether a group's video members fit its kind (R188): one of part 0, or four of parts 0 to 3 each once, all of the kind's
source type. A channel with no group has none to fit. -/
def groupFits (s : State) (c : Nat) : Bool :=
  match tget s.ing.groups c with
  | none => true
  | some g =>
    let vids := (g.members.filter (fun m => m.2.type == 0)).map (fun m => m.2)
    let parts := if g.kind = 0 ∨ g.kind = 3 then [0] else [0, 1, 2, 3]
    vids.all (fun m => m.srcType == (if g.kind ≤ 2 then 0 else 1)) && vids.length == parts.length &&
      parts.all (fun p => vids.any (fun m => m.part == p))

/-! ### Placement (R189, R190) -/

/-- The tick nearest a time, ties to the later, and the distance from it (R189). -/
def nearestTick (rate : Nat) (x : Int) : Nat × Int :=
  let n := frameNow rate x.toNat
  let lo := x - (frameTickAt rate n : Int)
  let hi := (frameTickAt rate (n + 1) : Int) - x
  if lo < hi then (n, -lo) else (n + 1, hi)

/-- A group's offset in units of time. -/
def offsetOf (g : Group) : Int := g.offsetUs * (usUnit : Int)

/-- A frame of a member begins on a tick. -/
def beginFrame (tick ts : Nat) (x : Int) (misaligned : Bool) (m : Member) : Member :=
  { m with placed := tick, placedTs := ts
           frames := tupd m.frames tick {} (fun f => { f with stamp := ts, time := x, misaligned := f.misaligned || misaligned }) }

/-- A member frame with media time t is placed: the first of a join fixes φ, later ones go to the nearest tick and may be
misaligned (R189). -/
def placeFrame (rate : Nat) (g : Group) (t : Int) (ts : Nat) (m : Member) : Member :=
  let x := t + offsetOf g
  match m.phase with
  | none =>
    let r := nearestTick rate x
    beginFrame r.1 ts x false { m with phase := some r.2 }
  | some phi =>
    let r := nearestTick rate (x + phi)
    beginFrame r.1 ts x (decide (((rateD rate * secUnit : Nat) : Int) < 4 * rateN rate * (r.2.natAbs : Int))) m

/-- The active line of the channel's raster that a member's line y belongs to (R188). -/
def channelLine (kind raster part y : Nat) : Nat :=
  if kind = 1 then 2 * y + part / 2
  else if quadrants kind then y + (if 2 ≤ part then activeH raster / 2 else 0)
  else y

/-- A line's slack: the deadline 2.0 µs before its row's arrival tick, less its reception, in ns (R190). -/
def lineSlack (ch : Chan) (g : Group) (m : Member) (y received : Nat) : Int :=
  let r := channelLine g.kind ch.raster m.part y / 64
  let deadline := (rowTickAt ch.raster ch.rate m.placed (r + 1) : Int) - 2 * (usUnit : Int)
  clampI (-(2 ^ 31 - 1)) (2 ^ 31 - 1) ((deadline - (received : Int)) / (nsUnit : Int))

/-- A member whose input does not match the channel: treated as absent and counted when it is first seen in a frame (R183). -/
def noteMismatch (m : Member) : Member :=
  { m with mismatch := true, formatMis := if m.mismatch then m.formatMis else satAdd 32 m.formatMis 1 }

/-! ### Shares (R185, R188, R191, R193) -/

/-- Samples of a line that arrived in time, kept for the tick that the member's present frame is placed on. -/
def keepSegment (y : Nat) (seg : ShareSeg) (m : Member) : Member :=
  { m with frames := tupd m.frames m.placed {} (fun f => { f with lines := tupd f.lines y [] (fun l => seg :: l) }) }

/-- Samples of a line received: the least slack is kept; a line that is late is not in HBM when its row needs it (R190 to R192). -/
def noteLine (ch : Chan) (g : Group) (y received : Nat) (seg : ShareSeg) (m : Member) : Member :=
  let k := lineSlack ch g m y received
  let m := { m with heard := true, slack := min m.slack k }
  if k < 0 then m else keepSegment y seg m

/-- The newest segment of a line that covers a place. -/
def segmentAt (l : List ShareSeg) (x : Nat) : Option ShareSeg := l.find? (fun s => decide (s.offset ≤ x ∧ x < s.offset + s.length))

/-- Whether a line of a frame has arrived whole (R191). -/
def lineWhole (width : Nat) (l : List ShareSeg) : Bool := (List.range width).all (fun x => (segmentAt l x).isSome)

/-- A line of a share put together from its segments, in the input's chroma format. -/
def shareLine (width chroma y : Nat) (l : List ShareSeg) : PlaneLine :=
  lineOf width chroma y (fun k x =>
    let at_ := if k = 0 then x else 2 * x
    match segmentAt l at_ with
    | some s => (component k s.line).getD (if k = 0 then x - s.offset else x - s.offset / 2) 0
    | none => blackSample k)

/-- Width and height of a member's share (R188). -/
def shareSize (kind raster : Nat) : Nat × Nat :=
  if kind = 0 ∨ kind = 3 then (activeW raster, activeH raster) else (activeW raster / 2, activeH raster / 2)

/-- The lines of a member's share that lie in a row of the channel (R188, R190). -/
def shareLines (kind raster part row : Nat) : List Nat :=
  (List.range (shareSize kind raster).2).filter (fun y => channelLine kind raster part y / 64 == row)

/-- Whether a member's share of a row of frame n is complete (R191). -/
def shareWhole (ch : Chan) (g : Group) (n row : Nat) (m : Member) : Bool :=
  let f := tgetD m.frames n {}
  (shareLines g.kind ch.raster m.part row).all (fun y => lineWhole (shareSize g.kind ch.raster).1 (tgetD f.lines y []))

/-- A video member at the arrival tick of a row of frame n: an incomplete share underruns, once a frame, and ends what of the frame is used;
the lines of a whole one, on a joined member, become the last delivered (R191, R193). A frame of a rejoin is judged and not used
(R192). -/
def memberRow (ch : Chan) (g : Group) (n row : Nat) (m : Member) : Member :=
  if m.type ≠ 0 then m
  else if m.underran then m
  else if shareWhole ch g n row m then
    if m.st ≠ 0 then m
    else
      let w := (shareSize g.kind ch.raster).1
      let f := tgetD m.frames n {}
      { m with last := (shareLines g.kind ch.raster m.part row).foldl (fun t y =>
          tset t y (shareLine w g.chroma y (tgetD f.lines y []))) m.last }
  else if m.st = 0 then { m with short := true, underran := true, underruns := satAdd 32 m.underruns 1 }
  else { m with short := true }

/-- A line of a member's share as it stands in the ingest picture: the last delivered, which for a joined member that has not underrun is
that of the frame, and black where it is lost and no longer repeats (R191, R193). -/
def memberLine (width chroma y : Nat) (m : Member) : PlaneLine :=
  let black := lineOf width chroma y (fun k _ => blackSample k)
  if m.st = 0 ∨ m.repeating = true then tgetD m.last y black else black

/-- The part and the place within its line of a component's sample at (x, y), and the line of the part (R188): in two-sample interleave
part k carries lines 2y + (k >> 1) and sample pairs 2j + (k & 1); in square division it is quadrant k. -/
def sharePart (kind raster k x y : Nat) : Nat × Nat × Nat :=
  let pair := if k = 0 then 2 else 1
  if kind = 1 then (2 * (y % 2) + x / pair % 2, x / pair / 2 * pair + x % pair, y / 2)
  else if quadrants kind then
    let hw := if k = 0 then activeW raster / 2 else activeW raster / 4
    let hh := activeH raster / 2
    (2 * (y / hh) + x / hw, x % hw, y % hh)
  else (0, x, y)

/-- The video member of a part. -/
def partMember (g : Group) (part : Nat) : Member :=
  match g.members.find? (fun e => e.2.type == 0 && e.2.part == part) with
  | some e => e.2
  | none => {}

/-- A line of the ingest picture in the input's chroma format, from the shares of the parts (R188, R191, R193). -/
def inputLine (ch : Chan) (g : Group) (y : Nat) : PlaneLine :=
  let w := (shareSize g.kind ch.raster).1
  lineOf (activeW ch.raster) g.chroma y (fun k x =>
    let p := sharePart g.kind ch.raster k x y
    (component k (memberLine w g.chroma p.2.2 (partMember g p.1))).getD p.2.1 (blackSample k))

/-- A line in the channel's chroma format. 4:2:2 on a 4:2:0 channel: the lines of a pair averaged for ENC_COLOUR 0, the even line kept
otherwise. 4:2:0 on a 4:2:2 channel: each chroma line repeated (R183). -/
def convertedLine (ch : Chan) (g : Group) (y : Nat) : PlaneLine :=
  let l := inputLine ch g y
  if g.chroma = ch.chroma then l
  else if ch.chroma = 1 then
    let even_ := inputLine ch g (y - y % 2)
    { l with cb := even_.cb, cr := even_.cr }
  else if y % 2 = 1 then { l with cb := [], cr := [] }
  else if ch.colour = 0 then
    let next := inputLine ch g (y + 1)
    let mean := fun (a b : List Nat) => List.zipWith (fun p q => (p + q + 1) / 2) a b
    { l with cb := mean l.cb next.cb, cr := mean l.cr next.cr }
  else l

/-- A line of a channel's ingest picture: its group's shares, or the slate while whole-input loss has passed every hold or where the
channel has no group (R188, R194). -/
def ingestLine (s : State) (c y : Nat) : PlaneLine :=
  match tget s.ing.groups c with
  | none => slateLine s c y
  | some g => if g.slateOn then slateLine s c y else convertedLine (chan s c) g y

/-! ### SDI (R183, R184) -/

/-- Luma words per line of the interface a channel uses over SDI, of its link (R184; log entry 21). -/
def sdiWords (raster rate : Nat) : Nat :=
  (if raster = 2 then 1 else 2) * (if rate ≤ 1 then 2750 else if rate = 2 ∨ rate = 5 then 2640 else 2200)

/-- Total lines of one link of a channel's raster (R184; log entry 21). -/
def sdiLines (raster : Nat) : Nat := if raster = 2 then 1125 else 2250

/-- The link rate of the interface that a channel's raster and rate take over SDI: 0 1.5G, 1 3G, 2 6G, 3 12G (R183, Table 1). -/
def sdiLink (raster rate : Nat) : Nat :=
  if raster = 0 then 3 else if raster = 1 then (if rate ≤ 4 then 2 else 3) else (if rate ≤ 4 then 0 else 1)

/-- Whether a frame rate is fractional (R26). -/
def overThousandOne (rate : Nat) : Bool := rateD rate != 1

/-- Whether an SDI line's format matches a channel: the interface of Table 1 at the rate detected, exact to 1/1.001, and with ST 352 the
raster, rate, scan, sampling and depth it names, without it line count and words per line. An input of the group's video has the form that
its records declare; one that brings only ancillary data may sit beside any kind of video (R183, R184, R188). -/
def sdiMatches (ch : Chan) (g : Group) (video : Bool) (l : SdiLine) : Bool :=
  decide (ch.rate ≤ 7) && ch.raster != 3 && (!video || (g.kind == 0) == (ch.raster != 0)) &&
    l.link == sdiLink ch.raster ch.rate && l.fractional == overThousandOne ch.rate &&
    (match l.st352 with
     | some p => p.rate == ch.rate && p.raster == ch.raster && p.progressive && p.depth == 10 &&
         (if video then p.sampling == g.chroma else decide (p.sampling ≤ 1))
     | none => l.totalLines == sdiLines ch.raster && l.totalWords == sdiWords ch.raster ch.rate)

/-- Whether the ST 352 identifier of a line disagrees with ENC_COLOUR (R184). -/
def colourDiffers (ch : Chan) (l : SdiLine) : Bool :=
  match l.st352 with
  | some p => p.colour != ch.colour
  | none => false

/-- Whether a line's CRC-18 fails (R184, R354). -/
def lineCrcFails (l : SdiLine) : Bool := crcOf (crcPreset 3) 10 l.lumaWords != l.crc

/-- The caption triples of ancillary packets: those of ST 334-2 caption distribution, DID 0x61 and SDID 0x01; every other packet is
ignored (R187; log entry 124). -/
def captionTriples (l : List AncPacket) : List Nat := (l.filter (fun a => a.did == 0x61 && a.sdid == 0x01)).flatMap (fun a => a.triples)

/-- Captions delivered for the tick that a member's present frame is placed on (R86, R187). -/
def keepCaptions (l : List AncPacket) (m : Member) : Member :=
  let t := captionTriples l
  if t.isEmpty then m else { m with captions := tupd m.captions m.placed [] (fun x => x ++ t) }

/-- A line of an SDI member. -/
def sdiMember (ch : Chan) (g : Group) (l : SdiLine) (now : Nat) (m : Member) : Member :=
  let m := { m with
    crcFails := if lineCrcFails l then satAdd 32 m.crcFails 1 else m.crcFails
    colourMis := if colourDiffers ch l then satAdd 32 m.colourMis 1 else m.colourMis }
  if sdiMatches ch g (m.type == 0) l then
    let m := if l.line = 0 then placeFrame ch.rate g (now : Int) 0 m else m
    if m.type = 0 then
      noteLine ch g l.line now { offset := 0, length := l.lumaWords.length, line := { y := l.lumaWords, cb := l.cb, cr := l.cr } } m
    else keepCaptions l.anc { m with heard := true }
  else noteMismatch { m with heard := true }

/-- Every member of a running channel that has a given source, changed. -/
def onMembers (srcType src : Nat) (f : Chan → Group → Member → Member) (s : State) : State :=
  { s with ing := { s.ing with groups := tmap s.ing.groups (fun c g =>
      { g with members := tmap g.members (fun _ m =>
          if m.srcType = srcType ∧ m.src = src ∧ chanRunning s c = true then f (chan s c) g m else m) }) } }

/-- Lines of one link's picture (R188). -/
def linkLines (s : State) (input : Nat) : Nat :=
  match chansOfMember s 0 input with
  | c :: _ => if (group s c).kind = 0 then activeH (chan s c).raster else activeH (chan s c).raster / 2
  | [] => 0

/-- The receiver has detected the link's rate (R184). -/
def linkSeen (l : SdiLine) (s : State) : State :=
  { s with ing := { s.ing with links := tset s.ing.links l.input { link := l.link, fractional := l.fractional } } }

/-- SDI_LINE_RECEIVE (R184): the receiver has detected the link's rate, the line is checked and its video is used, whatever its CRC; the
tap of the input sees its words (R355). -/
def execSdiLineReceive (l : SdiLine) (s : State) : Outcome :=
  if ticking s = false ∨ s.ing.sdiFenced.contains l.input = true then .next s
  else
    let s := linkSeen l s
    let s' := tapSymbols 3 l.input l.lumaWords (if l.line + 1 = linkLines s l.input then [2, 3] else [2]) s
    .next (onMembers 0 l.input (fun ch g m => sdiMember ch g l s.mtb.t m) s')

/-! ### Policers (R238, R241) -/

/-- Colours of a policed packet. -/
inductive Colour where
  | green | yellow | red
  deriving DecidableEq, Repr

/-- The colour a packet arrives with (R238). -/
def arrivalColour (aware : Bool) (dscp : Nat) : Colour :=
  if !aware then .green
  else if dscp = 12 ∨ dscp = 20 ∨ dscp = 28 ∨ dscp = 36 then .yellow
  else if dscp = 14 ∨ dscp = 22 ∨ dscp = 30 ∨ dscp = 38 then .red
  else .green

/-- Tokens of a rate in kb/s over an interval, in 2^-16 byte. -/
def tokensOver (kbps dt : Nat) : Nat := kbps * 125 * 65536 * dt / secUnit

/-- A policer's buckets at a time: srTCM fills the committed bucket and then the excess one at CIR, trTCM each at its own rate
(R238). -/
def refillPolicer (now : Nat) (p : Policer) : Policer :=
  let dt := now - p.last
  let add := tokensOver p.cir dt
  let full := p.cbs * 65536
  if p.mode = 1 then
    let spill := p.tc + add - full
    { p with tc := min full (p.tc + add), te := min (p.pbs * 65536) (p.te + spill), last := max p.last now }
  else { p with tc := min full (p.tc + add), te := min (p.pbs * 65536) (p.te + tokensOver p.pir dt), last := max p.last now }

/-- The colour of a packet of a number of tokens, and the buckets after it (R238: RFC 2697 and RFC 2698). -/
def meter (arrived : Colour) (n : Nat) (p : Policer) : Colour × Policer :=
  if p.mode = 1 then
    if arrived = .green ∧ n ≤ p.tc then (.green, { p with tc := p.tc - n })
    else if arrived ≠ .red ∧ n ≤ p.te then (.yellow, { p with te := p.te - n })
    else (.red, p)
  else if arrived = .red ∨ p.te < n then (.red, p)
  else if arrived = .yellow ∨ p.tc < n then (.yellow, { p with te := p.te - n })
  else (.green, { p with te := p.te - n, tc := p.tc - n })

/-- A packet of a flow is policed; red packets are dropped. A flow with no policer, or one that is off, is not policed (R238,
R242). -/
def police (flow dscp length now : Nat) (s : State) : State × Bool :=
  match tget s.ing.policers flow with
  | none => (s, true)
  | some p =>
    if p.mode = 0 then (s, true)
    else
      let (c, p) := meter (arrivalColour p.aware dscp) (length * 65536) (refillPolicer now p)
      let p := { p with
        bytes := bumpBy 64 p.bytes length
        green := if c = .green then bump 64 p.green else p.green
        yellow := if c = .yellow then bump 64 p.yellow else p.yellow
        red := if c = .red then bump 64 p.red else p.red }
      ({ s with ing := { s.ing with policers := tset s.ing.policers flow p } }, c != .red)

/-- The ingress policer record, type 0x0905; the buckets start full (R241; log entry 26). -/
def recIngressPolicer (b : Bytes) (s : State) : State :=
  sized 20 b (fun s =>
    let i := clamp 0 1023 (u16 b 0)
    if thas s.ing.policers i then orphan s
    else
      let mode := clamp 0 2 (u8 b 2)
      let cir := clamp 64 400000000 (u32 b 4)
      let cbs := clamp 1518 16777216 (u32 b 8)
      let pbs := if u32 b 16 = 0 ∧ mode ≠ 2 then 0 else clamp 1518 16777216 (u32 b 16)
      let p : Policer :=
        { mode := mode, aware := clamp 0 1 (u8 b 3) == 1, cir := cir, cbs := cbs, pir := clamp cir 400000000 (u32 b 12), pbs := pbs
          tc := cbs * 65536, te := pbs * 65536, last := s.mtb.t }
      applied { s with ing := { s.ing with policers := tset s.ing.policers i p } }) s

/-- INGRESS_POLICER_RECORD (R241). -/
def execIngressPolicerRecord (b : Bytes) (s : State) : Outcome := recordCommand 0x0905 b recIngressPolicer s

/-! ### ST 2022-7 and ST 2110 (R185 to R187, R209) -/

/-- Whether a packet of a two-leg flow is the first copy, and whether it is stale: more than the path differential behind its
twin (R186). -/
def selectLeg (f : InFlow) (p : MediaPacket) : Bool × Bool :=
  match f.portB with
  | none => (true, false)
  | some _ =>
    match f.seen.find? (fun x => x.ext == p.extSeq) with
    | none => (true, false)
    | some x => (false, x.leg != p.leg && decide (x.time + f.pdMs * msUnit < p.arrival))

/-- A first copy remembered, until its number is half the number space behind (R186; log entry 22). -/
def remember (p : MediaPacket) (f : InFlow) : InFlow :=
  match f.portB with
  | none => f
  | some _ =>
    { f with seen := ⟨p.extSeq, p.leg, p.arrival⟩ ::
        f.seen.filter (fun x => decide ((p.extSeq + 2 ^ 32 - x.ext % 2 ^ 32) % 2 ^ 32 < 2 ^ 31)) }

/-- Whether a packet's row headers lie inside a member's share (R185). -/
def headersFit (kind raster : Nat) (l : List RowHeader) : Bool :=
  let (w, h) := shareSize kind raster
  l.all (fun x => decide (x.row < h ∧ x.offset + x.length ≤ w))

/-- Whether the form of a flow's video is one that ingest receives and the one that the records declare: sampling as ING_IN_CHROMA, depth
10, colorimetry, TCS and packing mode of R185, progressive, at the channel's frame rate (R183, R185; log entry 125). -/
def videoFormFits (ch : Chan) (g : Group) (f : MediaForm) : Bool :=
  match f with
  | .video sampling depth colorimetry tcs packing progressive rate =>
    sampling == g.chroma && depth == 10 && decide (colorimetry ≤ 2) && decide (tcs ≤ 2) && decide (packing ≤ 1) && progressive &&
      rate == ch.rate
  | _ => false

/-- Whether a packet agrees with the raster of a member's share: the last packet of a frame, by its marker, brings the end of the share's
last line (R183; log entry 125). -/
def rasterFits (ch : Chan) (g : Group) (p : MediaPacket) : Bool :=
  let (w, h) := shareSize g.kind ch.raster
  !p.marker || p.headers.any (fun x => decide (h ≤ x.row + (if g.chroma = 0 then 2 else 1)) && x.offset + x.length == w)

/-- A packet of an ST 2110-20 member: checked, placed by its timestamp and its samples kept (R183, R185, R189, R190). -/
def videoPacket (ch : Chan) (g : Group) (p : MediaPacket) (now : Nat) (m : Member) : Member :=
  if !videoFormFits ch g p.form || !rasterFits ch g p then noteMismatch { m with heard := true }
  else if !headersFit g.kind ch.raster p.headers then { m with heard := true, discards := satAdd 32 m.discards 1 }
  else
    let t := (presentationTime now p.timestamp : Int)
    let m := if m.phase.isNone ∨ m.placedTs ≠ p.timestamp then placeFrame ch.rate g t p.timestamp m else m
    p.headers.foldl (fun m x => noteLine ch g x.row p.arrival
      { offset := x.offset, length := x.length, line := { y := x.luma, cb := x.cb, cr := x.cr } } m) { m with heard := true }

/-- A packet of an ST 2110-40 member takes the timestamp it carries (R187, R189). -/
def ancPacket (ch : Chan) (g : Group) (p : MediaPacket) (now : Nat) (m : Member) : Member :=
  match p.form with
  | .ancillary l =>
    let t := (presentationTime now p.timestamp : Int)
    let m := if m.phase.isNone ∨ m.placedTs ≠ p.timestamp then placeFrame ch.rate g t p.timestamp m else m
    keepCaptions l { m with heard := true }
  | _ => noteMismatch { m with heard := true }

/-- Whether the form of an audio flow is one of R209, by ING_FLOW_KIND. -/
def audioFormFits (kind : Nat) (f : MediaForm) : Bool :=
  match f with
  | .audio rate depth packetUs samples =>
    let most := (samples.map (fun l => l.length)).foldl max 0
    ((packetUs == 1000 && decide (most ≤ 8)) || (packetUs == 125 && decide (most ≤ 64))) &&
      (if kind = 2 then rate == 48000 else (rate == 48000 || rate == 96000) && (depth == 16 || depth == 24))
  | _ => false

/-- A count of a media clock of a rate in Hz, modulo 2^32, as units of time nearest the present (R189, R210; log entry 126). -/
def clockTime (hz now ts : Nat) : Int :=
  let n := now * hz / secUnit
  ((n : Int) + toSigned 32 (ts + 2 ^ 32 - n % 2 ^ 32)) * secUnit / hz

/-- The step of a grid of a rate that is nearest a time (R210). -/
def nearestStep (hz : Nat) (x : Int) : Int := (2 * x * hz + secUnit) / (2 * secUnit)

/-- Λ of a path in sample ticks: 384 for a converting AES3 input, 6 for a transparent one, 16 for a 96 kHz flow, else 0 (R201, R206,
R209). -/
def pathDelay (aes transp double : Bool) : Nat := if aes then (if transp then 6 else 384) else if double then 16 else 0

/-- A word of an audio sample, most significant bit aligned in 24 bits. -/
def alignedWord (depth v : Nat) : Nat := if depth = 16 then 256 * v else v

/-- A packet of an audio member: its samples go to the steps of its own rate that its timestamp, the group's offset and φ_a give; one that
comes less than 2.0 µs ahead of its sample tick is not in HBM in time (R209 to R211). The samples of a 96 kHz flow stand on half
sample ticks, and its decimator's Λ counts when they are read. -/
def audioPacket (g : Group) (kind : Nat) (p : MediaPacket) (now : Nat) (m : Member) : Member :=
  match p.form, audioFormFits kind p.form with
  | .audio rate depth _ samples, true =>
    let t := clockTime rate now p.timestamp + offsetOf g + m.phase.getD 0
    let first := nearestStep rate t
    let double := rate == 96000
    let tick := fun (k : Nat) => if double then k / 2 + 16 else k
    let put := fun (tab : Tab (List Nat)) (e : List Nat × Nat) =>
      let k := (first + e.2).toNat
      if p.arrival + 2 * usUnit ≤ sampleTickAt (tick k) then tset tab k (e.1.map (alignedWord depth)) else tab
    { m with heard := true, doubleRate := double, samples := samples.zipIdx.foldl put m.samples }
  | _, _ => noteMismatch { m with heard := true }

/-- A packet taken from its leg, by the kind of its flow (R185, R187, R209). -/
def takePacket (p : MediaPacket) (f : InFlow) (s : State) : State :=
  let now := s.mtb.t
  if f.kind = 4 then
    (tkeysOf s.dec.ctxs (fun _ c => c.use == 1 && c.source == p.flow)).foldl (fun s d =>
      match p.nal with
      | none => receivePart d p.extSeq s
      | some nal => receiveNal d nal s) s
  else
    onMembers 1 p.flow (fun ch g m =>
      if f.kind = 0 then videoPacket ch g p now m
      else if f.kind = 3 then ancPacket ch g p now m
      else audioPacket g f.kind p now m) s

/-- A packet came on a leg of a flow, though its twin was used: the flow's members delivered something (R192). -/
def hearFlow (flow : Nat) (s : State) : State := onMembers 1 flow (fun _ _ m => { m with heard := true }) s

/-- A packet discarded under R185 or R186 is counted by its member (R199). -/
def discardPacket (p : MediaPacket) (s : State) : State :=
  onMembers 1 p.flow (fun _ _ m => { m with heard := true, discards := satAdd 32 m.discards 1 }) s

/-- A packet after policing and stripping: the payload type and source are checked, one copy of each is taken, stale ones are
counted (R186, R197). The second result says whether the packet was taken. -/
def selectPacket (p : MediaPacket) (f : InFlow) (s : State) : State × Bool :=
  if p.payloadType ≠ f.pt ∨ (f.ssrc ≠ 0 ∧ p.ssrc ≠ f.ssrc) then (s, false)
  else
    match selectLeg f p with
    | (true, _) => (takePacket p f (modFlow s p.flow (remember p)), true)
    | (false, true) => (discardPacket p (hearFlow p.flow s), false)
    | (false, false) => (hearFlow p.flow s, false)

/-- A packet on a leg of an ingress flow: policed, tapped or stripped per leg, then selected; in M7 it is metered and discarded (R238,
R240, R355, R356, R186). -/
def receivePacket (p : MediaPacket) (s : State) : State × Bool :=
  match tget s.ing.flows p.flow with
  | none => (s, false)
  | some f =>
    if f.fenced then (s, false)
    else if ticking s = false then
      (if actingMode s = .quiescent then (police p.flow p.dscp p.length p.arrival s).1 else s, false)
    else
      let (s, ok) := police p.flow p.dscp p.length p.arrival s
      if !ok then (s, false)
      else
        let s := tapSymbols 1 p.flow (symbols p.payload) [1] s
        match stripUnit s p.flow with
        | none => selectPacket p f s
        | some u =>
          let (s, rest, pass) := stripCheck u p.payload s
          if pass then selectPacket { p with payload := rest } f s else (s, false)

/-! ### The frame tick (R191 to R196) -/

/-- Whether a member's receiver is fenced (R192, R197, R214). -/
def memberFenced (s : State) (m : Member) : Bool :=
  if m.srcType = 0 then s.ing.sdiFenced.contains m.src
  else if m.srcType = 1 then (tgetD s.ing.flows m.src {}).fenced
  else (tgetD s.aud.ins m.src {}).fenced

/-- Whether a frame of a member that is placed no later than tick n, and that no tick has judged, is misaligned (R189, R192; log entry
123). -/
def offTick (n : Nat) (m : Member) : Bool := m.frames.any (fun f => decide (f.1 ≤ n) && f.2.misaligned && !f.2.judged)

/-- The cause for which a member is lost at tick n, by the codes of ING_GI_CAUSE; 0 for none (R192). -/
def lossCause (isFenced : Bool) (n : Nat) (m : Member) : Nat :=
  if isFenced then 4 else if !m.heard then 1 else if m.mismatch then 2 else if offTick n m then 3 else 0

/-- A member as the frame of tick n starts: what the period showed is forgotten, the frames placed up to the tick are judged, and those
before it are done with. -/
def newPeriod (n : Nat) (m : Member) : Member :=
  { m with heard := false, mismatch := false, short := false, underran := false
           frames := (m.frames.filter (fun f => decide (n ≤ f.1))).map (fun f => (f.1, { f.2 with judged := f.2.judged || decide (f.1 ≤ n) }))
           captions := m.captions.filter (fun f => decide (n < f.1)) }

/-- A member that is lost at the tick; the Boolean says that it was joined (R192, R195). -/
def loseMember (cause : Nat) (m : Member) : Member × Bool :=
  let st := if cause = 4 then 3 else 1
  if m.st = 0 then ({ m with st := st, cause := cause, losses := satAdd 32 m.losses 1, hold := 0, phase := none, goodRun := 0 }, true)
  else ({ m with st := st, cause := if cause = 4 then 4 else m.cause, phase := none, goodRun := 0 }, false)

/-- Whether the frame of a member that ends at tick n is one that counts for a rejoin: it was placed from its beginning, and not found
misaligned; audio samples are not placed as frames (R189, R192). -/
def placedWhole (n : Nat) (m : Member) : Bool :=
  m.type == 1 || (tget m.frames (n - 1)).any (fun f => !f.misaligned)

/-- A run of good frames starts again with the next one, which fixes φ anew: from its beginning where that has come already (R192). -/
def restartRun (rate n : Nat) (m : Member) : Member :=
  let m := { m with st := 1, goodRun := 0, phase := none }
  match tget m.frames n with
  | some f =>
    if f.misaligned then m
    else
      let r := nearestTick rate f.time
      { m with phase := some r.2, placed := r.1, frames := tset (tdel m.frames n) r.1 f }
  | none => m

/-- A member with no cause to be lost: a joined one stays, another counts its good frames and joins at the tick after the last of
them (R192). -/
def keepMember (rate rejoinF n : Nat) (m : Member) : Member :=
  if m.st = 0 then m
  else if m.short || !placedWhole n m then restartRun rate n m
  else if rejoinF ≤ m.goodRun + 1 then { m with st := 0, goodRun := 0 }
  else { m with st := 2, goodRun := m.goodRun + 1 }

/-- One member judged at a frame tick, losses before rejoins (R195). -/
def judgeMember (isFenced : Bool) (rate rejoinF n : Nat) (m : Member) : Member × Bool :=
  let cause := lossCause isFenced n m
  if cause = 0 then (keepMember rate rejoinF n m, false) else loseMember cause m

/-- A frame of a member is misaligned against the same tick's frame of another whose timestamp differs, unless a tick has judged both
(R189). -/
def compareFrames (n : Nat) (ref m : Member) : Member :=
  { m with frames := tmap m.frames (fun k f =>
      match tget ref.frames k with
      | some r => if k ≤ n ∧ r.stamp ≠ f.stamp ∧ (r.judged = false ∨ f.judged = false) then { f with misaligned := true, judged := false } else f
      | none => f) }

/-- Members of ST 2110 video whose timestamp differs from that of the lowest-numbered joined video member on the same tick are
misaligned (R189). -/
def compareStamps (s : State) (n : Nat) (g : Group) : Group :=
  let flowVideo := fun (m : Member) => m.type == 0 && m.srcType == 1
  match g.members.find? (fun m => m.2.type == 0 && m.2.st == 0) with
  | none => g
  | some r =>
    if flowVideo r.2 then
      { g with members := tmap g.members (fun k m =>
          if flowVideo m ∧ k ≠ r.1 ∧ memberFenced s m = false then compareFrames n r.2 m else m) }
    else g

/-- The frame that ended: which members underran or were replaced in it, and whether it was whole (R193, R198). -/
def closeFrame (n : Nat) (g : Group) : Group :=
  let sub := g.members.filter (fun m => m.2.st != 0 || m.2.underran)
  { g with
    subst := maskOf (sub.map (fun m => m.1)) 16
    whole := sub.isEmpty
    substFrames := if sub.isEmpty then g.substFrames else bump32 g.substFrames
    wholeFrames := if sub.isEmpty then (n :: g.wholeFrames).take 8 else g.wholeFrames }

/-- A lost member's share is repeated in the frame that starts and spends one frame of its hold, until the hold is spent (R193). -/
def spendHold (holdF : Nat) (m : Member) : Member :=
  if m.st ≠ 0 ∧ m.hold < holdF then { m with hold := m.hold + 1, repeating := true } else { m with repeating := false }

/-- Whole samples of a phase, rounded (R210). -/
def roundSample (x : Int) : Int := (2 * x * 48000 + (secUnit : Int)) / (2 * (secUnit : Int)) * (secUnit : Int) / 48000

/-- Whether an audio member's path is transparent: an AES3 input or a flow that carries frames untouched (R206, R209). -/
def transparentMember (s : State) (m : Member) : Bool :=
  if m.srcType = 2 then (tgetD s.aud.ins m.src {}).transp else (tgetD s.ing.flows m.src {}).kind == 2

/-- The gain of an audio member as it joins or is lost: transparent paths are not ramped (R206, R211). -/
def setMemberGain (c k : Nat) (joined : Bool) (m : Member) (s : State) : State :=
  let g : Gain := if joined then (if transparentMember s m then ⟨240, true⟩ else ⟨0, true⟩) else ⟨0, false⟩
  { s with aud := { s.aud with memberGain := tset s.aud.memberGain (16 * c + k) g } }

/-- The lowest-numbered joined video member of a group (R189, R210). -/
def refVideo (g : Group) : Option (Nat × Member) := g.members.find? (fun m => m.2.type == 0 && m.2.st == 0)

/-- φ_a of an audio member: at its join from the lowest-numbered joined video member, later from that member whenever its φ
changes, with the gain ramped around the change (R210). -/
def followPhase (old g : Group) (c k : Nat) (s : State) : State :=
  match tget g.members k, tget old.members k with
  | some m, some o =>
    if m.type ≠ 1 ∨ m.st ≠ 0 then s
    else if o.st ≠ 0 then
      let r := refVideo g
      modMember s c k (fun m => { m with
        refVideo := r.map (fun p => p.1), phase := some (match r with | some p => roundSample (p.2.phase.getD 0) | none => 0) })
    else
      match m.refVideo.bind (fun v => tget g.members v) with
      | some v =>
        let phi := roundSample (v.phase.getD 0)
        if v.st = 0 ∧ m.phase ≠ some phi then
          let s := modMember s c k (fun m => { m with phase := some phi })
          if transparentMember s m then s
          else { s with aud := { s.aud with memberGain := tset s.aud.memberGain (16 * c + k) ⟨0, true⟩ } }
        else s
      | none => s
  | _, _ => s

/-- The members newly lost, reported; audio members' gains and phases follow (R192, R210, R211). -/
def afterJudging (old : Group) (lost : List Nat) (c : Nat) (s : State) : State :=
  let s := lost.foldl (fun s k => raise 0x04F (16 * c + k) s) s
  let g := group s c
  (tkeysOf g.members (fun _ m => m.type == 1)).foldl (fun s k =>
    match tget old.members k, tget g.members k with
    | some o, some m =>
      let s := if (o.st == 0) != (m.st == 0) then setMemberGain c k (m.st == 0) m s else s
      followPhase old g c k s
    | _, _ => s) s

/-- The caption triples of frame n: those that joined ancillary members delivered for it, after any for an earlier frame that came too late
for it; a lost member brings none (R86, R87, R193). -/
def groupCaptions (n : Nat) (g : Group) : List Nat :=
  g.members.flatMap (fun e =>
    if e.2.type = 2 ∧ e.2.st = 0 then (e.2.captions.filter (fun x => decide (x.1 ≤ n))).flatMap (fun x => x.2) else [])

/-- Whole-input loss (R194): the slate is on once every video member has passed its hold; the loss is reported once. -/
def judgeInput (c n : Nat) (s : State) : State :=
  let g := group s c
  let vids := g.members.filter (fun m => m.2.type == 0)
  let allLost := !vids.isEmpty && vids.all (fun m => m.2.st != 0)
  let slate := allLost && vids.all (fun m => decide (g.holdF ≤ m.2.hold))
  let s := if allLost && !g.inputLost then raise 0x050 c s else s
  modGroup s c (fun g =>
    { g with inputLost := allLost, slateOn := slate, captions := groupCaptions n g
             members := tmap g.members (fun _ m => newPeriod n (spendHold g.holdF m)) })

/-- A group at frame tick n of its channel; `ended` is the frame that ended with it, if one ran (R192 to R195). -/
def ingestTick (c n : Nat) (ended : Option Nat) (s : State) : State :=
  match tget s.ing.groups c with
  | none => s
  | some g =>
    let g := match ended with | some m => closeFrame m g | none => g
    let g := compareStamps s n g
    let judged := g.members.map (fun m => (m.1, judgeMember (memberFenced s m.2) (chan s c).rate g.rejoinF n m.2))
    let g' := { g with members := judged.map (fun m => (m.1, m.2.1)) }
    let lost := (judged.filter (fun m => m.2.2)).map (fun m => m.1)
    judgeInput c n (afterJudging g lost c { s with ing := { s.ing with groups := tset s.ing.groups c g' } })

/-- The arrival tick of a row of frame n: the video members' shares are judged, and the row's lines stand in the ingest picture (R191 to
R194). -/
def ingestRow (c n row : Nat) (s : State) : State :=
  let ch := chan s c
  let s := modGroup s c (fun g => { g with members := tmap g.members (fun _ m => memberRow ch g n row m) })
  let lines := (rowLineNumbers ch.raster row).map (fun y => (y, ingestLine s c y))
  { s with ing := { s.ing with pics := tupd s.ing.pics c [] (putLines n lines) } }

/-- The row status bit of an input fingerprint: some video member underran or was replaced in the row (R249). -/
def rowStatus (s : State) (c : Nat) : Bool :=
  (group s c).members.any (fun m => m.2.type == 0 && (m.2.st != 0 || m.2.underran))

/-- Each member's least slack of the second is latched at the whole second (R199). -/
def slackSecond (s : State) : State :=
  { s with ing := { s.ing with groups := tmap s.ing.groups (fun _ g =>
      { g with members := tmap g.members (fun _ m => { m with slackOut := m.slack, slack := 2147483647 }) }) } }

/-! ### Registers and command (R198, R199) -/

/-- The ingest words of a channel status block (R198). -/
def ingestWord (s : State) (c off : Nat) : Nat :=
  let g := group s c
  let bare := !thas s.ing.groups c && chanRunning s c
  match off with
  | 0x74 => maskOf (tkeysOf g.members (fun _ m => m.st == 0)) 16 + 65536 * g.subst
  | 0x78 => packWord [(b2n g.inputLost, 0), (b2n (g.slateOn || bare), 1), (b2n (g.whole || bare), 2), (b2n g.raised, 3),
      (g.members.length, 8)]
  | 0x7C => g.substFrames
  | _ => 0

/-- The 28 bytes of a member in the reply of ING_GROUP_INFO (R199). -/
def memberInfo (k : Nat) (m : Member) : Bytes :=
  le 1 k ++ le 1 m.type ++ le 1 m.st ++ le 1 m.cause ++ le 4 (ofSigned 32 m.slackOut) ++
  wordBytes [m.underruns, m.losses, m.colourMis, m.discards, m.crcFails]

/-- ING_GROUP_INFO, opcode 0x0510 (R199). -/
def cmdIngGroupInfo (r : Req) (s : State) : State :=
  takeRequest 0x0510 false infoLegal r (fun p s =>
    let c := f8 (payloadOf r) 0 0 63
    if !ownsChannel s p c.val then reply p r 0x0510 .notInPartition false [] s
    else
      let g := group s c.val
      reply p r 0x0510 .ok (c.clamped || lenClamped r)
        (le 1 c.val ++ le 1 g.members.length ++ [0, 0] ++ le 4 (ofSigned 32 g.offsetUs) ++
          g.members.flatMap (fun m => memberInfo m.1 m.2)) s) s

/-- ING_GROUP_INFO (R199). -/
def execIngGroupInfo (r : Req) (s : State) : Outcome := done (cmdIngGroupInfo r s)

end Sys2Proof.Machine
end

