-- ==== Sys2Proof/Machine/Audio.lean ====
section
/-! DEFINITION. Audio: AES3 inputs and their trackers, payload detection and mutes, gains, port restarts, outputs and programmes
(chapter 10), and the command that receives a packet of an ingress flow. -/

namespace Sys2Proof.Machine

/-! ### Gains (R204) -/

/-- The step of a gain at full scale: 240 sample ticks are 5 ms (R203, R204). -/
def fullStep : Nat := 240

/-- The gain of a step, in units of 2^-15 (R204). -/
def gainValue (g : Gain) : Nat := 32768 * g.k / 240

/-- One sample tick of a ramp; it starts from the gain in force (R204). -/
def stepGain (g : Gain) : Gain := if g.up then { g with k := min fullStep (g.k + 1) } else { g with k := g.k - 1 }

/-- A gain applied to a sample (R204). -/
def applyGain (g x : Int) : Int := g * x / 32768

/-- The gain that acts when several causes act at once: the smallest (R204). -/
def leastGain (l : List Gain) : Nat := l.foldl (fun a g => min a (gainValue g)) 32768

/-! ### Records (R214) -/

/-- An AES3 input. -/
def aesIn (s : State) (i : Nat) : AudIn := tgetD s.aud.ins i {}

/-- The state with an AES3 input changed, where it has a record. -/
def modIn (s : State) (i : Nat) (f : AudIn → AudIn) : State := { s with aud := { s.aud with ins := tmod s.aud.ins i f } }

/-- The state with an AES3 output changed, where it has a record. -/
def modOut (s : State) (o : Nat) (f : AudOut → AudOut) : State := { s with aud := { s.aud with outs := tmod s.aud.outs o f } }

/-- The AES3 input record, type 0x0601. A converting port starts to acquire (R203, R214). -/
def recAesIn (b : Bytes) (s : State) : State :=
  sized 4 b (fun s =>
    let i := clamp 0 31 (u8 b 0)
    if thas s.aud.ins i then orphan s
    else
      let x : AudIn :=
        { taken := true, transp := clamp 0 1 (u8 b 1) == 1, bw := clamp 0 2 (u8 b 2), autoRestart := clamp 0 1 (u8 b 3) == 1
          st := 2, gain := ⟨if clamp 0 1 (u8 b 1) = 1 then fullStep else 0, clamp 0 1 (u8 b 1) == 1⟩ }
      applied { s with aud := { s.aud with ins := tset s.aud.ins i x } }) s

/-- AES3_INPUT_RECORD (R214). -/
def execAes3InputRecord (b : Bytes) (s : State) : Outcome := recordCommand 0x0601 b recAesIn s

/-- A route of 4 bytes (R214). -/
def routeAt (b : Bytes) (o : Nat) : Route :=
  { member := clamp 0 15 (u8 b o), chan := clamp 0 63 (u8 b (o + 1))
    second := if u8 b (o + 2) ≤ 63 then some (u8 b (o + 2)) else none, gain := clampI (-120) 24 (s8 b (o + 3)) }

/-- The AES3 output record, type 0x0602 (R214). -/
def recAesOut (b : Bytes) (s : State) : State :=
  sized 16 b (fun s =>
    let o := clamp 0 15 (u8 b 0)
    let c := clamp 0 63 (u8 b 1)
    if (chan s c).taken = false ∨ thas s.aud.outs o = true then orphan s
    else
      let x : AudOut :=
        { taken := true, channel := c, transp := clamp 0 1 (u8 b 2) == 1, autoRestart := clamp 0 1 (u8 b 3) == 1
          delay := clamp 0 4800 (u16 b 4), routes := [routeAt b 8, routeAt b 12], st := 1 }
      applied { s with aud := { s.aud with outs := tset s.aud.outs o x } }) s

/-- AES3_OUTPUT_RECORD (R214). -/
def execAes3OutputRecord (b : Bytes) (s : State) : Outcome := recordCommand 0x0602 b recAesOut s

/-- AUD_PG_COUNT: even and from 2 to 8 (R214). -/
def programmeCount (v : Nat) : Nat := clamp 2 8 ((v + 1) / 2 * 2)

/-- The audio programme record, type 0x0603 (R214). -/
def recProgramme (b : Bytes) (s : State) : State :=
  sized 40 b (fun s =>
    let p := clamp 0 255 (u8 b 0)
    let c := clamp 0 63 (u8 b 1)
    if (chan s c).taken = false ∨ thas s.aud.programmes p = true then orphan s
    else
      let n := programmeCount (u8 b 4)
      let k := clamp 0 2 (u8 b 2)
      let x : Programme :=
        { channel := c, carriage := k, bits := if u8 b 3 = 16 ∨ u8 b 3 = 20 then u8 b 3 else 24, count := n
          ptime := if k = 2 ∧ 6 < n then 1 else clamp 0 1 (u8 b 5)
          routes := (List.range n).map (fun i => routeAt b (8 + 4 * i)) }
      applied { s with aud := { s.aud with programmes := tset s.aud.programmes p x } }) s

/-- AUDIO_PROGRAMME_RECORD (R214). -/
def execAudioProgrammeRecord (b : Bytes) (s : State) : Outcome := recordCommand 0x0603 b recProgramme s

/-- The member a route of a channel names, where the group has it. -/
def routeMember (s : State) (c : Nat) (r : Route) : Option Member := tget (group s c).members r.member

/-- Whether a route's source is transparent (R206, R214). -/
def routeTransparent (s : State) (c : Nat) (r : Route) : Bool :=
  match routeMember s c r with
  | some m => m.type == 1 && transparentMember s m
  | none => false

/-- A transparent output whose source is not transparent runs as a PCM output with unity routes, judged over the whole image
(R214, R407). -/
def settleOutputs (s : State) : State :=
  { s with aud := { s.aud with outs := tmap s.aud.outs (fun _ o =>
      if o.transp && !o.routes.all (fun r => routeTransparent s o.channel r) then
        { o with transp := false, routes := o.routes.map (fun r => { r with gain := 0 }) }
      else o) } }

/-! ### The ratio tracker (R200 to R203, R205) -/

/-- ρ of 1 in Q2.30. -/
def ratioOne : Nat := 0x40000000

/-- ρ held within 0.49 to 1.53 (R201). -/
def clampRatio (v : Nat) : Nat := clamp (49 * ratioOne / 100) (153 * ratioOne / 100) v

/-- Whether a count of 2^-16 frames in 1 ms lies within ±1.5 % of a rate in Hz (R200; log entry 23). -/
def inWindow (hz count : Nat) : Bool := decide (985 * hz * 65536 ≤ count * 1000000 ∧ count * 1000000 ≤ 1015 * hz * 65536)

/-- The nominal rate code of a count, 0 for an unsupported rate (R200, R215). -/
def nominalOf (count : Nat) : Nat :=
  if inWindow 32000 count then 1 else if inWindow 44100 count then 2 else if inWindow 48000 count then 3
  else if inWindow 96000 count then 4 else 0

/-- The slew limit of ρ in ppm per block (Table 1 of the audio chapter). -/
def slewPpm (bw : Nat) : Nat := if bw = 0 then 1 else if bw = 1 then 4 else 16

/-- How far a block's count lies from what ρ implies, in units of 48 × 2^46 (R202). -/
def deviation (count ratio : Nat) : Nat := ((count * ratio : Int) - (48 * 2 ^ 46 : Nat)).natAbs

/-- The loop moves ρ by an amount that the spec does not state, within the slew limit (R202; log entry 24). -/
def loopRatio (bw free ratio : Nat) : Nat :=
  let lim := ratio * slewPpm bw / 1000000
  clampRatio (ratio - lim + free % (2 * lim + 1))

/-- The coarse step at the end of a block: ρ from the block's count, or an unsupported rate. What is received from the block on converts
to samples again (R200, R203). -/
def coarseStep (now count : Nat) (i : AudIn) : AudIn :=
  let n := nominalOf count
  if n = 0 then { i with st := 4, nominal := 0, gain := { i.gain with up := false }, coarse := true, within := 0 }
  else
    { i with st := 2, nominal := n, ratio := clampRatio (48 * 2 ^ 46 / count), coarse := false, within := 0, deviated := false
             acquired := 0, zeroTo := if i.zeroFrom.isSome && i.zeroTo.isNone then some (now - msUnit) else i.zeroTo }

/-- A rate change is declared: the gain ramps to zero, what was received after the first deviating block began converts to zero, and the
tracker reacquires (R202, R203). -/
def rateChange (i : AudIn) : AudIn :=
  { i with st := 2, coarse := true, within := 0, deviated := false, gain := { i.gain with up := false }
           zeroFrom := some i.deviatedAt, zeroTo := none }

/-- The reacquisition bound in blocks of 1 ms (Table 1 of the audio chapter). -/
def acquireBound (bw : Nat) : Nat := if bw = 0 then 400 else if bw = 1 then 100 else 25

/-- Whether a block counts toward lock: it lies within 20 ppm of the loop estimate, and the last eight blocks of the bound of Table 1 do,
since lock is declared within it (R203; log entry 24). -/
def nearBlock (count : Nat) (i : AudIn) : Bool :=
  decide (deviation count i.ratio * 1000000 ≤ 20 * 48 * 2 ^ 46) || (i.st == 2 && decide (acquireBound i.bw ≤ i.acquired + 9))

/-- A block between blocks that do not deviate: the one before it was a glitch if it deviated (R202). A glitch in reacquisition
restarts the coarse step (R203). -/
def steadyBlock (now count free : Nat) (i : AudIn) : AudIn × Bool :=
  if i.deviated ∧ i.st = 2 then
    ({ i with deviated := false, coarse := true, within := 0, glitches := satAdd 16 i.glitches 1 }, true)
  else if nominalOf count = 0 then
    (coarseStep now count { i with deviated := false, glitches := if i.deviated then satAdd 16 i.glitches 1 else i.glitches }, i.deviated)
  else
    let within := if nearBlock count i then i.within + 1 else 0
    let locks := i.st == 2 && decide (8 ≤ within)
    ({ i with
       ratio := loopRatio i.bw free i.ratio
       within := if locks ∨ i.st = 1 then 0 else within
       st := if locks then 1 else i.st
       acquired := i.acquired + 1
       gain := if locks then { i.gain with up := true } else i.gain
       reacq := if locks then satAdd 8 i.reacq 1 else i.reacq
       glitches := if i.deviated then satAdd 16 i.glitches 1 else i.glitches
       deviated := false }, i.deviated)

/-- A converting port at the end of a block; the Boolean says that a glitch or a rate change is declared (R202, R203). -/
def trackBlock (now count free : Nat) (i : AudIn) : AudIn × Bool :=
  if i.skip then ({ i with skip := false }, false)
  else if count = 0 then (i, false)
  else if i.coarse ∨ i.st = 3 ∨ i.st = 4 then (coarseStep now count i, false)
  else if 48 * 2 ^ 46 < 100 * deviation count i.ratio then
    if i.deviated then (rateChange i, true) else ({ i with deviated := true, deviatedAt := now - msUnit }, false)
  else steadyBlock now count free i

/-- A transparent port at the end of a block: only 48 kHz within ±1.5 % is accepted (R200). -/
def transparentBlock (count : Nat) (i : AudIn) : AudIn :=
  if i.skip then { i with skip := false }
  else if count = 0 then i
  else if inWindow 48000 count then { i with st := 1, nominal := 3 } else { i with st := 4, nominal := 0 }

/-- Whether an AES3 input runs now (R214). -/
def aesRuns (s : State) (i : Nat) : Bool := ticking s && (aesIn s i).taken && !(aesIn s i).fenced

/-- Whether the converters use the ρ of the active device (R205). -/
def borrowsRatio (s : State) : Bool := pairInForce s && (actingMode s == .standby || actingMode s == .resync)

/-- The ρ that the active device computed for a port: in M5 and M6 the converter uses it, and the local tracker judges its blocks by it
(R205). -/
def takePartnerRatio (i ratio : Nat) (s : State) : State :=
  if borrowsRatio s then modIn s i (fun x => { x with ratio := clampRatio ratio, partnerRatio := some (clampRatio ratio) }) else s

/-- TRACKER_BLOCK (R202): the active device sends its ρ over VA. In M5 and M6 the local tracker runs and declares, and ρ stays the one that
VA brought (R205, R247). DEDUCED: lock is found there by the blocks within 20 ppm of that ρ, since R205 lists the declarations that stay
local and VA carries no lock (log entry 24). -/
def execTrackerBlock (i count : Nat) (s : State) : Outcome :=
  if aesRuns s i = false then .next s
  else if (aesIn s i).transp then .next (modIn s i (transparentBlock count))
  else
    let (f, s) := drawFree s
    let r := trackBlock s.mtb.t count f (aesIn s i)
    let s := if actingMode s == .active then sendVa 2 (.va (.ratio i r.1.ratio)) s else s
    let s := modIn s i (fun x =>
      if borrowsRatio s then { r.1 with ratio := x.ratio } else { r.1 with partnerRatio := none })
    done (if r.2 then raise 0x054 i s else s)

/-- AES3_STOP (R202, R203): the gain ramps to zero and holds; the block in which it falls is not a whole one, so a rate change in it
gives way. -/
def execAes3Stop (i : Nat) (s : State) : Outcome :=
  if aesRuns s i = false ∨ (aesIn s i).st = 3 then .next s
  else
    done (raise 0x054 i (modIn s i (fun x =>
      { x with st := 3, stops := satAdd 8 x.stops 1, coarse := true, within := 0, deviated := false, skip := true
               gain := if x.transp then x.gain else { x.gain with up := false } })))

/-! ### Payload detection (R207, R208) -/

/-- The input path of a member: an AES3 input, or 32 + the flow (R208). -/
def pathOf (m : Member) : Nat := if m.srcType = 2 then m.src else 32 + m.src

/-- Whether a path converts: an AES3 input that is not transparent, or a flow that comes at 96 kHz (R208, R209). -/
def pathConverts (s : State) (path : Nat) : Bool :=
  if path < 32 then !(aesIn s path).transp
  else s.ing.groups.any (fun g => g.2.members.any (fun m => m.2.srcType == 1 && m.2.src + 32 == path && m.2.doubleRate))

/-- Whether a route takes a pair of a path. -/
def routeUses (s : State) (c path pair : Nat) (r : Route) : Bool :=
  match routeMember s c r with
  | some m => m.type == 1 && pathOf m == path && (r.chan / 2 == pair || (match r.second with | some k => k / 2 == pair | none => false))
  | none => false

/-- Whether a route mutes a pair that carries a burst: it converts, scales or mixes, or is none of those through which a burst passes
untouched, from a transparent source to an output or carriage that passes bursts (R208). -/
def routeMutes (s : State) (passes : Bool) (c path pair : Nat) (r : Route) : Bool :=
  routeUses s c path pair r && (pathConverts s path || r.gain != 0 || r.second.isSome || !passes || !routeTransparent s c r)

/-- Whether a programme's carriage passes bursts untouched: ST 302 and ST 2110-31 (R208, R213). -/
def carriagePasses (p : Programme) : Bool := p.carriage != 1

/-- Whether an output has a route muted by some active burst (R208, R215). -/
def outputMuted (s : State) (o : AudOut) : Bool :=
  s.aud.mutes.any (fun e => e.2.active && o.routes.any (fun r => routeMutes s o.transp o.channel (e.1 / 64) (e.1 % 64) r))

/-- A sign of a burst on a pair of a path, with the sample tick that its word is placed on and the one from which the mute acts, that of the
word before Pa; a new mute is counted on the outputs it mutes (R208). -/
def burstSign (path pair tick start : Nat) (s : State) : State :=
  let key := 64 * path + pair
  let old := tgetD s.aud.mutes key {}
  let m : Mute := { active := true, lastSign := max old.lastSign tick, gain := ⟨0, false⟩, start := if old.active then old.start else start }
  let s := { s with aud := { s.aud with mutes := tset s.aud.mutes key m } }
  if old.active then s
  else
    { s with aud := { s.aud with outs := tmap s.aud.outs (fun _ o =>
        if o.routes.any (fun r => routeMutes s o.transp o.channel path pair r) then
          { o with mutes := satAdd 16 o.mutes 1, muted337 := true } else o) } }

/-- Whether two consecutive words are the sync words Pa and Pb of ST 337 at 16, 20 or 24 bits, most significant bit aligned (R207). -/
def syncWords (a b : Nat) : Bool :=
  (a / 256 == 0xF872 && b / 256 == 0x4E1F) || (a / 16 == 0x6F872 && b / 16 == 0x54E1F) || (a == 0x96F872 && b == 0xA54E1F)

/-- How many samples before a new one the word before Pa lies, where a pair shows the sync words with it: two in either channel's own
sequence; one where they are interleaved across the pair, whose other channel holds it (R207, R208). -/
def pairSync (old new : List Nat) (pair : Nat) : Option Nat :=
  let w := fun (l : List Nat) (k : Nat) => l.getD (2 * pair + k) 0 % 2 ^ 24
  if syncWords (w old 0) (w new 0) || syncWords (w old 1) (w new 1) then some 2
  else if syncWords (w new 0) (w new 1) || syncWords (w old 1) (w new 0) then some 1
  else none

/-- The words of one sample instant of a path, placed on a sample tick: every pair that shows the sync words is a sign (R207). -/
def detectSync (path tick : Nat) (words : List Nat) (s : State) : State :=
  let old := tgetD s.aud.lastWords path []
  let s := { s with aud := { s.aud with lastWords := tset s.aud.lastWords path words } }
  (List.range (ceilDiv words.length 2)).foldl (fun s k =>
    match pairSync old words k with
    | some back => burstSign path k tick (tick - back) s
    | none => s) s

/-- PAYLOAD_MUTE_RELEASE (R208): 4,096 sample ticks without a sign, and the non-audio bit clear. -/
def execPayloadMuteRelease (path pair : Nat) (s : State) : Outcome :=
  let key := 64 * path + pair
  let m := tgetD s.aud.mutes key {}
  if m.active = false ∨ (path < 32 ∧ (aesIn s path).nonAudio = true) ∨ s.aud.tick < m.lastSign + 4096 then .next s
  else
    let s := { s with aud := { s.aud with mutes := tset s.aud.mutes key { m with active := false, gain := { m.gain with up := true } } } }
    .next { s with aud := { s.aud with outs := tmap s.aud.outs (fun _ o => { o with muted337 := outputMuted s o }) } }

/-! ### Arriving audio (R200, R206, R207) -/

/-- The bytes of an AES3 frame as its tap sees them: 3 per subframe, low byte first (R355). -/
def aesSymbols (f : AesFrame) : List Nat := symbols (le 3 f.left ++ le 3 f.right)

/-- A zero subframe with its validity bit set (R206). -/
def zeroSubframe : Nat := 0x1000000

/-- The subframes of an AES3 frame: 24 audio bits, with validity, user and channel status above them (R206). -/
def subframes (f : AesFrame) : Nat × Nat := (f.left % 2 ^ 24 + 2 ^ 24 * (f.leftVuc % 8), f.right % 2 ^ 24 + 2 ^ 24 * (f.rightVuc % 8))

/-- A frame into the rate adapter of a transparent port: the frame that would make it 5 is dropped (R206). DESIGN CHOICE: it is the new
frame that goes, which R206 does not say (log entry 128). -/
def adapterIn (f : AesFrame) (i : AudIn) : AudIn :=
  if !i.transp || i.st != 1 then i
  else if 5 ≤ i.adapter.length + 1 then { i with slips := satAdd 16 i.slips 1 }
  else { i with adapter := i.adapter ++ [subframes f] }

/-- A frame taken out of the rate adapter: one is repeated where the adapter would reach 1; a missing frame, and every frame until a
restart has realigned the pairing, is zero subframes with the validity bit set (R206, R212). DESIGN CHOICE: the oldest frame is the one
repeated, which R206 does not say (log entry 128). -/
def adapterPop (i : AudIn) : AudIn × (Nat × Nat) :=
  if i.st != 1 || i.fenced || i.realign then (i, (zeroSubframe, zeroSubframe))
  else
    match i.adapter with
    | [] => (i, (zeroSubframe, zeroSubframe))
    | f :: rest => if rest.length ≤ 1 then ({ i with slips := satAdd 16 i.slips 1 }, f) else ({ i with adapter := rest }, f)

/-- The frame that a transparent path gives at a sample tick: what left the adapter three ticks ago, so that with the three frames the
adapter holds the path adds its six sample ticks (R206). -/
def adapterOut (i : AudIn) : AudIn × (Nat × Nat) :=
  if !i.transp then (i, (zeroSubframe, zeroSubframe))
  else
    let (i, f) := adapterPop i
    ({ i with line := i.line.drop 1 ++ [f] }, i.line.headD (zeroSubframe, zeroSubframe))

/-- The audio of a frame joins what a converter works on, with its time of receipt (R201). -/
def converterIn (now : Nat) (f : AesFrame) (i : AudIn) : AudIn :=
  if i.transp then i else { i with history := ((now, f.left % 2 ^ 24, f.right % 2 ^ 24) :: i.history).take 1024 }

/-- The 64 taps of the converter for an input instant: the 32 frames received after it and the 32 before, newest first, with zero where
there is none (R201). -/
def converterTaps (at_ : Nat) (l : List (Nat × Nat × Nat)) : List (Nat × Nat) :=
  let later := ((l.filter (fun x => decide (at_ < x.1))).reverse.take 32).map (fun x => x.2)
  let before := ((l.filter (fun x => decide (x.1 ≤ at_))).take 32).map (fun x => x.2)
  (later ++ List.replicate (32 - later.length) (0, 0)).reverse ++ before ++ List.replicate (32 - before.length) (0, 0)

/-- The phase of 1,024 in which an input instant lies between the frame before it and the next, a frame lasting ρ sample ticks (R201). -/
def converterPhase (at_ ratio : Nat) (l : List (Nat × Nat × Nat)) : Nat :=
  match l.find? (fun x => decide (x.1 ≤ at_)) with
  | some x => min 1023 ((at_ - x.1) * 1024 * 48000 * ratioOne / (max 1 ratio * secUnit))
  | none => 0

/-- The converter's output at a sample tick, which represents the input instant Λ = 384 sample ticks before, with the ρ in force; zero for
an instant that a rate change silences. The filter's coefficients no rule states (R201, R203, R205; log entry 129). -/
def converterOut (n : Nat) (i : AudIn) : Nat × Nat :=
  let at_ := sampleTickAt (n - 384)
  let silent := match i.zeroFrom with
    | some a => decide (a ≤ at_) && (match i.zeroTo with | some b => decide (at_ < b) | none => true)
    | none => false
  if silent then (0, 0)
  else
    let taps := converterTaps at_ i.history
    let phase := converterPhase at_ (i.partnerRatio.getD i.ratio) i.history
    (Config.convertedSample phase (taps.map (fun x => x.1)) % 2 ^ 24, Config.convertedSample phase (taps.map (fun x => x.2)) % 2 ^ 24)

/-- Whether a time lies past the first frame period of a tracker block, so that the block is not whole (R203; log entry 23). -/
def midBlock (t : Nat) : Bool := decide (secUnit / 32000 < t % msUnit)

/-- The sample tick that a time falls nearest to. -/
def tickNear (x : Int) : Nat := (nearestStep 48000 x).toNat

/-- The time that O and φ_a of the audio member of an AES3 input add to its samples (R210). -/
def aesOffset (s : State) (i : Nat) : Int :=
  match s.ing.groups.findSome? (fun g => (g.2.members.find? (fun m => m.2.srcType == 2 && m.2.src == i)).map (fun m => (g.2, m.2))) with
  | some (g, m) => offsetOf g + m.phase.getD 0
  | none => 0

/-- The sample tick on which what an AES3 input receives now is heard: through the adapter, behind the frames it holds and those on their
way from it, or through the converter (R206, R207). -/
def heardTick (i : Nat) (s : State) : Nat :=
  let x := aesIn s i
  if x.transp then tickNear ((sampleTickAt (s.aud.tick + 1 + x.adapter.length + x.line.length) : Int) + aesOffset s i)
  else tickNear ((s.mtb.t : Int) + aesOffset s i) + pathDelay true false false

/-- The bursts of an AES3 frame, by its sync words and its non-audio bit, from the sample tick on which it is heard (R207). -/
def detectFrame (i : Nat) (f : AesFrame) (tick : Nat) (s : State) : State :=
  let s := detectSync i tick [f.left % 2 ^ 24, f.right % 2 ^ 24] s
  if f.nonAudio then burstSign i 0 tick tick s else s

/-- Whether an AES3 frame shows a sign of a burst (R207). -/
def frameSign (i : Nat) (f : AesFrame) (s : State) : Bool :=
  f.nonAudio || (pairSync (tgetD s.aud.lastWords i []) [f.left % 2 ^ 24, f.right % 2 ^ 24] 0).isSome

/-- AES3_FRAME_RECEIVE (R200): the input's members have delivered something, bursts are detected, and the converter or the adapter takes
the frame. -/
def execAes3FrameReceive (i : Nat) (f : AesFrame) (s : State) : Outcome :=
  if aesRuns s i = false then .next s
  else
    let n := if f.blockStart then 1 else if (aesIn s i).blockFrame = 0 then 0 else (aesIn s i).blockFrame + 1
    let heard := onMembers 2 i (fun _ _ m => { m with heard := true }) (tapSymbols 6 i (aesSymbols f) (if n = 192 then [4] else []) s)
    let sign := frameSign i f heard
    let t := detectFrame i f (heardTick i s) heard
    .next (modIn t i (fun x => converterIn s.mtb.t f (adapterIn f { x with
      blockFrame := if n = 192 then 0 else n, nonAudio := f.nonAudio, burstNow := x.burstNow || sign
      skip := x.skip || (x.st == 3 && midBlock s.mtb.t) })))

/-- The sample tick on which a flow's samples of a timestamp start, by the member that takes them; none where no member does. -/
def flowTick (s : State) (flow hz ts : Nat) : Nat :=
  match s.ing.groups.findSome? (fun g => (g.2.members.find? (fun m => m.2.srcType == 1 && m.2.src == flow)).map (fun m => (g.2, m.2))) with
  | some (g, m) => tickNear (clockTime hz s.mtb.t ts + offsetOf g + m.phase.getD 0) + pathDelay false false (hz == 96000)
  | none => tickNear (clockTime hz s.mtb.t ts)

/-- The bursts of an audio packet's samples, from the sample tick on which they start (R207). -/
def detectFlow (p : MediaPacket) (hz depth : Nat) (samples : List (List Nat)) (s : State) : State :=
  let first := flowTick s p.flow hz p.timestamp
  samples.zipIdx.foldl (fun s e =>
    detectSync (32 + p.flow) (first + (if hz = 96000 then e.2 / 2 else e.2)) (e.1.map (alignedWord depth)) s) s

/-- ST2110_PACKET_RECEIVE (R185, R186, R238): a packet on a leg of an ingress flow; an audio flow's bursts are detected by pair
(R207). -/
def execSt2110PacketReceive (p : MediaPacket) (s : State) : Outcome :=
  let (s, taken) := receivePacket p s
  match taken, p.form with
  | true, .audio hz depth _ samples =>
    done (detectFlow p hz depth samples s)
  | _, _ => done s

/-! ### Pairing and restarts (R212, R216) -/

/-- The running channels that a port belongs to: inputs 0–31 by membership, outputs 32 + n by AUD_OUT_CHANNEL. -/
def portChannels (s : State) (port : Nat) : List Nat :=
  (if port < 32 then chansOfAes s port
   else match tget s.aud.outs (port - 32) with | some o => [o.channel] | none => []).filter (fun c => chanRunning s c)

/-- A block start that finds a port in mid-restart realigns the pairing, and the gain ramps up (R212). -/
def realignIn (i : AudIn) : AudIn := { i with realign := false, swapped := false, restartGain := { i.restartGain with up := true } }

/-- The same for an output (R212). -/
def realignOut (o : AudOut) : AudOut :=
  { o with realign := false, swapped := false, st := if o.st = 3 then 3 else 1, restartGain := { o.restartGain with up := true } }

/-- AES3_BLOCK_START_CHECK (R212): a failure sets the swapped flag, is counted and reported, and may restart the port. -/
def execAes3BlockStartCheck (port : Nat) (paired : Bool) (s : State) : Outcome :=
  if ticking s = false then .next s
  else if port < 32 then
    let x := aesIn s port
    if x.taken = false ∨ x.fenced = true then .next s
    else if x.realign then .next (modIn s port realignIn)
    else if paired then .next (modIn s port (fun i => { i with swapped := false }))
    else done (raise 0x053 port (modIn s port (fun i =>
      { i with swapped := true, swaps := satAdd 8 i.swaps 1, restartDue := i.restartDue || i.autoRestart })))
  else
    match tget s.aud.outs (port - 32) with
    | none => .next s
    | some x =>
      if x.st = 3 then .next s
      else if x.realign then .next (modOut s (port - 32) realignOut)
      else if paired then .next (modOut s (port - 32) (fun o => { o with swapped := false }))
      else done (raise 0x053 port (modOut s (port - 32) (fun o =>
        { o with swapped := true, swaps := satAdd 8 o.swaps 1, restartDue := o.restartDue || o.autoRestart })))

/-- A port restarts: its gain goes to zero at once, its FIFO is flushed (of an input the rate adapter, of an output the words it was to
send), and pairing is realigned at the next block start; a
converting input keeps ρ (R212). -/
def restartPort (port : Nat) (s : State) : State :=
  if port < 32 then
    modIn s port (fun i => if i.fenced then i else
      { i with restartGain := ⟨0, false⟩, adapter := List.replicate 3 (zeroSubframe, zeroSubframe)
               line := List.replicate 3 (zeroSubframe, zeroSubframe), realign := true, restartDue := false, restarts := satAdd 8 i.restarts 1 })
  else
    modOut s (port - 32) (fun o => if o.st = 3 then o else
      { o with restartGain := ⟨0, false⟩, realign := true, restartDue := false, st := 2, sent := [] })

/-- The ports whose restart waits for a frame tick of a channel, or for the whole second where they belong to no running
channel (R212). -/
def portsDue (s : State) (p : Nat → Bool) : List Nat :=
  (tkeysOf s.aud.ins (fun _ i => i.restartDue) ++ (tkeysOf s.aud.outs (fun _ o => o.restartDue)).map (fun o => 32 + o)).filter p

/-- The automatic restarts of a channel's ports at its frame tick (R212). -/
def restartsAtTick (c : Nat) (s : State) : State :=
  (portsDue s (fun p => (portChannels s p).contains c)).foldl (fun s p => restartPort p s) s

/-- The restarts of ports that belong to no running channel, at the whole second (R212). -/
def restartsAtSecond (s : State) : State :=
  (portsDue s (fun p => (portChannels s p).isEmpty)).foldl (fun s p => restartPort p s) s

/-- AUDIO_PORT_RESTART_APPLY (R212): a restart named for the frame, or due, takes place now. -/
def execAudioPortRestartApply (port frame : Nat) (s : State) : Outcome :=
  let due := if port < 32 then (aesIn s port).restartDue else (tgetD s.aud.outs (port - 32) {}).restartDue
  let holds := fun (k : Commit) => k.frame == frame && k.change == .portRestart port
  let cs := tkeysOf s.enc.chans (fun _ h => h.shadow.any holds)
  if due || !cs.isEmpty then
    let s := cs.foldl (fun s c => modChan s c (fun h => { h with shadow := h.shadow.filter (fun k => !holds k) })) s
    .next (restartPort port s)
  else .next s

/-- Whether a partition sees an audio port's entry (R215). -/
def seesPort (s : State) (p port : Nat) : Bool :=
  p == 0 ||
    (if port < 32 then (chansOfAes s port).any (fun c => ownsChannel s p c)
     else match tget s.aud.outs (port - 32) with | some o => ownsChannel s p o.channel | none => false)

/-- A port's restart waits for the next whole second (R212). -/
def restartLater (port : Nat) (s : State) : State :=
  if port < 32 then modIn s port (fun i => { i with restartDue := true })
  else modOut s (port - 32) (fun o => { o with restartDue := true })

/-- AUD_PORT_RESTART, opcode 0x0610 (R216): a port of a running channel restarts at a target frame, on both devices of a pair; any
other at the next whole second, on both too (R212). A port with no record is NOT_READY (log entry 16). -/
def cmdAudPortRestart (r : Req) (s : State) : State :=
  takeRequest 0x0610 false changeLegal r (fun p s =>
    let b := payloadOf r
    let kind := f8 b 0 0 1
    let n := f8 b 1 0 (if kind.val = 0 then 31 else 15)
    let port := 32 * kind.val + n.val
    let clamped := kind.clamped || n.clamped || lenClamped r
    let known := if port < 32 then (aesIn s port).taken else thas s.aud.outs (port - 32)
    if !seesPort s p port then reply p r 0x0610 .notInPartition false [] s
    else if !known then reply p r 0x0610 .notReady false [] s
    else
      match portChannels s port with
      | c :: _ => changeFor p r 0x0610 c (u32 b 4) clamped [] (.portRestart port) s
      | [] =>
        let (f, s) := drawFree s
        let s := sendVa 3 (.va (.restart port)) (restartLater port s)
        reply p r 0x0610 .ok clamped (le 4 f) s) s

/-- AUD_PORT_RESTART (R216). -/
def execAudPortRestart (r : Req) (s : State) : Outcome := done (cmdAudPortRestart r s)

/-! ### The sample tick (R204, R206, R210, R211) -/

/-- Whether an audio member's φ_a is about to change: the video member it follows completes its rejoin at the next frame tick, which
is at most 240 sample ticks away (R210). -/
def phaseDue (s : State) (c : Nat) (g : Group) (m : Member) : Bool :=
  match m.refVideo.bind (fun v => tget g.members v) with
  | some v =>
    let ch := chan s c
    m.st == 0 && v.st != 0 && v.st != 3 && decide (g.rejoinF ≤ v.goodRun + 1) && lossCause (memberFenced s v) (frameNow ch.rate s.mtb.t + 1) v == 0 && !v.short &&
      placedWhole (frameNow ch.rate s.mtb.t + 1) v &&
      decide (m.phase ≠ some (roundSample (v.phase.getD 0))) &&
      decide (frameTickAt ch.rate (frameNow ch.rate s.mtb.t + 1) ≤ s.mtb.t + 240 * secUnit / 48000)
  | none => false

/-- The gains of audio members, one sample tick further: down while a change of φ_a is ahead, and up again while none is and the member is
joined, as where the video member fails to rejoin after all (R204, R210). -/
def stepMemberGains (s : State) : Tab Gain :=
  tmap s.aud.memberGain (fun key g =>
    let grp := group s (key / 16)
    match tget grp.members (key % 16) with
    | some m => stepGain (
        if transparentMember s m ∨ m.st ≠ 0 then g else { g with up := !phaseDue s (key / 16) grp m })
    | none => stepGain g)

/-- The words of an audio member at a sample tick; none where they are not in HBM. Those of a 96 kHz flow come from its decimator: its Λ of
16 sample ticks is the middle of the 65 half sample ticks that a half-band filter of that delay spans, and its coefficients no rule
states (R209; log entry 129). -/
def memberWords (n : Nat) (m : Member) : Option (List Nat) :=
  if m.doubleRate then
    (tget m.samples (2 * (n - 16))).map (fun l => (List.range l.length).map (fun k =>
      Config.halfBand ((List.range 65).map (fun i => (tgetD m.samples (2 * n - i) []).getD k 0)) % 2 ^ 24))
  else tget m.samples n

/-- An audio member at a sample tick: without its sample it has underrun for the frame, or its rejoin is at fault; what no later tick
reads is done with (R192, R211). -/
def audioMemberTick (n : Nat) (m : Member) : Member :=
  if m.type ≠ 1 then m
  else
    let kept := if m.doubleRate then 2 * (n - 32) else n + 1
    let m := match memberWords n m with
      | some _ => m
      | none =>
        if m.st = 0 then
          { m with short := true, underran := true, underruns := if m.underran then m.underruns else satAdd 32 m.underruns 1 }
        else { m with short := true }
    { m with samples := m.samples.filter (fun e => decide (kept ≤ e.1)) }

/-- A sample of an AES3 input reaches its members, Λ counted: it stands on the sample tick that O and φ_a give, if that is still to come or
is this one (R210; log entry 127). -/
def putAesSample (n : Nat) (w : Nat × Nat) (g : Group) (m : Member) : Member :=
  let k := nearestStep 48000 ((sampleTickAt n : Int) + offsetOf g + m.phase.getD 0)
  if (n : Int) ≤ k then { m with samples := tset m.samples k.toNat [w.1, w.2] } else m

/-- The AES3 inputs at a sample tick: each running one gives a frame to its members, its channels exchanged while they are swapped (R201,
R206, R210, R212). -/
def aesTick (n : Nat) (s : State) : State :=
  (tkeysOf s.aud.ins (fun _ i => i.taken && !i.fenced)).foldl (fun s k =>
    let i := aesIn s k
    let r := adapterOut i
    let w := if i.transp then r.2 else converterOut n i
    let w := if i.swapped then (w.2, w.1) else w
    onMembers 2 k (fun _ g m => putAesSample n w g m) (modIn s k (fun _ => r.1))) s

/-- Where a route leads: its channel, whether bursts pass there untouched, and the gains of the port it leaves by (R204, R208, R213). -/
structure Exit where
  channel : Nat
  passes : Bool
  gains : List Gain
  deriving DecidableEq, Repr

/-- The gain of a route's path for channel k at sample tick n: the smallest of those of the tracker, a port restart at either end, the
member's loss and a payload mute. A transparent path is not ramped (R204, R206, R208). -/
def pathGain (s : State) (e : Exit) (n k : Nat) (r : Route) (m : Member) : Nat :=
  let source := if transparentMember s m then []
    else (if m.srcType = 2 then [(aesIn s m.src).gain, (aesIn s m.src).restartGain] else []) ++
      [tgetD s.aud.memberGain (16 * e.channel + r.member) ⟨0, false⟩]
  let mute := tgetD s.aud.mutes (64 * pathOf m + k / 2) {}
  let muted := routeMutes s e.passes e.channel (pathOf m) (k / 2) r
  let burst := if muted then (if mute.active then (if mute.start ≤ n then [⟨0, false⟩] else []) else [mute.gain]) else []
  leastGain (source ++ burst ++ e.gains)

/-- The gain of a route in units of 2^-15: unity for 0, at most unity below 0 dB (R204, R214). DESIGN CHOICE: R204 holds every gain to
32,768 while R214 lets a route amplify by up to 24 dB; a gain above 0 dB is not held (log entry 129). -/
def routeGainValue (halfDb : Int) : Nat :=
  if halfDb = 0 then 32768 else if halfDb < 0 then min 32768 (Config.routeGain halfDb) else Config.routeGain halfDb

/-- A sample after a route's own gain; what leaves 24 bits is an open value (R204, R214; log entry 129). -/
def routeScaled (halfDb x : Int) : Int :=
  let v := applyGain (routeGainValue halfDb) x
  if -8388608 ≤ v ∧ v < 8388608 then v else Config.audioOverflow v

/-- A sample of a channel of a member after its gains and the route's own; a channel that the member lacks, and a lost member, are silent
(R204, R211, R214). -/
def routedSample (s : State) (e : Exit) (n : Nat) (r : Route) (k : Nat) : Int :=
  match routeMember s e.channel r with
  | none => 0
  | some m =>
    let v := if m.type = 1 ∧ m.st = 0 then ((memberWords n m).getD []).getD k 0 else 0
    routeScaled r.gain (applyGain (pathGain s e n k r m) (toSigned 24 v))

/-- The 24 audio bits of a route: one channel, or two mixed (R208, R214; log entry 129). -/
def routeWord (s : State) (e : Exit) (n : Nat) (r : Route) : Nat :=
  let a := routedSample s e n r r.chan
  ofSigned 24 (match r.second with | none => a | some k => Config.mixed a (routedSample s e n r k))

/-- Whether a pair of routes carries what it carries untouched: transparent sources, unity, no second channel (R208, R213). -/
def untouchedPair (s : State) (c : Nat) (l : List Route) : Bool :=
  l.all (fun r => routeTransparent s c r && r.gain == 0 && r.second.isNone)

/-- The subframe of a transparent route as it came; zero with validity where it is missing (R206). -/
def rawWord (s : State) (c n : Nat) (r : Route) : Nat :=
  match routeMember s c r with
  | none => zeroSubframe
  | some m => if m.st = 0 then ((memberWords n m).getD []).getD r.chan zeroSubframe else zeroSubframe

/-- Whether the pair that a route takes carries a burst that the route passes (R208). -/
def burstPasses (s : State) (c : Nat) (r : Route) : Bool :=
  match routeMember s c r with
  | some m => (tgetD s.aud.mutes (64 * pathOf m + r.chan / 2) {}).active && !routeMutes s true c (pathOf m) (r.chan / 2) r
  | none => false

/-- The words of one pair of a programme: as ST 2110-31 only untouched ones, others as zero subframes with validity; an ST 302 pair that
passes a burst goes untouched in 20-bit or 24-bit words, and a 16-bit programme mutes it (R213). -/
def couplet (s : State) (n : Nat) (p : Programme) (l : List Route) : List Nat :=
  if p.carriage = 2 then (if untouchedPair s p.channel l then l.map (rawWord s p.channel n) else l.map (fun _ => zeroSubframe))
  else if p.carriage = 0 ∧ l.any (burstPasses s p.channel) then
    (if p.bits = 16 then l.map (fun _ => 0) else l.map (rawWord s p.channel n))
  else l.map (routeWord s ⟨p.channel, carriagePasses p, []⟩ n)

/-- The words of a programme's sample (R213). -/
def programmeWords (s : State) (n : Nat) (p : Programme) : List Nat :=
  (List.range (p.count / 2)).flatMap (fun i => couplet s n p ((p.routes.drop (2 * i)).take 2))

/-- The two words that an AES3 output takes of a sample tick: a transparent output passes subframes unchanged, any other sends PCM under
its own restart gain as one of its causes; swapped channels are exchanged (R206, R212, R213). -/
def outputWords (s : State) (n : Nat) (o : AudOut) : List Nat :=
  let words :=
    if o.transp then o.routes.map (rawWord s o.channel n)
    else o.routes.map (routeWord s ⟨o.channel, false, [o.restartGain]⟩ n)
  if o.swapped then words.reverse else words

/-- The audio units at a sample tick: inputs give their frames, members are judged, programmes and outputs take their sample, and every
ramp takes a step (R204, R206, R210 to R213). -/
def audioTick (n : Nat) (underruns : List Nat) (s : State) : State :=
  let s := aesTick n s
  let s := { s with aud := { s.aud with
    programmes := tmap s.aud.programmes (fun _ p => if chanRunning s p.channel then { p with words := programmeWords s n p } else p)
    outs := tmap s.aud.outs (fun _ o =>
      if chanRunning s o.channel && o.st != 3 then
        { o with sent := tset (o.sent.filter (fun e => decide (n ≤ e.1))) (n + o.delay) (outputWords s n o)
                 status := if o.transp then none else some {} } else o) } }
  let s := { s with ing := { s.ing with groups := tmap s.ing.groups (fun c g =>
    if chanRunning s c then { g with members := tmap g.members (fun _ m => audioMemberTick n m) } else g) } }
  { s with aud := { s.aud with
      tick := n
      ins := tmap s.aud.ins (fun _ i => { i with gain := stepGain i.gain, restartGain := stepGain i.restartGain })
      outs := tmap s.aud.outs (fun o x =>
        { x with restartGain := stepGain x.restartGain
                 underruns := if underruns.contains o ∧ x.st ≠ 3 then satAdd 8 x.underruns 1 else x.underruns })
      mutes := tmap s.aud.mutes (fun _ m => { m with gain := stepGain m.gain })
      memberGain := stepMemberGains s } }

/-- AUD_IN_337 shows a burst of the last whole second (R215). -/
def audioSecond (s : State) : State :=
  { s with aud := { s.aud with ins := tmap s.aud.ins (fun _ i => { i with burst := i.burstNow, burstNow := false }) } }

/-! ### Registers (R215) -/

/-- The words of an AES3 input entry (R215). -/
def audInWord (i : AudIn) (off : Nat) : Nat :=
  match off with
  | 0x0 => packWord [(i.st, 0), (b2n i.transp, 3), (i.bw, 4), (b2n i.swapped, 6), (b2n i.burst, 7), (i.nominal, 8)]
  | 0x4 => i.partnerRatio.getD i.ratio
  | 0x8 => packWord [(i.glitches, 0), (i.reacq, 16), (i.stops, 24)]
  | 0xC => packWord [(i.swaps, 0), (i.restarts, 8), (i.slips, 16)]
  | _ => 0

/-- The words of an AES3 output entry (R215). -/
def audOutWord (o : AudOut) (off : Nat) : Nat :=
  match off with
  | 0x0 => packWord [(o.st, 0), (b2n o.transp, 2), (b2n o.swapped, 3), (b2n o.muted337, 4)]
  | 0x4 => packWord [(o.swaps, 0), (o.underruns, 8), (o.mutes, 16)]
  | _ => 0

/-- A read of an AES3 input entry clears the counters of the word (R215). -/
def clearAudIn (off : Nat) (i : AudIn) : AudIn :=
  match off with
  | 0x8 => { i with glitches := 0, reacq := 0, stops := 0 }
  | 0xC => { i with swaps := 0, restarts := 0, slips := 0 }
  | _ => i

/-- A read of an AES3 output entry clears the counters of the word (R215). -/
def clearAudOut (off : Nat) (o : AudOut) : AudOut :=
  match off with
  | 0x4 => { o with swaps := 0, underruns := 0, mutes := 0 }
  | _ => o

end Sys2Proof.Machine
end

