-- ==== Sys2Proof/Machine/Clocks.lean ====
section
/-! DEFINITION. Clock sources, the root multiplexer, supplies, reset pins and PMBus: the commands of the clock and power chapter
(R363 to R383) and of the pins (R448, R449, R457). -/

namespace Sys2Proof.Machine

/-! ### Sources -/

/-- A source or loop, as R383 numbers them. -/
def source (s : State) (i : Nat) : SourceSt := tgetD s.clk.src i {}

/-- The state with a source changed. -/
def setSource (i : Nat) (f : SourceSt → SourceSt) (s : State) : State :=
  { s with clk := { s.clk with src := tupd s.clk.src i {} f } }

/-- The sources with their numbers changed together. -/
def setSources (l : List Nat) (f : SourceSt → SourceSt) (s : State) : State := l.foldl (fun s i => setSource i f s) s

/-- A loop started on a good reference: it runs, its output is not gated, and its lock is awaited (R364, R366). -/
def startLoop (x : SourceSt) : SourceSt := { x with running := true, gated := false, counting := false, ready := false }

/-- The mode of an Ethernet quad; 3 where no record sets one (R317). -/
def quadMode (s : State) (q : Nat) : Nat := tgetD s.lnk.quads q 3

/-- Whether some Valsin port is in use (R323, R367). -/
def valsinInUse (s : State) : Bool := s.lnk.vals.any (fun p => p.2.st != 0)

/-- Whether a source is in use (R367). -/
def inUse (s : State) (i : Nat) : Bool :=
  let run := fun k => (source s k).running
  if i = 0 then run 4 || run 9 || run 10
  else if i = 1 then run 5 || run 6 || run 7 || run 8
  else if i = 2 then true
  else if i = 4 then !s.clk.pllROff
  else if 5 ≤ i ∧ i ≤ 8 then quadMode s (i - 5) != 3
  else if i = 9 then valsinInUse s
  else false

/-- Whether a source is in use and monitored (R367). A monitor needs a learnt ratio, so the source has been judged stable. -/
def monitored (s : State) (i : Nat) : Bool := inUse s i && (source s i).ready

/-- The source number of CLK_LOSS for a monitored source (Table 1 of the fault chapter). -/
def lossSource (i : Nat) : Nat :=
  if i = 0 then 0x07C else if i = 1 then 0x07D else if i = 4 then 0x07E else if i = 9 then 0x083 else 0x07A + i

/-- The loops whose reference a source is (R364). -/
def loopsOf (i : Nat) : List Nat := if i = 0 then [4, 9, 10] else if i = 1 then [5, 6, 7, 8] else []

/-- A switch of the root begins (R368). -/
def beginSwitch (toFrc isForced : Bool) (s : State) : State :=
  { s with clk := { s.clk with switchBusy := true, switchToFrc := toFrc, switchForced := isForced } }

/-- Every output is forced safe by the asynchronous path (R371). -/
def forceSafe (s : State) : State := { s with pins := { s.pins with forcedSafe := true, tripped := true, ppsOut := false } }

/-- A source is lost: its ready bit clears, CLK_LOST shows it and CLK_LOSSES counts the trip (R371, R383). The stability count of XIN0 and
XIN1 starts again as their edges return (R366, R372). -/
def markLost (i : Nat) (s : State) : State :=
  let s := setSource i (fun x => { x with ready := false, counting := decide (i < 2), lost := true, absent := true }) s
  { s with clk := { s.clk with losses := bump32 s.clk.losses } }

/-- Loops gated off with their reference (R364). -/
def gateLoops (i : Nat) (s : State) : State :=
  setSources (loopsOf i) (fun x => { x with gated := true, ready := false, counting := false }) s

/-- A detector of a monitored source trips (R371, R373, R374). FRC's own trip reports CLK_FRC_LOSS. Any other forces the outputs
safe, gates the loops, moves the root to FRC, and stands on its reporting path until the switch completes; with the root on FRC
already there is no switch to wait for. -/
def tripSource (i : Nat) (stopped : Bool) (s : State) : State :=
  if i = 2 then raise 0x084 0 (forceSafe (markLost 2 s))
  else
    let s := gateLoops i (markLost i (forceSafe s))
    let s := if i = 0 then { s with pins := { s.pins with sdiUndriven := true } } else s
    let waits := if i = 0 then [i, 10] else [i]
    if s.clk.rootFrc && !s.clk.switchBusy then
      let s := raise (lossSource i) 0 s
      if i = 0 then raise 0x085 0 s else s
    else
      let s := { s with clk := { s.clk with pendingLoss := s.clk.pendingLoss ++ waits } }
      beginSwitch true (i == 0 || (i == 4 && stopped)) s

/-- CLOCK_STOP_DETECT (R367, R371). -/
def execClockStopDetect (i : Nat) (s : State) : Outcome :=
  if alive s.mode.mode && monitored s i && !(source s i).absent then done (tripSource i true s) else .next s

/-- LOOP_LOSS_OF_LOCK (R367): a loop's lock detector trips its frequency detector. -/
def execLoopLossOfLock (i : Nat) (s : State) : Outcome :=
  if decide (4 ≤ i ∧ i ≤ 9) && alive s.mode.mode && monitored s i && !(source s i).absent then done (tripSource i false s)
  else .next s

/-- The departure of a count from the learnt ratio, in parts per million (R383). -/
def ppmOf (count ratio : Nat) : Int := (((count : Int) - (ratio : Int)) * 1000000) / (ratio : Int)

/-- FREQUENCY_MEASUREMENT (R367): the count departs by more than 2 % from the learnt ratio, or SRC gives FRC other than 9 to 13
cycles, and the detector trips. -/
def execFrequencyMeasurement (i count : Nat) (s : State) : Outcome :=
  if alive s.mode.mode && monitored s i && !(source s i).absent then
    let r := (source s i).ratio
    let s := if r = 0 then s else setSource i (fun x => { x with ppm := ppmOf count r }) s
    let trips := if i = 2 then decide (count < 9 ∨ 13 < count) else decide (2 * r < 100 * (max count r - min count r))
    if trips then done (tripSource i false s) else .next s
  else .next s

/-- LOOP_LOCK_REPORTED (R366): a running loop's lock starts its 4,096-cycle stability count. -/
def execLoopLockReported (i : Nat) (s : State) : Outcome :=
  let reference := if 5 ≤ i ∧ i ≤ 8 then 1 else 0
  if decide (4 ≤ i ∧ i ≤ 10) && (source s i).running && !(source s i).gated && !(source s i).ready &&
      (source s reference).ready then
    .next (setSource i (fun x => { x with counting := true }) s)
  else .next s

/-- Whether VIN, VIO18 and VIO33 are all within limits. -/
def inputsGood (s : State) : Bool := (List.range 3).all (fun i => tgetD s.pwr.supplyGood i false)

/-- What a source judged stable starts: FRC the counts of XIN0 and XIN1, XIN0 and XIN1 their loops (R366, R376). -/
def afterStable (i : Nat) (s : State) : State :=
  if i = 2 then
    setSources [0, 1] (fun x => if x.running && !x.ready then { x with counting := true } else x) s
  else if i = 0 then
    let s := setSources [9, 10] startLoop s
    if s.clk.pllROff then s else setSource 4 startLoop s
  else if i = 1 then
    (match s.mode.mode with
     | .hold | .boot => s
     | _ => setSources [5, 6, 7, 8] startLoop s)
  else if i = 10 then { s with pins := { s.pins with sdiUndriven := false } }
  else if 5 ≤ i ∧ i ≤ 8 then bringUp s
  else s

/-- The row of Table 3 that leaves Hold: the input supplies within limits, FRC, XIN0 and PLL_R stable, and RESET_N high (R13). -/
def tryBoot (s : State) : Outcome :=
  if s.mode.mode = .hold ∧ inputsGood s = true ∧ (source s 2).ready = true ∧ (source s 0).ready = true ∧
      (source s 4).ready = true ∧ s.pins.resetLow = false then done (enterBoot s)
  else .next s

/-- Whether a count passes its check: FRC gives SRC 9 to 13 cycles, and 65,536 cycles of XIN0, of 27 MHz, or of XIN1, of 156.25 MHz, span
a number of FRC cycles of 200 MHz within 8 % of nominal; the count is that of 4,096 FRC cycles (R363, R366). -/
def countPasses (i count : Nat) : Bool :=
  let near := fun (khz : Nat) => decide (92 * 200000 * count ≤ 100 * 4096 * khz ∧ 100 * 4096 * khz ≤ 108 * 200000 * count)
  if i = 2 then decide (9 ≤ count ∧ count ≤ 13) else if i = 0 then near 27000 else if i = 1 then near 156250 else true

/-- SOURCE_STABLE (R366): the count completes, CLK_READY is set and the monitor learns the ratio. In M0 what is now stable may take
the device to Boot (R13). A count that fails its check starts again. -/
def execSourceStable (i ratio : Nat) (s : State) : Outcome :=
  if (source s i).counting && countPasses i ratio then
    let s := setSource i (fun x => { x with counting := false, ready := true, absent := false, ratio := ratio }) s
    tryBoot (afterStable i s)
  else .next s

/-! ### The root multiplexer (R368 to R370) -/

/-- The CLK_ROOT word at 0x4008 (R383). -/
def clkRootWord (s : State) : Nat :=
  packWord [(b2n s.clk.rootFrc, 0), (b2n s.clk.switchBusy, 1), (b2n s.clk.pllROff, 2), (b2n s.clk.sFract, 3),
    (b2n s.clk.sConflict, 4), (fieldOf 4 s.clk.firstLost, 8)]

/-- PLL_R stopped by CLK_SWITCH (R369). -/
def stopPllR (s : State) : State :=
  setSource 4 (fun x => { x with running := false, ready := false, counting := false })
    { s with clk := { s.clk with pllROff := true } }

/-- PLL_R restarted (R369, R370). -/
def restartPllR (s : State) : State :=
  if s.clk.pllROff then setSource 4 startLoop { s with clk := { s.clk with pllROff := false } } else s

/-- The root is moved: MGT counts 10 ns a cycle on FRC (R31, R365). DESIGN CHOICE: back on PLL_R it takes the rate last measured
against a source, which is the nominal increment where nothing was measured; R31 names no increment (log entry 47). On FRC in M7 the stacks
are held in self-refresh (R365, R370). -/
def moveRoot (toFrc : Bool) (s : State) : State :=
  let s := if toFrc ∧ s.mode.mode = .quiescent then parkStacks s else s
  { s with
    clk := { s.clk with rootFrc := toFrc, switchBusy := false }
    mtb := { s.mtb with inc := if toFrc then frcInc else s.mtb.rate, onFrc := toFrc && s.mode.mode == .safeHold } }

/-- The reports that stood on their paths until the switch completed (R371, R374). -/
def raiseLosses (l : List Nat) (s : State) : State :=
  l.foldl (fun s i => if i = 10 then raise 0x085 0 s else raise (lossSource i) 0 s) s

/-- ROOT_SWITCH_DONE (R368): the root is on its new source. After a loss, the reports are taken in this cycle and a command whose
switch was overtaken is answered WRONG_MODE (R371, R372); otherwise CLK_SWITCH is answered (R369). -/
def execRootSwitchDone (s : State) : Outcome :=
  if s.clk.switchBusy then
    let s := if s.clk.switchForced then
        { s with clk := { s.clk with forcedSwitches := bump32 s.clk.forcedSwitches, switchForced := false } } else s
    let s := moveRoot s.clk.switchToFrc s
    let s := if s.clk.rootFrc then s else wakeWaiting s
    let waiting := s.clk.switchReply
    if s.clk.pendingLoss ≠ [] then
      let lost := s.clk.pendingLoss
      let s := { s with clk := { s.clk with pendingLoss := [], switchReply := none, switchStop := false } }
      let s := match waiting with
        | some r => replyTo r 0x0210 .wrongMode false [] s
        | none => s
      done (raiseLosses lost s)
    else
      let s := if s.clk.switchStop && s.clk.rootFrc then stopPllR s else s
      let s := { s with clk := { s.clk with switchReply := none, switchStop := false } }
      match waiting with
      | some r => done (replyTo r 0x0210 .ok (decide (1 < u8 (payloadOf r) 0) || decide (1 < u8 (payloadOf r) 1) || lenClamped r)
          (le 4 (clkRootWord s)) s)
      | none => .next s
  else .next s

/-- The retry hint of a BUSY reply outside R287 and R345, which no rule states (log entry 9). -/
def busy (p : Nat) (r : Req) (opcode : Nat) (s : State) : State :=
  let (h, s) := drawFree s
  reply p r opcode .busy false (le 4 h) s

/-- CLK_SWITCH is legal in M7 alone (R369). -/
def quiescentOnly (m : Mode) : Bool := m == .quiescent

/-- CLK_SWITCH naming PLL_R (R369). -/
def cmdClkSwitchToPllR (r : Req) (s : State) : State :=
  takeRequest 0x0210 true quiescentOnly r (fun p s =>
    let clamped := decide (1 < u8 (payloadOf r) 1) || lenClamped r
    if s.clk.switchBusy then busy p r 0x0210 s
    else if s.clk.rootFrc = false then reply p r 0x0210 .ok clamped (le 4 (clkRootWord s)) s
    else if (source s 4).ready = false then reply p r 0x0210 .notReady false [] s
    else { beginSwitch false false s with
           clk := { (beginSwitch false false s).clk with switchReply := some r, switchStop := false } }) s

/-- CLK_SWITCH naming FRC, with the PLL_R action (R369). On FRC already, only the action is taken. -/
def cmdClkSwitchToFrc (r : Req) (s : State) : State :=
  takeRequest 0x0210 true quiescentOnly r (fun p s =>
    let clamped := decide (1 < u8 (payloadOf r) 0) || decide (1 < u8 (payloadOf r) 1) || lenClamped r
    let stop := decide (1 ≤ u8 (payloadOf r) 1)
    if s.clk.switchBusy then busy p r 0x0210 s
    else if s.clk.rootFrc then
      let s := if stop then stopPllR s else restartPllR s
      reply p r 0x0210 .ok clamped (le 4 (clkRootWord s)) s
    else { beginSwitch true false s with
           clk := { (beginSwitch true false s).clk with switchReply := some r, switchStop := stop } }) s

/-- CLK_SWITCH_TO_PLL_R (R369). -/
def execClkSwitchToPllR (r : Req) (s : State) : Outcome := done (cmdClkSwitchToPllR r s)

/-- CLK_SWITCH_TO_FRC (R369). -/
def execClkSwitchToFrc (r : Req) (s : State) : Outcome := done (cmdClkSwitchToFrc r s)

/-! ### Safe-hold exit (R372) -/

/-- Whether the partner is present: VA is up or the heartbeat is present, and no clash was found (R461). -/
def partnerPresent (s : State) : Bool := pairInForce s && (s.red.vaUp || heartbeatPresent s)

/-- Whether what M9 waits for has returned, PLL_R apart: the sources in use of the mode returned to are stable, the supplies are within
limits, and the paths of the sources with a minimum severity have recovered (R372, R377, R385). -/
def othersReturned (s : State) : Bool :=
  (source s 2).ready && (source s 0).ready &&
    ([1, 5, 6, 7, 8, 9].all (fun i => !(source s i).absent && (!(inUse s i && (source s i).running) || (source s i).ready))) &&
    s.pwr.lostSupplies.isEmpty && !s.pwr.ocActive && !s.clk.switchBusy &&
    (s.flt.unsupervised.all (fun k => !sixSource k))

/-- Whether everything M9 waits for has returned (R372). -/
def safeHoldOver (s : State) : Bool := (source s 4).ready && othersReturned s

/-- Every stack out of self-refresh, with the delays of its band loaded (R306, R307). -/
def wakeStacks (s : State) : State :=
  (List.range 4).foldl (fun s k => loadDelays k s)
    { s with drm := { s.drm with stackOf := tmap s.drm.stackOf (fun _ x => { x with sr := .awake, waiting := [] }) } }

/-- The run mode that M7 and M9 are left to: Solo when no pair is configured or the partner is absent, with the claim of a
configured pair taken at the pair epoch, and Resync otherwise (R12, R13, R253, R461). -/
def enterRun (s : State) : State :=
  if partnerPresent s then enterMode .resync s
  else if s.red.paired then enterMode .solo (takeClaim false false s)
  else enterMode .solo s

/-- The MTB as M9 is left: stepped to its source where a listed one is present, to the time the source gives or, where the command
carries none, to a free one; otherwise it keeps its value with CLK_MTB_VALID clear (R31). -/
def leaveMtb (sourceTime : Option Nat) (s : State) : State :=
  let s := { s with mtb := { s.mtb with onFrc := false } }
  if selectedSource s = 0 then s
  else
    let (v, s) := drawFree s
    let s := stepMtb (sourceTime.getD v % mtbSpan) s
    { s with mtb := { s.mtb with valid := true } }

/-- SAFE_HOLD_EXIT (R372): the root returns to PLL_R, the MTB is stepped to its source where one is present (R31), the stacks leave
self-refresh, and the device takes its transition out of M9. A PLL_R that CLK_SWITCH had stopped is restarted first, and the exit waits
until it is stable (R370). -/
def execSafeHoldExit (sourceTime : Option Nat) (s : State) : Outcome :=
  if s.mode.mode = .safeHold ∧ safeHoldOver s = true then
    let s := leaveMtb sourceTime (moveRoot false s)
    let s := { wakeStacks s with pins := { s.pins with forcedSafe := false, tripped := false } }
    match s.mode.safeFrom with
    | .boot | .configure | .service => done (enterHold s)
    | _ => done (enterRun s)
  else if s.mode.mode = .safeHold ∧ s.clk.pllROff = true ∧ othersReturned s = true then .next (restartPllR s)
  else .next s

/-! ### FRC and PLL_S (R373, R374) -/

/-- FRC_START_FAIL (R373): a trip of the FRC monitor; FRC is switched off, the supervisor records it, and the eighth failure enters
Halt. -/
def execFrcStartFail (s : State) : Outcome :=
  if s.mode.mode = .hold ∧ (source s 2).running = true ∧ (source s 2).ready = false then
    let s := setSource 2 (fun x => { x with running := false, counting := false }) s
    let s := { s with clk := { s.clk with frcFails := s.clk.frcFails + 1, losses := bump32 s.clk.losses } }
    let (d, s) := drawFree s
    let (e, s) := drawFree s
    let s := supervisorEntry d e s
    if s.clk.frcFails = 8 then done (enterMode .halt s) else .next s
  else .next s

/-- FRC_RESTART (R373). -/
def execFrcRestart (s : State) : Outcome :=
  if s.mode.mode = .hold ∧ (source s 2).running = false ∧ s.pwr.railsUp = 7 then
    .next (setSource 2 (fun x => { x with running := true, counting := true }) s)
  else .next s

/-- PLL_S_LOCK_LOSS (R374). -/
def execPllSLockLoss (s : State) : Outcome :=
  if alive s.mode.mode && (source s 10).ready then
    let s := setSource 10 (fun x => { x with ready := false, counting := false, lost := true, absent := true }) s
    done (raise 0x085 0 { s with pins := { s.pins with sdiUndriven := true } })
  else .next s

/-! ### Supplies and rails (R376, R377) -/

/-- The state with an input or analog supply marked good or not. -/
def setSupply (i : Nat) (v : Bool) (s : State) : State :=
  { s with pwr := { s.pwr with supplyGood := tset s.pwr.supplyGood i v } }

/-- The debounce of the input supplies starts when all are good, RESET_N is high and no rail is up (R376). -/
def startDebounce (s : State) : State :=
  if inputsGood s && !s.pins.resetLow && s.pwr.railsUp == 0 && !s.pwr.railRising && !s.pwr.retryWait then
    { s with pwr := { s.pwr with debounce := true } }
  else s

/-- INPUT_SUPPLY_GOOD (R376): the debounce starts when it was the last; with the rails up and PLL_R stable the device goes to
Boot (R13). -/
def execInputSupplyGood (i : Nat) (s : State) : Outcome :=
  if s.mode.mode = .hold ∧ i < 3 then tryBoot (startDebounce (setSupply i true s)) else .next s

/-- INPUT_SUPPLY_BAD (R376): the debounce restarts and retries stop. -/
def execInputSupplyBad (i : Nat) (s : State) : Outcome :=
  if s.mode.mode = .hold ∧ i < 3 then
    let s := setSupply i false s
    .next { s with pwr := { s.pwr with debounce := false, retryWait := false } }
  else .next s

/-- SUPPLY_DEBOUNCE_DONE (R376): the SRAM rail starts. -/
def execSupplyDebounceDone (s : State) : Outcome :=
  if s.pwr.debounce && inputsGood s && !s.pins.resetLow then
    .next { s with pwr := { s.pwr with debounce := false, railRising := true, railsUp := 0 } }
  else .next s

/-- RAIL_WITHIN_LIMITS (R376): the next rail starts; after the last, the oscillator cells are enabled. -/
def execRailWithinLimits (s : State) : Outcome :=
  if s.pwr.railRising then
    if s.pwr.railsUp + 1 < 7 then .next { s with pwr := { s.pwr with railsUp := s.pwr.railsUp + 1 } }
    else
      let s := { s with pwr := { s.pwr with railsUp := 7, railRising := false, railBad := [],
                                            supplyGood := tset (tset (tset s.pwr.supplyGood 3 true) 4 true) 5 true } }
      .next (if s.pins.resetLow then s else { s with clk := startOscillators s.clk })
  else .next s

/-- RAIL_SEQUENCE_FAIL (R376): the rails are switched off and the supervisor records the failure. -/
def execRailSequenceFail (s : State) : Outcome :=
  if s.pwr.railRising then
    let (d, s) := drawFree s
    let (e, s) := drawFree s
    let s := supervisorEntry d e s
    .next { s with pwr := { s.pwr with railsUp := 0, railRising := false, retryWait := true } }
  else .next s

/-- RAIL_SEQUENCE_RETRY (R376). -/
def execRailSequenceRetry (s : State) : Outcome :=
  if s.pwr.retryWait && inputsGood s && !s.pins.resetLow then
    .next { s with pwr := { s.pwr with retryWait := false, railRising := true, railsUp := 0 } }
  else .next s

/-- POWER_REMOVED (R376): VIN below 8.0 V switches the rails off and the device goes to Hold; the supervisor's log is not kept
(R393). -/
def execPowerRemoved (s : State) : Outcome :=
  let s := { s with pwr := { supplyGood := (tset s.pwr.supplyGood 0 false).filter (fun p => decide (p.1 < 3)) } }
  let s := enterHold s
  .next { s with flt := { s.flt with supLog := [] } }

/-- The rail of PWR_RAIL_GOOD that an analog supply is (R375, R383). -/
def railOfSupply (i : Nat) : Nat := i + 2


/-- SUPPLY_LOSS (R377): PWR_SUPPLY is reported and the device enters M9. -/
def execSupplyLoss (i : Nat) (s : State) : Outcome :=
  if alive s.mode.mode && decide (i < 6) && tgetD s.pwr.supplyGood i false then
    let s := setSupply i false s
    let s := { s with pwr := { s.pwr with
        lostSupplies := sadd s.pwr.lostSupplies i, supplyEvents := bump32 s.pwr.supplyEvents
        railBad := if 3 ≤ i then sadd s.pwr.railBad (railOfSupply i) else s.pwr.railBad } }
    done (raise 0x086 i (forceSafe s))
  else .next s

/-- SUPPLY_RETURN (R377). -/
def execSupplyReturn (i : Nat) (s : State) : Outcome :=
  if s.pwr.lostSupplies.contains i then
    let s := setSupply i true s
    .next { s with pwr := { s.pwr with
      lostSupplies := sdel s.pwr.lostSupplies i
      railBad := if 3 ≤ i then sdel s.pwr.railBad (railOfSupply i) else s.pwr.railBad } }
  else .next s

/-- OVERCURRENT (R377). -/
def execOvercurrent (s : State) : Outcome :=
  if alive s.mode.mode then
    done (raise 0x088 0 (forceSafe { s with pwr := { s.pwr with ocActive := true } }))
  else .next s

/-- CORE_RAIL_LOSS (R377): 0 CORE, 1 SRAM. -/
def execCoreRailLoss (rail : Nat) (s : State) : Outcome :=
  if alive s.mode.mode && decide (rail < 2) then
    done (raise 0x087 rail { s with pwr := { s.pwr with railBad := sadd s.pwr.railBad (2 - rail) } })
  else .next s

/-- What HBM holds is lost: nothing is listed (R307, log entry 17). -/
def loseHbm (s : State) : State := { s with drm := { s.drm with mem := [], poison := [] } }

/-- HBM_RAIL_LOSS (R307): contents are lost and DRM_RAIL is reported. Which of HBM_VPP and HBM_VDD left its limits, rail 3 or 4 of
PWR_RAIL_GOOD, the command does not say: a free value (log entry 136). -/
def execHbmRailLoss (stack : Nat) (s : State) : Outcome :=
  if alive s.mode.mode && decide (stack < 4) then
    let (v, s) := drawFree s
    done (raise 0x06C stack (loseHbm { s with pwr := { s.pwr with railBad := sadd s.pwr.railBad (3 + v % 2) } }))
  else .next s

/-- The greatest reading of the sensors; the last temperature where there is none. -/
def hottest (old : Int) : List Int → Int
  | [] => old
  | x :: l => l.foldl (fun a b => if a < b then b else a) x

/-- A sample's readings stored (R380, R383). -/
def takeSample (env : PowerSample) (s : State) : State :=
  let tj := hottest s.pwr.tj env.sensors
  { s with pwr := { s.pwr with
      tj := tj, tjPeak := if s.pwr.tjPeak < tj then tj else s.pwr.tjPeak, tjAbove := decide (125 < tj)
      vinMv := fieldOf 16 env.vinMv, iinMa := fieldOf 16 env.iinMa, pinMw := fieldOf 32 env.pinMw
      energyMj := s.pwr.energyMj + env.pinMw
      railMv := (List.range 8).map (fun i => (i, fieldOf 16 (env.railsMv.getD i 0)))
      ocActive := s.pwr.ocActive && decide (s.pwr.ocMa < env.iinMa) } }

/-- The machine when the next sample is taken, a millisecond after the last (R380). -/
def atSample (s : State) : State :=
  let s := noEarlier s.pwr.sampleAt s
  { s with pwr := { s.pwr with sampleAt := s.mtb.t + msUnit } }

/-- TJ_SAMPLE (R380), each millisecond: the sensors are read, and what exceeds its threshold is reported. -/
def execTjSample (env : PowerSample) (s : State) : Outcome :=
  let s := atSample s
  let tj := hottest s.pwr.tj env.sensors
  let s := takeSample env s
  let s := if 125 < tj then raise 0x089 0 s else s
  let s := if 135 ≤ tj then raise 0x08A 0 s else s
  let s := if s.pwr.alertW ≠ 0 ∧ s.pwr.alertW * 1000 < env.pinMw then raise 0x08B 0 s else s
  done s

/-! ### Reset pins (R457) and PPS_OUT (R449) -/

/-- RESET_N_FALL (R457): the filter starts. -/
def execResetNFall (s : State) : Outcome :=
  .next { s with pins := { s.pins with resetLow := true, resetFilter := true } }

/-- RESET_ACCEPTED (R457): the device enters Hold with its outputs safe. -/
def execResetAccepted (s : State) : Outcome :=
  if s.pins.resetFilter && s.pins.resetLow then
    .next (enterHold { s with pins := { s.pins with resetFilter := false } })
  else .next s

/-- RESET_N_RELEASE (R457): a pulse shorter than the filter is ignored; otherwise SVC_EN is latched and every stability count
restarts, or the supplies are debounced where the rails are off. -/
def execResetNRelease (svcEn : Bool) (s : State) : Outcome :=
  if s.pins.resetLow then
    if s.pins.resetFilter then
      .next { s with pins := { s.pins with resetLow := false, resetFilter := false } }
    else
      let s := { s with pins := { s.pins with resetLow := false, svcEn := svcEn } }
      .next (if s.pwr.railsUp = 7 then { s with clk := startOscillators s.clk } else startDebounce s)
  else .next s

/-- PPS_OUT_FALL (R449), 1 ms after its rise. -/
def execPpsOutFall (s : State) : Outcome :=
  let s := if s.pins.ppsOut then noEarlier s.pins.ppsFallAt s else s
  .next { s with pins := { s.pins with ppsOut := false } }

/-! ### PMBus (R378) -/

/-- The target answers while VIN is good, and in every mode the rails hold up (R378). -/
def pmbusAnswers (s : State) : Bool := tgetD s.pwr.supplyGood 0 false || s.pwr.railsUp == 7

/-- A PMBus read of a command code, returning the word that stands for a quantity. -/
def pmbusRead (code quantity : Nat) (s : State) : Outcome :=
  if pmbusAnswers s then .next { s with pwr := { s.pwr with pmbReply := some (Config.pmbusWord code quantity) } } else .next s

/-- PMBUS_PAGE (R378): 0 to 7 and 0xFF; any other page is not acknowledged. -/
def execPmbusPage (page : Nat) (s : State) : Outcome :=
  if pmbusAnswers s && decide (page ≤ 7 ∨ page = 255) then .next { s with pwr := { s.pwr with pmbPage := page } } else .next s

/-- PMBUS_CLEAR_FAULTS (R378, R393). -/
def execPmbusClearFaults (s : State) : Outcome :=
  if pmbusAnswers s then
    .next { s with flt := { s.flt with supLog := [] }, pwr := { s.pwr with pmbLogIndex := 0 } }
  else .next s

/-- The facts a status word stands on: supplies and rails out of limits, the overcurrent and the temperature flag. -/
def statusFacts (s : State) : Nat :=
  maskOf (tkeysOf s.pwr.supplyGood (fun _ g => !g)) 6 + 64 * maskOf s.pwr.railBad 8 + 16384 * b2n s.pwr.ocActive +
    32768 * b2n s.pwr.tjAbove + 65536 * s.pwr.pmbPage

/-- PMBUS_STATUS_WORD (R378). -/
def execPmbusStatusWord (s : State) : Outcome := pmbusRead 0x79 (statusFacts s) s

/-- PMBUS_STATUS_INPUT (R378). -/
def execPmbusStatusInput (s : State) : Outcome := pmbusRead 0x7C (statusFacts s) s

/-- PMBUS_STATUS_IOUT (R378). -/
def execPmbusStatusIout (s : State) : Outcome := pmbusRead 0x7B (statusFacts s) s

/-- PMBUS_STATUS_TEMPERATURE (R378). -/
def execPmbusStatusTemperature (s : State) : Outcome := pmbusRead 0x7D (statusFacts s) s

/-- PMBUS_READ_VIN (R378). -/
def execPmbusReadVin (s : State) : Outcome := pmbusRead 0x88 s.pwr.vinMv s

/-- PMBUS_READ_IIN (R378). -/
def execPmbusReadIin (s : State) : Outcome := pmbusRead 0x89 s.pwr.iinMa s

/-- The voltage of the selected page in mV. -/
def pageMv (s : State) : Nat := if s.pwr.pmbPage = 255 then s.pwr.vinMv else tgetD s.pwr.railMv s.pwr.pmbPage 0

/-- PMBUS_READ_VOUT (R378). -/
def execPmbusReadVout (s : State) : Outcome := pmbusRead 0x8B (pageMv s) s

/-- PMBUS_READ_IOUT (R378): a rail's own current is measured by the supervisor alone and is a free value (log entry 8). -/
def execPmbusReadIout (s : State) : Outcome :=
  let (v, s) := drawFree s
  pmbusRead 0x8C v s

/-- PMBUS_READ_PIN (R378). -/
def execPmbusReadPin (s : State) : Outcome := pmbusRead 0x97 s.pwr.pinMw s

/-- PMBUS_READ_TEMPERATURE_1 (R378). -/
def execPmbusReadTemperature1 (s : State) : Outcome := pmbusRead 0x8D (ofSigned 16 s.pwr.tj) s

/-- PMBUS_MFR_FAULT_LOG_READ (R378, R393): the next 32-byte record of the supervisor's log, oldest first; past the last record the
bytes are free and the next read starts over (log entry 8). -/
def execPmbusMfrFaultLogRead (s : State) : Outcome :=
  if pmbusAnswers s then
    match s.flt.supLog.reverse[s.pwr.pmbLogIndex]? with
    | some e => .next { s with pwr := { s.pwr with pmbLogReply := logBytes e, pmbLogIndex := s.pwr.pmbLogIndex + 1 } }
    | none =>
      let (b, s) := drawBytes 32 s
      .next { s with pwr := { s.pwr with pmbLogReply := b, pmbLogIndex := 0 } }
  else .next s

/-- PMBUS_OTHER_WRITE (R378): not acknowledged, and nothing changes. -/
def execPmbusOtherWrite (_command : Nat) (s : State) : Outcome := .next s

end Sys2Proof.Machine
end

