-- ==== Sys2Proof/Machine/MediaTime.lean ====
section
/-! DEFINITION. The servo of the Media Time Base and its sources: the commands of the media time chapter outside the ticks (R25 to
R31). -/

namespace Sys2Proof.Machine

/-- A source in use changes: the servo acquires it (R27). -/
def selectSource (s : State) : State :=
  let k := selectedSource s
  if k ≠ 0 ∧ k ≠ s.mtb.src then
    { s with mtb := { s.mtb with src := k, servo := 1, within := 0 } }
  else s

/-- An offset held to what CLK_MTB_OFFSET shows (R25). -/
def satOffset (v : Int) : Int := clampI (-2147483647) 2147483647 v

/-- The modes in which the MTB is stepped to its source while discipline runs (R28); in M9 the step is that of R31. -/
def stepMode (m : Mode) : Bool :=
  match m with
  | .configure | .quiescent => true
  | _ => false

/-- A servo update: the rate newly measured and an increment within CLK_MTB_SLEW_PPB of it, both within ±500 ppm of nominal. Which
values the servo takes is not stated, so both are free within these bounds (R23, R28, log entry 10). -/
def updateServo (s : State) : State :=
  let (a, s) := drawFree s
  let (b, s) := drawFree s
  let rate := clampInc a
  let slew := rate * s.mtb.slewPpb / 1000000000
  let inc := clampInc (clampI ((rate : Int) - slew) ((rate : Int) + slew) b)
  { s with mtb := { s.mtb with rate := rate, inc := inc, history := (inc :: s.mtb.history).take 64 } }

/-- A measurement of the selected source: the offset is kept, sixteen in a row within CLK_MTB_LOCK_NS lock the servo, and the MTB
is stepped or its increment changed (R27, R28). DESIGN CHOICE: in M2 and M7 the step is made when the offset exceeds
CLK_MTB_LOCK_NS, since R28 says where a step may be made and not at which offset (log entry 102). DESIGN CHOICE: CLK_MTB_VALID is
set when the servo first reaches LOCKED, so that a holdover entered from ACQUIRING leaves it clear (R29; log entry 103). -/
def measure (offset : Int) (s : State) : State :=
  let good := decide ((satOffset offset).natAbs ≤ s.mtb.lockNs)
  let n := if good then min (s.mtb.within + 1) 16 else 0
  let s := { s with mtb := { s.mtb with
      offset := satOffset offset, within := n, servo := if n = 16 then 2 else s.mtb.servo
      valid := s.mtb.valid || n == 16
      abs := s.mtb.abs || s.mtb.src == 1 } }
  if stepMode s.mode.mode && !good then
    stepMtb (((s.mtb.t : Int) - offset * nsUnit).toNat % mtbSpan) s
  else updateServo s

/-- A message or edge noted with the time since entry to M1 at which it came: a PTP message on the second port under 4 (R27). -/
def noteSeen (k : Nat) (s : State) : State := { s with mtb := { s.mtb with seen := tset s.mtb.seen k s.mtb.uptime } }

/-- When a source was last heard; PTP on either of its ports (R27). -/
def lastSeen (s : State) (k : Nat) : Nat :=
  if k = 1 then max (tgetD s.mtb.seen 1 0) (tgetD s.mtb.seen 4 0) else tgetD s.mtb.seen k 0

/-- MGT cycles from now until a source has been silent for CLK_MTB_LOSS_MS, which is 2,700,000 units of uptime a millisecond
(R27). -/
def lossCycles (s : State) (k : Nat) : Nat :=
  ceilDiv (lastSeen s k + 2700000 * s.mtb.lossMs - s.mtb.uptime) (2700000000 / domainHz s .mgt)

/-- A source is present (R27). -/
def markPresent (k : Nat) (s : State) : State := { s with mtb := { s.mtb with present := sadd s.mtb.present k } }

/-- A source is present no longer (R27). -/
def dropPresent (k : Nat) (s : State) : State := { s with mtb := { s.mtb with present := sdel s.mtb.present k } }

/-- A message or edge of source k arrives. While MGT runs on FRC no discipline runs (R31). -/
def sourceEvent (k : Nat) (offset : Int) (s : State) : State :=
  if alive s.mode.mode && (listedSources s).contains k then
    let s := markPresent k s
    if s.clk.rootFrc then s
    else
      let s := selectSource s
      if s.mtb.src = k then measure offset s else s
  else s

/-- Whether PTP reaches the device on a port: MG0 and MG1 always, an Ethernet port while it is up; an absent one never is (R317, R321,
R322). -/
def ptpReaches (s : State) (port : Nat) : Bool := decide (16 ≤ port) || portUp s port

/-- The management plane answers a PTP message that came over Ethernet with a message of its own, its delay request (R26, R231; log
entry 76). -/
def answerPtp (port : Nat) (s : State) : State := if port < 16 then queueOwn port true s else s

/-- PTP_MESSAGE_RECEIVE (R27, R317, R321): messages count on the configured ports alone, where they reach the device. -/
def execPtpMessageReceive (port : Nat) (offset : Int) (s : State) : Outcome :=
  if ptpReaches s port = false then .next s
  else if port = s.mtb.ptpPort then .next (answerPtp port (sourceEvent 1 offset (noteSeen 1 s)))
  else if port = s.mtb.ptpPort2 ∧ s.mtb.ptpPort2 ≠ 255 then .next (answerPtp port (sourceEvent 1 offset (noteSeen 4 s)))
  else .next s

/-- FRAME_IN_EDGE (R27). -/
def execFrameInEdge (offset : Int) (s : State) : Outcome := .next (sourceEvent 2 offset (noteSeen 2 s))

/-- PPS_IN_EDGE (R27). -/
def execPpsInEdge (offset : Int) (s : State) : Outcome := .next (sourceEvent 3 offset (noteSeen 3 s))

/-- The mean of the servo updates kept; the nominal increment where there are none (R29). -/
def meanInc (s : State) : Nat :=
  if s.mtb.history.isEmpty then nominalInc else sumOf s.mtb.history / s.mtb.history.length

/-- Holdover: the increment frozen at the mean of the last 64 updates (R29). -/
def enterHoldover (s : State) : State :=
  { s with mtb := { s.mtb with src := 4, servo := 3, within := 0
                               inc := if s.clk.rootFrc then s.mtb.inc else meanInc s, rate := meanInc s } }

/-- A source is lost: another listed source is selected, or the servo enters holdover (R27, R29). -/
def loseSource (k : Nat) (s : State) : State :=
  let s := dropPresent k s
  if s.mtb.src = k then
    if selectedSource s = 0 then enterHoldover s else selectSource s
  else s

/-- MTB_SOURCE_LOST (R27, R29): CLK_MTB_LOSS_MS after the last message or edge of the source, for PTP on either port. -/
def execMtbSourceLost (k : Nat) (s : State) : Outcome :=
  if alive s.mode.mode && s.mtb.present.contains k then .next (loseSource k (passCycles (lossCycles s k) s))
  else .next s

end Sys2Proof.Machine
end

