-- ==== Sys2Proof/Machine/Security.lean ====
section
/-! DEFINITION. Boot, the configuration slot, enrolment, keys, attestation and update (R398 to R425). Verdicts of cryptography are
facts that the command states (log entry 3). -/

namespace Sys2Proof.Machine

/-! ### The boot selector (R400) -/

/-- Whether a selector copy has a valid magic and CRC. -/
def selectorValid (c : SelectorCopy) : Bool := u32 c 0 == 0x53454C31 && u32 c 12 == crcPresetOf 1 (c.take 12)

/-- The selector read from its copies: the valid one of higher generation; slot A of both images where none is valid (R400). -/
def readSelector (l : List SelectorCopy) (s : State) : State :=
  let ok := l.filter selectorValid
  match ok with
  | [] => { s with sec := { s.sec with selFw := 0, selCfg := 0, selGeneration := 0 } }
  | c :: rest =>
    let best := rest.foldl (fun a b => if u32 a 4 < u32 b 4 then b else a) c
    { s with sec := { s.sec with
      selGeneration := u32 best 4, selFw := u8 best 8 % 2, selCfg := u8 best 9 % 2 } }

/-- A slot made preferred: the copy of lower generation takes the generation plus 1 (R416). -/
def writeSelector (fw cfg : Nat) (s : State) : State :=
  { s with sec := { s.sec with
    selFw := fw, selCfg := cfg, selGeneration := (s.sec.selGeneration + 1) % 2 ^ 32 } }

/-! ### Firmware (R401, R402) -/

/-- The Table 3 code of a firmware slot: the checks in the order of R402. -/
def firmwareCode (x : FwSlot) (counter0 : Nat) : Nat :=
  if x.readError then 2
  else if x.magic ≠ 0x46573831 ∨ x.format ≠ 1 ∨ x.part ≠ 8416 ∨ 33554432 < 256 + 2592 + x.bodyLen + 4640 then 3
  else if x.keyOk = false then 5
  else if x.sigMagic ≠ 0x53474E31 ∨ x.sigAlg ≠ 0x0087 ∨ x.sigLen ≠ 4627 ∨ x.signatureOk = false then 6
  else if x.svn < counter0 then 7
  else 1

/-- Whether a service-open command is valid for this device now: its signature, its serial and its count (R418). -/
def svcValid (command : Bytes) (signatureOk : Bool) (s : State) : Bool :=
  command != [] && signatureOk && bytesAt command 8 16 == fit 16 s.sec.fuses.serial && u32 command 24 == s.sec.fuses.svcCount

/-- The reaction of a report made at severity 7 whatever its source's own severity: counted, logged, its event sent, Halt
(R387, R420). -/
def reportAtSeven (src : Nat) (s : State) : State :=
  let r : Report := ⟨src, 0, 0, 0⟩
  enterMode .halt (faultEvent r (writeLog r 7 0 0 (countReport src 0 s)))

/-- A fuse counter of n bits with one bit more programmed (R398, R410, R420). -/
def fuseUp (n v : Nat) : Nat := if v < n then v + 1 else v

/-- The unique-secret field all ones: US and KWO read ones, and the device is opened (R398, R420, R421). -/
def eraseUnique (f : Fuses) : Fuses := { f with unique := List.replicate 32 255, kwo := List.replicate 32 255, usAllOnes := true }

/-- The device is opened: the unique-secret field all ones, the key store and session keys zeroised, the counter one bit up, the
service region erased; it enters Service (R420). -/
def openService (s : State) : State :=
  let s := { s with
    sec := { s.sec with
      fuses := { eraseUnique s.sec.fuses with svcCount := fuseUp 32 s.sec.fuses.svcCount }
      keys := [], keysSeen := [], svcCommand := [], svcStaged := false }
    hst := { s.hst with sessions := [] } }
  enterMode .service s

/-- A unique-secret field that fails its check is completed to all ones, and the counter is raised where a valid command is still
staged (R421). -/
def completeErasure (x : FwSlot) (s : State) : State :=
  if x.uniqueSecretOk then s
  else
    let up := svcValid x.svcCommand x.svcSignatureOk s
    { s with sec := { s.sec with fuses := { eraseUnique s.sec.fuses with
      svcCount := if up then fuseUp 32 s.sec.fuses.svcCount else s.sec.fuses.svcCount } } }

/-- Entry to Configure (M2): the PLL_E loops start once XIN1 is stable (R376), and the hellos that waited for M2 are taken (R439). -/
def enterConfigure (s : State) : State :=
  let s := serveHellos (enterMode .configure s)
  if (source s 1).ready then setSources [5, 6, 7, 8] startLoop s else s

/-- What follows a verified firmware slot: the service port is opened, or a staged command is rejected and Configure follows (R401,
R419, R420). -/
def afterFirmware (x : FwSlot) (s : State) : State :=
  let valid := svcValid x.svcCommand x.svcSignatureOk s
  let s := { s with sec := { s.sec with svcCommand := x.svcCommand, svcStaged := valid } }
  if s.pins.svcEn && valid then
    if x.fuseProgramOk then openService s else reportAtSeven 0x1C3 s
  else
    let s := if s.pins.svcEn && x.svcCommand != [] then raise 0x1C4 0 s else s
    enterConfigure s

/-- FIRMWARE_SLOT_VERIFY (R398 to R402): the preferred slot first, then the other; when both fail the device halts. -/
def execFirmwareSlotVerify (x : FwSlot) (s : State) : Outcome :=
  if s.mode.mode = .boot ∧ x.slot < 2 ∧ tgetD s.sec.fwFail x.slot 0 = 0 then
    let s := if s.sec.fwFail.isEmpty then readSelector x.selectors s else s
    if s.sec.fwFail.isEmpty ∧ x.slot ≠ s.sec.selFw then .next s
    else
      let s := if x.fusesOk then s else raise 0x1C6 0 s
      let s := completeErasure x s
      let code := firmwareCode x (tgetD s.sec.fuses.counters 0 0)
      let s := { s with sec := { s.sec with fwFail := tset s.sec.fwFail x.slot code } }
      if code = 1 then
        let s := { s with sec := { s.sec with
          fwSlot := x.slot, fwFallback := x.slot != s.sec.selFw, fwSvn := x.svn, fwMeas := x.measurement } }
        done (if x.fusesOk then afterFirmware x s else s)
      else
        let s := raise 0x1C0 x.slot s
        if thas s.sec.fwFail (1 - x.slot) then done (enterMode .halt (settle s)) else done s
  else .next s

/-! ### The configuration slot (R403 to R409) -/

/-- The records of an area under the framing of R405; none where a length rule fails. -/
def frameRecords : Nat → Bytes → Option (List (Nat × Bytes))
  | _, [] => some []
  | 0, _ => none
  | n + 1, b =>
    let len := u16 b 2
    if b.length < 4 ∨ len % 4 ≠ 0 ∨ b.length < 4 + len then none
    else (frameRecords n (b.drop (4 + len))).map (fun l => (u16 b 0, (b.drop 4).take len) :: l)

/-- Whether an owner key copy has its magic, algorithm and length (R400). -/
def keyCopyValid (c : KeyCopy) : Bool := c.magic == 0x4F4B4531 && c.alg == 0x0087 && c.len == 2592

/-- Whether the owner key of a slot is found: on an enrolled device a copy whose key hashes to the fused owner key hash, on an unenrolled
one copy 0, whose key hashes to SEC_H_OWNER_HASH (R400, R409). -/
def ownerKeyFound (copies : List KeyCopy) (header : Bytes) (f : Fuses) : Bool :=
  if f.enrolled then copies.any (fun c => keyCopyValid c && c.hash == fit 64 f.ownerKeyHash)
  else match copies with
    | c :: _ => keyCopyValid c && c.hash == bytesAt header 64 64
    | [] => false

/-- The Table 3 code of a configuration slot, by the order of R404, with enrolment programmed only where `enrols`. -/
def configCode (x : CfgSlot) (enrols : Bool) (s : State) : Nat :=
  let h := x.header
  let f := s.sec.fuses
  let area := fit (u32 h 12) x.area
  if x.readError then 2
  else if u32 h 0 ≠ 0x48434331 ∨ u16 h 4 ≠ 1 ∨ u16 h 6 ≠ 256 ∨ u32 h 8 ≠ 8416 then 3
  else if 8388608 < u32 h 12 ∨ u32 h 12 % 4 ≠ 0 then 4
  else if u8 h 20 = 0 ∨ 63 < u8 h 20 ∨ 64 < u8 h 21 then 7
  else if allZero (bytesAt h 24 16) = false ∧ bytesAt h 24 16 ≠ fit 16 f.serial then 8
  else if f.enrolled ∧ bytesAt h 64 64 ≠ fit 64 f.ownerKeyHash then 5
  else if f.enrolled = false ∧ bitOf (u16 h 22) 0 = false then 9
  else if ownerKeyFound x.ownerKeys h f = false then 5
  else if x.sigMagic ≠ 0x53474E31 ∨ x.sigAlg ≠ 0x0087 ∨ x.sigLen ≠ 4627 ∨ x.signatureOk = false then 6
  else if u8 h 21 < tgetD f.counters (u8 h 20) 0 then 7
  else
    match frameRecords (area.length + 1) area with
    | none => 4
    | some l =>
      if l.length ≠ u32 h 16 then 4
      else if f.enrolled = false ∧ enrols = true ∧
          ((l.filter (fun r => r.1 == 0x0D20)).map (fun r => r.2.length) ≠ [32] ∨ x.programOk = false) then 9
      else 1

/-- The fuses after enrolment: the owner key hash, KWO and the enrolled flag (R409). -/
def enrol (hash kwo : Bytes) (s : State) : State :=
  { s with sec := { s.sec with fuses := { s.sec.fuses with
    ownerKeyHash := hash, kwo := fit 32 kwo, kwoProgrammed := true, enrolled := true } } }

/-- The settings of a configuration slot that has passed, put in force (R404, R424). -/
def takeConfig (x : CfgSlot) (s : State) : State :=
  let h := x.header
  let area := fit (u32 h 12) x.area
  let image := (frameRecords (area.length + 1) area).getD []
  let s := if s.sec.fuses.enrolled then s
    else enrol (bytesAt h 64 64) (((image.find? (fun r => r.1 == 0x0D20)).map (fun r => r.2)).getD []) s
  { s with
    sec := { s.sec with
      cfgSlot := x.slot, cfgFallback := x.slot != s.sec.selCfg, cfgCtr := u8 h 20, cfgSvn := u8 h 21, imageId := u32 h 40
      cfgMeas := x.measurement, image := image }
    mode := { s.mode with configured := true } }

/-! ### Keys (R411, R412) and enrolment (R409) -/

/-- The key record, type 0x0D10: its tag is checked under KWO, and a second record for a slot is discarded (R412). -/
def recKey (tagOk : Bool) (b : Bytes) (s : State) : State :=
  sized 76 b (fun s =>
    let slot := clamp 0 254 (u8 b 0)
    if s.sec.keysSeen.contains slot then orphan s
    else
      let s := { s with sec := { s.sec with keysSeen := sadd s.sec.keysSeen slot } }
      if tagOk && s.sec.fuses.kwoProgrammed && !s.sec.fuses.usAllOnes then
        applied { s with sec := { s.sec with keys := tset s.sec.keys slot ⟨fit 44 (Config.unwrapped s.sec.fuses.kwo (bytesAt b 4 12) (bytesAt b 16 44))⟩ } }
      else
        raise 0x1C2 slot { s with sec := { s.sec with keysFailed := bump 9 s.sec.keysFailed } }) s

/-- KEY_RECORD (R412). -/
def execKeyRecord (b : Bytes) (tagOk : Bool) (s : State) : Outcome := recordCommand 0x0D10 b (recKey tagOk) s

/-- ENROLMENT_RECORD (R409): it supplies KWO on an unenrolled device in M2, and is discarded by type on an enrolled one. -/
def execEnrolmentRecord (b : Bytes) (s : State) : Outcome :=
  if s.mode.mode = .configure ∧ s.sec.fuses.enrolled = false then
    if b.length = 32 then .next (applied (enrol s.sec.fuses.ownerKeyHash b s)) else .next s
  else recordCommand 0x0D20 b (fun _ => unknownRecord) s

/-! ### Anti-rollback fuses (R410) -/

/-- FUSE_BIT_PROGRAM (R410): after its 20 µs a bit is programmed, or its failure reported, and the next starts. -/
def execFuseBitProgram (ok : Bool) (s : State) : Outcome :=
  match s.sec.antiRollback with
  | [] => .next s
  | c :: rest =>
    if alive s.mode.mode then
      let s := noEarlier s.sec.fuseAt s
      let s := { s with sec := { s.sec with antiRollback := rest, fuseAt := s.mtb.t + 20 * usUnit } }
      if ok then
        .next { s with sec := { s.sec with fuses := { s.sec.fuses with
          counters := tset s.sec.fuses.counters c (fuseUp 64 (tgetD s.sec.fuses.counters c 0)) } } }
      else done (raise 0x1C3 0 s)
    else .next s

/-! ### Identity and attestation (R413, R414, R425) -/

/-- Modes of SEC_IDENTITY, SEC_ATTEST and SEC_ATTEST_READ: M3 to M8 and M10 (R425, R439). -/
def attestLegal (m : Mode) : Bool := ticksRun m || m == .quiescent || m == .service

/-- The seed of the identity key pair: the first 32 bytes of SHA3-512 over "SOL-ID1" and US (R413). -/
def identitySeed (s : State) : Bytes :=
  (Config.sha3 ([0x53, 0x4F, 0x4C, 0x2D, 0x49, 0x44, 0x31] ++ fit 32 s.sec.fuses.unique)).take 32

/-- The identity public key as a command returns it (R413). -/
def identityBytes (s : State) : Bytes := fit 2592 (Config.identityKey (identitySeed s))

/-- SEC_IDENTITY, opcode 0x0D10 (R425). -/
def cmdSecIdentity (r : Req) (s : State) : State :=
  takeRequest 0x0D10 false attestLegal r (fun p s =>
    reply p r 0x0D10 .ok (lenClamped r)
      (fit 16 s.sec.fuses.serial ++ le 4 (b2n s.sec.fuses.usAllOnes) ++ identityBytes s) s) s

/-- SEC_IDENTITY (R425). -/
def execSecIdentity (r : Req) (s : State) : Outcome := done (cmdSecIdentity r s)

/-- The 64 anti-rollback counters as bytes. -/
def counterBytes (s : State) : Bytes := (List.range 64).map (fun i => BitVec.ofNat 8 (tgetD s.sec.fuses.counters i 0))

/-- The fuse measurement of R414. -/
def fuseMeasurement (s : State) : Bytes :=
  Config.sha3 (fit 16 s.sec.fuses.serial ++ fit 64 s.sec.fuses.ownerKeyHash ++ le 1 (b2n s.sec.fuses.enrolled) ++
    counterBytes s ++ le 4 s.sec.fuses.svcCount ++ le 1 (b2n s.sec.fuses.usAllOnes))

/-- The attestation report of Table 8 (R414). -/
def attestReport (p seq : Nat) (nonce : Bytes) (s : State) : Bytes :=
  le 4 0x41545331 ++ le 2 1 ++
    le 2 (b2n s.sec.fuses.usAllOnes + 2 * b2n s.sec.fuses.enrolled + 4 * b2n s.mode.degraded + 8 * b2n s.sec.fwFallback +
      16 * b2n s.sec.cfgFallback) ++
    le 4 s.sec.fuses.svcCount ++ le 1 (modeCode s.mode.mode) ++ le 1 s.sec.fwSlot ++ le 1 s.sec.cfgSlot ++ le 1 p ++
    le 6 (secOf s.mtb.t) ++ le 2 (b2n s.mtb.valid + 2 * b2n s.mtb.abs) ++ le 4 (nsOf s.mtb.t) ++ le 4 seq ++
    fit 16 s.sec.fuses.serial ++ fit 64 nonce ++ fit 64 s.sec.fwMeas ++ fit 64 s.sec.cfgMeas ++
    fit 64 (fuseMeasurement s) ++ fit 64 (Config.sha3 (identityBytes s)) ++ counterBytes s ++ le 4 s.sec.imageId ++ zeros 12

/-- SEC_ATTEST, opcode 0x0D11: the report is signed and returned, its signature kept for the partition (R414, R425). -/
def cmdSecAttest (r : Req) (s : State) : State :=
  takeRequest 0x0D11 false attestLegal r (fun p s =>
    let seq := (s.sec.attestSeq + 1) % 2 ^ 32
    let report := attestReport p seq (bytesAt (payloadOf r) 0 64) s
    let (sig, s) := drawBytes 4627 s
    let s := { s with sec := { s.sec with attests := bump32 s.sec.attests, attestSeq := seq } }
    let s := setPart s p (fun x => { x with attest := sig })
    reply p r 0x0D11 .ok (lenClamped r) report s) s

/-- SEC_ATTEST (R414). -/
def execSecAttest (r : Req) (s : State) : Outcome := done (cmdSecAttest r s)

/-- SEC_ATTEST_READ, opcode 0x0D12 (R425). -/
def cmdSecAttestRead (r : Req) (s : State) : State :=
  takeRequest 0x0D12 false attestLegal r (fun p s =>
    let b := payloadOf r
    let off := min (u16 b 0) 4624
    let n := min (min (u16 b 2) 4064) (4627 - off)
    let sig := (part s p).attest
    if sig.isEmpty then reply p r 0x0D12 .notReady false [] s
    else reply p r 0x0D12 .ok (off != u16 b 0 || n != u16 b 2 || lenClamped r) (bytesAt sig off n) s) s

/-- SEC_ATTEST_READ (R425). -/
def execSecAttestRead (r : Req) (s : State) : Outcome := done (cmdSecAttestRead r s)

/-! ### Update (R415 to R417) -/

/-- The largest size of an item kind (R415). -/
def updateMax (kind : Nat) : Nat :=
  if kind = 0 then 33554432 else if kind = 1 then 8393504 else if kind = 2 then 4768 else 2600

/-- The flash region an item kind is written to, as offset and size (R399, R415). -/
def updateRegion (kind : Nat) (s : State) : Nat × Nat :=
  if kind = 0 then (if s.sec.fwSlot = 0 then 0x02100000 else 0x00100000, 33554432)
  else if kind = 1 then (if s.sec.cfgSlot = 0 then 0x04A00000 else 0x04100000, 9437184)
  else if kind = 2 then (0x00004000, 16384)
  else (0x00002000, 8192)

/-- A region as the bytes of a reply: u32 offset, u32 size (log entry 13). -/
def regionBytes (kind : Nat) (s : State) : Bytes := le 4 (updateRegion kind s).1 ++ le 4 (updateRegion kind s).2

/-- Modes of SEC_UPDATE_BEGIN: M3, M5 and M7 (R425). -/
def updateLegal (m : Mode) : Bool := requestLegal .update m

/-- M8 alone, for the chunks of an update (R425). -/
def updateOnly (m : Mode) : Bool := m == .update

/-- SEC_UPDATE_BEGIN, opcode 0x0D13: an owner mode request, held until its tick; BUSY while one is held, NOT_READY in M7 on FRC
(R15, R370, R415). -/
def cmdSecUpdateBegin (r : Req) (s : State) : State :=
  takeRequest 0x0D13 true updateLegal r (fun p s =>
    let b := payloadOf r
    let kind := clamp 0 3 (u8 b 0)
    let len := min (u32 b 4) (updateMax kind)
    if s.mode.held.isSome then busy p r 0x0D13 s
    else if s.mode.mode == .quiescent && s.clk.rootFrc then reply p r 0x0D13 .notReady false [] s
    else
      let h : Held :=
        { kind := .update, req := r, updKind := kind, updLen := len,
          clamped := kind != u8 b 0 || len != u32 b 4 || lenClamped r }
      { s with mode := { s.mode with held := some h } }) s

/-- SEC_UPDATE_BEGIN (R415). -/
def execSecUpdateBegin (r : Req) (s : State) : Outcome := done (cmdSecUpdateBegin r s)

/-- M8 is entered for a held SEC_UPDATE_BEGIN: the region's erasure starts (R13, R415). -/
def beginUpdate (h : Held) (s : State) : State :=
  let s := { s with
    mode := { s.mode with updateFrom := s.mode.mode }
    sec := { s.sec with
      update := some { kind := h.updKind, len := h.updLen, lastChunk := s.mtb.t, begun := some h.req, clamped := h.clamped }
      updState := 1, updBytes := 0 } }
  enterMode .update s

/-- UPDATE_ERASE_DONE (R415): the region is erased and SEC_UPDATE_BEGIN answered with it. -/
def execUpdateEraseDone (s : State) : Outcome :=
  match s.sec.update with
  | some u =>
    if s.mode.mode = .update ∧ u.erased = false then
      let s := { s with sec := { s.sec with update := some { u with erased := true, begun := none, lastChunk := s.mtb.t } } }
      match u.begun with
      | some r => done (replyTo r 0x0D13 .ok u.clamped (regionBytes u.kind s) s)
      | none => .next s
    else .next s
  | none => .next s

/-- SEC_UPDATE_DATA, opcode 0x0D14: a chunk at the next expected offset is written; any other is answered with the offset expected
(R415). -/
def cmdSecUpdateData (r : Req) (s : State) : State :=
  takeRequest 0x0D14 true updateOnly r (fun p s =>
    let b := payloadOf r
    let asked := u16 b 4
    let n := clamp 4 4064 asked / 4 * 4
    match s.sec.update with
    | none => reply p r 0x0D14 .notReady false [] s
    | some u =>
      if u.erased = false ∨ u.ended.isSome = true then reply p r 0x0D14 .notReady false [] s
      else if u32 b 0 ≠ u.received then reply p r 0x0D14 .ok (n != asked || lenClamped r) (le 4 u.received) s
      else
        let n := min n (u.len - u.received)
        let next := u.received + n
        let s := { s with sec := { s.sec with
          update := some { u with received := next, data := u.data ++ bytesAt b 8 n, lastChunk := s.mtb.t }
          updBytes := next } }
        reply p r 0x0D14 .ok (n != asked || lenClamped r) (le 4 next) s) s

/-- SEC_UPDATE_DATA (R415). -/
def execSecUpdateData (r : Req) (s : State) : Outcome := done (cmdSecUpdateData r s)

/-- SEC_UPDATE_END, opcode 0x0D15: verification of the written item starts (R416). -/
def cmdSecUpdateEnd (r : Req) (s : State) : State :=
  takeRequest 0x0D15 true updateOnly r (fun p s =>
    match s.sec.update with
    | none => reply p r 0x0D15 .notReady false [] s
    | some u =>
      if u.erased = false ∨ u.ended.isSome = true then reply p r 0x0D15 .notReady false [] s
      else { s with sec := { s.sec with update := some { u with ended := some r }, updState := 2 } }) s

/-- SEC_UPDATE_END (R416). -/
def execSecUpdateEnd (r : Req) (s : State) : Outcome := done (cmdSecUpdateEnd r s)

/-- The Table 3 code of a written item (R416): kind 0 under R402, kind 1 under R404 without enrolling, kind 2 under R418, kind 3 by
its magic, length and hash. -/
def itemCode (u : Update) (item : FwSlot) (config : CfgSlot) (s : State) : Nat :=
  if u.kind = 0 then firmwareCode item (tgetD s.sec.fuses.counters 0 0)
  else if u.kind = 1 then
    configCode { config with header := bytesAt u.data 0 256, area := u.data.drop 256 } false s
  else if u.kind = 2 then
    if item.readError then 2
    else if item.svcSignatureOk = false then 6
    else if bytesAt u.data 8 16 ≠ fit 16 s.sec.fuses.serial then 8
    else if u32 u.data 24 ≠ s.sec.fuses.svcCount then Config.svcVerdict % 9 + 2
    else 1
  else
    if item.readError then 2
    else if u32 u.data 0 ≠ 0x4F4B4531 ∨ u16 u.data 6 ≠ 2592 ∨ u.received < 2600 then 3
    else if s.sec.fuses.enrolled ∧ item.keyOk = false then 5
    else 1

/-- What a passing item changes: the selector for an image, SEC_SVC_STAGED for a service-open command (R416). -/
def takeItem (u : Update) (s : State) : State :=
  if u.kind = 0 then writeSelector (1 - s.sec.fwSlot) s.sec.selCfg s
  else if u.kind = 1 then writeSelector s.sec.selFw (1 - s.sec.cfgSlot) s
  else if u.kind = 2 then { s with sec := { s.sec with svcStaged := true, svcCommand := u.data.take 128 } }
  else s

/-- The device returns to the mode M8 was entered from (R13, R417). -/
def leaveUpdate (s : State) : State :=
  enterMode s.mode.updateFrom { s with sec := { s.sec with update := none } }

/-- UPDATE_VERIFY_DONE (R416): the verdict, the selector on a pass, the return from M8 and the reply. -/
def execUpdateVerifyDone (item : FwSlot) (config : CfgSlot) (s : State) : Outcome :=
  match s.sec.update with
  | some u =>
    match s.mode.mode, u.ended with
    | .update, some r =>
      let code := itemCode u item config s
      let region := regionBytes u.kind s
      let s := { s with sec := { s.sec with updVerdict := code, updState := if code = 1 then 3 else 4 } }
      let s := if code = 1 then takeItem u s else raise 0x1C5 u.kind s
      done (replyTo r 0x0D15 .ok (lenClamped r) (le 4 code ++ region) (leaveUpdate s))
    | _, _ => .next s
  | none => .next s

/-- UPDATE_TIMEOUT (R417): 10 s without a chunk. -/
def execUpdateTimeout (s : State) : Outcome :=
  match s.sec.update with
  | some u =>
    if s.mode.mode = .update ∧ u.ended = none then
      match atTime (u.lastChunk + 10 * secUnit) s with
      | some s => done (leaveUpdate (abandonUpdate s))
      | none => done (leaveUpdate (abandonUpdate s))
    else .next s
  | none => .next s

/-- SEC_UPDATE_ABORT, opcode 0x0D16 (R417). -/
def cmdSecUpdateAbort (r : Req) (s : State) : State :=
  takeRequest 0x0D16 true updateOnly r (fun p s =>
    match s.sec.update with
    | none => reply p r 0x0D16 .ok (lenClamped r) [] s
    | some _ => reply p r 0x0D16 .ok (lenClamped r) [] (leaveUpdate (abandonUpdate s))) s

/-- SEC_UPDATE_ABORT (R417). -/
def execSecUpdateAbort (r : Req) (s : State) : Outcome := done (cmdSecUpdateAbort r s)

end Sys2Proof.Machine
end

