-- ==== Sys2Proof/Machine/Egress.lean ====
section
/-! DEFINITION. Egress: flow records, charges, packetisation, shaping, scheduling, gate lists, statistics and the commands that
change rates and gates (chapter 11). -/

namespace Sys2Proof.Machine

/-! ### Sizes (R217, R356) -/

/-- The state with a leg changed, where it has one. -/
def modLeg (s : State) (k : Nat) (f : Leg → Leg) : State := { s with egr := { s.egr with legs := tmod s.egr.legs k f } }

/-- Whether a leg is a leg of a slice flow (R217). -/
def sliceLeg (l : Leg) : Bool := decide (l.kind ≤ 1)

/-- O: the overhead of each packet of a leg on the wire (Table 2 of the egress chapter); k is what an APPEND unit adds (R356). -/
def overhead (k : Nat) (l : Leg) : Nat :=
  20 + 18 + (if l.vlan = 0 then 0 else 4) + (if l.family = 0 then 20 else 40) + 20 + (if l.kind = 0 then 3 else 0) +
    (if l.srtpKey.isSome then 16 else 0) + k

/-- P: the payload of a full packet of a slice flow (R217, R356). -/
def fullPayload (k : Nat) (l : Leg) : Nat :=
  if l.kind = 0 then 1500 - (if l.family = 0 then 20 else 40) - 23 - (if l.srtpKey.isSome then 16 else 0) - k else 1316

/-- Samples per packet of an audio programme (R222). -/
def packetSamples (p : Programme) : Nat := if p.ptime = 1 then 6 else 48

/-- Payload of an audio packet: 3 bytes per channel, or 8 per pair, and sample (R227). -/
def audioPayload (kind : Nat) (p : Programme) : Nat :=
  if kind = 2 then 3 * p.count * packetSamples p else 8 * (p.count / 2) * packetSamples p

/-- Bytes of a pair's sample in ST 302 (R227). -/
def pairBytes (bits : Nat) : Nat := if bits = 16 then 5 else if bits = 20 then 6 else 7

/-- An audio programme. -/
def programme (s : State) (p : Nat) : Programme := tgetD s.aud.programmes p {}

/-! ### Charges (R227) -/

/-- The ST 302 programmes of a TS leg. -/
def tsProgrammes (s : State) (l : Leg) : List Programme := l.tsAudio.map (fun p => programme s p)

/-- ρ of a direct RTP leg; per = (R × tile columns + 1) × N over D. -/
def directRate (k bMax num den : Nat) (l : Leg) : Nat :=
  let p := fullPayload k l
  let o := overhead k l
  ceilDiv (bMax * (p + o)) p + ceilDiv (8 * o * num) den + (if l.rtcp then 64000 else 0)

/-- ρ of a transport-stream leg (R227). -/
def tsRate (k bMax num den n : Nat) (progs : List Programme) (l : Leg) : Nat :=
  let o := overhead k l
  let fixed := sumOf (progs.map (fun p => p.count / 2 * 48000 * 8 * pairBytes p.bits))
  let a := (bMax + fixed) * den + 144 * n * progs.length
  let bts := ceilDiv (a * 188) (184 * den) + 376000
  let pi := ceilDiv bts (8 * 1316) * den + num
  let fec := if l.fec = 0 then 0
    else 8 * (ceilDiv pi (den * l.fecD) + (if l.fec = 2 then ceilDiv pi (den * l.fecL) else 0)) * (1316 + o + 16)
  ceilDiv (8 * pi * (1316 + o)) den + fec + (if l.rtcp then 64000 else 0)

/-- ρ of an audio leg before EGR_RATE_KBPS raises it: the computed charge (R227, R229). -/
def audioRate (k : Nat) (p : Programme) (l : Leg) : Nat :=
  48000 / packetSamples p * 8 * (audioPayload l.kind p + overhead k l) + (if l.rtcp then 64000 else 0)

/-- h: the bytes of a head (R227). -/
def headBytes (k x : Nat) (l : Leg) : Nat :=
  let p := fullPayload k l
  (ceilDiv x (8 * p) + 1) * (p + overhead k l)

/-- η: the head charge (R227). -/
def headCharge (k x : Nat) (l : Leg) : Nat := ceilDiv (8 * headBytes k x l * 1000000) 7

/-- The committed rate ρ of a leg, and its charge (R227). -/
def legCharge (s : State) (key : Nat) (l : Leg) : Nat × Nat :=
  let k := appendBytes s key
  if sliceLeg l then
    let c := tgetD s.enc.ctxs l.source {}
    let ch := chan s l.channel
    let n := rateN ch.rate
    let num := (ctuRows c.raster * tileCols c.raster + 1) * n
    let rho := if l.kind = 0 then directRate k c.bMax num (rateD ch.rate) l
      else tsRate k c.bMax num (rateD ch.rate) n (tsProgrammes s l) l
    (rho, rho + headCharge k c.x l)
  else
    let rho := max (l.rateCfg * 1000) (audioRate k (programme s l.source) l)
    (rho, rho)

/-- The line rate of an Ethernet port, 0 for one that is absent (R317). -/
def lineRate (s : State) (p : Nat) : Nat :=
  match tget s.lnk.eth p with
  | some e => 100000000000 * 2 ^ e.speed
  | none => 0

/-- The legs of a channel. -/
def legsOf (s : State) (c : Nat) : List (Nat × Leg) := s.egr.legs.filter (fun l => l.2.channel == c)

/-- Whether an ingress flow's ports are present (R317). -/
def flowPortsPresent (s : State) (i : Nat) : Bool :=
  match tget s.ing.flows i with
  | none => true
  | some f => thas s.lnk.eth f.portA && (match f.portB with | some p => thas s.lnk.eth p | none => true)

/-- Whether a channel's flows and members are structurally sound: no bad flow record, every port present, every SRTP slot filled
(R226, R317, R412). -/
def flowsSound (s : State) (c : Nat) : Bool :=
  !s.egr.badFlows.contains c &&
    (legsOf s c).all (fun l => thas s.lnk.eth l.2.port &&
      (match l.2.srtpKey with | some k => thas s.sec.keys k | none => true)) &&
    (group s c).members.all (fun m => m.2.srcType != 1 || flowPortsPresent s m.2.src)

/-- Whether the charges of a channel's legs fit the ports: 95 % of the line rate (R227, Table 5 of the architecture chapter). -/
def egressFits (s : State) (c : Nat) : Bool :=
  let l := (legsOf s c).map (fun l => (l.2.port, (legCharge s l.1 l.2).2))
  l.all (fun e => decide ((egrPort s e.1).charged + sumOf ((l.filter (fun f => f.1 == e.1)).map (fun f => f.2)) ≤ lineRate s e.1 * 95 / 100))

/-- The depth of a leg's bucket: the device's own for a slice flow, EGR_DEPTH or two full packets for audio (R226, R228). -/
def bucketDepth (s : State) (key : Nat) (l : Leg) : Nat :=
  let k := appendBytes s key
  if sliceLeg l then
    let c := tgetD s.enc.ctxs l.source {}
    let p := fullPayload k l
    headBytes k c.x l + ceilDiv ((bufferBits (chan s l.channel) c + c.x) * (p + overhead k l)) (8 * p)
  else orDefault l.depthCfg (2 * (audioPayload l.kind (programme s l.source) + overhead k l)) 1542 16777216

/-- A leg admitted: its bucket starts full, and an SRTP flow waits for absolute time (R227, R228, R235; log entry 26). -/
def admitLeg (s : State) (key : Nat) (l : Leg) : Leg :=
  let (rho, charge) := legCharge s key l
  let depth := bucketDepth s key l
  let least := if sliceLeg l then rho else audioRate (appendBytes s key) (programme s l.source) l
  { l with st := 1, rate := rho, minRate := least, maxRate := rho, charge := charge, depth := depth, tokens := depth * 65536
           filled := s.mtb.mgt, srtpWait := l.srtpKey.isSome }

/-- The legs of an admitted channel run, and their charges are taken (R227). -/
def takeEgress (c : Nat) (s : State) : State :=
  (legsOf s c).foldl (fun s e =>
    let l := admitLeg s e.1 e.2
    setEgrPort (modLeg s e.1 (fun _ => l)) l.port (fun p => { p with charged := p.charged + l.charge })) s

/-- The legs of a refused channel (R242). -/
def refuseEgress (c : Nat) (s : State) : State :=
  { s with egr := { s.egr with legs := tmap s.egr.legs (fun _ l => if l.channel = c then { l with st := 2 } else l) } }

/-! ### Records (R226, R241) -/

/-- The MAC address of a multicast destination, as a 48-bit number; none for a unicast one (R226; log entry 27). -/
def multicastMac (family : Nat) (d : Bytes) : Option Nat :=
  if family = 0 then
    if u8 d 0 / 16 = 14 then some (0x01005E * 2 ^ 24 + u8 d 1 % 128 * 65536 + u8 d 2 * 256 + u8 d 3) else none
  else if u8 d 0 = 255 then
    some (0x3333 * 2 ^ 32 + u8 d 12 * 2 ^ 24 + u8 d 13 * 65536 + u8 d 14 * 256 + u8 d 15)
  else none

/-- The channel that a flow record's source belongs to, and whether the source is taken; none where the record belongs to no
channel (R226). -/
def flowChannel (s : State) (kind src : Nat) : Option (Nat × Bool) :=
  if kind ≤ 1 then
    match tget s.enc.ctxs src with
    | some c => some (c.channel, true)
    | none =>
      (s.sec.image.find? (fun r => r.1 == 0x0802 && decide (8 ≤ r.2.length) && clamp 0 127 (u8 r.2 0) == src &&
        imageHasChannel s (clamp 0 63 (u8 r.2 1)))).map (fun r => (clamp 0 63 (u8 r.2 1), false))
  else (tget s.aud.programmes src).map (fun p => (p.channel, true))

/-- An even port number within its bounds (R226). -/
def udpPort (v : Nat) : Nat := even (clamp 2 65530 v)

/-- The ST 302 programmes that a record names, of the flow's own channel (R226). -/
def tsAudioOf (s : State) (c : Nat) (b : Bytes) : List Nat :=
  ((List.range 4).map (fun i => u8 b (72 + i))).filter (fun p =>
    p != 255 && thas s.aud.programmes p && (programme s p).carriage == 0 && (programme s p).channel == c)

/-- D in force: reduced where L × D exceeds 100 (R221). -/
def fecDepth (l d : Nat) : Nat := if 100 < l * d then 100 / l else d

/-- One leg of a flow record (R217, R221, R226). -/
def legOf (s : State) (b : Bytes) (c : Nat) (legB : Bool) : Leg :=
  let kind := clamp 0 3 (u8 b 2)
  let family := clamp 0 1 (u8 b 3)
  let dest := bytesAt b (if legB then 32 else 16) 16
  let mac := multicastMac family dest
  let l := clamp 1 20 (u8 b 58)
  { channel := c, kind := kind, family := family, source := clamp 0 (if kind ≤ 1 then 127 else 255) (u16 b 4)
    port := if legB then u8 b 7 else clamp 0 15 (u8 b 6), group := clamp 0 255 (u16 b (if legB then 10 else 8))
    legB := legB, twoLegs := decide (u8 b 7 ≤ 15), udpDst := udpPort (u16 b 12), udpSrc := udpPort (u16 b 14), dest := dest
    ssrc := u32 b 48, pt := if kind = 1 then 33 else clamp 96 127 (u8 b 52), dscp := clamp 0 63 (u8 b 53)
    vlan := clamp 0 4094 (u16 b 54), tc := if kind ≤ 1 then 7 else clamp 0 6 (u8 b 56)
    fec := if kind = 1 then clamp 0 2 (u8 b 57) else 0, fecL := l, fecD := fecDepth l (clamp 4 20 (u8 b 59))
    srtpKey := if u8 b 60 = 255 then none else some (u8 b 60), rtcp := clamp 0 1 (u8 b 61) == 1
    weight := if u16 b 62 = 0 then 1024 else u16 b 62, rateCfg := u32 b 64, depthCfg := u32 b 68
    tsAudio := if kind = 1 then tsAudioOf s c b else [], pidBase := orDefault (u16 b 76) 0x100 0x20 0x1FF0
    program := if u16 b 78 = 0 then 1 else u16 b 78, resolved := mac.isSome, mac := mac.getD 0 }

/-- Whether a leg's group exists, lies on its port and suits its kind (R226). -/
def groupSuits (s : State) (l : Leg) : Bool :=
  match tget s.egr.groups l.group with
  | none => false
  | some g => g.port == l.port && ((g.cls == 7) == sliceLeg l)

/-- A structural fault of a flow record: its channel fails admission (R226). -/
def badFlow (c : Nat) (s : State) : State := { s with egr := { s.egr with badFlows := sadd s.egr.badFlows c } }

/-- The egress flow record, type 0x0901 (R226). -/
def recEgressFlow (b : Bytes) (s : State) : State :=
  sized 80 b (fun s =>
    let kind := clamp 0 3 (u8 b 2)
    let src := clamp 0 (if kind ≤ 1 then 127 else 255) (u16 b 4)
    let two := decide (u8 b 7 ≤ 15)
    let f := if two then even (clamp 0 4095 (u16 b 0)) else clamp 0 4095 (u16 b 0)
    match flowChannel s kind src with
    | none => orphan s
    | some (c, taken) =>
      if (chan s c).taken = false then orphan s
      else
        let legs := if two then [(f, legOf s b c false), (f + 1, legOf s b c true)] else [(f, legOf s b c false)]
        if !taken || legs.any (fun l => thas s.egr.legs l.1) || !legs.all (fun l => groupSuits s l.2) then applied (badFlow c s)
        else applied { s with egr := { s.egr with legs := legs.foldl (fun t l => tset t l.1 l.2) s.egr.legs } }) s

/-- EGRESS_FLOW_RECORD (R226). -/
def execEgressFlowRecord (b : Bytes) (s : State) : Outcome := recordCommand 0x0901 b recEgressFlow s

/-- The flow group record, type 0x0902 (R241). -/
def recFlowGroup (b : Bytes) (s : State) : State :=
  sized 8 b (fun s =>
    let g := u8 b 0
    if thas s.egr.groups g then orphan s
    else
      let x : EgrGroup :=
        { port := clamp 0 15 (u8 b 1), cls := clamp 0 7 (u8 b 2), weight := if u16 b 4 = 0 then 1024 else u16 b 4 }
      applied { s with egr := { s.egr with groups := tset s.egr.groups g x } }) s

/-- FLOW_GROUP_RECORD (R241). -/
def execFlowGroupRecord (b : Bytes) (s : State) : Outcome := recordCommand 0x0902 b recFlowGroup s

/-- The port class record, type 0x0903 (R241). -/
def recPortClass (b : Bytes) (s : State) : State :=
  sized 60 b (fun s =>
    let p := clamp 0 15 (u8 b 0)
    if (egrPort s p).classTaken then orphan s
    else
      let cls := (List.range 7).map (fun c =>
        (c, ({ share := min (u32 b (4 + 8 * c)) (lineRate s p / 1000), burst := orDefault (u32 b (8 + 8 * c)) 6168 1542 16777216,
               filled := s.mtb.t } : PortClass)))
      applied (setEgrPort s p (fun x => { x with classTaken := true, classes := cls }))) s

/-- PORT_CLASS_RECORD (R241). -/
def execPortClassRecord (b : Bytes) (s : State) : Outcome := recordCommand 0x0903 b recPortClass s

/-! ### Gate lists (R232, R233) -/

/-- A gate list as Table 13 lays it out, and whether a value of it was clamped (R232, R241). -/
def gateListOf (b : Bytes) : GateList × Bool :=
  let n := f16 b 2 1 1024
  let c := f32 b 4 1000 1000000000
  let ns := f32 b 16 0 999999999
  let entries := (List.range n.val).map (fun e => (Nat.lor (u8 b (20 + 8 * e)) 128, f32 b (24 + 8 * e) 64 1000000000))
  let base := (u32 b 8 + u16 b 12 * 2 ^ 32) * 1000000000 + ns.val
  ({ cycle := c.val, base := base, entries := entries.map (fun e => (e.1, e.2.val)) },
   n.clamped || c.clamped || ns.clamped || entries.any (fun e => e.2.clamped))

/-- The time a list accepted at a time starts: its base, or the first whole cycle after it at least 100 µs later (R233). -/
def gateStart (now : Nat) (g : GateList) : Nat :=
  let late := now + 100 * usUnit - g.base * nsUnit
  if late = 0 then g.base else g.base + ceilDiv late (g.cycle * nsUnit) * g.cycle

/-- A list accepted for a port; it replaces one that still waits (R233). -/
def acceptGates (p : Nat) (g : GateList) (s : State) : State :=
  setEgrPort s p (fun x => { x with nextGates := some { g with start := gateStart s.mtb.t g } })

/-- The gate list record, type 0x0904: a header of 20 bytes and its entries (R241). A second record for a port is discarded. -/
def recGateList (b : Bytes) (s : State) : State :=
  sized 20 b (fun s =>
    let p := clamp 0 15 (u8 b 0)
    if b.length < 20 + 8 * clamp 1 1024 (u16 b 2) then shortRecord s
    else if (egrPort s p).nextGates.isSome ∨ (egrPort s p).gates.isSome then orphan s
    else applied (acceptGates p (gateListOf b).1 s)) s

/-- GATE_LIST_RECORD (R241). -/
def execGateListRecord (b : Bytes) (s : State) : Outcome := recordCommand 0x0904 b recGateList s

/-- When an entry that starts at a time ends: the last holds until the cycle ends, and the cycle's end cuts any (R232). -/
def entryEnd (g : GateList) (cycleAt idx start : Nat) : Nat :=
  if g.entries.length ≤ idx + 1 then cycleAt + g.cycle else min (start + (g.entries.getD idx (255, 0)).2) (cycleAt + g.cycle)

/-- The port at an entry of its list. -/
def atEntry (g : GateList) (cycleAt idx start : Nat) (x : EgrPort) : EgrPort :=
  { x with gateIdx := idx, cycleAt := cycleAt, gateState := (g.entries.getD idx (255, 0)).1
           gateUntil := entryEnd g cycleAt idx start }

/-- Whether gates run: M3 to M8 (R240). -/
def egressRuns (m : Mode) : Bool :=
  match m with
  | .solo | .active | .standby | .resync | .quiescent | .update => true
  | _ => false

/-- GATE_LIST_START (R233): the waiting list starts and the old one is cut. -/
def execGateListStart (p : Nat) (s : State) : Outcome :=
  match (egrPort s p).nextGates with
  | none => .next s
  | some g =>
    if egressRuns s.mode.mode = false then .next s
    else
      match atTime (g.start * nsUnit) s with
      | none => .next (setEgrPort s p (fun x => atEntry g g.start 0 g.start { x with gates := some g, nextGates := none }))
      | some s => .next (setEgrPort s p (fun x => atEntry g g.start 0 g.start { x with gates := some g, nextGates := none }))

/-- GATE_ENTRY_CHANGE (R232): the present entry ends, and the next one, or the next cycle, begins. -/
def execGateEntryChange (p : Nat) (s : State) : Outcome :=
  let x := egrPort s p
  match x.gates with
  | none => .next s
  | some g =>
    if egressRuns s.mode.mode = false then .next s
    else
      let t := x.gateUntil
      let next := fun (x : EgrPort) =>
        if t = x.cycleAt + g.cycle then atEntry g t 0 t x else atEntry g x.cycleAt (x.gateIdx + 1) t x
      match atTime (t * nsUnit) s with
      | none => .next (setEgrPort s p next)
      | some s => .next (setEgrPort s p next)

/-- How long a class stays open through entries that start at a time, in ns. -/
def openThrough (c cycleEnd : Nat) : List (Nat × Nat) → Nat → Nat
  | [], _ => cycleEnd
  | e :: l, start => if bitOf e.1 c then openThrough c cycleEnd l (min (start + e.2) cycleEnd) else start

/-- When a class closes that is open as some entries of a list begin, in ns: through the cycle that ends at a time and the next (R232). -/
def closesFrom (g : GateList) (c cycleEnd : Nat) (l : List (Nat × Nat)) (start : Nat) : Nat :=
  let t := openThrough c cycleEnd l start
  if t < cycleEnd then t else openThrough c (cycleEnd + g.cycle) g.entries cycleEnd

/-- When a class closes under the list in force, in ns; never where the port has none (R232). -/
def closesAt (x : EgrPort) (c : Nat) : Option Nat :=
  x.gates.map (fun g => closesFrom g c (x.cycleAt + g.cycle) (g.entries.drop (x.gateIdx + 1)) x.gateUntil)

/-- When a class closes, in ns: under the list in force until a waiting list starts, from there under that one (R232, R233). -/
def gateCloses (x : EgrPort) (c : Nat) : Option Nat :=
  match x.nextGates with
  | none => closesAt x c
  | some g =>
    if (closesAt x c).any (fun t => decide (t < g.start)) then closesAt x c
    else some (closesFrom g c (g.start + g.cycle) g.entries g.start)

/-- Whether a class's gate is open now (R232). -/
def gateOpen (x : EgrPort) (c : Nat) : Bool := x.gates.isNone || bitOf x.gateState c

/-- Whether a frame of a class may start at a time: its gate is open and it completes before the gate closes (R232). -/
def gateAllows (s : State) (p c wire : Nat) : Bool :=
  let x := egrPort s p
  let ends := s.mtb.t + wire * 8 * secUnit / max 1 (lineRate s p)
  c == 7 || gateOpen x c && (gateCloses x c).all (fun t => decide (ends ≤ t * nsUnit))

/-! ### Flow queues (R218 to R222, R235, R240) -/

/-- Whether a leg's own packets are what the port sends: admitted, and the merge stage takes the local packetiser (R234, R256). -/
def sendsLocal (l : Leg) : Bool := l.st == 1 && l.src == .device && l.running

/-- Bytes in a flow queue. -/
def queueBytes (l : Leg) : Nat := sumOf (l.queue.map (fun p => p.wire))

/-- Packets of each PID sent: the continuity counters move, and a discontinuity is signalled once per PID (R219, R234). -/
def countPids (q : QPkt) (l : Leg) : Leg :=
  q.pids.foldl (fun l e => { l with cc := tupd l.cc e.1 0 (fun v => (v + e.2) % 16), disc := sdel l.disc e.1 }) l

/-- The transport state past a packet: the continuity counters of its PIDs and, past a media packet, the sequence number and the
rollover counter (R218, R219, R234, R235). -/
def pastPacket (q : QPkt) (l : Leg) : Leg :=
  let wrap := q.media && l.seq == 65535 && l.srtpKey.isSome
  countPids q { l with seq := if q.media then (l.seq + 1) % 65536 else l.seq, roc := if wrap then (l.roc + 1) % 2 ^ 32 else l.roc }

/-- A queue without the dropped packets at its head, which the transport state passes over (R217). -/
def passDropped : List QPkt → Leg → Leg
  | [], l => { l with queue := [] }
  | q :: t, l => if q.lost then passDropped t (pastPacket q l) else { l with queue := q :: t }

/-- Dropped packets at the head of a leg that sends are passed over: a drop on one leg of a flow leaves the datagrams that follow it the
sequence numbers that the other leg gives them (R217, R226, R240). -/
def settleQueue (l : Leg) : Leg := if sendsLocal l then passDropped l.queue l else l

/-- A packet in its place in a flow queue: by emission or queue time, behind those of the same time, so that what is queued at a tick
leaves ahead of video that is still to be emitted (R219, R220, R222, R224). -/
def insertPkt (p : QPkt) (l : List QPkt) : List QPkt :=
  l.takeWhile (fun q => decide (q.emit ≤ p.emit)) ++ p :: l.dropWhile (fun q => decide (q.emit ≤ p.emit))

/-- A packet into a flow queue of 4 MiB; an overflow or an unresolved destination drops it (R226, R240). While the partner's packets
are forwarded, packets whose time has passed leave the queue unsent (R234, R258). A running packetiser's packet goes to the partner
too (R247). -/
def enqueue (now : Nat) (p : QPkt) (l : Leg) : Leg :=
  let l := if sendsLocal l then l else { l with queue := l.queue.filter (fun q => decide (now < q.emit)) }
  if l.st ≠ 1 ∨ l.srtpWait = true ∨ l.srtpHeld = true then l
  else
    let drop := !l.resolved || decide (4194304 < queueBytes l + p.wire)
    let q := insertPkt (if drop then { p with wire := 0, lost := true } else p) l.queue
    settleQueue { l with
      made := if l.running then l.made ++ [p] else l.made
      queue := q, stamp := if q.head? = l.queue.head? then l.stamp else none
      drops := if drop && sendsLocal l then bump32 l.drops else l.drops }

/-- Packets into a flow queue. -/
def enqueueAll (now : Nat) (q : List QPkt) (l : Leg) : Leg := q.foldl (fun l p => enqueue now p l) l

/-- The FEC packets that a media packet of a TS leg completes as it is sent, the row's ahead of the column's; they follow it in its
queue (R221). -/
def fecAfter (now : Nat) (q : QPkt) (l : Leg) : List QPkt :=
  let f : QPkt := { wire := q.wire + 16, emit := q.emit, queuedAt := now, media := false, form := .fec }
  if l.fec = 0 ∨ q.media = false then []
  else
    (if l.fec = 2 ∧ (l.fecRow + 1) % l.fecL = 0 then [{ f with dst := 4 }] else []) ++
      (if l.fecL * (l.fecD - 1) ≤ l.fecRow then [{ f with dst := 2 }] else [])

/-- The FEC matrix past a packet sent, with the FEC packets that it completes at the head of the queue (R221). -/
def sendFec (now : Nat) (q : QPkt) (l : Leg) : Leg :=
  if l.fec = 0 ∨ q.media = false then l
  else
    let f := fecAfter now q l
    { l with fecRow := (l.fecRow + 1) % max 1 (l.fecL * l.fecD), queue := f ++ l.queue
             made := if l.running then l.made ++ f else l.made }

/-- Datagrams of seven TS packets that carry n TS packets of one PID (R219). -/
def datagrams (n : Nat) : Nat := ceilDiv n 7

/-- The datagrams of n TS packets of a PID, each like a template; a PES packet begins in the first where it has a PTS. Where the
template is a head, those up to datagram k are, and k is the slice's first (R219, R220, R224). -/
def pidPackets (pid n k : Nat) (t : QPkt) : List QPkt :=
  (List.range (datagrams n)).map (fun i =>
    { t with form := .transport, pids := [(pid, min 7 (n - 7 * i))], pts := if i = 0 then t.pts else none
             pes := if i = 0 then t.pes else none, head := t.head && decide (i ≤ k), first := t.first && i == k })

/-- n bytes in packets of at most `pay` bytes with the overhead o, each like a template (R218). -/
def bursts (o pay n : Nat) (t : QPkt) : List QPkt :=
  (List.range (ceilDiv n pay)).map (fun i => { t with wire := o + min pay (n - i * pay) })

/-- A NAL unit as a single NAL unit packet, or as fragmentation units with the remainder in the last (R218). -/
def nalPackets (o pay n : Nat) (t : QPkt) : List QPkt := bursts o pay n { t with form := if n ≤ pay then .single else .fragment }

/-- The NAL units of a lead-in in the packets that carry them: each joins the packet before it while the units and their two-byte sizes
fit a payload, and opens one of its own otherwise (R218; log entry 28). -/
def leadGroups (pay : Nat) (l : List Nat) : List (List Nat) :=
  (l.foldl (fun g n =>
    match g with
    | h :: t => if sumOf ((n :: h).map (· + 2)) ≤ pay then (n :: h) :: t else [n] :: h :: t
    | [] => [[n]]) []).reverse

/-- A lead-in in aggregation packets of at most `pay` bytes; a unit that stands alone goes as a NAL unit does (R218; log entry 28). -/
def leadPackets (o pay : Nat) (l : List Nat) (t : QPkt) : List QPkt :=
  (leadGroups pay l).flatMap (fun g =>
    match g with
    | [n] => nalPackets o pay n t
    | g => [{ t with wire := o + sumOf (g.map (· + 2)), form := .aggregation }])

/-- The first packet of a slice is a head (R224, R225). -/
def markFirst : List QPkt → List QPkt
  | [] => []
  | q :: l => { q with head := true, first := true } :: l

/-- The last packet of an access unit carries the marker bit (R218). -/
def markLast : List QPkt → List QPkt
  | [] => []
  | [q] => [{ q with marker := true }]
  | q :: l => q :: markLast l

/-- What a slice brings into the flow queues: the sizes in bytes of the NAL units of its lead-in, of the slice and of the filler data
behind it, and whether it is the first or the last of its picture (R218, R219; log entry 28). -/
structure SliceOut where
  lead : List Nat
  bytes : Nat
  tail : Nat := 0
  opens : Bool := false
  closes : Bool := false
  deriving DecidableEq, Repr

/-- The packets of one slice with its lead-in: aggregation packets and NAL unit packets, or TS datagrams that the slice starts anew
(R218, R219). The template holds what they share. -/
def slicePackets (o pay : Nat) (l : Leg) (z : SliceOut) (t : QPkt) : List QPkt :=
  if l.kind = 0 then
    let q := leadPackets o pay z.lead { t with head := true } ++ markFirst (nalPackets o pay z.bytes t) ++
      nalPackets o pay z.tail t
    if z.closes then markLast q else q
  else
    let before := sumOf z.lead + (if z.opens then 14 else 0)
    pidPackets 1 (ceilDiv (before + z.bytes + z.tail) 184) (before / 184 / 7)
      { t with wire := 1316 + o, head := true, first := true, pes := if z.opens then some 0 else none }

/-- A slice's packets into a leg's queue. -/
def enqueueSlice (s : State) (key now : Nat) (z : SliceOut) (t : QPkt) (l : Leg) : Leg :=
  let k := appendBytes s key
  let q := slicePackets (overhead k l) (fullPayload k l) l z { t with queuedAt := now, stamp := if l.kind = 0 then t.stamp else none
                                                                      pts := if l.kind = 1 && z.opens then t.pts else none }
  enqueueAll now q l

/-- The splice sections of a TS leg, sent ahead of the first datagram of a picture (R237). -/
def enqueueSplices (s : State) (key now emit : Nat) (l : Leg) : Leg :=
  let o := overhead (appendBytes s key) l
  let t : QPkt := { wire := 1316 + o, emit := emit, queuedAt := now }
  let l' := l.splices.foldl (fun l b => enqueueAll now (pidPackets 6 (ceilDiv (b.length + 1) 184) 0 t) l) l
  { l' with splices := [] }

/-- The emission tick of a row, from which the 12 µs of R43 runs (R43, R45). -/
def emissionTick (ch : Chan) (c : Ctx) (frame row : Nat) : Nat := emissionTime ch c frame row - 12 * usUnit

/-- Δ of R220, in 90 kHz units. -/
def ptsDelta (ch : Chan) (c : Ctx) : Nat :=
  let n := rateN ch.rate
  let d := rateD ch.rate
  let lines := totalLines c.raster
  (if ch.frameMode then ceilDiv (90000 * ((ch.delayF + 1) * d * 1000000 + 12 * n)) (n * 1000000)
   else ceilDiv (90000 * ((ctuRows c.raster + ch.delayL + 1) * 64 * d * 1000000 + 12 * n * lines)) (n * lines * 1000000)) +
    removalDelay ch c

/-- The PTS of picture n (R220). -/
def ptsOf (ch : Chan) (c : Ctx) (n : Nat) : Nat := (90000 * n * rateD ch.rate / rateN ch.rate + ptsDelta ch c) % 2 ^ 33

/-- The RTP timestamp of picture n: floor(90,000 × T_n) mod 2^32 (R218). -/
def videoStamp (ch : Chan) (n : Nat) : Nat := 90000 * n * rateD ch.rate / rateN ch.rate % 2 ^ 32

/-- A row of a context coded: its slices go into the queues of the context's flows; `units` are the sizes in bytes of the row's NAL
units, those of the lead-in ahead of a slice for each tile column, and `filler` that of the filler data unit behind the picture's last row
(R108, R218, R219, R224; log entry 28). -/
def packetiseRow (x frame row : Nat) (units : List Nat) (filler : Nat) (s : State) : State :=
  match tget s.enc.ctxs x, picOf s x frame with
  | some c, some p =>
    let ch := chan s c.channel
    let sizes := (tilesOf c.raster).map (fun t => (t, ceilDiv (tgetD p.emitted (sliceKey row t) 0) 8))
    let lead := units.take (units.length - tileCols c.raster)
    let now := s.mtb.t
    let whole := c.raster == 0 && !ch.frameMode
    let ends := row + 1 == ctuRows c.raster
    let out := fun (z : Nat × Nat) =>
      let final := ends && z.1 + 1 == tileCols c.raster
      ({ lead := if z.1 = 0 then lead else [], bytes := z.2, tail := if final then filler else 0, opens := row == 0 && z.1 == 0
         closes := final } : SliceOut)
    let t : QPkt := { emit := emissionTick ch c frame row, stamp := some (videoStamp ch frame), pts := some (ptsOf ch c frame) }
    { s with egr := { s.egr with legs := tmap s.egr.legs (fun k l =>
        if sliceLeg l ∧ l.source = x then
          let l := if row = 0 then enqueueSplices s k now t.emit l else l
          sizes.foldl (fun l z =>
            enqueueSlice s k now (out z) { t with tile := z.1, early := whole && decide (z.1 < 3) } l) l
        else l) } }
  | _, _ => s

/-- The registration descriptor in the program loop of a PMT: SCTE 35 (R219, Table 3). -/
def spliceRegistration : Nat := 0x43554549

/-- The elementary streams of a leg's PMT: video, its ST 302 programmes in record order, and SCTE 35 (R219, Table 3). -/
def pmtOf (s : State) (l : Leg) : List PmtEntry :=
  let codec := (tgetD s.enc.ctxs l.source {}).codec
  [({ pid := l.pidBase + 1, streamType := if codec = 1 then 0x24 else 0x33 } : PmtEntry)] ++
    (List.range l.tsAudio.length).map (fun i =>
      ({ pid := l.pidBase + 2 + i, streamType := 0x06, registration := some 0x42535344 } : PmtEntry)) ++
    [({ pid := l.pidBase + 6, streamType := 0x86 } : PmtEntry)]

/-- The PAT and PMT of a TS leg go out with the first frame tick at or after each multiple of 100 ms (R219). -/
def insertPsi (s : State) (key t : Nat) (l : Leg) : Leg :=
  let k := t / (100 * msUnit)
  if l.kind = 1 ∧ l.psiAt < k then
    let wire := 1316 + overhead (appendBytes s key) l
    enqueue t { wire := wire, emit := t, queuedAt := t, pids := [(0, 1), (7, 1)], form := .transport }
      { l with psiAt := k, pmt := pmtOf s l, pmtProgram := some spliceRegistration }
  else l

/-- What the packetisers have produced goes to the partner, each packet with its leg; idle packetisers send nothing (R234, R247). -/
def sendProduced (s : State) : State :=
  s.egr.legs.foldl (fun s e =>
    if e.2.made.isEmpty then s
    else e.2.made.foldl (fun s q => sendVa 4 (.packet e.1 q) s) (modLeg s e.1 (fun l => { l with made := [] }))) s

/-- PSI_INSERTION (R219): `flow` is a leg, `frame` a frame of its channel. -/
def execPsiInsertion (flow frame : Nat) (s : State) : Outcome :=
  match tget s.egr.legs flow with
  | none => .next s
  | some l =>
    if chanRunning s l.channel && ticking s then
      .next (sendProduced (modLeg s flow (insertPsi s flow (frameTickAt (chan s l.channel).rate frame))))
    else .next s

/-- Whether a queued packet is a video datagram (R220). -/
def videoDatagramQ (q : QPkt) : Bool := q.media && q.pids.any (fun e => e.1 == 1)

/-- Whether 20 ms or more have passed since a leg's last PCR (R220). -/
def pcrDue (now : Nat) (l : Leg) : Bool := l.kind == 1 && decide (l.pcrAt + 20 * msUnit ≤ now)

/-- Whether a packet that leaves now carries a PCR: a PCR-only packet, or a video datagram 20 ms or more after the last (R220). -/
def carriesPcr (now : Nat) (q : QPkt) (l : Leg) : Bool := q.pcr || pcrDue now l && videoDatagramQ q

/-- The legs of the flow of a leg (R217). -/
def legsWith (l : Leg) (key : Nat) : List Nat := if l.twoLegs then [even key, even key + 1] else [key]

/-- A PCR-only packet into a leg's queue, unless one waits there (R220). -/
def insertPcr (s : State) (key : Nat) (l : Leg) : Leg :=
  let t := s.mtb.t
  if l.queue.any (fun q => q.pcr) then l
  else enqueue t { wire := 1316 + overhead (appendBytes s key) l, emit := t, queuedAt := t, pids := [], form := .transport, pcr := true } l

/-- PCR_INSERTION (R220): 20 ms after the last PCR, a video datagram that leaves carries one (`carriesPcr`); where none leaves, a PCR-only
packet is sent, on both legs of a flow (R217). -/
def execPcrInsertion (flow : Nat) (videoDatagram : Bool) (s : State) : Outcome :=
  match tget s.egr.legs flow with
  | none => .next s
  | some l =>
    if l.st ≠ 1 ∨ pcrDue s.mtb.t l = false ∨ ticking s = false ∨ videoDatagram = true then .next s
    else .next (sendProduced ((legsWith l flow).foldl (fun s k => modLeg s k (insertPcr s k)) s))

/-! ### Buckets (R228, R229) -/

/-- Bytes, in 2^-16 byte, that a rate in b/s gives in an interval. -/
def tokensIn (rate dt : Nat) : Nat := rate * dt * 8192 / secUnit

/-- Bytes, in 2^-16 byte, that a rate in b/s has given by an MGT cycle: rate × 7.407407 ns / 8 bytes each (R228). -/
def tokensBy (rate cycle : Nat) : Nat := rate * cycle * 8192 / 135000000

/-- A leg's bucket at an MGT cycle (R228). -/
def refillLeg (cycle : Nat) (l : Leg) : Leg :=
  if cycle ≤ l.filled then l
  else { l with tokens := min (l.depth * 65536 : Int) (l.tokens + ((tokensBy l.rate cycle - tokensBy l.rate l.filled : Nat) : Int))
                filled := cycle }

/-- A rate change in force: debt is kept in bytes, positive tokens up to the new depth (R229). -/
def changeRate (c : RateChange) (l : Leg) : Leg :=
  { l with rate := c.rate, depth := c.depth, tokens := min (c.depth * 65536 : Int) l.tokens, change := none }

/-- A leg whose accepted change is due at a sample tick (R229). -/
def applyRate (tick cycle : Nat) (l : Leg) : Leg :=
  match l.change with
  | some c => if c.tick ≤ tick then changeRate c (refillLeg cycle l) else l
  | none => l

/-- SHAPER_RATE_APPLY (R229). -/
def execShaperRateApply (leg tick : Nat) (s : State) : Outcome :=
  match tget s.egr.legs leg with
  | none => .next s
  | some l =>
    match l.change with
    | none => .next s
    | some _ =>
      let t := sampleTickAt tick
      let s := noEarlier t s
      .next (modLeg s leg (applyRate tick s.mtb.mgt))

/-! ### The scheduler (R224, R230, R231) -/

/-- a lies before b, modulo 2^48 (R230). -/
def before48 (a b : Nat) : Bool := decide ((b + 2 ^ 48 - a % 2 ^ 48) % 2 ^ 48 < 2 ^ 47) && a % 2 ^ 48 != b % 2 ^ 48

/-- The later of two stamps. -/
def later48 (a b : Nat) : Nat := if before48 a b then b else a

/-- A finish stamp (R230). -/
def finishStamp (v last wire weight : Nat) : Nat := (later48 v last + ceilDiv (wire * 65536) weight) % 2 ^ 48

/-- The packet at the head of a leg that may be sent at a time: emitted for a slice flow, with tokens for audio (R224, R228). -/
def readyHead (now : Nat) (l : Leg) : Option QPkt :=
  if sendsLocal l then
    match l.queue with
    | [] => none
    | p :: _ => if sliceLeg l then (if p.emit ≤ now then some p else none) else (if 0 < l.tokens then some p else none)
  else none

/-- A flow group. -/
def egrGroup (s : State) (g : Nat) : EgrGroup := tgetD s.egr.groups g {}

/-- The legs of a port that may send, each with its packet. -/
def readyLegs (s : State) (p : Nat) : List (Nat × Leg × QPkt) :=
  s.egr.legs.filterMap (fun e =>
    if e.2.port = p then (readyHead s.mtb.t e.2).map (fun q => (e.1, e.2, q)) else none)

/-- Every leg that may send and has no stamp is stamped (R230). -/
def stampLegs (p : Nat) (s : State) : State :=
  { s with egr := { s.egr with legs := tmap s.egr.legs (fun _ l =>
      if l.port = p ∧ l.stamp = none then
        match readyHead s.mtb.t l with
        | some q => { l with stamp := some (finishStamp (egrGroup s l.group).v l.finish q.wire l.weight) }
        | none => l
      else l) } }

/-- The one of two legs that its group serves first: the smaller stamp, ties to the lower flow number (R230). -/
def firstLeg (a b : Nat × Leg × QPkt) : Nat × Leg × QPkt :=
  if before48 (b.2.1.stamp.getD 0) (a.2.1.stamp.getD 0) then b else a

/-- The leg that a group would serve next. -/
def groupNext (l : List (Nat × Leg × QPkt)) (g : Nat) : Option (Nat × Leg × QPkt) :=
  match l.filter (fun e => e.2.1.group == g) with
  | [] => none
  | a :: t => some (t.foldl firstLeg a)

/-- A class of a port. -/
def portClass (s : State) (p c : Nat) : PortClass := tgetD (egrPort s p).classes c {}

/-- The state with a class of a port changed. -/
def setClass (s : State) (p c : Nat) (f : PortClass → PortClass) : State :=
  setEgrPort s p (fun x => { x with classes := tupd x.classes c {} f })

/-- The groups of a class of a port that hold a packet that may be sent, stamped where they have no stamp (R230). -/
def stampGroups (p c : Nat) (s : State) : State :=
  let l := readyLegs s p
  { s with egr := { s.egr with groups := tmap s.egr.groups (fun k g =>
      if g.port = p ∧ g.cls = c ∧ g.stamp = none then
        match groupNext l k with
        | some e => { g with stamp := some (finishStamp (portClass s p c).v g.finish e.2.2.wire g.weight) }
        | none => g
      else g) } }

/-- The leg that a class of a port would serve next (R230). -/
def classNext (s : State) (p c : Nat) : Option (Nat × Leg × QPkt) :=
  let l := readyLegs s p
  let gs := s.egr.groups.filter (fun g => g.2.port == p && g.2.cls == c && (groupNext l g.1).isSome)
  match gs with
  | [] => none
  | a :: t =>
    let g := t.foldl (fun a b => if before48 (b.2.stamp.getD 0) (a.2.stamp.getD 0) then b else a) a
    groupNext l g.1

/-- The order of class 7 heads: emission time, then flow number, then tile column (R224). -/
def headBefore (a b : Nat × Leg × QPkt) : Bool :=
  if a.2.2.emit ≠ b.2.2.emit then decide (a.2.2.emit < b.2.2.emit)
  else if a.1 ≠ b.1 then decide (a.1 < b.1)
  else decide (a.2.2.tile ≤ b.2.2.tile)

/-- The first of a list in an order. -/
def firstBy {α : Type} (lt : α → α → Bool) : List α → Option α
  | [] => none
  | a :: t => some (t.foldl (fun x y => if lt y x then y else x) a)

/-- The class 7 packet a port sends next (R224): heads first, then by emission time, ties by the group scheduler. -/
def sliceNext (s : State) (p : Nat) : Option (Nat × Leg × QPkt) :=
  let l := (readyLegs s p).filter (fun e => sliceLeg e.2.1)
  match firstBy headBefore (l.filter (fun e => e.2.2.head || e.2.2.early)) with
  | some e => some e
  | none =>
    match firstBy (fun a b => decide (a.2.2.emit < b.2.2.emit)) l with
    | none => none
    | some a =>
      let ties := l.filter (fun e => e.2.2.emit == a.2.2.emit)
      let gs := s.egr.groups.filter (fun g => g.2.port == p && g.2.cls == 7 && (groupNext ties g.1).isSome)
      match gs with
      | [] => some a
      | g :: t =>
        let g := t.foldl (fun a b => if before48 (b.2.stamp.getD 0) (a.2.stamp.getD 0) then b else a) g
        groupNext ties g.1

/-- A class's credit at a time (R231). -/
def refillClass (now : Nat) (c : PortClass) : PortClass :=
  { c with credit := min (c.burst * 65536 : Int) (c.credit + tokensIn (c.share * 1000) (now - c.filled)), filled := max now c.filled }

/-- What a class sends: a packet of a leg, or in class 6 a frame of the management plane (R231). -/
inductive Turn where
  | own (f : OwnFrame)
  | leg (key : Nat) (l : Leg) (q : QPkt)

/-- The bytes that a turn puts on the wire. -/
def Turn.wire : Turn → Nat
  | .own f => f.wire
  | .leg _ _ q => q.wire

/-- What a class of a port would serve next: the management plane's frames bypass the flow and group levels; in a mode in which no flow
runs they alone are sent (R231, R240). -/
def classTurn (s : State) (p c : Nat) : Option Turn :=
  match (if c = 6 then (egrPort s p).own.head? else none) with
  | some f => some (.own f)
  | none => if ticking s then (classNext s p c).map (fun e => .leg e.1 e.2.1 e.2.2) else none

/-- The class below 7 that sends: the highest with an open gate, a packet and credit, or without credit the highest with both
(R231). -/
def classToSend (s : State) (p : Nat) : Option (Nat × Turn) :=
  let cands := [6, 5, 4, 3, 2, 1, 0].filterMap (fun c =>
    match classTurn s p c with
    | some e => if gateAllows s p c e.wire then some (c, e) else none
    | none => none)
  match cands.find? (fun e => decide (0 < (portClass s p e.1).credit)) with
  | some e => some e
  | none => cands.head?

/-- Whether a port's transmitter may start frames at all: the port is present, may be linked, and is not paused (R319, R321, R322). -/
def portSends (s : State) (p : Nat) : Bool :=
  match tget s.lnk.eth p with
  | none => false
  | some e => e.pausedUntil.isNone && mayLink s p

/-- The fixed latency of a port's mode in ns between the lane pins and the MAC, at most 1.2 µs on receive (R320; log entry 35). -/
def ethLatencyNs (speed : Nat) (tx : Bool) : Nat :=
  if tx then fieldOf 12 (Config.ethLatency speed true) else min 1200 (Config.ethLatency speed false)

/-- The timestamp of a frame whose message timestamp point passes the lane pins at an MTB time, in ns, read to 1 ns with a residual error
within ±4 ns (R320; log entry 35). -/
def stampNs (p pins : Nat) : Nat := pins / nsUnit + Config.stampError p pins % 9 - 4

/-- The transmit timestamp of a frame that leaves the MAC of a port now (R320). -/
def txStamp (s : State) (p : Nat) : Nat :=
  stampNs p (s.mtb.t + ethLatencyNs (tgetD s.lnk.eth p {}).speed true * nsUnit)

/-- A frame sent on a port: its timestamp is kept, and inserted where it is a PTP message (R320). -/
def stampPort (p : Nat) (ptp : Bool) (s : State) : State :=
  let t := txStamp s p
  { s with lnk := { s.lnk with eth := tmod s.lnk.eth p (fun x => { x with txAt := t, ptpAt := if ptp then some t else x.ptpAt }) } }

/-- The PCR of a time: 27 MHz units modulo 2^33 × 300 (R220). -/
def pcrOf (t : Nat) : Nat := 27000000 * t / secUnit % (2 ^ 33 * 300)

/-- The AEAD_AES_256_GCM initialisation vector of RFC 7714: SSRC, rollover counter and sequence number of an RTP packet, or SSRC and
index of an RTCP packet, under the session salt (R235). -/
def srtpIv (l : Leg) (q : QPkt) : Option Nat :=
  if l.srtpKey.isNone then none
  else if q.media then some ((l.ssrc * 2 ^ 48 + l.roc * 2 ^ 16 + l.seq) ^^^ l.sessSalt)
  else if q.form = .report then some ((l.ssrc * 2 ^ 48 + l.srCount % 2 ^ 31) ^^^ l.sessSalt)
  else l.iv

/-- A sent packet's mark on a leg: tokens, counts, sequence number and rollover, the vector that protects it, the PCR that is stamped as it
leaves, and the FEC packets that it completes (R220, R221, R228, R234, R235, R242); `stamp` is its transmit timestamp in ns (R320). -/
def sentLeg (now stamp : Nat) (q : QPkt) (late : Bool) (l : Leg) : Leg :=
  let pcr := carriesPcr now q l
  settleQueue (sendFec now q (pastPacket q { l with
    queue := l.queue.tail, tokens := l.tokens - q.wire * 65536, finish := l.stamp.getD l.finish, stamp := none
    pkts := bump 64 l.pkts, bytes := bumpBy 64 l.bytes q.wire, marks := if late then bump32 l.marks else l.marks
    iv := srtpIv l q, pcr := if pcr then some (pcrOf (stamp * nsUnit)) else l.pcr, pcrAt := if pcr then now else l.pcrAt }))

/-- Statistics of a group or a class. -/
def sentStats (wire : Nat) (h : HistSet) : HistSet := { h with pkts := bump 64 h.pkts, bytes := bumpBy 64 h.bytes wire }

/-- The taps of an egress leg see bytes that the model does not hold: their results are open (R355; log entry 29). -/
def tapSent (key : Nat) (s : State) : State :=
  if s.cvu.units.any (fun u => u.2.st == 1 && u.2.tapKind == 2 && u.2.tapIndex == key) then
    let (f, s) := drawFree s
    { s with cvu := { s.cvu with units := tmap s.cvu.units (fun _ u =>
        if u.st = 1 ∧ u.tapKind = 2 ∧ u.tapIndex = key then
          if u.span = 0 then { u with run := f % 2 ^ u.width }
          else { u with result := f % 2 ^ u.width, run := u.init % 2 ^ u.width, spans := bump32 u.spans }
        else u) } }
  else s

/-- A packet sent: its leg, group, class and port account for it (R225, R228, R230, R231). -/
def sendPacket (p cls key : Nat) (l : Leg) (q : QPkt) (s : State) : State :=
  let late := q.first && sliceLeg l && decide (q.emit + 8 * usUnit < s.mtb.t)
  let g := egrGroup s l.group
  let s := modLeg s key (sentLeg s.mtb.t (txStamp s p) q late)
  let s := { s with egr := { s.egr with groups := tmod s.egr.groups l.group (fun x =>
    { x with v := l.stamp.getD x.v, finish := g.stamp.getD x.finish, stamp := none, stats := sentStats q.wire x.stats }) } }
  let s := setClass s p cls (fun c =>
    { c with v := g.stamp.getD c.v, stats := sentStats q.wire c.stats
             credit := if cls = 7 then c.credit else max (-(c.burst * 65536 : Int)) (c.credit - q.wire * 65536) })
  let s := tapSent key (stampPort p false s)
  if late then raise 0x055 key s else s

/-- A frame discarded at its turn on a port that is down (R322). -/
def dropOnDown (p : Nat) (s : State) : State :=
  { s with lnk := { s.lnk with eth := tmod s.lnk.eth p (fun x => { x with downDrops := bump32 x.downDrops }) } }

/-- A packet taken at its turn on a port that is down: the schedulers account for it, it is discarded and counted (R322). -/
def dropPacket (p cls key : Nat) (l : Leg) (q : QPkt) (s : State) : State :=
  let g := egrGroup s l.group
  let s := modLeg s key (fun l =>
    { sentLeg s.mtb.t (txStamp s p) q false l with pkts := l.pkts, bytes := l.bytes, pcr := l.pcr, iv := l.iv })
  let s := { s with egr := { s.egr with groups := tmod s.egr.groups l.group (fun x =>
    { x with v := l.stamp.getD x.v, finish := g.stamp.getD x.finish, stamp := none }) } }
  let s := setClass s p cls (fun c =>
    { c with v := g.stamp.getD c.v
             credit := if cls = 7 then c.credit else max (-(c.burst * 65536 : Int)) (c.credit - q.wire * 65536) })
  dropOnDown p s

/-- The chosen packet goes to the MAC, or is discarded where the port is down (R231, R322). -/
def turnPacket (p cls key : Nat) (l : Leg) (q : QPkt) (s : State) : State :=
  if portUp s p then sendPacket p cls key l q s else dropPacket p cls key l q s

/-- A frame of the management plane leaves in class 6, past the flow and group levels, or is discarded where the port is down (R231,
R322). -/
def turnOwn (p : Nat) (f : OwnFrame) (s : State) : State :=
  let s := setEgrPort s p (fun x => { x with own := x.own.tail })
  let up := portUp s p
  let s := setClass s p 6 (fun c =>
    { c with credit := max (-(c.burst * 65536 : Int)) (c.credit - f.wire * 65536), stats := if up then sentStats f.wire c.stats else c.stats })
  if up then stampPort p f.ptp s else dropOnDown p s

/-- A packet of the partner leaves the merge stage of a leg, or is discarded where the port is down. It keeps the partner's spacing: no
shaper, credit or weight delays it (R234, R322, R342). -/
def turnForwarded (p cls key : Nat) (l : Leg) (q : PairPacket) (s : State) : State :=
  let s := modLeg s key (fun l => { l with fwd := l.fwd.tail })
  if portUp s p then
    let s := modLeg s key (fun l => { l with pkts := bump 64 l.pkts, bytes := bumpBy 64 l.bytes q.length })
    let s := { s with egr := { s.egr with groups := tmod s.egr.groups l.group (fun x => { x with stats := sentStats q.length x.stats }) } }
    stampPort p false (setClass s p cls (fun c => { c with stats := sentStats q.length c.stats }))
  else dropOnDown p s

/-- The packet of the partner that a port passes next: the one whose class is highest among those whose gate lets it start, by leg number
within a class (R234). -/
def forwardNext (s : State) (p : Nat) : Option (Nat × Nat × Leg × PairPacket) :=
  firstBy (fun a b => decide (b.1 < a.1)) (s.egr.legs.filterMap (fun e =>
    match e.2.fwd with
    | [] => none
    | q :: _ =>
      let c := (egrGroup s e.2.group).cls
      if e.2.port = p ∧ gateAllows s p c q.length = true then some (c, e.1, e.2, q) else none))

/-- The buckets of a port's legs and classes are refilled, dropped packets passed over, and the heads of its queues and groups stamped
(R217, R227 to R230). -/
def refreshPort (p : Nat) (s : State) : State :=
  let now := s.mtb.t
  let s := { s with egr := { s.egr with
    legs := tmap s.egr.legs (fun _ l => if l.port = p then settleQueue (refillLeg s.mtb.mgt l) else l)
    ports := tmod s.egr.ports p (fun x => { x with classes := tmap x.classes (fun _ c => refillClass now c) }) } }
  (List.range 8).foldl (fun s c => stampGroups p c s) (stampLegs p s)

/-- A port's turn: a packet of the partner that waits, a slice, or what the classes below 7 choose (R224, R231, R234). -/
def takeTurn (p : Nat) (s : State) : State :=
  match (if ticking s then forwardNext s p else none), (if ticking s then sliceNext s p else none) with
  | some f, _ => turnForwarded p f.1 f.2.1 f.2.2.1 f.2.2.2 s
  | none, some e => turnPacket p 7 e.1 e.2.1 e.2.2 s
  | none, none =>
    match classToSend s p with
    | some (_, .own f) => turnOwn p f s
    | some (c, .leg key l q) => turnPacket p c key l q s
    | none => s

/-- PACKET_TRANSMIT (R224 to R231): the port sends the packet its schedulers choose, if there is one that may start. -/
def execPacketTransmit (p : Nat) (s : State) : Outcome :=
  if portSends s p = false then .next s else done (sendProduced (takeTurn p (refreshPort p s)))

/-- ADDRESS_RESOLVED (R226). -/
def execAddressResolved (leg mac : Nat) (s : State) : Outcome :=
  .next (modLeg s leg (fun l => if l.resolved then l else { l with resolved := true, mac := mac % 2 ^ 48 }))

/-! ### RTCP (R95 to R97, R236) -/

/-- The POC that an RPSI bit string names: 32 bits, most significant first (R95). -/
def rpsiPoc (bits : List Bool) : Option Nat :=
  if bits.length = 32 then some (bits.foldl (fun a b => 2 * a + b2n b) 0) else none

/-- RTCP that is counted and ignored (R236). -/
def ignoreRtcp (leg : Nat) (s : State) : State := modLeg s leg (fun l => { l with rtcpIgnored := l.rtcpIgnored + 1 })

/-- A loss report bound to a context, where ENC_FEEDBACK takes its source (R96, R97). -/
def lossReport (leg ssrc bit : Nat) (l : Leg) (s : State) : State :=
  if ssrc ≠ l.ssrc then ignoreRtcp leg s
  else
    match tget s.enc.ctxs l.source with
    | some c => if bitOf c.feedback bit && !c.stopped then changeOf l.channel 0 (.loss l.source) s else s
    | none => s

/-- RTCP_RECEIVE (R236): feedback bound to the flow's source context ends in a commit (R97). -/
def execRtcpReceive (leg : Nat) (m : Rtcp) (s : State) : Outcome :=
  match tget s.egr.legs leg with
  | none => .next s
  | some l =>
    if l.rtcp = false ∨ l.st ≠ 1 ∨ ticking s = false then .next s
    else if sliceLeg l = false then .next (ignoreRtcp leg s)
    else
      match m with
      | .pli ssrc => .next (lossReport leg ssrc 1 l s)
      | .nack ssrc => .next (lossReport leg ssrc 2 l s)
      | .rpsi ssrc bits =>
        if ssrc ≠ l.ssrc then .next (ignoreRtcp leg s)
        else
          match rpsiPoc bits, tget s.enc.ctxs l.source with
          | some poc, some c =>
            .next (if bitOf c.feedback 0 && !c.stopped then changeOf l.channel 0 (.acknowledge l.source poc) s else s)
          | _, _ => .next s
      | .other => .next (ignoreRtcp leg s)

/-! ### Splices (R220, R237) -/

/-- A section with a byte replaced. -/
def putByte (b : Bytes) (o v : Nat) : Bytes := b.set o (BitVec.ofNat 8 v)

/-- A time of 33 bits in the five bytes of a splice_time() with time_specified_flag 1, where it has it (R237; log entry 30). -/
def putTime (b : Bytes) (o pts : Nat) : Bytes :=
  if u8 b o < 128 then b
  else
    (List.range 4).foldl (fun b i => putByte b (o + 1 + i) (pts / 2 ^ (24 - 8 * i) % 256))
      (putByte b o (u8 b o / 2 * 2 + pts / 2 ^ 32 % 2))

/-- The first splice_time() with time_specified_flag 1 among n components of a splice_insert, the first of whose tags lies at an offset
(R237; log entry 30). -/
def componentTime (b : Bytes) : Nat → Nat → Option Nat
  | 0, _ => none
  | n + 1, o => if 128 ≤ u8 b (o + 1) then some (o + 1) else componentTime b n (o + 2)

/-- The offset of the first splice_time() of a section that may specify a time, in a splice_insert or a time_signal (R237; log
entry 30). -/
def timeOffset (b : Bytes) : Option Nat :=
  if u8 b 13 = 6 then some 14
  else if u8 b 13 = 5 then
    if bitOf (u8 b 18) 7 || bitOf (u8 b 19) 4 then none
    else if bitOf (u8 b 19) 6 then some 20
    else componentTime b (u8 b 20) 21
  else none

/-- The section as it is sent: pts_adjustment and pts_time written where asked, and CRC_32 recomputed (R237). -/
def finishSection (writePts : Bool) (pts : Nat) (b : Bytes) : Bytes :=
  let b :=
    if writePts then
      let b := (List.range 4).foldl (fun b i => putByte b (5 + i) 0) (putByte b 4 (u8 b 4 / 2 * 2))
      match timeOffset b with
      | some o => putTime b o pts
      | none => b
    else b
  let body := b.take (b.length - 4)
  let crc := crcPresetOf 2 body
  body ++ (List.range 4).map (fun i => BitVec.ofNat 8 (crc / 2 ^ (24 - 8 * i)))

/-- A splice section applied at frame n: it waits for the first picture's first datagram (R237). Each leg of the flow sends it. -/
def applySplice (flow n : Nat) (writePts : Bool) (b : Bytes) (s : State) : State :=
  let both := match tget s.egr.legs flow with
    | some l => legsWith l flow
    | none => []
  both.foldl (fun s k =>
    match tget s.egr.legs k with
    | none => s
    | some l =>
      let pts := ptsOf (chan s l.channel) (tgetD s.enc.ctxs l.source {}) n
      modLeg s k (fun l => { l with splices := l.splices ++ [finishSection writePts pts b] })) s

/-! ### Queue sampling (R239) -/

/-- floor(log2 v), 0 for 0. -/
def log2 (v : Nat) : Nat := Nat.log2 v

/-- The bin of a queue depth (Table 10 of the egress chapter). -/
def depthBin (d : Nat) : Nat := if d = 0 then 0 else if d < 128 then 1 else min 15 (log2 d - 5)

/-- The bin of a head packet's age, none for an empty queue. -/
def ageBin (age : Option Nat) : Nat :=
  match age with
  | none => 0
  | some a => if a = 0 then 1 else min 15 (log2 a + 2)

/-- A histogram with one more sample; counts saturate. -/
def addSample (h : List Nat) (bin : Nat) : List Nat :=
  (List.range 16).map (fun i => satAdd 32 (h.getD i 0) (if i = bin then 1 else 0))

/-- Age in microseconds of the packet at the head of a queue. -/
def headAge (now : Nat) (l : Leg) : Option Nat := l.queue.head?.map (fun p => (now - p.queuedAt) / usUnit)

/-- The greater of two ages. -/
def olderAge (a b : Option Nat) : Option Nat :=
  match a, b with
  | some x, some y => some (max x y)
  | some x, none => some x
  | none, y => y

/-- A sample of a leg (R239). -/
def sampleLeg (now : Nat) (l : Leg) : Leg :=
  { l with depthHist := addSample l.depthHist (depthBin (queueBytes l)), ageHist := addSample l.ageHist (ageBin (headAge now l)) }

/-- A sample of a set of legs. -/
def sampleSet (now : Nat) (l : List Leg) (h : HistSet) : HistSet :=
  { h with
    depthHist := addSample h.depthHist (depthBin (sumOf (l.map queueBytes)))
    ageHist := addSample h.ageHist (ageBin (l.foldl (fun a x => olderAge a (headAge now x)) none)) }

/-- The classes of a port sampled. -/
def sampleClasses (s : State) (p : Nat) (x : EgrPort) : EgrPort :=
  let legs := (s.egr.legs.map (fun l => l.2)).filter (fun l => l.port == p)
  let sample := fun (t : Tab PortClass) (c : Nat) =>
    tupd t c {} (fun k => { k with stats := sampleSet s.mtb.t (legs.filter (fun l => (egrGroup s l.group).cls == c)) k.stats })
  { x with classes := (List.range 8).foldl sample x.classes }

/-- The groups and port classes sampled (R239). -/
def sampleGroups (s : State) : State :=
  let legs := s.egr.legs.map (fun l => l.2)
  let ports := (tkeys s.lnk.eth).foldl (fun t p => tupd t p {} (sampleClasses s p)) s.egr.ports
  { s with egr := { s.egr with
      groups := tmap s.egr.groups (fun k g => { g with stats := sampleSet s.mtb.t (legs.filter (fun l => l.group == k)) g.stats })
      ports := ports
      sampledAt := s.mtb.t } }

/-- QUEUE_SAMPLE_TIMER (R239): every 10 ms of MTB while no channel runs. -/
def execQueueSampleTimer (s : State) : Outcome :=
  if (runningChans s).isEmpty && egressRuns s.mode.mode then .next (sampleGroups (noEarlier (s.egr.sampledAt + 10 * msUnit) s))
  else .next s

/-! ### Ticks (R219, R222, R229, R235, R236, R239) -/

/-- The sample ticks of [T_n, T_(n+1)): the samples of frame n's ST 302 packets (R32, R222). -/
def frameSamples (rate n : Nat) : Nat :=
  ceilDiv (48000 * rateD rate * (n + 1)) (rateN rate) - ceilDiv (48000 * rateD rate * n) (rateN rate)

/-- Egress at a frame tick of a channel: SRTP flows start, PSI and the ST 302 PES packets of the frame that ended are queued, and the
queues are sampled. -/
def egressTick (c n : Nat) (s : State) : State :=
  let ch := chan s c
  let t := frameTickAt ch.rate n
  let samples := frameSamples ch.rate (n - 1)
  let s := { s with egr := { s.egr with legs := tmap s.egr.legs (fun k l =>
    if l.channel = c ∧ l.st = 1 then
      let l := insertPsi s k t { l with srtpHeld := false }
      let q : QPkt :=
        { wire := 1316 + overhead (appendBytes s k) l, emit := t, queuedAt := t
          pts := some (ptsOf ch (tgetD s.enc.ctxs l.source {}) (n - 1)) }
      let audio := l.tsAudio.zip (List.range 4)
      let l := if l.kind = 1 ∧ 0 < n then audio.foldl (fun l a =>
          let p := programme s a.1
          enqueueAll t (pidPackets (2 + a.2) (ceilDiv (p.count / 2 * samples * pairBytes p.bits + 18) 184) 0 q) l) l else l
      sampleLeg s.mtb.t l
    else l) } }
  let s := sendProduced s
  if (runningChans s).head? = some c then sampleGroups s else s

/-- Rate changes take effect at a sample tick, in every mode in which the ticks run on (R229). -/
def ratesAtTick (n : Nat) (s : State) : State :=
  { s with egr := { s.egr with legs := tmap s.egr.legs (fun _ l => applyRate n s.mtb.mgt l) } }

/-- Egress at a sample tick: audio packets are queued, each with the tick of its first sample (R222). -/
def egressSample (n : Nat) (s : State) : State :=
  let t := sampleTickAt n
  sendProduced { s with egr := { s.egr with legs := tmap s.egr.legs (fun k l =>
      if sliceLeg l = false ∧ l.st = 1 ∧ chanRunning s l.channel = true ∧ n % packetSamples (programme s l.source) = 0 then
        let p := programme s l.source
        let first := n + 2 ^ 32 - packetSamples p
        enqueue t { wire := audioPayload l.kind p + overhead (appendBytes s k) l, emit := t, queuedAt := t, form := .audio
                    stamp := some (first % 2 ^ 32) } l
      else l) } }

/-- An SRTP flow starts: its rollover counter from the second, its session key and salt from the key and salt of its slot (R235). -/
def startSrtp (s : State) (sec : Nat) (l : Leg) : Leg :=
  let k := match l.srtpKey with
    | some i => Config.srtpSession (tgetD s.sec.keys i {}).key
    | none => ([], 0)
  { l with roc := 4 * sec % 2 ^ 32, seq := 0, srtpWait := false, srtpHeld := true, sessKey := k.1, sessSalt := k.2 % 2 ^ 96 }

/-- Egress at a whole second: an SRTP flow that waits takes its ROC once time is absolute, and sender reports go out on the flows that
send (R235, R236). -/
def egressSecond (sec : Nat) (s : State) : State :=
  sendProduced { s with egr := { s.egr with legs := tmap s.egr.legs (fun k l =>
      let l := if l.srtpWait ∧ s.mtb.abs = true ∧ l.st = 1 then startSrtp s sec l else l
      if l.rtcp && sendsLocal l && !l.srtpWait && !l.srtpHeld && ticking s then
        enqueue s.mtb.t { wire := Config.senderReport k, emit := s.mtb.t, queuedAt := s.mtb.t, media := false, form := .report, dst := 1 }
          { l with srCount := l.srCount + 1 }
      else l) } }

/-! ### Statistics window (R242) -/

/-- The sixteen bins of a histogram. -/
def histWords (h : List Nat) : List Nat := (List.range 16).map (fun i => h.getD i 0)

/-- A rate in kb/s, rounded up. -/
def kbpsUp (v : Nat) : Nat := ceilDiv v 1000

/-- The words 0x3004 to 0x30BC of a leg. -/
def legStats (l : Leg) : List Nat :=
  [packWord [(1, 0), (l.st, 2), (b2n l.legB, 4), (b2n l.srtpWait, 5)], loWord l.pkts, hiWord l.pkts, loWord l.bytes, hiWord l.bytes,
   l.drops, l.marks, ofSigned 32 (l.tokens / 65536), l.rate / 1000, kbpsUp l.charge, l.seq, if l.srtpWait then 0 else l.roc,
   packWord [(l.spliceLate, 0), (l.spliceDisc, 16)], 0, 0] ++ histWords l.depthHist ++ histWords l.ageHist

/-- The words of a group or a port class. -/
def setStats (h : HistSet) : List Nat :=
  [5, loWord h.pkts, hiWord h.pkts, loWord h.bytes, hiWord h.bytes, 0, 0, 0, 0, 0, 0, 0, 0, 0, 0] ++ histWords h.depthHist ++
    histWords h.ageHist

/-- The words of a policer. -/
def policerStats (p : Policer) : List Nat :=
  [5, loWord p.green, hiWord p.green, loWord p.bytes, hiWord p.bytes, loWord p.red, loWord p.yellow, p.tc / 65536, 0, 0, 0, 0, 0, 0, 0] ++
    List.replicate 32 0

/-- The words of no object; `denied` sets EGR_ST_DENIED. -/
def noStats (denied : Bool) : List Nat := (if denied then 2 else 0) :: List.replicate 46 0

/-- The index of an object within the range of its type (R242). -/
def statIndex (type i : Nat) : Nat :=
  if type = 1 then min i 255 else if type = 2 then min i 127 else if type = 3 then min i 1023 else i

/-- What a selection latches for a partition (R242). -/
def statWords (s : State) (p type index : Nat) : List Nat :=
  let i := statIndex type index
  if type = 1 then
    if p ≠ 0 then noStats true else match tget s.egr.groups i with | some g => setStats g.stats | none => noStats false
  else if type = 2 then
    if p ≠ 0 then noStats true
    else if thas s.lnk.eth (i / 8) then setStats (portClass s (i / 8) (i % 8)).stats else noStats false
  else if type = 3 then
    if p = 0 ∨ (chansOfFlow s i).any (fun c => ownsChannel s p c) = true then
      match tget s.ing.policers i with | some x => policerStats (refillPolicer s.mtb.t x) | none => noStats false
    else noStats true
  else if ownsLeg s p i then
    match tget s.egr.legs i with | some l => legStats (refillLeg s.mtb.mgt l) | none => noStats false
  else noStats true

/-- The counters and histograms of a set cleared. -/
def clearSet (_ : HistSet) : HistSet := {}

/-- EGR_SEL_CLEAR: the object's counters and histograms are cleared (R242). -/
def clearStats (p type index : Nat) (s : State) : State :=
  let i := statIndex type index
  if type = 1 then
    if p ≠ 0 then s else { s with egr := { s.egr with groups := tmod s.egr.groups i (fun g => { g with stats := clearSet g.stats }) } }
  else if type = 2 then
    if p ≠ 0 then s else setEgrPort s (i / 8) (fun x => { x with classes := tmod x.classes (i % 8) (fun c => { c with stats := clearSet c.stats }) })
  else if type = 3 then
    if p = 0 ∨ (chansOfFlow s i).any (fun c => ownsChannel s p c) = true then
      { s with ing := { s.ing with policers := tmod s.ing.policers i (fun x => { x with green := 0, yellow := 0, red := 0, bytes := 0 }) } }
    else s
  else if ownsLeg s p i then
    modLeg s i (fun l => { l with pkts := 0, bytes := 0, drops := 0, marks := 0, spliceLate := 0, spliceDisc := 0, depthHist := [], ageHist := [] })
  else s

/-! ### Commands (R243, R244) -/

/-- The next sample tick after a time. -/
def nextSample (t : Nat) : Nat := t * 48000 / secUnit + 1

/-- An accepted shaper or gate change that the active device forwards to its partner (R229, R233, R247). -/
def toStandby (m : LinkMsg) (s : State) : State := if actingMode s == .active then sendVa 3 m s else s

/-- EGR_SET_RATE, opcode 0x0910 (R229, R243). A leg that does not run is NOT_READY (log entry 16). -/
def cmdEgrSetRate (r : Req) (s : State) : State :=
  takeRequest 0x0910 false changeLegal r (fun p s =>
    let b := payloadOf r
    let k := f16 b 0 0 4095
    if !ownsLeg s p k.val then reply p r 0x0910 .notInPartition false [] s
    else
      match tget s.egr.legs k.val with
      | none => reply p r 0x0910 .notReady false [] s
      | some l =>
        if l.st ≠ 1 then reply p r 0x0910 .notReady false [] s
        else
          let asked := u32 b 4 * 1000
          let rate := if sliceLeg l then l.rate else clamp l.minRate l.maxRate asked
          let keep := if u32 b 8 = 0 then l.depth else u32 b 8
          let depth := if sliceLeg l ∨ u32 b 8 = 0 then l.depth else clamp 1542 16777216 keep
          let tick := nextSample s.mtb.t
          let c : RateChange := ⟨rate, depth, tick⟩
          reply p r 0x0910 .ok (k.clamped || rate != asked || depth != keep || lenClamped r)
            (le 4 (rate / 1000) ++ le 4 depth ++ le 4 tick)
            (if sliceLeg l then s
             else toStandby (.change l.channel 0 (.rate k.val rate depth)) (modLeg s k.val (fun l => { l with change := some c })))) s

/-- EGR_SET_RATE (R243). -/
def execEgrSetRate (r : Req) (s : State) : Outcome := done (cmdEgrSetRate r s)

/-- Modes in which EGR_SET_GATES is legal: M3 to M8 (R244). -/
def gatesLegal (m : Mode) : Bool := egressRuns m

/-- EGR_SET_GATES, opcode 0x0911 (R233, R244). -/
def cmdEgrSetGates (r : Req) (s : State) : State :=
  takeRequest 0x0911 true gatesLegal r (fun p s =>
    let b := payloadOf r
    let port := f8 b 0 0 15
    let g := gateListOf b
    let start := gateStart s.mtb.t g.1
    reply p r 0x0911 .ok (port.clamped || g.2 || lenClamped r)
      (le 4 g.1.entries.length ++ le 4 (start / 1000000000 % 2 ^ 32) ++ le 2 (start / 1000000000 / 2 ^ 32) ++ [0, 0] ++
        le 4 (start % 1000000000))
      (toStandby (.change 0 0 (.gates port.val g.1.cycle g.1.base start g.1.entries)) (acceptGates port.val g.1 s))) s

/-- EGR_SET_GATES (R244). -/
def execEgrSetGates (r : Req) (s : State) : Outcome := done (cmdEgrSetGates r s)

end Sys2Proof.Machine
end

