-- ==== Sys2Proof/Machine/Hedgerow.lean ====
section
/-! DEFINITION. The Hedgerow tree: discovery, broadcasts, barriers, scheduled actions and heartbeats (R338 to R352). -/

namespace Sys2Proof.Machine

/-- The modes in which Hedgerow carries everything but discovery: M3 to M8 (R349). -/
def hrwRuns (m : Mode) : Bool := ticksRun m || m == .quiescent

/-! ### The record (R350) -/

/-- The Hedgerow record, type 0x0B01 (R350). A root stands at depth 0 (R338), and the ports the record
names come into use (R323). -/
def recHedgerow (b : Bytes) (s : State) : State :=
  sized 8 b (fun s =>
    if s.hrw.taken then orphan s
    else
      let role := clamp 0 2 (u8 b 2)
      let s := applied { s with hrw := { s.hrw with
        taken := true
        ident := clamp 0 1023 (u16 b 0)
        role := role
        down := bitsOf (u8 b 3) 4 1 * 2
        barTimeoutMs := orDefault (u16 b 4) 1000 1 10000
        root := role == 1
        depth := if role = 1 then 0 else 7
        devices := if role = 1 then 1 else 0 } }
      ((List.range 5).filter (vhInUse s)).foldl (fun s k => useValsin (k + 1) s) s) s

/-- HEDGEROW_RECORD (R350). -/
def execHedgerowRecord (b : Bytes) (s : State) : Outcome := recordCommand 0x0B01 b recHedgerow s

/-! ### Discovery (R340) -/

/-- HRW_DISCOVERY (R340): a VH port in use comes up or goes down, VH0 as 0. -/
def execHrwDiscovery (port : Nat) (up : Bool) (s : State) : Outcome :=
  if hrwRuns s.mode.mode || s.mode.mode == .configure then done (treeLink port up s) else .next s

/-- A device not admitted for its depth stands outside the tree, which HRW_DEPTH shows as 7 (R338, R351). -/
def declineDepth (s : State) : State :=
  { s with hrw := { s.hrw with tooDeep := true, depth := 7, announced := true, noRoot := false } }

/-- HRW_DEPTH_ANNOUNCE (R338, R340): a member takes the depth received plus 1, and D where the root broadcast it, and passes both
down; at 6 or more it is not admitted. The depth 7 says that the parent has left the tree, and this device leaves with it (log entry
134). -/
def execHrwDepthAnnounce (a : DepthNote) (s : State) : Outcome :=
  if s.hrw.role = 2 ∧ vhUp s 0 = true then
    let s := { s with hrw := { s.hrw with treeDepth := a.tree.getD s.hrw.treeDepth } }
    if a.depth = 7 then done (leaveTree { s with hrw := { s.hrw with tooDeep := false } })
    else if 6 ≤ a.depth + 1 then
      let s := if s.hrw.tooDeep then s else raise 0x076 0 s
      done (announceDown a.tree (declineDepth s))
    else
      done (announceDown a.tree
        { s with hrw := { s.hrw with depth := a.depth + 1, announced := true, tooDeep := false, noRoot := false } })
  else .next s

/-- HRW_MAP_RECEIVE (R340): a child's subtree map, with the hops below it. -/
def execHrwMapReceive (port : Nat) (ids : List Nat) (depth : Nat) (s : State) : Outcome :=
  if (childPorts s).contains port && vhUp s port then
    let ids := (ids.filter (fun i => decide (i < 1024))).dedup
    done (judgeMaps { s with hrw := { s.hrw with
      maps := tset s.hrw.maps port ids, depths := tset s.hrw.depths port (depth + 1) } })
  else .next s

/-- HRW_NO_ROOT (R340): 100 ms after VH0 came up no depth announcement has come. -/
def execHrwNoRoot (s : State) : Outcome :=
  match s.hrw.vh0UpAt with
  | some t =>
    if s.hrw.announced || s.hrw.noRoot then .next s
    else
      let s := noEarlier (t + 100 * msUnit) s
      done (raise 0x077 0 { s with hrw := { s.hrw with noRoot := true } })
  | none => .next s

/-! ### Sequences and broadcasts (R342, R343) -/

/-- A broadcast delivered to the owner as an HRW_BCAST event (R343, R443). -/
def deliverBroadcast (origin seq : Nat) (data : Bytes) (s : State) : State :=
  sendEvent 0 0x0D43 (le 2 origin ++ le 2 data.length ++ le 4 seq ++ data)
    { s with hrw := { s.hrw with bcastRx := bump32 s.hrw.bcastRx } }

/-- The effective data of a broadcast request: 1 to 256 bytes, and whether the length was clamped (R352). -/
def broadcastData (r : Req) : Bytes × Bool :=
  let n := f16 (payloadOf r) 0 1 256
  (bytesAt (payloadOf r) 4 n.val, n.clamped || lenClamped r)

/-- The modes of the Hedgerow commands (R352, R439). -/
def hrwLegal (m : Mode) : Bool := hrwRuns m

/-- A broadcast that the root sends: delivered to its own owner, and down every child (R342, R343). -/
def broadcastDown (origin seq : Nat) (data : Bytes) (s : State) : State :=
  sendDown 5 (.broadcast origin seq data) (deliverBroadcast origin seq data s)

/-- HRW_BROADCAST, opcode 0x0B10 (R342, R343, R352). The root sends it down at once and answers; another device sends it up and
answers when it comes down. -/
def cmdHrwBroadcast (r : Req) (s : State) : State :=
  takeRequest 0x0B10 true hrwLegal r (fun p s =>
    if !inTree s then reply p r 0x0B10 .notReady false [] s
    else
      let (data, clamped) := broadcastData r
      if s.hrw.root then
        let (n, s) := nextTreeSeq s
        reply p r 0x0B10 .ok clamped (le 4 n) (broadcastDown s.hrw.ident n data s)
      else
        sendUp 5 (.request ⟨s.hrw.ident, .broadcast data⟩) { s with hrw := { s.hrw with broadcasts := s.hrw.broadcasts ++ [r] } }) s

/-- HRW_BROADCAST (R352). -/
def execHrwBroadcast (r : Req) (s : State) : Outcome := done (cmdHrwBroadcast r s)

/-- HRW_BCAST_RECEIVE (R343): delivered to the owner and passed down; the origin's own request is answered (R352). -/
def execHrwBcastReceive (origin seq : Nat) (data : Bytes) (s : State) : Outcome :=
  if inTree s && hrwRuns s.mode.mode then
    let s := broadcastDown origin seq data s
    match s.hrw.broadcasts with
    | r :: rest =>
      if origin = s.hrw.ident then
        let s := { s with hrw := { s.hrw with broadcasts := rest } }
        done (replyTo r 0x0B10 .ok (broadcastData r).2 (le 4 seq) s)
      else done s
    | [] => done s
  else .next s

/-! ### Scheduled actions (R345 to R347) -/

/-- The time a scheduled action names. -/
def actionTime (a : TreeAction) : Nat := a.seconds * secUnit + a.nanoseconds * nsUnit

/-- Whether a tree-wide reset is held whose t is not after a time: no action runs at or after it (R347). -/
def resetHeld (s : State) (t : Nat) : Bool :=
  s.hrw.pending.any (fun p => p.action.action == 2 && decide (actionTime p.action ≤ t))

/-- The words of a channel status block and of the pair block that a snapshot copies are read through the register map; the words
that are not zero, by word offset in the buffer, are what the caller gives (R346). -/
def takeSnapshot (copy : State → List (Nat × Nat)) (p : Pending) (late : Bool) (s : State) : State :=
  let flags := b2n s.mode.degraded + 2 * b2n late + 4 * b2n (!s.mtb.valid)
  let t := actionTime p.action
  let head : List (Nat × Nat) :=
    [(0, p.action.seq), (1, s.hrw.ident + 65536 * modeCode s.mode.mode + 16777216 * flags),
     (2, loWord (secOf t)), (3, bitsOf (secOf t) 47 32), (4, nsOf t), (5, nsOf s.mtb.t)]
  { s with hrw := { s.hrw with
      snapSeq := p.action.seq
      snapshot := (head ++ copy s).filter (fun w => w.2 != 0) } }

/-- An action taken at its time, or on arrival when late (R345 to R347). -/
def actOn (copy : State → List (Nat × Nat)) (p : Pending) (late : Bool) (s : State) : State :=
  let s := { s with hrw := { s.hrw with
      late := if late then bump32 s.hrw.late else s.hrw.late
      pending := s.hrw.pending.filter (fun q => q.action.seq != p.action.seq) } }
  if p.action.action = 2 then enterHold s else takeSnapshot copy p late s

/-- The actions that a new one leaves pending: a tree-wide reset is the last, and none at or after its t runs (R347). -/
def keptActions (a : TreeAction) (l : List Pending) : List Pending :=
  if a.action = 2 then l.filter (fun p => decide (actionTime p.action < actionTime a)) else l

/-- An action is held until its t, unless t has passed (R345). -/
def holdAction (copy : State → List (Nat × Nat)) (a : TreeAction) (s : State) : State :=
  let p : Pending := { action := a }
  if resetHeld s (actionTime a) then s
  else if actionTime a < s.mtb.t then actOn copy p true s
  else { s with hrw := { s.hrw with pending := keptActions a s.hrw.pending ++ [p] } }

/-- The retry hint of R345: µs until the earliest pending t. -/
def treeHint (s : State) : Nat :=
  let ts := s.hrw.pending.map (fun p => actionTime p.action)
  ceilDiv ((ts.foldl min (ts.headD s.mtb.t)) - s.mtb.t) usUnit

/-- The t of a request, raised to the acceptance time plus 3.0 µs (R345), as seconds and nanoseconds rounded up. -/
def effectiveT (sec ns : Nat) (s : State) : Nat :=
  let asked := sec * secUnit + ns * nsUnit
  let least := ceilDiv (s.mtb.t + 3 * usUnit) nsUnit * nsUnit
  max asked least

/-- The action number that a row of HRW_SCHEDULE has, with its payload's own clamp (R352). -/
def scheduleClamped (r : Req) : Bool := u8 (payloadOf r) 0 == 0 || decide (2 < u8 (payloadOf r) 0) || lenClamped r

/-- The scheduled action of a request. -/
def scheduledAction (r : Req) (action seq : Nat) (s : State) : TreeAction :=
  let t := effectiveT (u48 (payloadOf r) 4) (u32 (payloadOf r) 12) s
  ⟨seq, action, secOf t, nsOf t, s.hrw.ident⟩

/-- The reply to a scheduled action: the effective t and its sequence (R352). -/
def scheduleReply (a : TreeAction) : Bytes := le 6 a.seconds ++ [0, 0] ++ le 4 a.nanoseconds ++ le 4 a.seq

/-- The class of a scheduled action: a tree-wide reset goes first (Table 1 of the Hedgerow chapter). -/
def actionClass (action : Nat) : Nat := if action = 2 then 1 else 2

/-- An action that the root has accepted goes down every child and is held here (R342, R345). -/
def scheduleDown (copy : State → List (Nat × Nat)) (a : TreeAction) (s : State) : State :=
  holdAction copy a (sendDown (actionClass a.action) (.schedule a) s)

/-- HRW_SCHEDULE, opcode 0x0B11 (R345, R347, R352). -/
def cmdHrwSchedule (copy : State → List (Nat × Nat)) (action : Nat) (r : Req) (s : State) : State :=
  takeRequest 0x0B11 true hrwLegal r (fun p s =>
    if !inTree s then reply p r 0x0B11 .notReady false [] s
    else if action = 2 ∧ s.hrw.root = false then reply p r 0x0B11 .notOwner false [] s
    else if s.hrw.root then
      if 4 ≤ s.hrw.pending.length then reply p r 0x0B11 .busy false (le 4 (treeHint s)) s
      else
        let (n, s) := nextTreeSeq s
        let a := scheduledAction r action n s
        reply p r 0x0B11 .ok (scheduleClamped r) (scheduleReply a) (scheduleDown copy a s)
    else
      let a := scheduledAction r action 0 s
      sendUp (actionClass action) (.request ⟨s.hrw.ident, .action action a.seconds a.nanoseconds⟩)
        { s with hrw := { s.hrw with schedules := s.hrw.schedules ++ [r] } }) s

/-- HRW_SCHEDULE_RECEIVE (R345): the action comes down from the root, and the origin's own request is answered (R352). -/
def receiveSchedule (copy : State → List (Nat × Nat)) (a : TreeAction) (s : State) : State :=
  if inTree s && hrwRuns s.mode.mode && !s.hrw.root then
    let s :=
      match s.hrw.schedules with
      | r :: rest =>
        if a.origin = s.hrw.ident then
          replyTo r 0x0B11 .ok (scheduleClamped r) (scheduleReply a) { s with hrw := { s.hrw with schedules := rest } }
        else s
      | [] => s
    scheduleDown copy a s
  else s

/-- The root's BUSY answer comes down VH0: the device whose action it refuses answers its request with the hint, and any other passes it on
(R345; log entry 139). -/
def takeBusy (origin hint : Nat) (s : State) : State :=
  if inTree s && hrwRuns s.mode.mode && !s.hrw.root then
    if origin = s.hrw.ident then
      match s.hrw.schedules with
      | r :: rest => replyTo r 0x0B11 .busy false (le 4 hint) { s with hrw := { s.hrw with schedules := rest } }
      | [] => s
    else sendDown 2 (.busy origin hint) s
  else s

/-- HRW_ACTION_TIME (R345): the MTB reaches the t of an action held. -/
def actionDue (copy : State → List (Nat × Nat)) (seq : Nat) (s : State) : State :=
  match s.hrw.pending.find? (fun p => p.action.seq == seq) with
  | none => s
  | some p =>
    match atTime (actionTime p.action) s with
    | some s => actOn copy p false s
    | none => actOn copy p true s

/-- The class in which a request travels up. -/
def requestClass (q : TreeRequest) : Nat := match q.kind with | .broadcast _ => 5 | .action a _ _ => actionClass a

/-- HRW_REQUEST_AT_ROOT (R342, R345): the root gives the request its sequence and sends it down, its own owner included; a fifth
action is answered BUSY to its origin, with the hint. On the way there a device passes the request up. -/
def requestAtRoot (copy : State → List (Nat × Nat)) (q : TreeRequest) (s : State) : State :=
  if inTree s && hrwRuns s.mode.mode && !s.hrw.root then sendUp (requestClass q) (.request q) s
  else if s.hrw.root && hrwRuns s.mode.mode then
    match q.kind with
    | .broadcast data =>
      let (n, s) := nextTreeSeq s
      broadcastDown q.origin n (data.take 256) s
    | .action action seconds nanoseconds =>
      if action ≠ 1 then s
      else if 4 ≤ s.hrw.pending.length then sendDown 2 (.busy q.origin (treeHint s)) s
      else
        let (n, s) := nextTreeSeq s
        scheduleDown copy ⟨n, action, seconds, nanoseconds, q.origin⟩ s
  else s

/-- HRW_SNAP_READ, opcode 0x0B13 (R352). -/
def cmdHrwSnapRead (r : Req) (s : State) : State :=
  takeRequest 0x0B13 true hrwLegal r (fun p s =>
    let b := payloadOf r
    let off := min (u16 b 0 / 4 * 4) 8316
    let n := min (min (u16 b 2) 4064) (8320 - off)
    let clamped := decide (8316 < u16 b 0 / 4 * 4) || decide (n < u16 b 2) || lenClamped r
    let byte := fun i => BitVec.ofNat 8 (tgetD s.hrw.snapshot ((off + i) / 4) 0 / 2 ^ (8 * ((off + i) % 4)))
    reply p r 0x0B13 .ok clamped (le 4 s.hrw.snapSeq ++ (List.range n).map byte) s) s

/-- HRW_SNAP_READ (R352). -/
def execHrwSnapRead (r : Req) (s : State) : Outcome := done (cmdHrwSnapRead r s)

/-! ### Barriers (R344) -/

/-- HRW_BARRIER, opcode 0x0B12 (R344, R352). -/
def cmdHrwBarrier (r : Req) (s : State) : State :=
  takeRequest 0x0B12 true hrwLegal r (fun p s =>
    let b := payloadOf r
    let k := clamp 0 15 (u8 b 0)
    if !inTree s then reply p r 0x0B12 .notReady false [] s
    else if (barrier s k).own.isSome then busy p r 0x0B12 s
    else
      let ms := if u16 b 2 = 0 then s.hrw.barTimeoutMs else clamp 1 10000 (u16 b 2)
      judgeBarrier k (setBarrier s k (fun x =>
        { x with own := some r
                 started := some (x.started.getD s.mtb.t)
                 timeoutMs := if x.started.isSome then x.timeoutMs else ms }))) s

/-- HRW_BARRIER (R352). -/
def execHrwBarrier (r : Req) (s : State) : Outcome := done (cmdHrwBarrier r s)

/-- HRW_BARRIER_ARRIVAL (R344): an arrival from a child port, with the timeout it carries. -/
def execHrwBarrierArrival (k port timeoutMs : Nat) (isPartial : Bool) (s : State) : Outcome :=
  if inTree s && hrwRuns s.mode.mode && decide (k < 16) && (childrenUp s).contains port then
    let s := setBarrier s k (fun x =>
      { x with children := sadd x.children port
               isPartial := x.isPartial || isPartial
               started := some (x.started.getD s.mtb.t)
               timeoutMs := if x.started.isSome then x.timeoutMs else timeoutMs })
    done (judgeBarrier k s)
  else .next s

/-- HRW_BARRIER_RELEASE (R342, R344): the release passes down, and this device's waiting owner is answered. -/
def execHrwBarrierRelease (k seq : Nat) (isPartial : Bool) (s : State) : Outcome :=
  if inTree s && hrwRuns s.mode.mode && !s.hrw.root then
    let s := sendDown 3 (.release k seq isPartial) s
    if thas s.hrw.barriers k then done (releaseBarrier k isPartial s) else .next s
  else .next s

/-- Whether this device times a barrier itself: the root, and a device cut off from it. Elsewhere the timeout comes down (R344). -/
def timesBarrier (s : State) : Bool := s.hrw.root || !inTree s

/-- HRW_BARRIER_TIMEOUT (R344): the timeout passes down, waiters answer NOT_READY, and the barrier is free for reuse. A device cut off from
the root answers for itself; at the root a barrier not begun has no timeout. -/
def execHrwBarrierTimeout (k : Nat) (s : State) : Outcome :=
  match tget s.hrw.barriers k with
  | none => .next (if s.hrw.root then s else sendDown 3 (.timeout k) s)
  | some x =>
    let s := if timesBarrier s then noEarlier (x.started.getD s.mtb.t + x.timeoutMs * msUnit) s else s
    let s := if inTree s then sendDown 3 (.timeout k) s else s
    let s := { s with hrw := { s.hrw with
        barriers := tdel s.hrw.barriers k, barTimeouts := bump32 s.hrw.barTimeouts } }
    let s := match x.own with
      | some r => replyTo r 0x0B12 .notReady false [] s
      | none => s
    done (raise 0x079 k s)

/-! ### Claim heartbeats (R348) -/

/-- The device to which heartbeats go: RED_PARTNER_ID, or the ID last seen on VA (R348). -/
def heartbeatTarget (s : State) : Nat := if s.red.partnerId = 65535 then s.red.peerId else s.red.partnerId

/-- Whether a frame addressed to an ID has a route: a child whose map holds it, or else up (R340, R342). -/
def routed (s : State) (ident : Nat) : Bool :=
  !s.hrw.clashIds.contains ident &&
    (s.hrw.maps.any (fun m => m.2.contains ident && vhUp s m.1) || (s.hrw.role == 2 && vhUp s 0))

/-- The VH port of the way to an ID: the child whose map holds it, and otherwise up (R342). -/
def wayTo (s : State) (ident : Nat) : Nat :=
  match s.hrw.maps.find? (fun m => m.2.contains ident && vhUp s m.1) with
  | some m => m.1
  | none => 0

/-- A frame addressed to an ID sent on its way, or dropped and counted for want of one (R342, R348). -/
def sendAddressed (target sender claim epoch : Nat) (s : State) : State :=
  if routed s target then sendTree (wayTo s target) 4 (.heartbeat target sender claim epoch) s
  else { s with hrw := { s.hrw with hbDropped := bump32 s.hrw.hbDropped } }

/-- The heartbeat of one MTB millisecond: the ID, the claim and the pair epoch, to the partner (R259, R348). -/
def sendTreeHeartbeat (s : State) : State :=
  if pairInForce s && s.red.hbHedgerow && !s.red.hbStopped && hrwRuns s.mode.mode then
    sendAddressed (heartbeatTarget s) s.hrw.ident s.red.claim s.red.epoch s
  else s

end Sys2Proof.Machine
end

