-- ==== Sys2Proof/Machine/Pair.lean ====
section
/-! DEFINITION. Paired operation: the digest, claims, silence, fingerprints, resync, role swaps, the merge stage and the health report
(chapter 12). -/

namespace Sys2Proof.Machine

/-! ### The record (R272) -/

/-- The pair record, type 0x0A01 (R272); with RED_PAIRED set port VA is in use (R323). -/
def recPair (b : Bytes) (s : State) : State :=
  sized 12 b (fun s =>
    if s.red.taken then orphan s
    else (fun s : State => if s.red.paired then useValsin 0 s else s) (applied { s with red := { s.red with
      taken := true
      paired := decide (1 ≤ u8 b 0)
      hbHedgerow := decide (1 ≤ u8 b 1)
      partnerId := if u16 b 2 ≤ 1023 then u16 b 2 else 65535
      swapS := orDefault (u32 b 4) 3600 60 86400
      swapOff := decide (1 ≤ u8 b 8)
      grace := orDefault (u8 b 9) 1 1 64
      healthEvt := decide (1 ≤ u8 b 10) } })) s

/-- PAIR_RECORD (R272). -/
def execPairRecord (b : Bytes) (s : State) : Outcome := recordCommand 0x0A01 b recPair s

/-! ### The reference channel (R252) -/

/-- The reference channel: the lowest-numbered running channel (R252). -/
def refChannel (s : State) : Option Nat := (runningChans s).head?

/-- Whether fingerprints are compared: in M4, M5 and M6 while VA is up; M8 entered from M5 acts as M5 (R12, R251). -/
def comparing (s : State) : Bool :=
  pairInForce s && s.red.vaUp &&
    (match actingMode s with
     | .active | .standby | .resync => true
     | _ => false)

/-! ### Leaving Configure (R13, R246, R253, R461) -/

/-- Whether VA and the heartbeat have both been silent for 20 ms (R262). -/
def bothSilent (s : State) : Bool := s.red.vaSilent && s.red.hbSilent

/-- The rows of Table 3 that leave M2, once it has admitted and its MTB is settled (R13, R30, R246, R253). -/
def leaveConfigure (s : State) : State :=
  if s.mode.mode ≠ .configure ∨ s.mode.admitted = false ∨ s.mode.complete = false then s
  else if s.red.paired = false then enterMode .solo s
  else if s.red.clash then (if bothSilent s then enterMode .solo (takeClaim false false s) else s)
  else if s.red.vaUp && s.red.digestDone then
    if s.red.partnerClaim ≠ 0 then enterMode .resync s
    else if s.red.partnerMode = 2 then
      (if s.red.peerId < s.hrw.ident then enterMode .active (takeClaim false false s) else enterMode .resync s)
    else s
  else if bothSilent s then enterMode .solo (takeClaim false false s)
  else s

/-! ### The pair digest (R246) -/

/-- The modes in which VA and the heartbeats work: M2 to M8 (R261, R331). -/
def pairMode (m : Mode) : Bool :=
  match m with
  | .configure | .quiescent => true
  | m => ticksRun m

/-- Whether a record stays out of the digest: classes 0x0A and 0x0B, and types 0x0D01 to 0x0D03. -/
def undigested (type : Nat) : Bool := decide (type / 256 = 10 ∨ type / 256 = 11 ∨ (0x0D01 ≤ type ∧ type ≤ 0x0D03))

/-- The records of the image that the digest covers, each with its 4-byte head (R246, R405). -/
def digestRecords (l : List (Nat × Bytes)) : Bytes :=
  l.foldl (fun a r => if undigested r.1 then a else a ++ le 2 r.1 ++ le 2 r.2.length ++ r.2) []

/-- The admission outcome: a byte per channel and a byte per decode context (R246). -/
def admissionBytes (s : State) : Bytes :=
  ((List.range 64).map (fun c => BitVec.ofNat 8 ((chan s c).st % 4 + 4 * ((chan s c).refused % 8)))) ++
    ((List.range 32).map (fun d => BitVec.ofNat 8 ((tgetD s.dec.ctxs d {}).st % 4)))

/-- The pair digest of this device (R246). -/
def ownDigest (s : State) : Bytes := Config.sha3 (fit 64 s.sec.fwMeas ++ digestRecords s.sec.image ++ admissionBytes s)

/-- Whether a digest received shows a clash (R246). -/
def digestClash (d : PairDigest) (s : State) : Bool :=
  d.digest != ownDigest s || d.ident == s.hrw.ident || (s.red.partnerId != 65535 && d.ident != s.red.partnerId)

/-- A clash: reported, VA and PAIR_HB_IN ignored from now, and both count as silent from now (R246, R461). -/
def enterClash (s : State) : State :=
  raise 0x05F 0 (settleMerge { s with
    red := { s.red with clash := true, vaUp := false, vaSilent := false, partnerClaim := 0, vaDownAt := s.mtb.t, hbAt := s.mtb.t
                        hbSilent := false, hbEdgeAt := none }
    run := { s.run with digest := none, locals := [], partners := [] } })

/-- The digest and the IDs go to the partner, once per coming up of VA, when admission has run; a device that has left M2 sends them too,
since a partner in M2 waits for them (R246; log entry 131). -/
def sendDigest (s : State) : State :=
  if pairMode s.mode.mode = true ∧ s.mode.admitted = true ∧ s.run.digestSent = false ∧ pairInForce s = true ∧ s.red.vaUp = true then
    sendVa 3 (.digest (ownDigest s) s.hrw.ident s.red.partnerId) { s with run := { s.run with digestSent := true } }
  else s

/-- The digests are compared once admission has run and the partner's is here (R246). -/
def compareDigest (s : State) : State :=
  let s := sendDigest s
  match s.run.digest with
  | none => s
  | some d =>
    if pairMode s.mode.mode = true ∧ s.mode.admitted = true ∧ pairInForce s = true ∧ s.red.vaUp = true then
      let s := { s with run := { s.run with digest := none } }
      if digestClash d s then enterClash s
      else leaveConfigure { s with red := { s.red with digestDone := true, peerId := d.ident } }
    else s

/-- PAIR_DIGEST_RECEIVE (R246). -/
def execPairDigestReceive (digest : Bytes) (ident wants : Nat) (s : State) : Outcome :=
  if pairMode s.mode.mode = true ∧ pairInForce s = true ∧ s.red.vaUp = true ∧
      (s.mode.mode = .configure → s.red.digestDone = false) then
    done (compareDigest { s with
      red := { s.red with peerId := ident % 65536 }
      run := { s.run with digest := some ⟨fit 64 digest, ident % 65536, wants % 65536⟩ } })
  else .next s

/-! ### VA up and down, and silence (R248, R259, R261 to R263) -/

/-- Local flows that a device without a claim still sends are stopped (R259). -/
def stopLocalFlows (s : State) : State :=
  let s := { s with
    run := { s.run with claimLost := none }
    egr := { s.egr with legs := tmap s.egr.legs (fun _ l =>
      { l with running := false, src := if l.src = .device then .silent else l.src }) } }
  settleMerge s

/-- VA comes up: RED_SPLIT clears, a heartbeat stopped under R259 starts again, and flows kept running after the claim was given up
with VA down stop (R248, R259, R263). -/
def pairVaUp (s : State) : State :=
  if s.red.paired = false ∨ s.red.clash = true ∨ pairMode s.mode.mode = false ∨ s.red.vaUp = true then s
  else
    let s := { s with red := { s.red with vaUp := true, vaSilent := false, split := false, splitEdges := 0, hbStopped := false } }
    let s := sendDigest s
    if s.run.claimLost.isSome && s.red.claim == 0 then stopLocalFlows s else settleMerge s

/-- VA goes down (R248). -/
def pairVaDown (s : State) : State := settleMerge (dropVa s)

/-- MTB time of the last valid frame on VA (R248). -/
def vaHeardAt (s : State) : Nat := (tgetD s.lnk.vals 0 {}).rxAt

/-- VA_DOWN (R248): no valid link frame for 10 µs. -/
def execVaDown (s : State) : Outcome :=
  if s.red.vaUp then done (pairVaDown (noEarlier (vaHeardAt s + 10 * usUnit) s)) else .next s

/-- The transport state after silence: RTP sequence numbers and SRTP indices advanced by 16,384, and a discontinuity in every PID
(R234). -/
def skipTransport (s : State) : State :=
  { s with egr := { s.egr with legs := tmap s.egr.legs (fun _ l =>
      { l with
        seq := (l.seq + 16384) % 65536
        roc := if l.srtpKey.isSome ∧ 65536 ≤ l.seq + 16384 then (l.roc + 1) % 2 ^ 32 else l.roc
        disc := if l.kind = 1 then List.range 8 else l.disc }) } }

/-- The rows of Table 3 on VA and PAIR_HB_IN silent for 20 ms (R13, R234, R262). -/
def actOnSilence (s : State) : State :=
  if bothSilent s = false then s
  else
    match s.mode.mode with
    | .configure => leaveConfigure s
    | .active => enterMode .solo s
    | .standby | .resync => enterMode .solo (takeClaim true false (skipTransport s))
    | .update => if s.mode.updateFrom = .standby then enterMode .solo (takeClaim true false (skipTransport s)) else s
    | _ => s

/-- Whether VA is down and not yet noted as silent (R248). -/
def vaMayFall (s : State) : Bool := s.red.paired && !s.red.vaUp && !s.red.vaSilent && pairMode s.mode.mode

/-- VA is noted as silent (R248). -/
def vaFallsSilent (s : State) : State := actOnSilence { s with red := { s.red with vaSilent := true } }

/-- VA_SILENT (R248): 20 ms after VA went down, or after entry to M2. -/
def execVaSilent (s : State) : Outcome :=
  if vaMayFall s then done (vaFallsSilent (noEarlier (s.red.vaDownAt + 20 * msUnit) s)) else .next s

/-- The last time the heartbeat was heard: an edge, or with RED_HB_HEDGEROW a Hedgerow frame (R261, R348). -/
def heartbeatHeard (s : State) : Nat := if s.red.hbHedgerow then max s.red.hbAt (s.red.hrwHbAt.getD 0) else s.red.hbAt

/-- Whether the heartbeat is not yet noted as silent (R261). -/
def hbMayFall (s : State) : Bool := s.red.paired && !s.red.hbSilent && pairMode s.mode.mode

/-- The heartbeat is noted as silent (R261, R271). After a clash the pin is ignored and nothing is reported (R246). -/
def hbFallsSilent (s : State) : State :=
  let s := if s.red.clash then s else raise 0x05D 0 s
  actOnSilence { s with red := { s.red with hbSilent := true, hbEdgeAt := none } }

/-- HEARTBEAT_SILENT (R261, R271): 20 ms without an edge or frame. After a clash the pin is ignored and nothing is reported
(R246). -/
def execHeartbeatSilent (s : State) : Outcome :=
  if hbMayFall s then done (hbFallsSilent (noEarlier (heartbeatHeard s + 20 * msUnit) s)) else .next s

/-- The silences whose 20 ms have run out are acted on: the triggers of R14 that come before the fingerprint triggers, a swap and an
owner request (R14, R248, R261). -/
def silencesDue (s : State) : State :=
  let s := if vaMayFall s && decide (s.red.vaDownAt + 20 * msUnit ≤ s.mtb.t) then vaFallsSilent s else s
  if hbMayFall s && decide (heartbeatHeard s + 20 * msUnit ≤ s.mtb.t) then hbFallsSilent s else s

/-- RED_SPLIT is set and reported (R263). -/
def setSplit (s : State) : State := if s.red.split then s else raise 0x05E 0 { s with red := { s.red with split := true } }

/-- Whether this device looks for a split: VA is down and it holds a claim (R263). -/
def watchesSplit (s : State) : Bool := !s.red.vaUp && s.red.claim != 0

/-- The parity an edge should show: the level driven at the millisecond boundary nearest to it under the own pair epoch (R261,
R263). -/
def expectedLevel (s : State) : Bool := ((s.mtb.t + msUnit / 2) / msUnit + s.red.epoch) % 2 == 1

/-- Whether edges of PAIR_HB_IN are noted: in M2 to M8, and in M9, whose exit asks whether the partner is present (R261, R372,
R461). -/
def hearsPair (m : Mode) : Bool := pairMode m || m == .safeHold

/-- PAIR_HB_IN_EDGE (R261, R263). -/
def execPairHbInEdge (level : Bool) (s : State) : Outcome :=
  if pairInForce s && hearsPair s.mode.mode then
    let s := { s with red := { s.red with hbAt := s.mtb.t, hbEdgeAt := some s.mtb.t, hbSilent := false } }
    if watchesSplit s && s.mtb.valid then
      let n := if level != expectedLevel s then min 3 (s.red.splitEdges + 1) else 0
      let s := { s with red := { s.red with splitEdges := n } }
      done (if n = 3 then setSplit s else s)
    else .next { s with red := { s.red with splitEdges := 0 } }
  else .next s

/-- HRW_HEARTBEAT_RECEIVE (R263, R342, R348): a claim heartbeat from the partner, or one on its way to another device, which is passed
on. -/
def execHrwHeartbeatReceive (p : TreePath) (claim epoch : Nat) (s : State) : Outcome :=
  if p.target ≠ s.hrw.ident then
    if inTree s && hrwRuns s.mode.mode then .next (sendAddressed p.target p.sender claim epoch s) else .next s
  else if pairInForce s && s.red.hbHedgerow && hrwRuns s.mode.mode && (s.red.partnerId == 65535 || p.sender == s.red.partnerId) then
    let s := { s with
      red := { s.red with hrwHbAt := some s.mtb.t, hbSilent := false }
      hrw := { s.hrw with hbRx := bump32 s.hrw.hbRx } }
    done (if watchesSplit s && claim != 0 then setSplit s else s)
  else .next s

/-- The heartbeat of MTB millisecond m: PAIR_HB_OUT at the level (m + e) mod 2, held low by an unpaired device, and stopped after a
clash or under R259 (R246, R259, R261, R272). -/
def driveHeartbeat (m : Nat) (s : State) : State :=
  if pairMode s.mode.mode = false ∨ s.red.clash = true ∨ s.red.hbStopped = true ∨ s.pins.forcedSafe = true then s
  else { s with pins := { s.pins with hbOut := s.red.paired && (m + s.red.epoch) % 2 == 1 } }

/-- CLAIM_RELEASE_FLOWS_STOP (R259): 20 ms after the claim was given up with VA down. -/
def execClaimReleaseFlowsStop (s : State) : Outcome :=
  match s.run.claimLost with
  | none => .next s
  | some t => if s.red.claim = 0 then .next (stopLocalFlows (noEarlier (t + 20 * msUnit) s)) else .next s

/-! ### Beacons (R247, R253, R255) -/

/-- Whether beacons pass: VA is up between M2 and M8. -/
def beaconsPass (s : State) : Bool := pairInForce s && s.red.vaUp && pairMode s.mode.mode

/-- The beacon that this device sends now (R247). -/
def beaconNow (s : State) : Beacon :=
  { claim := s.red.claim, epoch := s.red.epoch, mode := modeCode s.mode.mode, degraded := s.mode.degraded
    count := (s.run.beaconCount + 1) % 65536 }

/-- CLAIM_BEACON_SEND (R247): the beacon that goes to the partner, with the 16-bit beacon count. -/
def execClaimBeaconSend (s : State) : Outcome :=
  if beaconsPass s then
    let b := beaconNow s
    .next (sendVa 1 (.beacon b) { s with run := { s.run with beaconCount := b.count, beacon := some b } })
  else .next s

/-- Whether the device is preferred for promotion (R255). -/
def preferred (s : State) : Bool :=
  (!s.mode.degraded && s.red.partnerDegraded) ||
    (s.mode.degraded == s.red.partnerDegraded && decide (s.red.peerId < s.hrw.ident))

/-- The rows of Table 3 that the partner's claim and mode trigger (R13, R255, R263). -/
def onPartner (s : State) : State :=
  match s.mode.mode with
  | .configure => leaveConfigure s
  | .solo =>
    if s.red.partnerMode = 6 then enterMode .active s
    else { s with red := { s.red with yielded := decide (s.red.claim < s.red.partnerClaim) } }
  | .standby =>
    if s.red.partnerClaim = 0 ∧ s.red.partnerMode = 5 ∧ preferred s = true then enterMode .active (takeClaim true false s) else s
  | .update =>
    if s.mode.updateFrom = .standby ∧ s.red.partnerClaim = 0 ∧ s.red.partnerMode = 5 ∧ preferred s = true then
      enterMode .active (takeClaim true false s)
    else s
  | _ => s

/-- CLAIM_BEACON_RECEIVE (R247, R253). -/
def execClaimBeaconReceive (claim epoch mode : Nat) (degraded : Bool) (count : Nat) (s : State) : Outcome :=
  if beaconsPass s then
    let s := { s with
      red := { s.red with
        partnerClaim := claim % 2 ^ 32
        epoch := max s.red.epoch (epoch % 2 ^ 22)
        partnerMode := mode % 16
        partnerDegraded := degraded
        peerId := if claim % 2 ^ 32 = 0 then s.red.peerId else claim % 1024 }
      run := { s.run with partnerCount := count % 65536 } }
    done (onPartner (settleMerge s))
  else .next s

/-! ### Fingerprints (R249 to R252, R260) -/

/-- The channel of a fingerprint's stream. -/
def printChannel (s : State) : FpStream → Nat
  | .input c _ _ => c
  | .output x _ _ => (chanOfCtx s x).getD 0
  | .audio p _ => (programme s p).channel

/-- The state with the counts of the present second changed. -/
def setHealth (s : State) (f : Health → Health) : State := { s with run := { s.run with health := f s.run.health } }

/-- RED_INPUT_WORSE: the row status is set here and clear on the partner for RED_INPUT_GRACE consecutive rows, on the device that
holds the claim (R260). -/
def judgeStatus (c : Nat) (mine theirs : Bool) (s : State) : State :=
  let n := if mine && !theirs then tgetD s.run.worse c 0 + 1 else 0
  let s := { s with run := { s.run with worse := tset s.run.worse c n } }
  if s.red.grace ≤ n ∧ s.red.claim ≠ 0 then raise 0x059 c s else s

/-- A comparison decided (R251, R252, R270, R271). -/
def judgePrint (mine theirs : Fingerprint) (s : State) : State :=
  let c := printChannel s mine.stream
  let bad := mine.value != theirs.value
  let s := { s with run := { s.run with decided := s.run.decided + 1 } }
  match mine.stream with
  | .input _ _ _ =>
    let s := setHealth s (fun h => { h with inCompared := bump32 h.inCompared, inMismatch := if bad then bump32 h.inMismatch else h.inMismatch })
    let s := if bad then raise 0x05B c { s with run := { s.run with inBad := true } } else s
    judgeStatus c mine.status theirs.status s
  | _ =>
    let s := setHealth s (fun h => { h with outCompared := bump32 h.outCompared, outMismatch := if bad then bump32 h.outMismatch else h.outMismatch })
    if bad then raise 0x05A c { s with run := { s.run with outBad := true } } else s

/-- A fingerprint waiting for the other copy of a stream, and the rest. -/
def takeRow (x : FpStream) (l : List Row) : Option Row × List Row :=
  (l.find? (fun r => r.print.stream == x), l.filter (fun r => r.print.stream != x))

/-- Output fingerprints are kept for the transport check (R269). -/
def keepPrint (f : Fingerprint) (l : List Fingerprint) : List Fingerprint :=
  match f.stream with
  | .output _ _ _ => (f :: l).take 512
  | _ => l

/-- A fingerprint of this device becomes final: it goes to the partner, and is compared when the partner's is here, and waits for it otherwise (R250, R251).
Fewer than four fingerprint units suspend them (R360). -/
def localPrint (f : Fingerprint) (s : State) : State :=
  if s.cvu.fpSuspended then s
  else
    let s := { s with run := { s.run with recent := keepPrint f s.run.recent } }
    if comparing s then
      let s := sendVa 2 (.print f) s
      match takeRow f.stream s.run.partners with
      | (some r, rest) => judgePrint f r.print { s with run := { s.run with partners := rest } }
      | (none, _) => { s with run := { s.run with locals := s.run.locals ++ [⟨f, s.mtb.t⟩] } }
    else s

/-- The latest 1,024 copies that wait (a copy whose counterpart never comes is not kept for ever). -/
def keepRows (l : List Row) : List Row := l.drop (l.length - 1024)

/-- FINGERPRINT_RECEIVE (R251). -/
def execFingerprintReceive (f : Fingerprint) (s : State) : Outcome :=
  if comparing s then
    match takeRow f.stream s.run.locals with
    | (some r, rest) => done (judgePrint r.print f { s with run := { s.run with locals := rest } })
    | (none, _) => .next { s with run := { s.run with partners := keepRows (s.run.partners ++ [⟨f, s.mtb.t⟩]) } }
  else .next s

/-- How long after the local copy a partner fingerprint is missing: two row ticks of its channel, or 2 ms for audio (R251). -/
def missingAfter (s : State) : FpStream → Nat
  | .audio _ _ => 2 * msUnit
  | x =>
    let ch := chan s (printChannel s x)
    128 * rateD ch.rate * secUnit / (rateN ch.rate * totalLines ch.raster)

/-- The runs of rows worse than the partner's after a print of a stream is missing: an input row without the partner's status ends the run
of its channel (R260). -/
def breakRun (s : State) : FpStream → Tab Nat
  | .input c _ _ => tset s.run.worse c 0
  | _ => s.run.worse

/-- FINGERPRINT_MISSING (R251, R260). -/
def execFingerprintMissing (x : FpStream) (s : State) : Outcome :=
  if comparing s then
    match takeRow x s.run.locals with
    | (some r, rest) =>
      let s := noEarlier (r.time + missingAfter s x) s
      .next (setHealth { s with
        red := { s.red with missing := bump32 s.red.missing }
        run := { s.run with locals := rest, missed := true, worse := breakRun s x } } (fun h => { h with missing := bump32 h.missing }))
    | (none, _) => .next s
  else .next s

/-! ### Pair frames (R252, R267) -/

/-- Whether every running channel has reached the tick of its join frame (R267): the pair frame that begins then is the first in which
matching counts, whenever the small state arrives (Table 4 of the pair chapter). -/
def allPastJoin (s : State) : Bool :=
  (runningChans s).all (fun c =>
    match tget s.run.joins c with
    | some j => decide (frameTickAt (chan s c).rate j ≤ s.mtb.t)
    | none => false)

/-- Whether the pair frame that ends is one in which matching counts (R267). -/
def frameCounts (s : State) : Bool := actingMode s != .resync || s.run.counting

/-- The pair frame is judged and the next begins (R252). -/
def judgeFrame (s : State) : State :=
  let r := s.run
  let matched := decide (0 < r.decided) && !r.outBad && !r.inBad && !r.missed && frameCounts s
  { s with
    red := { s.red with
      matchRun := if matched then min 16 (s.red.matchRun + 1) else 0
      outMismatchFrames := if r.outBad then bump32 s.red.outMismatchFrames else s.red.outMismatchFrames
      inMismatchFrames := if r.inBad then bump32 s.red.inMismatchFrames else s.red.inMismatchFrames }
    run := { r with decided := 0, outBad := false, inBad := false, missed := false, frames := r.frames + 1
                    badRun := if r.outBad then min 2 (r.badRun + 1) else 0, counting := allPastJoin s } }

/-- Pair frames begin and end at the frame ticks of the reference channel, or every 10 ms of MTB when none runs: boundary n, and the
last that the MTB has reached (R252). -/
def pairBoundary (s : State) : (Nat → Nat) × Nat :=
  match refChannel s with
  | some c => (frameTickAt (chan s c).rate, frameNow (chan s c).rate s.mtb.t)
  | none => (fun n => n * (10 * msUnit), s.mtb.t / (10 * msUnit))

/-- The machine at a boundary of periods that last from tick to tick of the reference channel, with its number: in this MGT cycle where
a boundary has just been reached and it is not the last one noted, and at the next boundary otherwise (R252, R290). -/
def atBoundary (last : Option Nat) (s : State) : State × Nat :=
  let (tick, n) := pairBoundary s
  if s.mtb.t < tick n + s.mtb.inc ∧ last ≠ some n then (s, n) else (noEarlier (tick (n + 1)) s, n + 1)

/-- The machine at the end of the present pair frame (R252). -/
def atPairEnd (s : State) : State :=
  let (s, n) := atBoundary s.run.pairFrame s
  { s with run := { s.run with pairFrame := some n } }

/-- Whether pair frames are judged in the present mode (R251, R252). -/
def judgesFrames (s : State) : Bool :=
  pairInForce s && (match actingMode s with | .active | .standby | .resync => true | _ => false)

/-- A pair frame ends: it is judged, then the fingerprint rows of Table 3 are acted on (R13, R252, R267). -/
def endPairFrame (s : State) : State :=
  let restart := s.run.counting && s.run.outBad && !s.run.inBad
  let s := judgeFrame s
  match s.mode.mode with
  | .standby => if s.run.badRun = 2 then enterMode .resync s else s
  | .resync =>
    if restart then startResync s
    else if s.run.copying = false ∧ s.red.matchRun = 16 then enterMode .standby s
    else s
  | _ => s

/-- The boundary of pair frames reached in the present MGT cycle, where there is one (R252). -/
def boundaryNow (s : State) : Option Nat :=
  let (tick, n) := pairBoundary s
  if s.mtb.t < tick n + s.mtb.inc then some n else none

/-- The pair frame that ends in the present MGT cycle is judged, where it has not been, ahead of a role swap and of an owner request of
the same cycle (R14). Its PAIR_FRAME_END, which still stands in the queue, then finds nothing left to do. -/
def judgeAhead (s : State) : State :=
  match boundaryNow s with
  | some n =>
    if judgesFrames s = true ∧ s.run.pairFrame ≠ some n then
      endPairFrame { s with run := { s.run with pairFrame := some n, judgedAhead := some n } }
    else s
  | none => s

/-- PAIR_FRAME_END (R13, R14, R252, R267): at the boundary of pair frames the frame is judged, then the fingerprint rows of Table 3; a
frame judged ahead is not judged again. -/
def execPairFrameEnd (s : State) : Outcome :=
  if s.run.judgedAhead.isSome && boundaryNow s == s.run.judgedAhead then
    .next { s with run := { s.run with judgedAhead := none } }
  else if judgesFrames s then done (endPairFrame (atPairEnd s))
  else .next s

/-! ### Resync (R266, R267, R273) -/

/-- Whether this device is the source of a partner in M6 (R266). -/
def resyncSource (s : State) : Bool :=
  pairInForce s && s.red.vaUp && s.red.partnerMode == 6 &&
    (match actingMode s with
     | .solo | .active | .standby => true
     | _ => false)

/-- The current graphics slots of a channel with their contents (R169, R266). -/
def slotsInForce (c : Nat) (s : State) : List (Nat × Nat × Bytes) × State :=
  (tgetD s.cmps c {}).g.foldl (fun a e =>
    match e.2.slot with
    | some k => let r := slotData e.2 k a.2; (a.1 ++ [(e.1, k, r.1)], r.2)
    | none => a) ([], s)

/-- The channel's bulk phase as the source sends it: the long-term slots of every context, the current graphics slots, and each
context's histories (R266). -/
def bulkOf (c : Nat) (s : State) : BulkState × State :=
  let ctxs := s.enc.ctxs.filter (fun e => e.2.channel == c)
  let (graphics, s) := slotsInForce c s
  ({ channel := c, slots := ctxs.flatMap (fun e => (tkeys e.2.slots).map (fun k => (e.1, k)))
     graphics := graphics, histories := ctxs.map (fun e => (e.1, e.2.wHist)) }, s)

/-- The small state of one context (R266). -/
def smallCtxOf (x : Nat) (c : Ctx) : SmallCtx :=
  { context := x, seqFrame := c.seqFrame, f := c.f, fullness := c.fullness, beta := c.beta, g := c.g, rateBase := c.rateBase
    pLoss := c.pLoss, slots := c.slots.map (fun e => (e.1, e.2.poc, e.2.ack)), sweepAt := c.sweepAt, nextSweep := c.nextSweep
    alf := c.alf.map (fun a => (a.apsId, a.luma, a.chroma, a.ccCb, a.ccCr, a.bytes)), wPrev := c.wPrev, wHist := c.wHist
    sizes := c.sizes.map (fun z => (z.f, z.size, z.tAvg)), nonVcl := (c.pics.head?).elim 0 (fun p => p.nonVcl) }

/-- The small state of a channel (R266). -/
def smallStateOf (s : State) (c : Nat) : SmallState :=
  let members := (tgetD s.ing.groups c {}).members
  let inputs := (members.filter (fun m => m.2.type == 1 && m.2.srcType == 2)).map (fun m => m.2.src)
  { contexts := (s.enc.ctxs.filter (fun e => e.2.channel == c)).map (fun e => smallCtxOf e.1 e.2)
    members := members.map (fun m =>
      { member := m.1, st := m.2.st, phase := m.2.phase, hold := m.2.hold, repeating := m.2.repeating, last := m.2.last })
    layers := (tgetD s.cmps c {}).v.map (fun v => { layer := v.1, repeats := v.2.repeats, held := v.2.held, image := v.2.image })
    histories := inputs.map (fun i => (i, (tgetD s.aud.ins i {}).history)) }

/-- The join frame that a source names now: the one after the first frame whose tick falls after the bulk phase (R266). -/
def joinNow (s : State) (c : Nat) : Nat := frameNow (chan s c).rate s.mtb.t + 2

/-- Whether a join frame is the one whose tick before falls first after the end of the bulk phase, the tick that may have passed while
the message was on its way included (R266). -/
def joinFits (s : State) (c frame : Nat) : Bool := frame == joinNow s c || frame + 1 == joinNow s c

/-- RESYNC_BULK_DONE (R266): a channel's bulk phase has ended and the source names its join frame. On the source the phase has been
sent, and the join frame goes after it; the other device takes the frame that it is told. -/
def execResyncBulkDone (c frame bytes : Nat) (s : State) : Outcome :=
  if resyncSource s && chanRunning s c then
    let (b, s) := bulkOf c s
    let j := joinNow s c
    .next (sendVa 5 (.join c j) (sendVa 5 (.va (.bulk b))
      { s with run := { s.run with srcJoins := tset s.run.srcJoins c j, srcSmall := s.run.srcSmall.filter (fun k => k != c) } }))
  else if s.mode.mode = .resync ∧ s.run.copying = true ∧ s.red.vaUp = true ∧ chanRunning s c = true ∧ joinFits s c frame = true then
    .next { s with run := { s.run with joins := tset s.run.joins c frame, bytes := s.run.bytes + bytes } }
  else .next s

/-- A context takes the small state of its source (R266). -/
def joinCtx (x : SmallCtx) (c : Ctx) : Ctx :=
  { c with
    seqFrame := x.seqFrame, f := x.f, fullness := x.fullness, beta := x.beta, g := x.g, rateBase := x.rateBase, pLoss := x.pLoss
    slots := x.slots.foldl (fun t e => tset t (e.1 % 4) ⟨e.2.1, e.2.2⟩) []
    sweepAt := x.sweepAt, nextSweep := x.nextSweep, alf := x.alf.map (fun a => ⟨a.1, a.2.1, a.2.2.1, a.2.2.2.1, a.2.2.2.2.1, a.2.2.2.2.2⟩), ratesAt := x.seqFrame
    wPrev := x.wPrev.foldl (fun t e => tset t e.1 e.2) []
    wHist := x.wHist.take 256
    sizes := (x.sizes.map (fun e => ⟨e.1, e.2.1, e.2.2⟩)).take 264
    restart := false }

/-- The picture of the join frame, with which a context that has its source's state goes on: what the source's frame tick made of it (R88,
R94, R96, R108, R266). -/
def joinPicture (ch : Chan) (n nonVcl : Nat) (triples : List Nat) (c : Ctx) : Ctx :=
  let starts := c.seqFrame == some n
  let at_ := sweepPosition c
  let p : Pic :=
    { frame := n, f := c.f, starts := starts, idr := starts && c.sweepAt.isNone, loss := c.pLoss == c.f && decide (0 < c.f)
      seq := c.seqFrame, sweepStart := at_ == some 0, sweep := at_
      prevSweep := if starts then none else sweepPosition { c with f := c.f - 1 }, sweepFrame := at_.map (fun i => n - i)
      ltr := if c.pLoss == c.f && decide (0 < c.f) then newestSlot c.slots (fun x => x.ack) else currentLtr c }
  let (c, p, _) := stepBudget ch n nonVcl triples c p
  { c with pics := (p :: c.pics.filter (fun q => q.frame != n)).take 3 }

/-- A member takes the state, the phase and the held share of the source's; a member fenced on this device stays so (R266). -/
def joinMember (e : SmallMember) (m : Member) : Member :=
  if m.st = 3 then m
  else { m with st := e.st % 4, phase := e.phase, hold := e.hold, repeating := e.repeating
                last := e.last.foldl (fun t l => tset t l.1 l.2) [] }

/-- A layer takes the repeat count and the picture repeated of the source's (R266). -/
def joinLayer (e : SmallLayer) (v : VLayer) : VLayer := { v with repeats := e.repeats, held := e.held, image := e.image }

/-- The converter of an input takes the history of the source's (R201, R266). -/
def joinInput (history : List (Nat × Nat × Nat)) (i : AudIn) : AudIn := { i with history := history.take 1024 }

/-- The small state of a channel installed (R266). -/
def joinChannel (c : Nat) (x : SmallState) (s : State) : State :=
  let s := x.contexts.foldl (fun s e => modCtx s e.context (fun k =>
    if k.channel = c then
      joinPicture (chan s c) (tgetD s.run.joins c 0) e.nonVcl (channelCaptions s c) (storeSets (chan s c) (joinCtx e k))
    else k)) s
  let members := fun (g : Group) => x.members.foldl (fun t e => tmod t e.member (joinMember e)) g.members
  let layers := fun (k : Cmp) => x.layers.foldl (fun t e => tmod t e.layer (joinLayer e)) k.v
  { s with
    ing := { s.ing with groups := tmod s.ing.groups c (fun g => { g with members := members g }) }
    cmps := tmod s.cmps c (fun k => { k with v := layers k })
    aud := { s.aud with ins := x.histories.foldl (fun t e => tmod t e.1 (joinInput e.2)) s.aud.ins } }

/-- The bulk phase of a channel installed: the contents of the current graphics slots and which they are, and the complexity histories;
the long-term slots come with the small state (R266). -/
def takeBulk (b : BulkState) (s : State) : State :=
  if s.mode.mode = .resync ∧ s.run.copying = true then
    let s := b.graphics.foldl (fun s e => installSlot b.channel e.1 e.2.1 e.2.2 s) s
    b.histories.foldl (fun s e => modCtx s e.1 (fun c => if c.channel = b.channel then { c with wHist := e.2.take 256 } else c)) s
  else s

/-- RESYNC_SMALL_STATE (R266): a channel's small state arrives; with the last channel the copy is complete. On the source it is the
verdict of the last row of picture j − 1, at which the small state is sent. -/
def execResyncSmallState (c bytes : Nat) (x : SmallState) (s : State) : Outcome :=
  if resyncSource s && chanRunning s c then
    .next (sendVa 5 (.small c (smallStateOf s c)) { s with run := { s.run with srcSmall := sadd s.run.srcSmall c } })
  else if s.mode.mode = .resync ∧ s.run.copying = true ∧ s.red.vaUp = true ∧ thas s.run.joins c = true ∧
      s.run.joined.contains c = false then
    let s := joinChannel c x s
    let s := { s with run := { s.run with joined := s.run.joined ++ [c], bytes := s.run.bytes + bytes } }
    if (runningChans s).all (fun k => s.run.joined.contains k) then
      .next { s with
        red := { s.red with copyBytes := s.run.bytes % 2 ^ 64
                            copyUs := min ((s.mtb.t - s.run.m6At) / usUnit) (2 ^ 32 - 1) }
        run := { s.run with copying := false } }
    else .next s
  else .next s

/-! ### Role swaps (R268, R275) -/

/-- Whether R268 allows a swap at the next frame tick of the reference channel (R254, R268, R275). -/
def swapAllowed (s : State) : Bool :=
  pairInForce s && s.red.vaUp && s.red.matchRun == 16 && !s.red.swapOff && decide (s.red.epoch < 0x3FFFFF) &&
    (match s.mode.mode with
     | .active => s.red.partnerMode == 5 && !s.red.partnerDegraded
     | .standby => s.red.partnerMode == 4 && !s.mode.degraded
     | _ => false) && (refChannel s).isSome

/-- A swap that is due and cannot be made is counted once (R268). -/
def skipSwap (s : State) : State :=
  if s.run.swapSkip then s
  else { s with red := { s.red with swapsSkipped := bump32 s.red.swapsSkipped }, run := { s.run with swapSkip := true } }

/-- MTB time at which the next periodic swap is due (R268). -/
def swapDueAt (s : State) : Nat := s.run.lastSwap + s.red.swapS * secUnit

/-- Whether periodic swaps are scheduled: on the active device of a pair, unless RED_SWAP_OFF or R254 bars them (R254, R268). -/
def swapScheduled (s : State) : Bool :=
  pairInForce s && s.mode.mode == .active && !s.red.swapOff && decide (s.red.epoch < 0x3FFFFF)

/-- ROLE_SWAP_DUE (R268): at frame tick `frame` of the reference channel; the swap frame goes to the partner (log entry 131). A swap due
that RED_SWAP_OFF or a full epoch bars is one that cannot be made, and is counted. -/
def execRoleSwapDue (frame : Nat) (s : State) : Outcome :=
  match refChannel s with
  | none => .next s
  | some c =>
    if pairInForce s && s.mode.mode == .active && s.run.swapFrame.isNone then
      let s := noEarlier (frameTickAt (chan s c).rate frame) s
      if s.mtb.t < swapDueAt s then .next s
      else if swapAllowed s then .next (sendVa 3 (.va (.swap (frame + 2))) { s with run := { s.run with swapFrame := some (frame + 2) } })
      else .next (skipSwap s)
    else .next s

/-- A swap made: counted, and the schedule restarts (R268, R273). -/
def countSwap (s : State) : State :=
  { s with
    red := { s.red with swaps := satAdd 32 s.red.swaps 1 }
    run := { s.run with lastSwap := s.mtb.t, swapFrame := none, swapSkip := false } }

/-- The swap of frame `frame` at its tick: made, or cancelled where the last 16 frames no longer matched (R13, R268). -/
def swapAt (frame : Nat) (s : State) : State :=
  let s := { s with run := { s.run with swapFrame := none, swapped := some frame } }
  if s.red.matchRun < 16 then (if s.mode.mode = .active then skipSwap s else s)
  else if s.mode.mode = .active then enterMode .standby (countSwap s)
  else enterMode .active (takeClaim true true (countSwap s))

/-- A swap at its tick, after the pair frame that ends there: what that frame makes of the mode may leave no swap to make (R14, R268). -/
def swapInTurn (frame : Nat) (s : State) : State :=
  let s := judgeAhead s
  if s.mode.mode = .active ∨ s.mode.mode = .standby then swapAt frame s
  else { s with run := { s.run with swapFrame := none } }

/-- ROLE_SWAP (R13, R268): at T_s. In M5 the frame may be the one the partner named. A frame at whose tick a swap was judged already
is not judged again. -/
def execRoleSwap (frame : Nat) (s : State) : Outcome :=
  match refChannel s with
  | none => .next s
  | some c =>
    let named := match s.run.swapFrame with | some f => f == frame | none => s.mode.mode == .standby
    if pairInForce s && named && (s.mode.mode == .active || s.mode.mode == .standby) && s.run.swapped != some frame then
      done (swapInTurn frame (noEarlier (frameTickAt (chan s c).rate frame) s))
    else .next s

/-- A role swap whose frame tick has come is made before an owner request of the same MGT cycle (R14). -/
def swapIfDue (s : State) : State :=
  match refChannel s, s.run.swapFrame with
  | some c, some f =>
    if pairInForce s && (s.mode.mode == .active || s.mode.mode == .standby) &&
        decide (frameTickAt (chan s c).rate f ≤ s.mtb.t) then swapInTurn f s else s
  | _, _ => s

/-- The triggers of R14 that come before an owner request, at the time the request is acted on: silences, the fingerprints of the pair
frame that ends, and a role swap. -/
def earlierTriggers (s : State) : State := swapIfDue (judgeAhead (silencesDue s))

/-- RED_SWAP_NOW, opcode 0x0A11 (R15, R275): held until the frame tick of the reference channel, where R268 is asked. -/
def cmdRedSwapNow (r : Req) (s : State) : State :=
  takeRequest 0x0A11 true (requestLegal .swap) r (fun p s =>
    if s.mode.held.isSome || s.run.swapAsked.isSome then busy p r 0x0A11 s
    else { s with mode := { s.mode with held := some { kind := .swap, req := r, clamped := lenClamped r } } }) s

/-- RED_SWAP_NOW (R275). -/
def execRedSwapNow (r : Req) (s : State) : Outcome := done (cmdRedSwapNow r s)

/-- The swap frame that the active device names for a request: the one already named, or two pair frames ahead; it goes to the partner
(R268, R275). -/
def nameFrame (c : Nat) (s : State) : Nat × State :=
  let n := s.run.swapFrame.getD (((chan s c).lastFrame).getD (frameNow (chan s c).rate s.mtb.t) + 2)
  (n, sendVa 3 (.va (.swap n)) { s with run := { s.run with swapFrame := some n } })

/-- The held RED_SWAP_NOW is acted on: the active device names the swap frame, a standby forwards the request and answers when the
frame comes back; where R268 allows no swap the answer is NOT_READY (R275). -/
def nameSwap (h : Held) (s : State) : State :=
  match refChannel s with
  | none => replyTo h.req 0x0A11 .notReady false [] s
  | some c =>
    if swapAllowed s = false then replyTo h.req 0x0A11 .notReady false [] s
    else if s.mode.mode = .standby then sendVa 3 (.va .swapAsk) { s with run := { s.run with swapAsked := some h } }
    else
      let (n, s) := nameFrame c s
      replyTo h.req 0x0A11 .ok h.clamped (le 4 n) s

/-- The answer to a RED_SWAP_NOW that was forwarded: OK with the swap frame, or NOT_READY (R275). -/
def answerSwap (frame : Option Nat) (s : State) : State :=
  match s.run.swapAsked with
  | none => s
  | some h =>
    let s := { s with run := { s.run with swapAsked := none } }
    match frame with
    | some n => replyTo h.req 0x0A11 .ok h.clamped (le 4 n) s
    | none => replyTo h.req 0x0A11 .notReady false [] s

/-- A swap frame named by the active device (R268, R275). -/
def takeSwapFrame (n : Nat) (s : State) : State :=
  answerSwap (some n) (if s.mode.mode = .standby then { s with run := { s.run with swapFrame := some n } } else s)

/-- A RED_SWAP_NOW that the standby forwards: the active device names the frame, or refuses (R275). -/
def takeSwapAsk (s : State) : State :=
  match refChannel s with
  | some c => if s.mode.mode = .active ∧ swapAllowed s = true then (nameFrame c s).2 else sendVa 3 (.va .swapRefused) s
  | none => sendVa 3 (.va .swapRefused) s

/-! ### The merge stage (R234, R256, R257, R269) -/

/-- The smallest of a list of times. -/
def earliest : List Nat → Option Nat
  | [] => none
  | a :: l => some (l.foldl min a)

/-- The time at which the flow's previous switch unit counts as arrived from the partner, seen from a switch point: the arrival of its
last packet, VA going down, the arrival of any packet of a later unit, or the time of the switch point after the first that the claims
selected (R257). -/
def arrivedAt (s : State) (l : Leg) (unit : Nat) : Option Nat :=
  earliest ((l.doneAt.filter (fun e => decide (unit ≤ e.1 + 1))).map (fun e => e.2) ++
    (l.seenAt.filter (fun e => decide (unit ≤ e.1))).map (fun e => e.2) ++
    (if s.red.vaUp then [] else [s.red.vaDownAt]) ++ l.nextPointAt.toList)

/-- Whether a switch point lies at least 4 µs after both the claims and the arrival (R257). -/
def switchesAt (s : State) (l : Leg) (time unit : Nat) : Bool :=
  decide (l.wantAt + 4 * usUnit ≤ time) &&
    (match arrivedAt s l unit with | some a => decide (a + 4 * usUnit ≤ time) | none => false)

/-- A switch point that changes nothing is noted: the first after the claims, and the time of the next (R257). -/
def notePoint (time unit : Nat) (l : Leg) : Leg :=
  match l.wantPoint with
  | none => if l.wantAt + 4 * usUnit ≤ time then { l with wantPoint := some unit } else l
  | some p => if p < unit ∧ l.nextPointAt = none then { l with nextPointAt := some time } else l

/-- MERGE_SWITCH (R257): switch point `unit` of a leg, whose emission or queue time is `time`. -/
def execMergeSwitch (k time unit : Nat) (s : State) : Outcome :=
  match tget s.egr.legs k with
  | none => .next s
  | some l =>
    match l.want with
    | none => .next s
    | some w =>
      if pairInForce s && ticking s && switchesAt s l time unit then
        .next (modLeg s k (fun l => { l with
          src := w, want := none, wantPoint := none, nextPointAt := none, forwarded := false
          running := l.running && (w == .device || s.red.claim != 0) }))
      else .next (modLeg s k (notePoint time unit))

/-- The RTP timestamp this device computes for a packet of a switch unit; none for a transport stream, whose RTP timestamps no rule
states (R218, R222). -/
def ownTimestamp (s : State) (l : Leg) (unit : Nat) : Option Nat :=
  let ch := chan s l.channel
  let c := tgetD s.enc.ctxs l.source {}
  let frame := if ch.frameMode then unit else unit / ctuRows c.raster
  if l.kind = 0 then some (90000 * frame * rateD ch.rate / rateN ch.rate % 2 ^ 32)
  else if l.kind = 1 then none
  else some (unit * packetSamples (programme s l.source) % 2 ^ 32)

/-- The PTS this device computes for a slice flow's packet (R220). -/
def ownPts (s : State) (l : Leg) (unit : Nat) : Nat :=
  let ch := chan s l.channel
  let c := tgetD s.enc.ctxs l.source {}
  ptsOf ch c (if ch.frameMode then unit else unit / ctuRows c.raster)

/-- Whether a packet's slice payload gives this device's output fingerprint: judged where both are known and SRTP does not hide it
(R269). -/
def payloadAgrees (s : State) (l : Leg) (q : PairPacket) : Option Bool :=
  let ch := chan s l.channel
  let rows := ctuRows (tgetD s.enc.ctxs l.source {}).raster
  match q.rowPrint with
  | none => none
  | some (row, v) =>
    if l.srtpKey.isSome || !sliceLeg l then none
    else
      let frame := if ch.frameMode then q.unit else q.unit / rows
      (s.run.recent.find? (fun f => f.stream == .output l.source frame row)).map (fun f => f.value == v)

/-- Whether one packet forwarded fails a check of R269. -/
def transportFails (s : State) (l : Leg) (q : PairPacket) : Bool :=
  (l.forwarded && q.seq % 65536 != l.seq) ||
    (match ownTimestamp s l q.unit with | some t => q.timestamp % 2 ^ 32 != t | none => false) ||
    (match q.pts with | some t => l.kind == 1 && t % 2 ^ 33 != ownPts s l q.unit | none => false) ||
    payloadAgrees s l q == some false

/-- The transport state read from a packet that the merge stage forwards; it then waits for its gate (R234). -/
def readTransport (q : PairPacket) (l : Leg) : Leg :=
  { l with
    forwarded := true
    seq := (q.seq + 1) % 65536
    roc := if l.srtpKey.isSome then (if q.seq % 65536 = 65535 then (q.roc + 1) % 2 ^ 32 else q.roc % 2 ^ 32) else l.roc
    lastTs := q.timestamp % 2 ^ 32
    cc := q.pids.foldl (fun t e => tset t e.1 (e.2 % 16)) l.cc
    fecRow := if l.fec = 0 then l.fecRow else (q.fecRow + 1) % max 1 (l.fecL * l.fecD)
    srCount := q.srCount
    fwd := l.fwd ++ [q] }

/-- A packet of the partner that has been forwarded goes out at once where nothing waits ahead of it, its gate lets it start and the port is
not paused; otherwise it waits for a turn of its port (R234, R319). -/
def passAtOnce (k : Nat) (q : PairPacket) (s : State) : State :=
  match tget s.egr.legs k with
  | none => s
  | some l =>
    let c := (egrGroup s l.group).cls
    if l.fwd.length == 1 && portSends s l.port && gateAllows s l.port c q.length then turnForwarded l.port c k l q s else s

/-- The later of a unit seen and one that arrives. -/
def laterUnit (x : Option Nat) (u : Nat) : Option Nat := some (max u (x.getD u))

/-- A time noted for a switch unit, the first of each; the latest eight units are kept (R257). -/
def noteUnit (unit now : Nat) (t : Tab Nat) : Tab Nat :=
  if thas t unit then t else let t := tset t unit now; t.drop (t.length - 8)

/-- A packet of the partner noted for the switch points (R257). -/
def noteArrival (now : Nat) (q : PairPacket) (l : Leg) : Leg :=
  { l with seenUnit := laterUnit l.seenUnit q.unit, doneUnit := if q.last then laterUnit l.doneUnit q.unit else l.doneUnit
           seenAt := noteUnit q.unit now l.seenAt, doneAt := if q.last then noteUnit q.unit now l.doneAt else l.doneAt }

/-- PARTNER_PACKET_RECEIVE (R234, R256, R269): noted for the switch points, and forwarded and checked where the leg takes the
partner. -/
def execPartnerPacketReceive (k : Nat) (q : PairPacket) (s : State) : Outcome :=
  match tget s.egr.legs k with
  | none => .next s
  | some l =>
    if pairInForce s && s.red.vaUp && ticking s && l.st == 1 then
      let s := modLeg s k (noteArrival s.mtb.t q)
      if l.src = .partner then
        let bad := transportFails s l q
        let s := passAtOnce k q (modLeg s k (readTransport q))
        let s := setHealth s (fun h => { h with
          xChecked := bump32 h.xChecked, xErrors := if bad then bump32 h.xErrors else h.xErrors })
        if bad then done (raise 0x060 0 { s with red := { s.red with xportErrors := bump32 s.red.xportErrors } })
        else .next s
      else .next s
    else .next s

/-! ### Forwarded changes (R264, R265) -/

/-- The request or host item behind a forwarded change, once its target is known (R264). -/
def answerForward (f : Option Fwd) (frame : Nat) (s : State) : State :=
  match f with
  | none => s
  | some f =>
    match f.item, f.req with
    | some k, _ => itemDecided k frame f.change s
    | none, some r => replyTo r f.opcode .ok f.clamped (f.data ++ le 4 frame) s
    | none, none => s

/-- A change that the partner forwarded is decided here: a flip after its slot's copy, any other change at once (R264, R265). -/
def decideForwarded (c target : Nat) (ch : Chan) (change : ShadowChange) (s : State) : State :=
  let t := targetFrame s ch target
  match change with
  | .graphics l v pos (some k) =>
    startCopy c l k { change := .graphics l v pos (some k), target := t.1, missed := t.2 } s
  | _ => commitBoth c t.1 t.2 change none s

/-- A shaper change that the active device forwarded: it applies at this device's own next sample tick (R229). -/
def takeRate (k rate depth : Nat) (s : State) : State :=
  if ticking s then
    modLeg s k (fun l => if l.st = 1 ∧ sliceLeg l = false then
      { l with change := some ⟨clamp l.minRate l.maxRate rate, clamp 1542 16777216 depth, nextSample s.mtb.t⟩ } else l)
  else s

/-- A gate list that the active device forwarded: it starts at the same absolute time (R233). -/
def takeGates (p cycle base start : Nat) (entries : List (Nat × Nat)) (s : State) : State :=
  if egressRuns s.mode.mode then
    setEgrPort s p (fun x => { x with nextGates := some { cycle := cycle, base := base, start := start, entries := entries } })
  else s

/-- A change forwarded, or a commit that comes back (R42, R264). -/
def receiveChange (c target : Nat) (change : ShadowChange) (s : State) : Outcome :=
  match tget s.enc.chans c with
  | none => .next s
  | some ch =>
    if pairInForce s && s.red.vaUp && ticking s && ch.st == 1 then
      if decides s then done (decideForwarded c target ch change s)
      else
        let t := resolveTarget (openFrame s ch) (target % 2 ^ 32)
        let (f, rest) := takeForward c change s.run.forwards
        let s := { s with run := { s.run with forwards := rest } }
        done (answerForward f t.1 (commitAt c t.1 t.2 change (f.bind (fun f => f.item)) s))
    else .next s

/-- FORWARDED_CHANGE_RECEIVE (R42, R229, R233, R264): the deciding device names the target and commits on both; on the other device it
is the commit that comes back, late when its guard has passed. Shaper and gate changes are taken as they come. -/
def execForwardedChangeReceive (c target : Nat) (change : ShadowChange) (s : State) : Outcome :=
  if pairInForce s && s.red.vaUp then
    match change with
    | .rate k rate depth => .next (takeRate k rate depth s)
    | .gates p cycle base start entries => .next (takeGates p cycle base start entries s)
    | change => receiveChange c target change s
  else .next s

/-! ### Health reports and registers (R270, R273, R274) -/

/-- RED_ROLE (R273). -/
def redRole (s : State) : Nat :=
  if !s.red.paired then 0
  else
    match actingMode s with
    | .active => 1
    | .standby => 2
    | .resync => 3
    | _ => 0

/-- Whole seconds since the last swap or promotion (R270). -/
def sinceSwap (s : State) : Nat := (s.mtb.t - s.run.lastSwap) / secUnit

/-- The health report of the second that has just ended (Table 5 of the pair chapter). -/
def healthReport (s : State) : Bytes :=
  let h := s.run.health
  let flags := packWord [(b2n s.red.vaUp, 0), (b2n (heartbeatPresent s), 1), (b2n s.red.split, 2), (b2n s.mode.degraded, 3),
    (b2n s.red.partnerDegraded, 4)]
  le 4 (secOf s.mtb.t) ++ le 1 (redRole s) ++ le 1 s.red.matchRun ++ le 2 flags ++ le 4 h.inCompared ++ le 4 h.inMismatch ++
    le 4 h.outCompared ++ le 4 h.outMismatch ++ le 4 h.missing ++ le 4 h.xChecked ++ le 4 h.xErrors ++ le 4 (sinceSwap s) ++
    le 4 s.red.claim ++ le 4 s.red.partnerClaim ++ le 4 h.vaRetries ++ zeros 12

/-- The whole second of a paired device: the report is written, sent to the owner where RED_HEALTH_EVT is 1, and sent to the partner
(R270). -/
def healthSecond (s : State) : State :=
  if !s.red.paired then s
  else
    let b := healthReport s
    let s := { s with run := { s.run with own := b, health := {} } }
    let s := if s.red.healthEvt then sendEvent 0 0x0D42 b s else s
    sendVa 3 (.va (.health b)) s

/-- RED_NEXT_SWAP_S (R273). -/
def nextSwapS (s : State) : Nat := if swapScheduled s then s.red.swapS - sinceSwap s else 0

/-- The sixteen words at 0x9000 to 0x903C (Table 8 of the pair chapter). -/
def pairWords (s : State) : List Nat :=
  let r := s.red
  [packWord [(redRole s, 0), (b2n r.vaUp, 2), (b2n (heartbeatPresent s), 3), (b2n r.partnerDegraded, 4), (b2n r.split, 5),
     (b2n r.yielded, 6), (b2n r.clash, 7), (b2n (r.epoch == 0x3FFFFF), 8), (r.matchRun, 9), (r.partnerMode, 16)],
   r.claim, r.partnerClaim, r.epoch, r.promotions, r.swaps, r.resyncs, r.outMismatchFrames, r.inMismatchFrames, r.missing,
   r.xportErrors, r.swapsSkipped, nextSwapS s, loWord r.copyBytes, hiWord r.copyBytes, r.copyUs]

/-- RED_PAIR_INFO, opcode 0x0A10 (R72, R274). -/
def cmdRedPairInfo (r : Req) (s : State) : State :=
  takeRequest 0x0A10 true infoLegal r (fun p s =>
    reply p r 0x0A10 .ok (lenClamped r) ((pairWords s).foldl (fun a w => a ++ le 4 w) [] ++ fit 64 s.run.partner) s) s

/-- RED_PAIR_INFO (R274). -/
def execRedPairInfo (r : Req) (s : State) : Outcome := done (cmdRedPairInfo r s)

end Sys2Proof.Machine
end

