-- ==== Sys2Proof/Machine/Dispatcher.lean ====
section
/-! DEFINITION. The Privet dispatcher and the Box cores: pools, postings, cores that take and finish items, deadlines, back-pressure,
quotas, and the host item classes (chapter 13). -/

namespace Sys2Proof.Machine

/-! ### Box cores (R276, R278) -/

/-- BOX_CORE_SELFTEST_DONE (R276): the 16 lowest passing cores serve, every other is live; fewer than 17 is a fault at 7. -/
def execBoxCoreSelftestDone (passing : List Nat) (s : State) : Outcome :=
  if s.mode.mode = .configure ∧ s.mode.admitted = false then
    let ok := (List.range 128).filter (fun k => passing.contains k)
    let s := setPvd s (fun p => { p with
      passing := ok.length
      cores := (ok.zip (List.range ok.length)).map (fun e => (e.1, { live := decide (16 ≤ e.2) })) })
    done (if ok.length < 17 then raise 0x08D 0 s else s)
  else .next s

/-- PVD_BELOW_GUARANTEE (R278). -/
def belowGuarantee (s : State) : Bool := decide ((liveCores s).length < 108)

/-! ### The dispatcher's charge (R288) -/

/-- Box-core cycles per row tick of a context (R288). -/
def ctxCycles (c : Ctx) : Nat :=
  12000 * tileCols c.raster + 40000 +
    ceilDiv (4000000 + 200000 * b2n c.captions + 100000 * b2n (c.rcMode == 1)) (ctuRows c.raster)

/-- Cycles per second of a load per row tick on a lattice, rounded up (R288). -/
def perSecond (raster rate load : Nat) : Nat := ceilDiv (load * rateN rate * totalLines raster) (rateD rate * 64)

/-- The dispatcher charge of a channel (R288). -/
def channelCycles (s : State) (c : Nat) : Nat :=
  let ch := chan s c
  let ctxs := ch.ctxs.filterMap (fun x => tget s.enc.ctxs x)
  let programmes := (s.aud.programmes.filter (fun p => p.2.channel == c)).length
  let rtcp := (s.egr.legs.filter (fun l => l.2.channel == c && l.2.rtcp)).length
  sumOf (ctxs.map (fun x => perSecond x.raster ch.rate (ctxCycles x))) +
    programmes * perSecond ch.raster ch.rate (ceilDiv 150000 (ctuRows ch.raster)) + 500000 * rtcp

/-- The limit: 0.70 of the cores that passed, at 990 MHz (R288). -/
def cycleLimit (s : State) : Nat := s.pvd.passing * 693000000

/-- Whether a channel's charge fits beside those admitted (R288). -/
def dispatcherFits (s : State) (c : Nat) : Bool := decide (s.pvd.admitted + channelCycles s c ≤ cycleLimit s)

/-- A channel's charge taken (R288). -/
def takeDispatcher (c : Nat) (s : State) : State := setPvd s (fun p => { p with admitted := p.admitted + channelCycles s c })

/-! ### Posting and back-pressure (R279, R287) -/

/-- The ready queues that work in the present mode (Table 1 of the dispatcher chapter). -/
def queueMay (s : State) (q : Nat) : Bool :=
  match actingMode s with
  | .solo | .active | .standby | .resync => true
  | .configure | .quiescent | .service => decide (q ≤ 31)
  | _ => false

/-- Whether a target is above its high watermark: 64 is the wait store (R287). -/
def aboveHigh (s : State) (q : Nat) : Bool := if q = 64 then decide (250000 ≤ waitDepth s) else decide (896 ≤ queueLen s q)

/-- Whether a target has fallen to its low watermark (R287). -/
def atLow (s : State) (q : Nat) : Bool := if q = 64 then decide (waitDepth s ≤ 200000) else decide (queueLen s q ≤ 640)

/-- The modes in which the dispatcher works: M9 holds its state, and in M0, M1 and M11 it is reset or halted (Table 1 of the dispatcher
chapter). -/
def dispatcherMay (s : State) : Bool :=
  match actingMode s with
  | .solo | .active | .standby | .resync | .configure | .quiescent | .service => true
  | _ => false

/-- The entries of the wait store: on the die and in HBM (R281). -/
def waitStoreSize : Nat := 16384 + 262144

/-- A posted item enters the dispatcher (R279). -/
def enterItem (w : WorkItem) (s : State) : State :=
  submit { cls := w.cls % 128, flow := min w.flow 4079, counter := w.counter.map (fun k => k % 65536), deadline := w.deadline
           payload := w.payload / 16 * 16 % 2 ^ 36, queue := w.queue % 64, decrements := w.decrements.take 4 } s

/-- The items that wait in the post buffer of a producer; those of firmware where there is none (R287). -/
def heldPosts (s : State) (producer : Option Nat) : List WorkItem := s.pvd.posts.filter (fun w => w.producer == producer)

/-- The target that holds a posting back, if one does: for a hardware producer its queue or the wait store above its watermark, for
firmware the wait store without a free entry (R281, R287; log entry 146). -/
def blocker (s : State) (w : WorkItem) : Option Nat :=
  if w.producer.isSome then ([w.queue % 64, 64].filter (fun k => s.pvd.stalled.contains k || aboveHigh s k)).head?
  else if waitStoreSize ≤ waitDepth s then some 64 else none

/-- A posting held back by a target: it waits behind those of its producer. Where this is a new stall of a hardware producer it is
reported and counted (R287). -/
def holdPost (w : WorkItem) (q : Nat) (fresh : Bool) (s : State) : State :=
  let s := setPvd s (fun p => { p with stalled := sadd p.stalled q, posts := p.posts ++ [w] })
  if fresh && w.producer.isSome then raise 0x063 q (setPvd s (fun p => { p with wmarkHits := bump32 p.wmarkHits })) else s

/-- WORK_ITEM_POST (R279, R287): a hardware producer stalls while its target is above its high watermark; its items then wait in its post
buffer of 8 entries, and with that full it posts nothing more. -/
def execWorkItemPost (w : WorkItem) (s : State) : Outcome :=
  if queueMay s (w.queue % 64) then
    let held := heldPosts s w.producer
    match held.head?, blocker s w with
    | none, none => done (enterItem w s)
    | none, some q => done (holdPost w q true s)
    | some v, b =>
      if w.producer.isSome && decide (8 ≤ held.length) then .next s
      else done (holdPost w ((b.orElse (fun _ => blocker s v)).getD 64) false s)
  else .next s

/-- The postings of a stall, oldest first, each taken in while neither a target nor an older posting of its producer holds it back; one
that a target above its high watermark holds back anew stalls again (R287). -/
def releasePosts : List WorkItem → State → State
  | [], s => s
  | w :: l, s =>
    match heldPosts s w.producer, blocker s w with
    | [], none => releasePosts l (enterItem w s)
    | [], some q => releasePosts l (holdPost w q (!s.pvd.stalled.contains q) s)
    | _ :: _, _ => releasePosts l (setPvd s (fun p => { p with posts := p.posts ++ [w] }))

/-- PRODUCER_STALL_RELEASE (R287): a target has fallen to its low watermark, and the postings that it held back go on. -/
def execProducerStallRelease (q : Nat) (s : State) : Outcome :=
  if s.pvd.stalled.contains q && atLow s q && dispatcherMay s then
    done (releasePosts s.pvd.posts (setPvd s (fun p => { p with stalled := sdel p.stalled q, posts := [] })))
  else .next s

/-! ### Counters and the wait store (R279 to R281) -/

/-- COUNTER_ARM (R280). -/
def execCounterArm (k value : Nat) (s : State) : Outcome :=
  let k := k % 65536
  if dispatcherMay s = false then .next s
  else if tgetD s.pvd.counters k 0 ≠ 0 then done (counterFault k s)
  else if value % 65536 = 0 then .next s
  else .next (setPvd s (fun p => { p with counters := tset p.counters k (value % 65536) }))

/-- The item of a flow and sequence. -/
def itemAt (s : State) (flow seq : Nat) : Option Item := s.pvd.items.find? (fun i => i.flow == flow && i.seq == seq)

/-- PARKED_ITEM_WAKE (R279): the deadline of a parked item comes within 32,000 µs. -/
def execParkedItemWake (flow seq : Nat) (s : State) : Outcome :=
  match itemAt s flow seq with
  | none => .next s
  | some i =>
    if i.place = .parked ∧ dispatcherMay s = true then
      let s := noEarlier (i.deadline * deadlineUnit - 32000 * usUnit) s
      done (promote (setItem s i.order (fun i => { i with place := .waiting })))
    else .next s

/-! ### Cores take and finish items (R277, R283, R285, R286) -/

/-- Whether a core runs in the present mode: in M7 the 8 lowest service cores, in M9 none (Table 1 of the dispatcher chapter). -/
def coreMay (s : State) (k : Nat) : Bool :=
  match actingMode s with
  | .solo | .active | .standby | .resync | .configure | .service => true
  | .quiescent => ((serviceCores s).take 8).contains k
  | _ => false

/-- The difference of a deadline field from the present, as the signed 16-bit number that the dispatcher compares (R279). -/
def dueIn (now deadline : Nat) : Int :=
  let d := (deadline % 65536 + 65536 - now % 65536) % 65536
  if d < 32768 then d else (d : Int) - 65536

/-- Whether an item comes before another of its candidates: earlier deadline, then higher queue, lower flow, lower sequence; `now` is
the present in units of a deadline (R279, R283). -/
def comesFirst (now : Nat) (a b : Item) : Bool :=
  if dueIn now a.deadline ≠ dueIn now b.deadline then decide (dueIn now a.deadline < dueIn now b.deadline)
  else if a.queue ≠ b.queue then decide (b.queue < a.queue)
  else if a.flow ≠ b.flow then decide (a.flow < b.flow)
  else decide (a.seq < b.seq)

/-- The first of some items. -/
def firstItem (now : Nat) : List Item → Option Item
  | [] => none
  | i :: l =>
    match firstItem now l with
    | none => some i
    | some j => if comesFirst now i j then some i else some j

/-- The items in a ready queue. -/
def queueItems (s : State) (q : Nat) : List Item := s.pvd.items.filter (fun i => i.place == .queued q)

/-- The item a core takes next (R283). -/
def nextItem (s : State) (k : Nat) (c : Core) : Option Item :=
  let qs := (List.range 64).filter (fun q => queueMay s q)
  let now := s.mtb.t / deadlineUnit
  if c.live then firstItem now ((qs.filter (fun q => decide (48 ≤ q))).flatMap (queueItems s))
  else
    let full := (qs.filter (fun q => decide (q < 48))).filter (fun q => !(queueItems s q).isEmpty)
    let lowest := (serviceCores s).head? == some k && c.took == 15
    match (if lowest then full.head? else full.getLast?) with
    | some q => firstItem now (queueItems s q)
    | none => none

/-- CORE_TAKE_ITEM (R277, R283). -/
def execCoreTakeItem (k : Nat) (s : State) : Outcome :=
  match tget s.pvd.cores k with
  | none => .next s
  | some c =>
    if c.busy.isSome || !coreMay s k then .next s
    else
      match nextItem s k c with
      | none => .next s
      | some i =>
        let s := setItem s i.order (fun i => { i with place := .running k })
        .next (promote (setCore s k (fun c =>
          { c with busy := some (i.flow, i.seq), since := s.mtb.t, startedAt := s.mtb.t
                   took := if (serviceCores s).head? = some k then (c.took + 1) % 16 else 0 })))

/-- WORK_ITEM_COMPLETE (R284, R286): the core is free; the item is released in its flow's order, or retried. The results of an item
discarded while it ran are dropped (R285). -/
def execWorkItemComplete (k : Nat) (retry : Bool) (s : State) : Outcome :=
  match runsOn s k with
  | none => if coreMay s k then .next (freeCore k s) else .next s
  | some i =>
    if coreMay s k = false then .next s
    else
      let s := freeCore k s
      if retry then done (retryItem i s)
      else done (release i.flow (setItem s i.order (fun i => { i with place := .done })))

/-- RETRY_BACKOFF_EXPIRY (R286). -/
def execRetryBackoffExpiry (flow seq : Nat) (s : State) : Outcome :=
  match itemAt s flow seq with
  | none => .next s
  | some i =>
    if i.place = .backoff ∧ dispatcherMay s = true then .next (promote (setItem (noEarlier i.retryAt s) i.order (fun i => { i with place := .waiting })))
    else .next s

/-- 40,000 Box-core cycles at 990 MHz (R277). -/
def watchdogTime : Nat := 40000 * secUnit / 990000000

/-- ITEM_WATCHDOG (R277): the item that runs beyond 40,000 cycles is stopped, reported and retried; one discarded at its deadline while it
ran is stopped and reported (R285). -/
def execItemWatchdog (k : Nat) (s : State) : Outcome :=
  match tget s.pvd.cores k with
  | none => .next s
  | some c =>
    if c.busy.isNone || !coreMay s k then .next s
    else
      let s := noEarlier (c.startedAt + watchdogTime) s
      let s := setPvd s (fun p => { p with wdogTrips := bump32 p.wdogTrips })
      done (raise 0x064 k (dropCoreItem k s))

/-- WORK_ITEM_DEADLINE (R285): an item of queues 48 to 63 that has not completed is discarded and counted, queued or running. -/
def execWorkItemDeadline (flow seq : Nat) (s : State) : Outcome :=
  match itemAt s flow seq with
  | none => .next s
  | some i =>
    if 48 ≤ i.queue ∧ i.place ≠ .done ∧ dispatcherMay s = true then
      let s := noEarlier (i.deadline * deadlineUnit) s
      done (emptyItem i (setPvd s (fun p => { p with discards := bump32 p.discards })))
    else .next s

/-- The busy share of a pool over the second that ends, per mille (R296). -/
def busyShare (busy cores : Nat) : Nat := if cores = 0 then 0 else min 1000 (1000 * busy / (cores * secUnit))

/-- PVD_LIVE_UTIL and PVD_SVC_UTIL at a whole second (R296). -/
def utilSecond (s : State) : State :=
  let s := (tkeys s.pvd.cores).foldl (fun s k => noteBusy k s) s
  setPvd s (fun p => { p with
    liveUtil := busyShare p.liveBusy (liveCores s).length, svcUtil := busyShare p.svcBusy (serviceCores s).length
    liveBusy := 0, svcBusy := 0 })

/-! ### Quotas (R290, R295) -/

/-- RATE_QUOTA_PERIOD (R290): a frame period of the lowest-numbered running channel, or 10 ms of MTB, is over. -/
def execRateQuotaPeriod (s : State) : Outcome :=
  if alive s.mode.mode then
    let (s, n) := atBoundary s.pvd.periodAt s
    .next (setPvd s (fun p => { p with periodAt := some n, quotas := tmap p.quotas (fun _ q => { q with used := 0 }) }))
  else .next s

/-- The partitions that quota records of the image name. -/
def quotaNamed (s : State) : List Nat :=
  (List.range 16).filter (fun p => inImage s 0x0E01 (fun b => decide (8 ≤ b.length) && clamp 0 15 (u8 b 0) == p))

/-- The largest quota a record may still take: the partitions without a record first, then the records before it, and 1 for every
later partition (R295). -/
def quotaRoom (s : State) (p : Nat) : Nat :=
  let named := quotaNamed s
  let taken := named.filter (fun k => (quota s k).taken)
  let later := named.filter (fun k => !(quota s k).taken && k != p)
  2048 - (16 * (16 - named.length) + sumOf (taken.map (fun k => (quota s k).quota)) + later.length)

/-- The partition quota record, type 0x0E01 (R295). -/
def recPartitionQuota (b : Bytes) (s : State) : State :=
  sized 8 b (fun s =>
    let p := clamp 0 15 (u8 b 0)
    if (quota s p).taken then orphan s
    else
      let asked := orDefault (u16 b 2) 16 1 256
      applied (setQuota s p (fun q => { q with
        taken := true, quota := min asked (quotaRoom s p), rate := orDefault (u16 b 4) 8 1 1024 }))) s

/-- PARTITION_QUOTA_RECORD (R295). -/
def execPartitionQuotaRecord (b : Bytes) (s : State) : Outcome := recordCommand 0x0E01 b recPartitionQuota s

/-! ### Host work items (R289 to R292) -/

/-- The items of a partition in flight (R290). -/
def inFlight (s : State) (p : Nat) : Nat :=
  (s.pvd.items.filter (fun i => match i.host with | some h => h.partition == p | none => false)).length

/-- A submission for a channel that runs, accepted unless the wait store or the partition's quota is full (R287, R290, R291; log
entry 16). -/
def submitHost (p cls : Nat) (r : Req) (c named : Nat) (change : ShadowChange) (clamped : Bool) (s : State) : State :=
  match tget s.enc.chans c with
  | none => reply p r 0x0E10 .notReady false [] s
  | some ch =>
    if ch.st ≠ 1 then reply p r 0x0E10 .notReady false [] s
    else if 250000 ≤ waitDepth s ∨ (quota s p).quota ≤ inFlight s p then
      let s := setQuota s p (fun q => { q with busy := bump32 q.busy })
      reply p r 0x0E10 .busy false (le 4 (retryHint s p)) s
    else
      let t := resolveTarget (openFrame s ch) (named % 2 ^ 32)
      let time := match change with
        | .sei _ _ _ => seiDeadline ch t.1
        | _ => guardAt ch.raster ch.rate t.1
      let excess := decide ((quota s p).rate ≤ (quota s p).used)
      let s := setQuota s p (fun q => { q with
        used := q.used + 1, submitted := bump32 q.submitted, rateExcess := if excess then bump32 q.rateExcess else q.rateExcess })
      submit { cls := cls, flow := 4080 + p, deadline := deadlineOf time, queue := if excess then 7 else 32 + p
               payload := Config.hostPayload s.pvd.order / 16 * 16 % 2 ^ 36
               host := some { req := r, partition := p, channel := c, target := t.1, missed := t.2, change := change
                              clamped := clamped } } s

/-- The class payload of a PVD_SUBMIT: the bytes behind its 4-byte head, missing ones zero (R289). -/
def classPayload (r : Req) : Bytes := ((payloadOf r).drop 4).take (u16 (payloadOf r) 2)

/-- A reference action, class 0x80 (R102): 1 acknowledges, 2 reports a loss. -/
def cmdReferenceAction (loss : Bool) (r : Req) (s : State) : State :=
  takeRequest 0x0E10 false changeLegal r (fun p s =>
    let b := classPayload r
    let x := f8 b 0 0 127
    if !ownsCtx s p x.val then reply p r 0x0E10 .notInPartition false [] s
    else
      match chanOfCtx s x.val with
      | none => reply p r 0x0E10 .notReady false [] s
      | some c =>
        let clamped := x.clamped || u8 b 1 == 0 || decide (2 < u8 b 1) || lenClamped r
        let k := tgetD s.enc.ctxs x.val {}
        let change := if !k.feedback.testBit 3 then .nothing
          else if loss then .loss x.val else .acknowledge x.val (u32 b 4)
        submitHost p 0x80 r c 0 change clamped s) s

/-- REFERENCE_ACTION_ACK (R102). -/
def execReferenceActionAck (r : Req) (s : State) : Outcome := done (cmdReferenceAction false r s)

/-- REFERENCE_ACTION_LOSS (R102). -/
def execReferenceActionLoss (r : Req) (s : State) : Outcome := done (cmdReferenceAction true r s)

/-- The position of an overlay update, held to even values inside the picture; none to keep it (R182). -/
def overlayPosition (s : State) (c v : Nat) : Option Nat × Bool :=
  if v = 0xFFFFFFFF then (none, false)
  else
    let x := evenIn 0 (activeW (chan s c).raster - 2) (v % 65536)
    let y := evenIn 0 (activeH (chan s c).raster - 2) (v / 65536)
    (some (x + 65536 * y), x + 65536 * y != v)

/-- An overlay update, class 0x81 (R182). An index with no record is NOT_READY (log entry 16). -/
def cmdOverlayUpdate (graphics : Bool) (r : Req) (s : State) : State :=
  takeRequest 0x0E10 false changeLegal r (fun p s =>
    let b := classPayload r
    let c := f8 b 0 0 63
    if !ownsChannel s p c.val then reply p r 0x0E10 .notInPartition false [] s
    else
      let base := c.clamped || u8 b 1 == 0 || decide (2 < u8 b 1) || lenClamped r
      if graphics then
        let l := f8 b 2 0 7
        let v := f8 b 3 0 1
        let pos := overlayPosition s c.val (u32 b 4)
        let slot := if u8 b 12 ≤ 1 then some (u8 b 12) else none
        let clamped := base || l.clamped || v.clamped || pos.2 || (decide (2 ≤ u8 b 12) && u8 b 12 != 255)
        if !thas (cmp s c.val).g l.val then reply p r 0x0E10 .notReady false [] s
        else submitHost p 0x81 r c.val (u32 b 8) (.graphics l.val (v.val == 1) pos.1 slot) clamped s
      else
        let k := f8 b 2 0 15
        if !thas (cmp s c.val).regions k.val then reply p r 0x0E10 .notReady false [] s
        else submitHost p 0x81 r c.val (u32 b 8) (.expected k.val (u32 b 4)) (base || k.clamped) s) s

/-- OVERLAY_UPDATE_GRAPHICS (R182). -/
def execOverlayUpdateGraphics (r : Req) (s : State) : Outcome := done (cmdOverlayUpdate true r s)

/-- OVERLAY_UPDATE_EXPECTED (R182). -/
def execOverlayUpdateExpected (r : Req) (s : State) : Outcome := done (cmdOverlayUpdate false r s)

/-- A splice insertion, class 0x82 (R237). -/
def cmdSpliceInsertion (r : Req) (s : State) : State :=
  takeRequest 0x0E10 false changeLegal r (fun p s =>
    let b := classPayload r
    let k := f16 b 0 0 4095
    if !ownsLeg s p k.val then reply p r 0x0E10 .notInPartition false [] s
    else
      match tget s.egr.legs k.val with
      | none => reply p r 0x0E10 .notReady false [] s
      | some l =>
        let n := f16 b 8 16 1024
        submitHost p 0x82 r l.channel (u32 b 4) (.splice k.val (bitOf (u8 b 2) 0) (bytesAt b 12 n.val))
          (k.clamped || n.clamped || lenClamped r) s) s

/-- SPLICE_INSERTION (R237). -/
def execSpliceInsertion (r : Req) (s : State) : Outcome := done (cmdSpliceInsertion r s)

/-- An SEI insertion, class 0x83 (R292). -/
def cmdSeiInsertion (r : Req) (s : State) : State :=
  takeRequest 0x0E10 false changeLegal r (fun p s =>
    let b := classPayload r
    let x := f8 b 0 0 127
    if !ownsCtx s p x.val then reply p r 0x0E10 .notInPartition false [] s
    else
      match chanOfCtx s x.val with
      | none => reply p r 0x0E10 .notReady false [] s
      | some c =>
        let n := f16 b 2 1 1024
        submitHost p 0x83 r c (u32 b 4) (.sei x.val (clamp 0 1 (u8 b 1)) (bytesAt b 8 n.val)) (x.clamped || decide (1 < u8 b 1) || n.clamped || lenClamped r) s) s

/-- SEI_INSERTION (R292). -/
def execSeiInsertion (r : Req) (s : State) : Outcome := done (cmdSeiInsertion r s)

/-- A class outside 0x80 to 0x83 (R289): UNKNOWN_OPCODE, in the modes in which PVD_SUBMIT is legal. -/
def cmdPvdSubmitUnknownClass (r : Req) (s : State) : State :=
  takeRequest 0x0E10 false changeLegal r (fun p s => reply p r 0x0E10 .unknownOpcode false [] s) s

/-- PVD_SUBMIT_UNKNOWN_CLASS (R289). -/
def execPvdSubmitUnknownClass (r : Req) (s : State) : Outcome := done (cmdPvdSubmitUnknownClass r s)

/-! ### Graphics slots (R170, R265) -/

/-- GRAPHICS_SLOT_RELEASE (R170): the composition of the last row that used a displaced slot closes, and its flip is complete. -/
def execGraphicsSlotRelease (c l : Nat) (s : State) : Outcome :=
  match (tget (cmp s c).g l).bind (fun g => g.displaced) with
  | none => .next s
  | some d =>
    let ch := chan s c
    let s := if ticking s then noEarlier (rowTickAt ch.raster ch.rate d.lastFrame (ctuRows ch.raster + 1)) s else s
    let s := setCmp s c (fun x => { x with g := tmod x.g l (fun g => { g with displaced := none }) })
    match d.item with
    | none => .next s
    | some k =>
      match (itemOf s k).bind (fun i => i.host) with
      | some h => done (finishItem k h.target s)
      | none => .next s

/-- A flip whose slot's copy is over is decided: its target counts from now (R264, R265, R440). -/
def decideCopied (c : Nat) (d : SlotCopy) (ch : Chan) (s : State) : State :=
  match d.item.bind (fun k => (itemOf s k).bind (fun i => i.host)) with
  | some h =>
    if changeLegal s.mode.mode = false then refuseItem (d.item.getD 0) .wrongMode s
    else (commitItem (d.item.getD 0) h ch s).1
  | none =>
    let frame := max d.target (earliestTarget s ch)
    if changeLegal s.mode.mode then commitBoth c frame (d.missed || decide (d.target < openFrame s ch)) d.change none s else s

/-- GRAPHICS_SLOT_COPY_DONE (R265). -/
def execGraphicsSlotCopyDone (c l : Nat) (s : State) : Outcome :=
  match (tget (cmp s c).g l).map (fun g => g.copying) with
  | some (d :: rest) =>
    let s := { s with
      cmps := tmod s.cmps c (fun x => { x with g := tmod x.g l (fun g => { g with copying := rest }) })
      run := { s.run with copies := s.run.copies + 1 } }
    done (decideCopied c d (chan s c) s)
  | _ => .next s

end Sys2Proof.Machine
end

