-- ==== Sys2Proof/Machine/Links.lean ====
section
/-! DEFINITION. The serial lanes: Ethernet ports, Valsin link frames, training and sleep, their records and commands (R317 to
R337). -/

namespace Sys2Proof.Machine

/-! ### Ethernet records (R317, R333) -/

/-- Lanes of a port in a quad mode (R317). -/
def lanesOf (mode : Nat) : Nat := 2 ^ mode

/-- Whether a port exists in a quad mode (R317, Table 1). -/
def portIn (mode p : Nat) : Bool := p % lanesOf mode == 0

/-- The MAC address of port n: a unicast address, and for zero or a multicast address the fused base plus n (R333). -/
def macOf (n : Nat) (b : Bytes) : Bytes := if allZero b || u8 b 0 % 2 == 1 then fusedMac n else b

/-- The Ethernet port record, type 0x0401: the first of a quad fixes the quad's mode, and one that names a port absent in that mode
is discarded (R317, R333). -/
def recEthPort (b : Bytes) (s : State) : State :=
  sized 60 b (fun s =>
    let p := clamp 0 15 (u8 b 0)
    let mode := tgetD s.lnk.quads (p / 4) (clamp 0 2 (u8 b 1))
    let s := { s with lnk := { s.lnk with quads := tset s.lnk.quads (p / 4) mode } }
    if portIn mode p = false ∨ thas s.lnk.eth p = true then orphan s
    else
      let mask := 2 ^ lanesOf mode
      let x : EthPort :=
        { speed := mode, pmd := if mode = 0 then clamp 0 1 (u8 b 2) else 2, an := mode == 0 && decide (1 ≤ u8 b 3), pcs := if mode = 0 then 161 else 119
          pauseRx := decide (1 ≤ u8 b 4), precode := decide (1 ≤ u8 b 5), txInv := u8 b 6 % mask, rxInv := u8 b 7 % mask
          txPre := clamp 0 15 (u8 b 8), txPost := clamp 0 15 (u8 b 9), mac := macOf p (bytesAt b 10 6)
          v4 := bytesAt b 16 4, v4gw := bytesAt b 20 4, v4len := clamp 0 32 (u8 b 24), v6len := clamp 0 128 (u8 b 25)
          vlan := clamp 0 4094 (u16 b 26), v6 := bytesAt b 28 16, v6gw := bytesAt b 44 16 }
      applied (bringUp { s with lnk := { s.lnk with eth := tset s.lnk.eth p x } })) s

/-- ETHERNET_PORT_RECORD (R333). -/
def execEthernetPortRecord (b : Bytes) (s : State) : Outcome := recordCommand 0x0401 b recEthPort s

/-! ### Ethernet ports (R319 to R322) -/

/-- The state with an Ethernet port changed. -/
def setEth (s : State) (p : Nat) (f : EthPort → EthPort) : State := { s with lnk := { s.lnk with eth := tmod s.lnk.eth p f } }

/-- The requests that waited for a port are answered. -/
def answerRetrain (l : List Req) (st : Status) (s : State) : State :=
  l.foldl (fun s r => replyTo r 0x0411 st (decide (1 < u8 (payloadOf r) 0) ||
    decide ((if u8 (payloadOf r) 0 = 0 then 15 else 5) < u8 (payloadOf r) 1) || lenClamped r) [] s) s

/-- Whether a destination is a multicast address: IPv4 in the low bytes where the rest is zero (R319). -/
def isMulticast (family : Nat) (d : Bytes) : Bool := if family = 0 then u8 d 0 / 16 == 14 else u8 d 0 == 255

/-- The multicast destinations of the ingress flows that come in on a port (R319). -/
def joinsOf (s : State) (p : Nat) : List Bytes :=
  (s.ing.flows.flatMap (fun e =>
    (if e.2.portA = p ∧ isMulticast e.2.family e.2.destA = true then [e.2.destA] else []) ++
      (if e.2.portB = some p ∧ isMulticast e.2.family e.2.destB = true then [e.2.destB] else []))).dedup

/-- The precoder and the transmit equaliser as the port comes up: as training requested where it negotiated, which no rule states, else as
its record says (R318; log entry 35). -/
def equalise (p : Nat) (x : EthPort) (s : State) : State :=
  if x.an then
    let (v, s) := drawFree s
    setEth s p (fun x => { x with precodeOn := v % 2 == 1, eqPre := v / 2 % 16, eqPost := v / 32 % 16 })
  else setEth s p (fun x => { x with precodeOn := x.precode, eqPre := x.txPre, eqPost := x.txPost })

/-- ETH_PORT_UP (R318, R319, R321, R322): bring-up completes, and the port reports every multicast destination of its ingress flows. -/
def execEthPortUp (p : Nat) (s : State) : Outcome :=
  match tget s.lnk.eth p with
  | none => .next s
  | some x =>
    if x.st = 2 ∧ mayLink s p = true then
      let s := setEth s p (fun x => { x with st := 3, anDone := x.an, retrain := [], joins := joinsOf s p })
      let s := (joinsOf s p).foldl (fun s _ => queueOwn p false s) (equalise p x s)
      done (answerRetrain x.retrain .ok s)
    else .next s

/-- LNK_ETH_DOWN (R322): the port goes down, reports it, and trains again. -/
def execLnkEthDown (p : Nat) (s : State) : Outcome := done (bringUp (ethDown p s))

/-- Whether this device answers for the addresses that a pair shares: the higher claim, or with no claim the higher ID (R245). -/
def answersHere (s : State) : Bool :=
  !pairInForce s || decide (s.red.partnerClaim < s.red.claim) ||
    (s.red.claim == 0 && s.red.partnerClaim == 0 && decide (s.red.peerId < s.hrw.ident))

/-- The time a PAUSE frame requests: quanta of 512 bit times at the port's rate (R319). -/
def pauseTime (x : EthPort) (quanta : Nat) : Nat := quanta % 65536 * 512 * secUnit / (100000000000 * 2 ^ x.speed)

/-- A PAUSE frame that is honoured: the transmitter stops for the time it requests; a request for no time ends the pause (R319). -/
def takePause (now quanta : Nat) (x : EthPort) : EthPort :=
  if quanta % 65536 = 0 then endPause now x
  else { x with pausedUntil := some (now + pauseTime x quanta), pausedAt := if x.pausedUntil.isSome then x.pausedAt else now }

/-- Whether a request asks for an address of a port's own: IPv4 by ARP, IPv6 by Neighbor Discovery, either by echo (R319, R333). -/
def ownAddress (x : EthPort) (f : EthFrame) : Bool :=
  let v4 := f.target == x.v4 && !allZero x.v4
  let v6 := f.target == x.v6 && !allZero x.v6
  match f.kind with
  | .arp => v4
  | .neighbor => v6
  | .echo => v4 || v6
  | _ => false

/-- The timestamp of a frame whose last byte leaves the receive path now: its message timestamp point passed the pins earlier by the
frame's time on the line and the fixed latency (R320). -/
def rxStamp (s : State) (p : Nat) (x : EthPort) (f : EthFrame) : Nat :=
  stampNs p (s.mtb.t - ethLatencyNs x.speed false * nsUnit - f.length * 8 * secUnit / (100000000000 * 2 ^ x.speed))

/-- A good frame delivered or answered by its kind (R319, R321). Media and PTP go on by commands of their own. -/
def takeEthFrame (p : Nat) (f : EthFrame) (s : State) : State :=
  let answer := fun (s : State) =>
    if ownAddress (tgetD s.lnk.eth p {}) f && answersHere s then setEth s p (fun x => { x with answers := x.answers + 1 }) else s
  match f.kind with
  | .pause q => setEth s p (fun x => if x.pauseRx then takePause s.mtb.t q x else x)
  | .pfc => setEth s p (fun x => { x with pfcIgnored := bump 16 x.pfcIgnored })
  | .arp | .neighbor => answer s
  | .echo => if ticking s then answer s else s
  | .media | .ptp | .other => s

/-- ETH_FRAME_RECEIVE (R319, R320): the frame is timestamped, FEC is accounted for, a frame too long or with a bad FCS is dropped and counted, and any other is
taken. A frame that an uncorrectable codeword touches has a bad FCS. -/
def execEthFrameReceive (p : Nat) (f : EthFrame) (s : State) : Outcome :=
  match tget s.lnk.eth p with
  | none => .next s
  | some x =>
    if x.st = 3 then
      let s := setEth s p (fun x =>
        { x with fecCorr := bumpBy 64 x.fecCorr f.fecCorrected, fecUncorr := bumpBy 32 x.fecUncorr f.fecUncorrectable
                 rxAt := rxStamp s p x f })
      let s := (List.range f.fecUncorrectable).foldl (fun s _ => raise 0x06F p s) s
      done (if 1522 < f.length then setEth s p (fun x => { x with rxOversize := bump 16 x.rxOversize })
        else if f.fcsOk = false ∨ 0 < f.fecUncorrectable then setEth s p (fun x => { x with rxFcs := bump32 x.rxFcs })
        else takeEthFrame p f s)
    else .next s

/-- PAUSE_EXPIRY (R319): the time requested has passed and the transmitter resumes. -/
def execPauseExpiry (p : Nat) (s : State) : Outcome :=
  match tget s.lnk.eth p with
  | none => .next s
  | some x =>
    match x.pausedUntil with
    | none => .next s
    | some t =>
      let s := noEarlier t s
      .next (setEth s p (endPause s.mtb.t))

/-- LNK_PAUSE_LONG (R319): a pause that lasts beyond 100 µs is reported once. -/
def execLnkPauseLong (p : Nat) (s : State) : Outcome :=
  match tget s.lnk.eth p with
  | none => .next s
  | some x =>
    if x.pausedUntil.isSome && !x.longReported && decide (x.pausedAt + 100 * usUnit < x.pausedUntil.getD 0) then
      let s := noEarlier (x.pausedAt + 100 * usUnit) s
      done (raise 0x06E p (setEth s p (fun x => { x with longReported := true, pauseLong := satAdd 16 x.pauseLong 1 })))
    else .next s

/-! ### The Valsin record (R334) -/

/-- A Valsin port; an absent one stands as reset. -/
def valPort (s : State) (v : Nat) : ValPort := tgetD s.lnk.vals v {}

/-- The state with a Valsin port changed, where it has one. -/
def setVal (s : State) (v : Nat) (f : ValPort → ValPort) : State := { s with lnk := { s.lnk with vals := tmod s.lnk.vals v f } }

/-- The minimum step in force: 3 on VA (R329). -/
def minStepOf (v : Nat) (x : ValPort) : Nat := if v = 0 then 3 else x.minStep

/-- The Valsin port record, type 0x0402 (R334). -/
def recValsin (b : Bytes) (s : State) : State :=
  sized 8 b (fun s =>
    let v := clamp 0 5 (u8 b 0)
    if (valPort s v).taken then orphan s
    else
      let least := if v = 0 then 3 else clamp 0 3 (u8 b 1)
      applied { s with lnk := { s.lnk with vals := tupd s.lnk.vals v {} (fun x =>
        { x with taken := true, minStep := least, maxStep := max least (clamp 0 3 (u8 b 2))
                 idleUs := orDefault (u32 b 4) 100 10 100000 }) } }) s

/-- VALSIN_PORT_RECORD (R334). -/
def execValsinPortRecord (b : Bytes) (s : State) : Outcome := recordCommand 0x0402 b recValsin s

/-! ### Link frames (R325, R326) -/

/-- The 32 bytes of a frame's header (Table 3). -/
def headerBytes (f : LinkFrame) : Bytes :=
  le 1 f.kind ++ le 1 f.cls ++ le 2 f.seq ++ le 1 f.len ++ le 1 f.flags ++ le 2 f.ack ++ le 2 f.nak ++ fit 22 f.reserved

/-- Whether a frame passes: its fields in range, its payload as long as it says, its CRC-64 right (R325). -/
def frameGood (f : LinkFrame) : Bool :=
  decide (1 ≤ f.kind ∧ f.kind ≤ 3 ∧ 1 ≤ f.cls ∧ f.cls ≤ 5 ∧ f.len ≤ 61 ∧ f.payload.length = 16 * f.len) &&
    f.crc == crcPresetOf 5 (headerBytes f ++ f.payload)

/-- Whether a sequence number lies at or before another, modulo 2^16. -/
def seqReached (n ack : Nat) : Bool := decide ((ack + 65536 - n % 65536) % 65536 < 32768)

/-- Whether a frame of the replay buffer is the one that a NAK names and has not been resent yet (R326). -/
def resends (f : LinkFrame) (g : OutFrame) : Bool := bitOf f.flags 1 && g.seq == f.nak % 65536 && !g.retry

/-- The acknowledgement and NAK a good frame carries: acknowledged frames leave the replay buffer, a frame named for the first time is
resent with the retry flag, and what was queued behind a full buffer is sent (R326). The Boolean says whether a frame was resent. -/
def takeAck (now : Nat) (f : LinkFrame) (x : ValPort) : ValPort × Bool :=
  let x := { x with replay := x.replay.filter (fun g => !seqReached g.seq f.ack) }
  let again := x.replay.any (resends f)
  let x := if again then
      { x with replay := x.replay.map (fun g => if resends f g then { g with retry := true } else g)
               retried := bump32 x.retried, ackOwed := false, txAt := leavesAt now x }
    else x
  (flushPort now x, again)

/-- The frames that a port delivers with a good data frame, in sequence: the frame, where it is the one expected, and the held frames
that then follow (R326). -/
def deliverable (f : LinkFrame) (x : ValPort) : List LinkFrame :=
  if f.seq % 65536 = x.rxSeq then
    f :: (((List.range x.held.length).map (fun i => x.held.find? (fun g => g.seq % 65536 == (x.rxSeq + 1 + i) % 65536))).takeWhile
      (fun g => g.isSome)).filterMap id
  else []

/-- The sequences that a data frame shows to be missing, beyond those already missed: each counts once, and not again where a frame that
failed its CRC since the last one may be it (R326, R335; log entry 149). -/
def countMissing (f : LinkFrame) (x : ValPort) : ValPort :=
  let ahead := (f.seq % 65536 + 65536 - x.topSeq) % 65536
  if ahead < 32768 then
    { x with topSeq := (f.seq + 1) % 65536, failed := 0, crcFail := bumpBy 32 x.crcFail (ahead - x.failed) }
  else x

/-- When the bound on a retry starts: as the failure is detected, and where the direction that carries the NAK sleeps or wakes, at the end
of that wake (R326, R330). -/
def retryFrom (now : Nat) (x : ValPort) : Nat := if x.txAsleep then now + 2 * usUnit else leavesAt now x

/-- A NAK for the next frame in sequence, unless one stands (R326). -/
def askAgain (now : Nat) (x : ValPort) : ValPort :=
  if x.nak.isSome then x else { x with nak := some x.rxSeq, nakAt := retryFrom now x }

/-- A good data frame: delivered in sequence with the held frames that follow it, held behind a gap, which a NAK answers, or dropped as
a copy of one delivered. Frames that stay held after a delivery wait behind another gap, which has a NAK of its own (R326). -/
def takeData (now : Nat) (f : LinkFrame) (x : ValPort) : ValPort :=
  let x := countMissing f { x with ackOwed := true }
  let n := f.seq % 65536
  if n = x.rxSeq then
    let l := deliverable f x
    let x := { x with rxSeq := (n + l.length) % 65536, delivered := x.delivered + l.length
                      held := x.held.filter (fun g => !l.any (fun k => k.seq % 65536 == g.seq % 65536)) }
    let x := match x.nak with
      | some k => if seqReached k ((x.rxSeq + 65535) % 65536) then { x with nak := none } else x
      | none => x
    if x.held.isEmpty then x else askAgain now x
  else if seqReached n x.rxSeq then x
  else askAgain now (if x.held.any (fun g => g.seq % 65536 == n) then x else { x with held := x.held ++ [f] })

/-! ### What VA brings (R205, R247, R265, R266, R268, R270, R275) -/

/-- A pair message that a link frame of VA completes, taken where it goes. -/
def takeVaMsg (m : VaMsg) (s : State) : State :=
  match m with
  | .ratio p r => takePartnerRatio p r s
  | .health b => { s with run := { s.run with partner := fit 64 b } }
  | .swap n => takeSwapFrame n s
  | .swapAsk => takeSwapAsk s
  | .swapRefused => answerSwap none s
  | .slot c layer slot offset data => writeSlot c layer slot offset data s
  | .bulk b => takeBulk b s
  | .verdict x row bits => takeVerdict x row bits s
  | .restart p => if (portChannels s p).isEmpty then restartLater p s else s
  | .treeBusy _ _ => s

/-- The message of a frame delivered on a port: VA carries pair traffic while it is up, and VH0 what comes down the tree (R247, R345). -/
def deliver (v : Nat) (s : State) (f : LinkFrame) : State :=
  match f.msg with
  | some (.treeBusy origin hint) => if v = 1 then takeBusy origin hint s else s
  | some m => if v = 0 ∧ s.red.vaUp = true ∧ pairInForce s = true then takeVaMsg m s else s
  | none => s

/-- The port comes up with its first data frame at its final step: VA for the pair, a VH port for the tree (R327). -/
def portComesUp (v : Nat) (s : State) : State :=
  let x := valPort s v
  let s := setVal s v (fun x => { x with st := 2, lastUpUs := min (ceilDiv (s.mtb.t - x.trainAt) usUnit) (2 ^ 32 - 1), retrain := [] })
  let s := if v = 0 then pairVaUp s else treeLink (v - 1) true s
  answerRetrain x.retrain .ok s

/-- A direction wakes: its clock lane starts again, and what was queued is sent, the first frame 2.0 µs after the wake began (R330). -/
def wakePort (now : Nat) (x : ValPort) : ValPort :=
  flushPort now { x with txAsleep := false, wakes := bump32 x.wakes, wakeAt := now }

/-- A receiver that has to acknowledge while its own direction sleeps wakes it (R330). -/
def wakeToAck (now : Nat) (x : ValPort) : ValPort := if x.txAsleep && x.ackOwed then wakePort now x else x

/-- VA comes up again with a valid frame after it was down for want of one, its link having stayed up (R248). A frame that says that its
direction goes to sleep brings nothing up (R330). -/
def vaReturns (v : Nat) (f : LinkFrame) (s : State) : State :=
  if v = 0 ∧ (valPort s 0).st = 2 ∧ f.kind ≠ 3 then pairVaUp s else s

/-- A good link frame taken by its kind, and what it delivers (R248, R325, R326, R330). -/
def takeLinkFrame (v : Nat) (f : LinkFrame) (s : State) : State :=
  let r := takeAck s.mtb.t f (valPort s v)
  let l := if f.kind = 1 then deliverable f r.1 else []
  let s := setVal s v (fun _ => { r.1 with rxAsleep := f.kind == 3, rxAt := s.mtb.t })
  let s := if r.2 && v == 0 then setHealth s (fun h => { h with vaRetries := h.vaRetries + 1 }) else s
  let s := if f.kind = 1 then setVal s v (fun x => wakeToAck s.mtb.t (takeData s.mtb.t f x)) else s
  let s := if f.kind = 1 ∧ (valPort s v).st = 1 then portComesUp v s else vaReturns v f s
  l.foldl (deliver v) s

/-- A frame that failed its CRC: it is counted, a NAK asks for the next in sequence, and a direction that sleeps wakes to send it (R326,
R330). -/
def takeBadFrame (now : Nat) (x : ValPort) : ValPort :=
  let x := askAgain now { x with crcFail := bump32 x.crcFail, failed := x.failed + 1 }
  if x.txAsleep then wakePort now x else x

/-- VALSIN_FRAME_RECEIVE (R326): a frame that fails is answered with a NAK; the retry copy that fails makes the port retrain; a good
one is taken, and the first at the final step brings the port up. -/
def execValsinFrameReceive (v : Nat) (f : LinkFrame) (s : State) : Outcome :=
  let x := valPort s v
  if valsinMode s.mode.mode && (x.st == 2 || (x.st == 1 && x.entered)) then
    if frameGood f then done (takeLinkFrame v f s)
    else
      let again := x.nak == some (f.seq % 65536) && bitOf f.flags 0
      let s := setVal s v (takeBadFrame s.mtb.t)
      done (if again && x.st == 2 then settleMerge (startTraining v s) else s)
  else .next s

/-- VALSIN_ACK_TIMER (R326): an acknowledgement-only frame is sent. -/
def execValsinAckTimer (v : Nat) (s : State) : Outcome :=
  .next (setVal s v (fun x => if x.st = 2 ∧ x.txAsleep = false then { x with ackOwed := false } else x))

/-- The bound on a retry: 2.0 µs at steps 2 and 3, and 8.0 µs below (R326). -/
def retryBound (x : ValPort) : Nat := if 2 ≤ x.step then 2 * usUnit else 8 * usUnit

/-- A Valsin port that was up, or trains, trains again (R327). -/
def retrain (v : Nat) (s : State) : State := settleMerge (startTraining v s)

/-- VALSIN_RETRY_TIMEOUT (R326): the retry awaited has not arrived within its bound. -/
def execValsinRetryTimeout (v : Nat) (s : State) : Outcome :=
  let x := valPort s v
  if x.st = 2 ∧ x.nak.isSome = true ∧ valsinMode s.mode.mode = true then
    done (retrain v (noEarlier (x.nakAt + retryBound x) s))
  else .next s

/-! ### Training (R327 to R329) -/

/-- The data lanes of a port. -/
def valsinLanes (v : Nat) : Nat := if v = 0 then 8 else 1

/-- The step of the rate ladder at which a port stands (R324). -/
def ladderStep (x : ValPort) : LadderStep := ladder.getD x.step ⟨0, false, false, 0⟩

/-- The payload in kb/s that a port carries at its step in frames of full length: 61 blocks of 64, and of the line rate 8 bits of 10, or 128
of 130 where every 4,096th block is a comma block (R324, Table 2). -/
def payloadKbps (v : Nat) (x : ValPort) : Nat :=
  let r := (ladderStep x).laneKbps
  (if (ladderStep x).blocks then r * 128 * 4095 / (130 * 4096) else r * 8 / 10) * 61 / 64 * valsinLanes v

/-- The step a port asks for in its training sets: the next one until it stands at the common step (R327). -/
def stepAsked (x : ValPort) : Nat := if x.entering || decide (x.common ≤ x.step) then x.step else x.step + 1

/-- The training set that a port sends on a data lane, as 16 characters, each with whether it is a control character: K28.5, the lane ID
in D0.x, the port kind, the highest step allowed, the step asked for, the acknowledgement, the device ID in two, and eight of D10.2
(R327). -/
def trainingSet (s : State) (v lane : Nat) : List (Bool × Nat) :=
  let x := valPort s v
  let acks := x.lastSet.any (fun t => t.good && decide (t.requested ≤ stepAsked x))
  (true, 0xBC) :: ([lane, if v = 0 then 0 else 1, x.maxStep, stepAsked x, b2n acks, s.hrw.ident % 256, s.hrw.ident / 256] ++
    List.replicate 8 0x4A).map (fun c => (false, c))

/-- The lane IDs a receiver expects on its wires, in lane order, under its correction (R327, R328). -/
def expectedIds (v : Nat) (reversed : Bool) : List Nat :=
  (List.range (valsinLanes v)).map (fun i => if reversed then 7 - i else i)

/-- Whether training sets show step 0's success under the corrections in force: every lane good, with its own ID and its polarity
(R327, R328). -/
def setsGood (v : Nat) (t : TrainingSet) (x : ValPort) : Bool :=
  t.good && t.laneIds == expectedIds v x.reversed && maskOf t.inverted (valsinLanes v) == x.rxInv

/-- A step has been entered, or the climb has ended at the common step: below the minimum the port stays in training and reports it,
otherwise its final step waits for a data frame (R327, R329). -/
def settleStep (v : Nat) (s : State) : State :=
  let x := valPort s v
  if x.common < minStepOf v x then
    raise 0x073 v (setVal s v (fun x => { x with stepLow := true, entered := false, stepAt := s.mtb.t }))
  else setVal s v (fun x => { x with stepLow := false, entered := x.step == x.common })

/-- VALSIN_TRAINING_RECEIVE (R327): sixteen consecutive sets or blocks. Step 0 fixes the common step; a request acknowledged by both
ends awaits its switch; a switched step is entered. -/
def execValsinTrainingReceive (v : Nat) (t : TrainingSet) (s : State) : Outcome :=
  let x := valPort s v
  if valsinMode s.mode.mode && x.st == 1 then
    let s := setVal s v (fun x => { x with lastSet := some t })
    let s := if v = 1 ∧ t.otherIsVh0 = true ∧ s.hrw.miswired = false then
        raise 0x078 0 { s with hrw := { s.hrw with miswired := true } } else s
    if x.entering then
      if x.step = 0 then
        if setsGood v t x then
          let s := setVal s v (fun x =>
            { x with entering := false, wiring := false, peerMax := min 3 t.peerMax, peerId := t.deviceId % 1024
                     common := min x.maxStep (min 3 t.peerMax) })
          done (settleStep v s)
        else done s
      else if t.good && t.acknowledge then done (settleStep v (setVal s v (fun x => { x with entering := false })))
      else done s
    else if x.stepLow = false ∧ x.step < x.common ∧ t.requested = x.step + 1 ∧ t.acknowledge = true then
      done (setVal s v (fun x => { x with target := some (x.step + 1) }))
    else done s
  else .next s

/-- VALSIN_STEP_SWITCH (R327). -/
def execValsinStepSwitch (v : Nat) (s : State) : Outcome :=
  match (valPort s v).target with
  | some k =>
    .next (setVal s v (fun x =>
      if x.st = 1 then { x with step := k, target := none, entering := true, entered := false, stepAt := s.mtb.t } else x))
  | none => .next s

/-- The fallback on what the last sets showed: inverted lanes are inverted, and a reversed VA is reversed; any other pattern of lane
IDs is a wiring fault with no correction (R328). -/
def fallback (v : Nat) (s : State) : State :=
  let s := setVal s v (fun x => { x with fallbacks := satAdd 32 x.fallbacks 1, fallbackDone := true, stepAt := s.mtb.t })
  match (valPort s v).lastSet with
  | none => s
  | some t =>
    let straight := t.laneIds == expectedIds v false
    let turned := v == 0 && t.laneIds == expectedIds v true
    if straight || turned then
      setVal s v (fun x => { x with reversed := turned, rxInv := maskOf t.inverted (valsinLanes v) })
    else raise 0x072 v (setVal s v (fun x => { x with wiring := true }))

/-- VALSIN_STEP_TIMEOUT (R327, R328): step 0 runs the fallback and is retried once, then the port is down; a higher step is given up
for the one before, which becomes the common step. -/
def execValsinStepTimeout (v : Nat) (s : State) : Outcome :=
  let x := valPort s v
  if x.st = 1 ∧ x.entering = true then
    let s := noEarlier (x.stepAt + 16 * usUnit) s
    if x.step = 0 then
      if x.fallbackDone then .next (setVal s v (fun x => { x with st := 3, entering := false, stepAt := s.mtb.t }))
      else done (fallback v s)
    else
      done (settleStep v (setVal s v (fun x => { x with step := x.step - 1, common := x.step - 1, entering := false })))
  else .next s

/-- VALSIN_RETRAIN_TIMER (R328, R329): 10 ms after a port went down, or while it stays below its minimum step, training begins
again. -/
def execValsinRetrainTimer (v : Nat) (s : State) : Outcome :=
  let x := valPort s v
  if valsinMode s.mode.mode && (x.st == 3 || (x.st == 1 && x.stepLow)) then
    done (retrain v (noEarlier (x.stepAt + 10 * msUnit) s))
  else .next s

/-- COMMA_LOSS (R327). -/
def execCommaLoss (v lane : Nat) (s : State) : Outcome :=
  let x := valPort s v
  if valsinMode s.mode.mode && decide (lane < valsinLanes v) && decide (2 ≤ x.step) && (x.st == 2 || (x.st == 1 && !x.entering)) then
    done (retrain v s)
  else .next s

/-! ### Sleep (R330) -/

/-- VALSIN_SLEEP_ENTRY (R330): in M7 a transmitter with nothing queued for LNK_V_IDLE_US stops its lanes. -/
def execValsinSleepEntry (v : Nat) (s : State) : Outcome :=
  let x := valPort s v
  if s.mode.mode = .quiescent ∧ x.st = 2 ∧ x.txAsleep = false ∧ x.queue = [] then
    .next (setVal (noEarlier (x.txAt + x.idleUs * usUnit) s) v (fun x => { x with txAsleep := true }))
  else .next s

/-- VALSIN_WAKE (R330): a frame to send wakes the direction. -/
def execValsinWake (v : Nat) (s : State) : Outcome :=
  .next (setVal s v (fun x => if x.txAsleep then wakePort s.mtb.t x else x))

/-- VALSIN_WAKE_FAIL (R330): the wake has not locked to a comma block within 2.0 µs. -/
def execValsinWakeFail (v : Nat) (s : State) : Outcome :=
  if (valPort s v).st = 2 ∧ valsinMode s.mode.mode = true then
    done (retrain v (noEarlier ((valPort s v).wakeAt + 2 * usUnit) s))
  else .next s

/-! ### Registers (R335) -/

/-- A word of an Ethernet port's entry (Table 8). -/
def ethWord (s : State) (p off : Nat) : Nat :=
  match tget s.lnk.eth p with
  | none => 0
  | some x =>
    if off = 0x00 then
      packWord [(x.st, 0), (x.speed + 1, 2), (x.pmd, 4), (b2n x.anDone, 6),
        (b2n (x.st == 3 && (s.mode.mode == .configure || s.mode.mode == .quiescent)), 7), (b2n x.pausedUntil.isSome, 8),
        (b2n x.fenced, 9)]
    else if off = 0x04 then loWord x.fecCorr
    else if off = 0x08 then hiWord x.fecCorr
    else if off = 0x0C then x.fecUncorr
    else if off = 0x10 then x.rxFcs
    else if off = 0x14 then packWord [(x.rxOversize, 0), (x.pfcIgnored, 16)]
    else if off = 0x18 then x.pauseUs
    else if off = 0x1C then x.downDrops
    else if off = 0x20 then packWord [(x.downs, 0), (x.pauseLong, 16)]
    else if off = 0x24 then
      packWord [(ethLatencyNs x.speed false, 0), (ethLatencyNs x.speed true, 16)]
    else 0

/-- A word of a Valsin port's entry (Table 8). -/
def valsinWord (s : State) (v off : Nat) : Nat :=
  let x := valPort s v
  if off = 0x00 then
    packWord [(x.st, 0), (x.step, 3), (x.peerMax, 5), (b2n x.reversed, 7), (b2n x.txAsleep, 8), (b2n x.rxAsleep, 9),
      (b2n x.stepLow, 10), (b2n x.wiring, 11)]
  else if off = 0x04 then x.rxInv
  else if off = 0x08 then x.peerId
  else if off = 0x0C then x.trainings
  else if off = 0x10 then x.fallbacks
  else if off = 0x14 then x.crcFail
  else if off = 0x18 then x.retried
  else if off = 0x1C then x.lost
  else if off = 0x20 then x.wakes
  else if off = 0x24 then x.lastUpUs
  else 0

/-- The global word at 0x5580 (Table 8). -/
def lnkWord (s : State) : Nat :=
  packWord [(quadMode s 0, 0), (quadMode s 1, 2), (quadMode s 2, 4), (quadMode s 3, 6), (b2n (source s 5).ready, 8),
    (b2n (source s 6).ready, 9), (b2n (source s 7).ready, 10), (b2n (source s 8).ready, 11), (b2n (source s 9).ready, 12)]

/-- A word of the links block at 0x5000, visible to the owner (R335). -/
def linksWord (s : State) (off : Nat) : Nat :=
  if off < 0x5400 then ethWord s ((off - 0x5000) / 64) (off % 64)
  else if off < 0x5580 then valsinWord s ((off - 0x5400) / 64) (off % 64)
  else if off = 0x5580 then lnkWord s
  else 0

/-- What a read of one of the block's RC registers clears (R335). -/
def linksReadClear (off : Nat) (s : State) : State :=
  let o := off % 64
  if 0x5000 ≤ off ∧ off < 0x5400 then
    setEth s ((off - 0x5000) / 64) (fun x =>
      if o = 0x0C then { x with fecUncorr := 0 }
      else if o = 0x10 then { x with rxFcs := 0 }
      else if o = 0x14 then { x with rxOversize := 0, pfcIgnored := 0 }
      else if o = 0x18 then { x with pauseUs := 0 }
      else if o = 0x1C then { x with downDrops := 0 }
      else x)
  else if 0x5400 ≤ off ∧ off < 0x5580 then
    setVal s ((off - 0x5400) / 64) (fun x =>
      if o = 0x14 then { x with crcFail := 0 }
      else if o = 0x18 then { x with retried := 0 }
      else if o = 0x1C then { x with lost := 0 }
      else if o = 0x20 then { x with wakes := 0 }
      else x)
  else s

/-! ### Commands (R336, R337) -/

/-- The port that a payload of R336 names, kind and number, and whether a value was clamped. -/
def portNamed (r : Req) : Nat × Nat × Bool :=
  let b := payloadOf r
  let kind := clamp 0 1 (u8 b 0)
  let hi := if kind = 0 then 15 else 5
  (kind, clamp 0 hi (u8 b 1), decide (1 < u8 b 0) || decide (hi < u8 b 1) || lenClamped r)

/-- LNK_PORT_INFO (R336). -/
def cmdLnkPortInfo (r : Req) (s : State) : State :=
  takeRequest 0x0410 true infoLegal r (fun p s =>
    let n := portNamed r
    let words := (List.range 16).map (fun i => if n.1 = 0 then ethWord s n.2.1 (4 * i) else valsinWord s n.2.1 (4 * i))
    reply p r 0x0410 .ok n.2.2 (wordBytes words) s) s

/-- LNK_PORT_INFO (R336). -/
def execLnkPortInfo (r : Req) (s : State) : Outcome := done (cmdLnkPortInfo r s)

/-- The modes of LNK_RETRAIN: M3 to M8 (R337). -/
def retrainLegal (m : Mode) : Bool := m == .quiescent || ticksRun m

/-- LNK_RETRAIN (R337): the port goes down at once and starts its bring-up or training; the reply waits until it is up. A port that
is absent or not in use never comes up. -/
def cmdLnkRetrain (r : Req) (s : State) : State :=
  takeRequest 0x0411 true retrainLegal r (fun p s =>
    let n := portNamed r
    if n.1 = 0 then
      if thas s.lnk.eth n.2.1 then
        setEth (bringUp (ethDown n.2.1 s)) n.2.1 (fun x =>
          { x with retrain := x.retrain ++ [r], askedAt := if x.retrain.isEmpty then s.mtb.t else x.askedAt })
      else reply p r 0x0411 .notReady false [] s
    else if (valPort s n.2.1).st = 0 then reply p r 0x0411 .notReady false [] s
    else setVal (retrain n.2.1 s) n.2.1 (fun x =>
      { x with retrain := x.retrain ++ [r], askedAt := if x.retrain.isEmpty then s.mtb.t else x.askedAt })) s

/-- LNK_RETRAIN (R337). -/
def execLnkRetrain (r : Req) (s : State) : Outcome := done (cmdLnkRetrain r s)

/-- LNK_RETRAIN_TIMEOUT (R337): the port has not come up within 1 s. Requests that came while an earlier one waited are answered with
it. -/
def execLnkRetrainTimeout (kind p : Nat) (s : State) : Outcome :=
  let e := tgetD s.lnk.eth p {}
  let x := valPort s p
  let l := if kind = 0 then e.retrain else x.retrain
  if l.isEmpty then .next s
  else
    let s := noEarlier ((if kind = 0 then e.askedAt else x.askedAt) + secUnit) s
    done (answerRetrain l .notReady (
      if kind = 0 then setEth s p (fun x => { x with retrain := [] }) else setVal s p (fun x => { x with retrain := [] })))

end Sys2Proof.Machine
end

