-- ==== Sys2Proof/Machine/Memory.lean ====
section
/-! DEFINITION. The in-package memory: geometry and remapping, refresh, interface delays, self-refresh, errors, the memory check, the
admission charge, records and registers (R297 to R316). -/

namespace Sys2Proof.Machine

/-! ### Pseudo-channels (R297) -/

/-- The state with a pseudo-channel changed. -/
def setPc (s : State) (p : Nat) (f : Pc → Pc) : State := { s with drm := { s.drm with pcs := tupd s.drm.pcs p {} f } }

/-- Whether a pseudo-channel holds data that clients use: it is not retired, or its blocks are still being copied from it (R310,
R311). -/
def pcServes (s : State) (p : Nat) : Bool :=
  decide (p < 128) && (!(pcOf s p).retired || s.drm.remapActive && s.drm.remapPc == p)

/-! ### QoS ports and the choice of a request (R11, R301) -/

/-- The QoS port of a client, the only one it reaches HBM through; none for a number that no client has (R11, Table 2). -/
def portOf : HbmClient → Option Nat
  | .encode e => if e < 18 then some e else none
  | .decode e => if e < 4 then some (18 + e) else none
  | .compositor c => if c < 64 then some (22 + c / 16) else none
  | .analyser a => if a < 16 then some (26 + a / 4) else none
  | .ingestSdi => some 30
  | .ingestFlow f => if f < 512 then some 31 else if f < 1024 then some 32 else none
  | .ingestOther => some 33
  | .audio => some 34
  | .packetiser x => if x < 128 then some (35 + x / 32) else none
  | .egressQueue p => if p < 16 then some (39 + p / 8) else none
  | .dispatcher => some 41
  | .box b => if b < 128 then some (42 + b / 64) else none
  | .pairTransmit => some 44
  | .pairReceive => some 45
  | .hostDma => some 46
  | .management => some 47

/-- Default latency target of a port in ns (Table 2). -/
def defaultTarget (q : Nat) : Nat :=
  if q < 18 then 1000
  else if q < 30 then 2000
  else if q < 34 then 4000
  else if q < 39 then 2000
  else if q < 42 then 1000
  else if q < 44 then 2000
  else if q < 46 then 8000
  else if q = 46 then 20000
  else 10000

/-- Default floor of a port (Table 2). -/
def defaultFloor (q : Nat) : Nat := if q = 46 then 0 else 1

/-- A QoS port; an absent one stands as reset. -/
def qosPort (s : State) (q : Nat) : QosPort := tgetD s.drm.ports q {}

/-- The target in force, ns (R301, R315). -/
def portTarget (s : State) (q : Nat) : Nat := if (qosPort s q).target = 0 then defaultTarget q else (qosPort s q).target

/-- The floor in force (R301, R315). -/
def portFloor (s : State) (q : Nat) : Nat := (qosPort s q).floor.getD (defaultFloor q)

/-- The level of a request after a time, against its target (R301). -/
def levelAfter (elapsed target : Nat) : Nat :=
  let e := 100 * elapsed
  let t := target * nsUnit
  if e < 50 * t then 0 else if e < 75 * t then 1 else if e < 90 * t then 2 else 3

/-- The urgency of a request of a port that arrived at a time: its level, and no less than the port's floor (R301). -/
def urgencyOf (s : State) (q arrival : Nat) : Nat := max (levelAfter (s.mtb.t - arrival) (portTarget s q)) (portFloor s q)

/-- Whether a request at urgency 3 is among some that wait (R303). -/
def urgentWaits (s : State) (l : List HbmWait) : Bool :=
  l.any (fun w => match portOf w.client with | some q => urgencyOf s q w.arrival == 3 | none => false)

/-- A request that has reached level 3 counted in its port's DRM_P_U3 (R301, R316). -/
def countLevel3 (q : Nat) (s : State) : State :=
  { s with drm := { s.drm with ports := tupd s.drm.ports q {} (fun x => { x with u3 := bump32 x.u3 }) } }

/-- The requests among some that wait which have reached level 3, as port and arrival (R301). -/
def level3 (s : State) (l : List HbmWait) : List (Nat × Nat) :=
  l.filterMap (fun w => match portOf w.client with
    | some q => if levelAfter (s.mtb.t - w.arrival) (portTarget s q) = 3 then some (q, w.arrival) else none
    | none => none)

/-- The requests that wait on a pseudo-channel and have reached level 3 are counted, each once (R301, R316). -/
def noteLate (p : Nat) (l : List HbmWait) (s : State) : State :=
  let late := level3 s l
  let fresh := late.filter (fun w => !(pcOf s p).late.contains w)
  setPc (fresh.foldl (fun s w => countLevel3 w.1 s) s) p (fun x => { x with late := late })

/-- Whether the row of a request is open in its bank (R301). -/
def rowIsOpen (s : State) (w : HbmRequest) : Bool :=
  let b := placeOf s w.addr
  tget (pcOf s b.pc).openRows b.bank == some b.row

/-- A request issued leaves its row open (R301). -/
def leaveOpen (w : HbmRequest) (s : State) : State :=
  let b := placeOf s w.addr
  setPc s b.pc (fun x => { x with openRows := tset x.openRows b.bank b.row })

/-- Whether a pseudo-channel serves one request before another: higher urgency, then an open row, then older arrival, then lower port
(R301). -/
def servedFirst (s : State) (a b : HbmRequest) : Bool :=
  let u := urgencyOf s a.port a.at_
  let v := urgencyOf s b.port b.at_
  if u ≠ v then decide (v < u)
  else if rowIsOpen s a ≠ rowIsOpen s b then rowIsOpen s a
  else if a.at_ ≠ b.at_ then decide (a.at_ < b.at_)
  else decide (a.port < b.port)

/-- The requests that may be chosen next: of those for one access, in arrival order, only the first (R301). -/
def mayServe : List HbmRequest → List HbmRequest
  | [] => []
  | w :: l => w :: (mayServe l).filter (fun v => v.addr / 32 != w.addr / 32)

/-- The request that is served next (R301). -/
def chooseRequest (s : State) (l : List HbmRequest) : Option HbmRequest :=
  match mayServe l with
  | [] => none
  | w :: t => some (t.foldl (fun a b => if servedFirst s b a then b else a) w)

/-- Waiting requests issued one after another in the order of R301; each that has reached level 3 is counted (R301, R316). -/
def issueAll : Nat → List HbmRequest → State → State
  | 0, _, s => s
  | n + 1, l, s =>
    match chooseRequest s l with
    | none => s
    | some w =>
      let s := if levelAfter (s.mtb.t - w.at_) (portTarget s w.port) = 3 then countLevel3 w.port s else s
      issueAll n (l.erase w) (leaveOpen w s)

/-! ### Refresh (R302, R303) -/

/-- A pseudo-channel is refreshed, every refresh owed back to back: all its rows close, and a delay rewrite that waited for one is made
(R301, R303, R305). -/
def refresh (p : Nat) (s : State) : State :=
  setPc s p (fun x => { x with owed := 0, openRows := [], band := if x.rewrite then (stack s (p / 32)).band else x.band, rewrite := false })

/-- The refresh interval of a rate: 2,896, 1,448 or 724 MEM cycles (Table 3 of R302). -/
def refreshInterval (s : State) (rate : Nat) : Nat :=
  (if rate = 0 then 2896 else if rate = 1 then 1448 else 724) * secUnit / domainHz s .mem

/-- The machine when a pseudo-channel's refresh falls due, one interval after the last; the next is then one interval off (R302). -/
def atRefresh (p : Nat) (s : State) : State :=
  let s := noEarlier (pcOf s p).dueAt s
  setPc s p (fun x => { x with dueAt := s.mtb.t + refreshInterval s (stack s (p / 32)).rate })

/-- REFRESH_DUE (R302, R303), one refresh interval after the last: the refresh is issued, or postponed while one of the requests that wait
on the pseudo-channel is at urgency 3; the fourth owed is issued at once and reported. A stack in self-refresh is not refreshed by its
controller (R306). -/
def execRefreshDue (p : Nat) (requests : List HbmWait) (s : State) : Outcome :=
  if alive s.mode.mode && pcServes s p && (stack s (p / 32)).sr == .awake then
    let s := noteLate p requests (atRefresh p s)
    if urgentWaits s requests then
      if (pcOf s p).owed < 3 then
        .next (setPc { s with drm := { s.drm with refPostponed := bump32 s.drm.refPostponed } } p
          (fun x => { x with owed := x.owed + 1 }))
      else done (raise 0x06A p (refresh p s))
    else .next (refresh p s)
  else .next s

/-- POSTPONED_REFRESH_ISSUE (R303). -/
def execPostponedRefreshIssue (p : Nat) (s : State) : Outcome :=
  if alive s.mode.mode && pcServes s p && (stack s (p / 32)).sr == .awake && (pcOf s p).owed != 0 then .next (refresh p s)
  else .next s

/-! ### Temperature (R302, R304, R305) -/

/-- The refresh rate after a temperature reading: 0 ×1, 1 ×2, 2 ×4 (R302). -/
def nextRate (rate : Nat) (c : Int) : Nat :=
  if 106 ≤ c then 2
  else if rate = 2 then (if c ≤ 103 then 1 else 2)
  else if rate = 1 then (if c ≤ 83 then 0 else 1)
  else if 86 ≤ c then 1
  else 0

/-- One move between bands: up at the upper edge, down 2 °C below the lower edge (R304). -/
def bandStep (c : Int) (b : Nat) : Nat :=
  if b < 7 ∧ 45 * ((b : Int) + 1) - 110 ≤ 2 * c then b + 1
  else if 0 < b ∧ 2 * c ≤ 45 * (b : Int) - 110 - 4 then b - 1
  else b

/-- The band after a temperature reading: as many moves as the reading calls for (R304). -/
def nextBand (b : Nat) (c : Int) : Nat := (List.range 7).foldl (fun b _ => bandStep c b) b

/-- The machine when a stack's temperature is read, a millisecond after the last reading (R304). -/
def atReading (k : Nat) (s : State) : State :=
  let s := noEarlier (stack s k).readAt s
  setStack s k (fun x => { x with readAt := s.mtb.t + msUnit })

/-- STACK_TEMPERATURE_READ (R302, R304, R305), each millisecond: the refresh rate and the band follow the reading; on a band change
each pseudo-channel of the stack is rewritten in its next refresh. -/
def execStackTemperatureRead (k : Nat) (c : Int) (s : State) : Outcome :=
  if alive s.mode.mode && decide (k < 4) then
    let s := atReading k s
    let t := toSigned 9 (ofSigned 9 c)
    let b := nextBand (stack s k).band t
    let moved := b != (stack s k).band
    let s := setStack s k (fun x => { x with temp := t, rate := nextRate x.rate t, band := b })
    .next (if moved then
      { s with drm := { s.drm with pcs := (List.range 32).foldl (fun l i =>
          tupd l (32 * k + i) {} (fun x => { x with rewrite := true })) s.drm.pcs } } else s)
  else .next s

/-! ### Self-refresh (R306, R307) -/

/-- SELF_REFRESH_ENTRY (R306, R307): in M7 a stack that has had no request for DRM_SR_IDLE_US, in M9 every stack, with its pending requests dropped. -/
def execSelfRefreshEntry (k : Nat) (s : State) : Outcome :=
  if k < 4 then
    match s.mode.mode with
    | .safeHold =>
      if (stack s k).sr = .asleep then .next s
      else .next (setStack s k (fun x => { x with sr := .entering, waiting := [] }))
    | .quiescent =>
      if (stack s k).sr = .awake then .next (setStack (noEarlier (stack s k).idleFrom s) k (fun x => { x with sr := .entering }))
      else .next s
    | _ => .next s
  else .next s

/-- SELF_REFRESH_ENTRY_DONE (R306): a request that waits starts the exit at once, and so does a run mode entered meanwhile. -/
def execSelfRefreshEntryDone (k : Nat) (s : State) : Outcome :=
  if k < 4 ∧ (stack s k).sr = .entering then
    .next (if (stack s k).waiting.isEmpty && !runMode s.mode.mode then setStack s k (fun x => { x with sr := .asleep })
      else beginExit k s)
  else .next s

/-- The planes of the device (R8, R10). -/
inductive Plane where
  | data | control | management
  deriving DecidableEq, Repr

/-- The plane of a client (Table 2 of the architecture chapter). -/
def planeOf : HbmClient → Plane
  | .dispatcher | .box _ | .hostDma => .control
  | .management => .management
  | _ => .data

/-- The channel whose graphics slot an address lies in, if it lies in one (R169). -/
def slotChannel (s : State) (a : Nat) : Option Nat :=
  (s.cmps.find? (fun e => e.2.g.any (fun g =>
    [g.2.addrA, g.2.addrB].any (fun b => decide (b ≤ a ∧ a < b + slotBytes g.2))))).map (fun e => e.1)

/-- The number of a plane among the owners of buffers. -/
def planeCode : Plane → Nat
  | .data => 0
  | .control => 1
  | .management => 2

/-- Whether a client may access an address: a buffer of its own plane, or a work-item result buffer, which the data and the control plane
share. The graphics slots, the buffers to which the spec gives addresses, are the control plane's media payload, written through host DMA,
read by the compositor of their channel and copied over port VA (R8, R10, R169, R265, R266). -/
def mayAccess (s : State) (c : HbmClient) (a : Nat) : Bool :=
  match slotChannel s a with
  | none => Config.bufferPlane a == planeCode (planeOf c) || Config.bufferPlane a == 3 && planeOf c != .management
  | some k => c == .hostDma || c == .compositor k || c == .pairTransmit || c == .pairReceive

/-- The ports that issue requests in M7 (R306). -/
def portAwake (m : Mode) (q : Nat) : Bool :=
  match m with
  | .quiescent => decide ((41 ≤ q ∧ q ≤ 43) ∨ q = 46 ∨ q = 47)
  | .safeHold | .hold | .halt => false
  | _ => decide (q < 48)

/-- The stack that serves an address (R297, R299, R311). -/
def stackAt (s : State) (a : Nat) : Nat := channelOf s a / 32

/-- A request on a port for an address reaches its stack: one that meets an awake stack is issued; one that meets self-refresh starts the
exit; one that meets an entry waits, and is counted (R301, R306). -/
def requestOn (q a : Nat) (s : State) : State :=
  let k := stackAt s a
  let w : HbmRequest := { port := q, at_ := s.mtb.t, addr := a }
  let s := setStack s k (fun x => { x with idleFrom := s.mtb.t + s.drm.srIdleUs * usUnit })
  match (stack s k).sr with
  | .awake => leaveOpen w s
  | .asleep => beginExit k (setStack s k (fun x => { x with waiting := x.waiting ++ [w] }))
  | .exiting => setStack s k (fun x => { x with waiting := x.waiting ++ [w] })
  | .entering =>
    let s := setStack s k (fun x => { x with waiting := x.waiting ++ [w] })
    { s with drm := { s.drm with srWaits := bump32 s.drm.srWaits } }

/-- HBM_REQUEST_WAKE (R306): a client's request goes through the one port that serves it, to a buffer that its plane may access; above the
range of R300 none is ever issued (R10, R11). -/
def execHbmRequestWake (a : Nat) (c : HbmClient) (s : State) : Outcome :=
  match portOf c with
  | none => .next s
  | some q =>
    if a < hbmEnd ∧ mayAccess s c a = true ∧ portAwake s.mode.mode q = true then .next (requestOn q a s) else .next s

/-- The first addresses of the blocks that n bytes at an address lie in (R299). -/
def blocksOf (a n : Nat) : List Nat := (List.range ((a + n + 255) / 256 - a / 256)).map (fun i => 256 * (a / 256 + i))

/-- The stacks that n bytes at an address lie in (R297, R299). -/
def stacksOf (s : State) (a n : Nat) : List Nat := (blocksOf a n).foldl (fun l b => sadd l (stackAt s b)) []

/-- Whether a buffer write can be made: every stack it meets is out of self-refresh (R306). -/
def stacksAwake (s : State) (a n : Nat) : Bool := (stacksOf s a n).all (fun k => (stack s k).sr == .awake)

/-- The modes of HST_BUF_WRITE: M3 to M8 (R439). -/
def writeLegal (m : Mode) : Bool := m == .quiescent || ticksRun m

/-- A buffer write is made and answered; in a mode in which it is no longer legal it is answered WRONG_MODE and nothing is written
(R440, R441). -/
def finishWrite (w : HeldWrite) (s : State) : State :=
  if writeLegal s.mode.mode then
    replyTo w.req 0x0D32 .ok w.clamped (le 4 w.data.length) (hbmWrite w.addr w.data s)
  else replyTo w.req 0x0D32 .wrongMode false [] s

/-- A buffer write reaches HBM through port 46: at once, or, where a stack is in self-refresh, when the exit that it starts is done; with
the root on FRC that is once the root is back (R306, R370, R441). -/
def writeBuffer (w : HeldWrite) (s : State) : State :=
  let awake := stacksAwake s w.addr w.data.length
  let s := (blocksOf w.addr w.data.length).foldl (fun s b => requestOn 46 b s) s
  if awake then finishWrite w s
  else
    { s with hst := { s.hst with heldWrites := s.hst.heldWrites ++ [w] } }

/-- The buffer writes whose stacks are all awake again, made in order (R306). -/
def flushWrites (s : State) : State :=
  s.hst.heldWrites.foldl (fun s w =>
    if stacksAwake s w.addr w.data.length then finishWrite w s
    else { s with hst := { s.hst with heldWrites := s.hst.heldWrites ++ [w] } }) { s with hst := { s.hst with heldWrites := [] } }

/-- SELF_REFRESH_EXIT_DONE (R306): the delays of the present band are loaded and the waiting requests are issued. -/
def execSelfRefreshExitDone (k : Nat) (s : State) : Outcome :=
  if k < 4 ∧ (stack s k).sr = .exiting then
    let s := loadDelays k (noEarlier (stack s k).awakeAt s)
    let s := issueAll (stack s k).waiting.length (stack s k).waiting s
    .next (flushWrites (setStack s k (fun x => { x with sr := .awake, waiting := [] })))
  else .next s

/-! ### Errors and scrubbing (R308, R309) -/

/-- The stage of the client that a poisoned read reaches fails to complete: an encode engine's slice under R37, an analyser's row under
R138, a compositor's row under R177, and a Box core's item is retried under R286 (R308). The stage that fails is the next of that
client to close; for the other clients the spec states nothing beyond the zero data. -/
def poisonStage (c : HbmClient) (s : State) : State :=
  match c with
  | .encode e => setEngine s e (fun x => { x with broken := true })
  | .analyser a => breakAnalysis a s
  | .compositor n => breakComposition n s
  | .box b => if (runsOn s b).isSome then dropCoreItem b s else s
  | _ => s

/-- POISONED_READ (R308): the access is poisoned, the read is counted and reported against the pseudo-channel that serves it, and the
client's stage fails; a buffer of another plane the client never reads (R10). No such address exists above R300's range. -/
def execPoisonedRead (a : Nat) (c : HbmClient) (s : State) : Outcome :=
  if hbmEnd ≤ a then .fault (.addressOutsideMemory a)
  else if alive s.mode.mode && (portOf c).isSome && mayAccess s c a then
    done (poisonStage c (raise 0x069 (channelOf s a) { s with drm := { s.drm with
      poison := sadd s.drm.poison (a / 32), ueCount := bump32 s.drm.ueCount } }))
  else .next s

/-- The accesses of one patrol pass: every access of 32 bytes in every row of 1 KiB of the 16 banks of every pseudo-channel (R297, R298,
R309). -/
def patrolLength : Nat := 128 * 16 * 32768 * 32

/-- The time between two accesses of the patrol: a pass takes DRM_SCRUB_H hours (R309). -/
def patrolStep (s : State) : Nat := s.drm.scrubH * 3600 * secUnit / patrolLength

/-- The patrol's next access at or behind one, in ascending address order: those of pseudo-channels retired and copied are left out, a block of
256 bytes at a time; 128 blocks in a row lie in 128 pseudo-channels (R299, R309, R310). -/
def patrolFrom (s : State) : Nat → Nat → Nat
  | 0, k => k
  | n + 1, k => if pcServes s (tableChannel (32 * k)) then k else patrolFrom s n (8 * (k / 8 + 1))

/-- The access that the patrol reads next (R309). -/
def patrolNext (s : State) : Nat := patrolFrom s 128 s.drm.scrubPc % patrolLength

/-- The pseudo-channel of the access that the patrol reads next (R299, R309). -/
def patrolPc (s : State) : Nat := tableChannel (32 * patrolNext s)

/-- The patrol has read its next access; behind the last a new pass begins (R309, R316). -/
def patrolOne (s : State) : State :=
  let k := patrolNext s + 1
  let pass := decide (k ≤ s.drm.scrubPc || patrolLength ≤ k)
  { s with drm := { s.drm with
    scrubPc := k % patrolLength, scrubPasses := if pass then satAdd 32 s.drm.scrubPasses 1 else s.drm.scrubPasses } }

/-- A corrected access is counted and reported, and a pseudo-channel beyond DRM_CE_LIMIT in this second reports DRM_CE_RATE once
(R298, R309, R314). -/
def correctOne (p : Nat) (s : State) : State :=
  let s := raise 0x067 p { s with drm := { s.drm with ceCount := bump32 s.drm.ceCount } }
  let s := setPc s p (fun x => { x with ces := x.ces + 1 })
  if s.drm.ceLimit < (pcOf s p).ces ∧ (pcOf s p).rateReported = false then
    raise 0x068 p (setPc s p (fun x => { x with rateReported := true }))
  else s

/-- The machine when the patrol takes its next access, at an even pace (R309). -/
def atPatrol (s : State) : State :=
  let s := noEarlier s.drm.scrubAt s
  { s with drm := { s.drm with scrubAt := s.mtb.t + patrolStep s } }

/-- SCRUB_ACCESS (R309): the patrol takes its accesses in ascending address order, one pass in DRM_SCRUB_H hours; p is the pseudo-channel of
the next. -/
def execScrubAccess (p : Nat) (corrected : Bool) (s : State) : Outcome :=
  if alive s.mode.mode && p == patrolPc s && (stack s (p / 32)).sr == .awake then
    let s := patrolOne (atPatrol s)
    if corrected then done (correctOne p s) else .next s
  else .next s

/-- Each MTB second counts corrected errors anew (R309). -/
def memorySecond (s : State) : State :=
  { s with drm := { s.drm with pcs := tmap s.drm.pcs (fun _ x => { x with ces := 0, rateReported := false }) } }

/-! ### Retirement and the memory check (R310 to R312) -/

/-- REMAP_COPY_DONE (R311): every block is at its target. An access that the copy could not correct is poisoned there as it was here. -/
def execRemapCopyDone (s : State) : Outcome :=
  if s.drm.remapActive then .next { s with drm := { s.drm with remapActive := false, remap := blocksToMove s, remapWritten := [] } } else .next s

/-- MEMORY_CHECK_DONE (R312): the pseudo-channels that failed are retired with nothing to copy. -/
def execMemoryCheckDone (failing : List Nat) (s : State) : Outcome :=
  if s.mode.mode = .configure ∧ s.mode.admitted = false then
    done (((List.range 128).filter (fun p => failing.contains p)).foldl (fun s p => retirePc p false s) s)
  else .next s

/-! ### Admission charge (R313) -/

/-- Bytes per pixel in eighths: 15 at 4:2:0, 20 at 4:2:2 (R313). -/
def pixelEighths (chroma : Nat) : Nat := if chroma = 0 then 15 else 20

/-- The charge of a video layer of a channel (R313). -/
def videoLayerHbm (s : State) (c : Nat) (v : VLayer) : Nat :=
  if v.srcType = 0 then 0
  else
    let ch := chan s c
    let b := if v.srcType = 1 ∧ (chan s v.src).taken = true then pixelEighths (chan s v.src).chroma else 20
    let size := sourceSize s c v
    let crop := clipCrop size.1 size.2 v.cropCfg
    ceilDiv (crop.getD 2 0 * crop.getD 3 0 * b * rateN ch.rate) (8 * rateD ch.rate)

/-- The charge of a graphics layer of a channel (R313). -/
def graphicsLayerHbm (ch : Chan) (g : GLayer) : Nat := ceilDiv (g.maxW * g.maxH * 5 * rateN ch.rate) (rateD ch.rate)

/-- The charge of a context of a channel, each term rounded up (R313). -/
def contextHbm (ch : Chan) (x : Ctx) : Nat :=
  let w := activeW x.raster / tileCols x.raster
  let b := pixelEighths x.chroma
  let r := pixelRate x.raster ch.rate
  (if x.raster = ch.raster then ceilDiv (r * (b * (4 * w + 1056) + 89 * w)) (8 * w)
   else
    ceilDiv (pixelRate ch.raster ch.rate * pixelEighths ch.chroma) 8 + ceilDiv (r * (b * (3 * w + 1056) + 89 * w)) (8 * w)) +
    ceilDiv x.bMax 2

/-- The HBM charge of a channel, B/s (R313). -/
def channelHbm (s : State) (c : Nat) : Nat :=
  let ch := chan s c
  let xs := ch.ctxs.filterMap (fun x => tget s.enc.ctxs x)
  let r := pixelRate ch.raster ch.rate
  ceilDiv (r * (3 * pixelEighths ch.chroma + 20)) 8 +
    (if xs.any (fun x => x.further && decide (ch.raster < x.raster)) then ceilDiv (5 * r) 2 else 0) +
    sumOf ((cmp s c).v.map (fun e => videoLayerHbm s c e.2)) +
    sumOf ((cmp s c).g.map (fun e => graphicsLayerHbm ch e.2)) +
    sumOf (xs.map (contextHbm ch))

/-- The admission limit, B/s (R313). -/
def hbmLimit (s : State) : Nat := 1520000000000 * (128 - s.drm.order.length) / 128

/-- Whether a channel's charge fits (R20, R313). -/
def hbmFits (s : State) (c : Nat) : Bool := decide (s.drm.charged + channelHbm s c ≤ hbmLimit s)

/-- A channel's charge taken. -/
def takeHbm (c : Nat) (s : State) : State := { s with drm := { s.drm with charged := s.drm.charged + channelHbm s c } }

/-! ### Records (R315) -/

/-- The memory record, type 0x0301 (R315). -/
def recMemory (b : Bytes) (s : State) : State :=
  sized 8 b (fun s =>
    if s.drm.taken then orphan s
    else applied { s with drm := { s.drm with
      taken := true
      scrubH := orDefault (u16 b 0) 24 1 168
      srIdleUs := orDefault (u16 b 2) 100 10 10000
      ceLimit := orDefault (u16 b 4) 1000 1 65535 } }) s

/-- MEMORY_RECORD (R315). -/
def execMemoryRecord (b : Bytes) (s : State) : Outcome := recordCommand 0x0301 b recMemory s

/-- The QoS port record, type 0x0302 (R315). -/
def recQosPort (b : Bytes) (s : State) : State :=
  sized 8 b (fun s =>
    let q := clamp 0 47 (u8 b 0)
    if (qosPort s q).taken then orphan s
    else applied { s with drm := { s.drm with ports := tupd s.drm.ports q {} (fun x =>
      { x with taken := true, floor := some (clamp 0 3 (u8 b 1)), target := orDefault (u32 b 4) 0 100 1000000 }) } }) s

/-- QOS_PORT_RECORD (R315). -/
def execQosPortRecord (b : Bytes) (s : State) : Outcome := recordCommand 0x0302 b recQosPort s

/-! ### Registers (R316) -/

/-- The DRM_DLY_VAL word of a selected lane (R304, R316). -/
def delayWord (s : State) (sel : Nat) : Nat :=
  let k := bitsOf sel 1 0
  let lane := bitsOf sel 9 2
  let w := bitOf sel 10
  let band := (pcOf s (32 * k + Config.laneChannel lane % 32)).band
  let base := Config.delayBase k lane w % 256
  let offset := Config.delayOffset k w band % 256
  packWord [((clampI 0 255 ((base : Int) + toSigned 8 offset)).toNat, 0), (base, 8), (offset, 16)]

/-- The stacks whose self-refresh state passes a test, as bits. -/
def stackBits (s : State) (p : SrState → Bool) : Nat := maskOf ((List.range 4).filter (fun k => p (stack s k).sr)) 4

/-- The memory block's words, visible to the owner (R316). -/
def memoryWord (s : State) (off : Nat) : Nat :=
  if off = 0x6000 then
    packWord [(stackBits s (fun x => x == .asleep), 0), (stackBits s (fun x => x == .exiting), 4), (s.drm.sparesLeft, 8)]
  else if off < 0x6014 then
    let x := stack s ((off - 0x6004) / 4)
    packWord [(ofSigned 9 x.temp, 0), (x.band, 9), (x.rate, 12)]
  else if off < 0x6024 then maskOf (((List.range 32).filter (fun b => (pcOf s (8 * (off - 0x6014) + b)).retired))) 32
  else if off = 0x6024 then s.drm.ceCount
  else if off = 0x6028 then s.drm.ueCount
  else if off = 0x602C then s.drm.scrubPasses
  else if off = 0x6030 then s.drm.srWaits
  else if off = 0x6034 then s.drm.refPostponed
  else if off = 0x6038 then s.drm.limit / 1000000
  else if off = 0x603C then ceilDiv s.drm.charged 1000000
  else if off = 0x6040 then packWord [(s.drm.remapPc, 0), (b2n s.drm.remapActive, 7), (copiedBlocks s, 8)]
  else if 0x6100 ≤ off ∧ off < 0x6280 then
    let q := (off - 0x6100) / 8
    if off % 8 = 0 then packWord [(portTarget s q, 0), (portFloor s q, 20)] else (qosPort s q).u3
  else 0

/-- What a read of one of the block's RC registers clears (R316). -/
def memoryReadClear (off : Nat) (s : State) : State :=
  if off = 0x6024 then { s with drm := { s.drm with ceCount := 0 } }
  else if off = 0x6028 then { s with drm := { s.drm with ueCount := 0 } }
  else if off = 0x6030 then { s with drm := { s.drm with srWaits := 0 } }
  else if off = 0x6034 then { s with drm := { s.drm with refPostponed := 0 } }
  else if 0x6100 ≤ off ∧ off < 0x6280 ∧ off % 8 = 4 then
    { s with drm := { s.drm with ports := tmod s.drm.ports ((off - 0x6100) / 8) (fun x => { x with u3 := 0 }) } }
  else s

end Sys2Proof.Machine
end

