-- ==== Sys2Proof/Machine/Host.lean ====
section
/-! DEFINITION. The host interface: partitions, bindings and sessions, the rings and interrupts of a PCIe function, buffer writes and mode
requests (R426 to R445). -/

namespace Sys2Proof.Machine

/-! ### Records (R427, R429 to R431) -/

/-- The binding record, type 0x0D01 (R429). -/
def recBinding (b : Bytes) (s : State) : State :=
  sized 8 b (fun s =>
    let p := clamp 0 15 (u8 b 0)
    let hp := clamp 0 2 (u8 b 1)
    let f := if hp = 0 then none else some (8 * (hp - 1) + clamp 0 7 (u8 b 2))
    if (part s p).bound || (f.isSome && s.hst.parts.any (fun e => e.2.function == f)) then orphan s
    else applied (setPart s p (fun x =>
      { x with bound := true, function := f, mg := u8 b 3 % 4, sessions := orDefault (u8 b 4) 2 1 2 }))) s

/-- BINDING_RECORD (R429). -/
def execBindingRecord (b : Bytes) (s : State) : Outcome := recordCommand 0x0D01 b recBinding s

/-- The partition key record, type 0x0D02: discarded where its algorithm is another, and where it repeats one (R6, R431). -/
def recPartitionKey (b : Bytes) (s : State) : State :=
  sized 2596 b (fun s =>
    let p := clamp 0 15 (u8 b 0)
    if u16 b 2 ≠ 0x0087 ∨ (part s p).key.isSome = true then orphan s
    else applied (setPart s p (fun x => { x with key := some (bytesAt b 4 2592) }))) s

/-- PARTITION_KEY_RECORD (R431). -/
def execPartitionKeyRecord (b : Bytes) (s : State) : Outcome := recordCommand 0x0D02 b recPartitionKey s

/-- The management port record, type 0x0D03 (R430). -/
def recMgPort (b : Bytes) (s : State) : State :=
  sized 56 b (fun s =>
    let p := clamp 0 1 (u8 b 0)
    if thas s.hst.mgPorts p then orphan s
    else
      let x : MgPort :=
        { udp := orDefault (u16 b 2) 50416 1 65535, v4 := bytesAt b 4 4, v4gw := bytesAt b 8 4, v4len := clamp 0 32 (u8 b 12)
          v6len := clamp 0 128 (u8 b 13), vlan := clamp 0 4094 (u16 b 14), v6 := bytesAt b 16 16, v6gw := bytesAt b 32 16
          mac := if allZero (bytesAt b 48 6) then fusedMac (16 + p) else bytesAt b 48 6 }
      applied { s with hst := { s.hst with mgPorts := tset s.hst.mgPorts p x } }) s

/-- MANAGEMENT_PORT_RECORD (R430). -/
def execManagementPortRecord (b : Bytes) (s : State) : Outcome := recordCommand 0x0D03 b recMgPort s

/-- The partition channel record, type 0x0D04: the first record that sets a bit takes the object, and a bit set again is ignored and
counted (R427). -/
def recPartitionChannel (b : Bytes) (s : State) : State :=
  sized 16 b (fun s =>
    if u8 b 0 = 0 then orphan s
    else
      let p := clamp 1 15 (u8 b 0)
      let chans := u64 b 4
      let decs := u32 b 12
      let dupC := (List.range 64).filter (fun i => bitOf chans i && s.hst.parts.any (fun e => bitOf e.2.channels i))
      let dupD := (List.range 32).filter (fun i => bitOf decs i && s.hst.parts.any (fun e => bitOf e.2.decode i))
      let newC := maskOf ((List.range 64).filter (fun i => bitOf chans i && !dupC.contains i)) 64
      let newD := maskOf ((List.range 32).filter (fun i => bitOf decs i && !dupD.contains i)) 32
      let s := setPart s p (fun x => { x with channels := x.channels + newC, decode := x.decode + newD })
      applied { s with hst := { s.hst with
        assignConflicts := bumpBy 16 s.hst.assignConflicts (dupC.length + dupD.length) } }) s

/-- PARTITION_CHANNEL_RECORD (R427). -/
def execPartitionChannelRecord (b : Bytes) (s : State) : Outcome := recordCommand 0x0D04 b recPartitionChannel s

/-! ### Functions and rings (R428, R438) -/

/-- What a PCIe function presents of itself: vendor, device, subsystem vendor and subsystem device, revision and class code (R428,
R460). -/
def pcieIdentifiers : List Nat := [0x1F6E, 0x8416, 0x1F6E, 0x8416, Config.stepping % 256, 0x0480]

/-- The partition a PCIe function is bound to, where its endpoint is not fenced (R428, R429, R445). -/
def boundPart (s : State) (f : Nat) : Option Nat :=
  if f < 16 ∧ s.hst.ringFaults.contains (f / 8) = false then partOf s f else none

/-- A message or frame discarded is counted and reported (R432, R436, R445). -/
def badFrame (p : Nat) (s : State) : State :=
  raise 0x1D0 p (setPart s p (fun x => { x with badFrames := bump32 x.badFrames }))

/-- The request ring enters error (R438, R442). -/
def ringError (f p : Nat) (s : State) : State :=
  raise 0x1D2 p (setRing s f (fun r => setCause { r with err := true } causeRingErr))

/-- The request ring is reset: both counts to 0, the error cleared (R438). -/
def resetRing (f : Nat) (s : State) : State := setRing s f (fun r => { r with reqTail := 0, reqHead := 0, err := false })

/-- HST_RING_RESET (R438). -/
def execHstRingReset (f : Nat) (s : State) : Outcome :=
  match boundPart s f with
  | some _ => .next (resetRing f s)
  | none => .next s

/-- The host's reply head moves, and what waited for room is written; the completions held for it are released (R293, R438). -/
def writeRplHead (f head : Nat) (s : State) : State :=
  releaseAnswered (setRing s f (fun r => let r := { r with rplHead := head % 2 ^ 32 }; ringFlush r r.waiting))

/-- HST_RPL_HEAD_WRITE (R438). -/
def execHstRplHeadWrite (f head : Nat) (s : State) : Outcome :=
  match boundPart s f with
  | some _ => .next (writeRplHead f head s)
  | none => .next s

/-- The requests taken over a transport that has gone are answered to nobody, and the replies behind them are released (R284). -/
def dropTransport (transport : Nat) (s : State) : State :=
  (List.range 16).foldl (fun s p =>
    if (part s p).slots.any (fun sl => sl.transport == transport) then
      let s := setPart s p (fun x => { x with slots := x.slots.filter (fun sl => sl.transport != transport) })
      releaseReplies s p (part s p).slots
    else s) s

/-- FUNCTION_LEVEL_RESET (R428): the function's rings are disabled, and the replies and events held for it are discarded. -/
def execFunctionLevelReset (f : Nat) (s : State) : Outcome :=
  if f < 16 then .next (releaseAnswered (dropTransport f (setRing s f (fun r => { r with en := false, waiting := [] })))) else .next s

/-! ### Interrupts (R442) -/

/-- The moderation interval ends: causes that came in it and are still set may raise their vector again (R442). -/
def endModeration (r : Ring) : Ring :=
  let due := (List.range 6).filter (fun i => bitOf r.deferred i && bitOf r.cause i)
  due.foldl (fun r i => raiseCause r i) { r with moderating := 0, deferred := 0 }

/-- INTERRUPT_MODERATION_EXPIRY (R442). -/
def execInterruptModerationExpiry (f : Nat) (s : State) : Outcome :=
  if f < 16 then .next (setRing s f endModeration) else .next s

/-- HST_INT_CAUSE_CLEAR (R442). -/
def execHstIntCauseClear (f mask : Nat) (s : State) : Outcome :=
  match boundPart s f with
  | some _ => .next (setRing s f (fun r => { r with cause := w1c r.cause mask }))
  | none => .next s

/-! ### Sessions (R431 to R433) -/

/-- SESSION_HELLO (R431, R433, R439): one received in M1 waits for M2. -/
def execSessionHello (port p peer : Nat) (s : State) : Outcome :=
  if s.mode.mode = .boot then .next { s with hst := { s.hst with hellos := s.hst.hellos ++ [(port, p, peer)] } }
  else if serves s.mode.mode then .next (answerHello port p peer s)
  else .next s

/-- A session ends: its key is zeroised, its view goes with it, and requests it left are answered to nobody (R433). -/
def endSession (i : Nat) (s : State) : State :=
  dropTransport (16 + i) { s with hst := { s.hst with
    sessions := tdel s.hst.sessions i, views := tdel s.hst.views (16 + i) } }

/-- A second of uptime (R444). -/
def uptimeSecond : Nat := 2700000000

/-- Ten seconds of uptime (R433, R444). -/
def tenSeconds : Nat := 10 * uptimeSecond

/-- SESSION_IDLE_TIMEOUT (R433): 60 s after its last valid frame the session ends. -/
def execSessionIdleTimeout (i : Nat) (s : State) : Outcome :=
  match tget s.hst.sessions i with
  | none => .next s
  | some x => .next (endSession i (afterUptime (x.lastFrame + 60 * uptimeSecond) s))

/-- A failed authentication is reported; the fourth within 10 s has hellos for the partition ignored (R433). -/
def failAuth (p : Nat) (s : State) : State :=
  let now := s.mtb.uptime
  let l := now :: (part s p).authFails.filter (fun t => decide (now < t + tenSeconds))
  raise 0x1D1 p (setPart s p (fun x => { x with authFails := l, lockout := x.lockout || decide (4 ≤ l.length)
                                                lockoutUntil := if 4 ≤ l.length then now + tenSeconds else x.lockoutUntil }))

/-- AUTH_LOCKOUT_EXPIRY (R433), 10 s after the lockout began. -/
def execAuthLockoutExpiry (p : Nat) (s : State) : Outcome :=
  if (part s p).lockout then .next (setPart (afterUptime (part s p).lockoutUntil s) p (fun x => { x with lockout := false, authFails := [] })) else .next s

/-! ### Commands (R436, R441) -/

/-- MAILBOX_UNKNOWN_OPCODE (R436): judged after the partition, before owner and mode. -/
def cmdMailboxUnknownOpcode (opcode : Nat) (r : Req) (s : State) : State :=
  takeRequest opcode false (fun _ => true) r (fun p s => reply p r opcode .unknownOpcode false [] s) s

/-- MAILBOX_UNKNOWN_OPCODE (R436). -/
def execMailboxUnknownOpcode (opcode : Nat) (r : Req) (s : State) : Outcome := done (cmdMailboxUnknownOpcode (opcode % 65536) r s)

/-- HST_NOP, opcode 0x0D31: the payload, echoed (R441). -/
def cmdHstNop (r : Req) (s : State) : State :=
  takeRequest 0x0D31 false (fun _ => true) r (fun p s =>
    reply p r 0x0D31 .ok (decide (4092 < (payloadOf r).length) || lenClamped r) ((payloadOf r).take 4092) s) s

/-- HST_NOP (R441). -/
def execHstNop (r : Req) (s : State) : Outcome := done (cmdHstNop r s)

/-- Whether a range lies wholly inside one graphics slot of a channel in a partition's scope (R441). -/
def inSlot (s : State) (p addr len : Nat) : Bool :=
  s.cmps.any (fun e => ownsChannel s p e.1 && e.2.g.any (fun g =>
    [g.2.addrA, g.2.addrB].any (fun a => decide (a ≤ addr ∧ addr + len ≤ a + slotBytes g.2))))

/-- The modes of HST_BUF_WRITE: M3 to M8 (R439). -/
def bufLegal (m : Mode) : Bool := writeLegal m

/-- HST_BUF_WRITE, opcode 0x0D32, with inline data: the reply comes once they are written (R441). -/
def cmdHstBufWriteInline (r : Req) (s : State) : State :=
  takeRequest 0x0D32 false bufLegal r (fun p s =>
    let b := payloadOf r
    let len := min (u32 b 8) (min 4064 (b.length - 16))
    if inSlot s p (u64 b 0) len = false then reply p r 0x0D32 .notInPartition false [] s
    else writeBuffer { req := r, addr := u64 b 0, data := bytesAt b 16 len, clamped := len != u32 b 8 || lenClamped r } s) s

/-- HST_BUF_WRITE inline (R441). -/
def execHstBufWriteInline (r : Req) (s : State) : Outcome := done (cmdHstBufWriteInline r s)

/-- HST_BUF_WRITE, opcode 0x0D32, pulled from host memory: the reply waits for the pull; a session has no host memory (R441). One pull
at a time runs over a function. -/
def cmdHstBufWritePull (r : Req) (s : State) : State :=
  takeRequest 0x0D32 false bufLegal r (fun p s =>
    let b := payloadOf r
    let len := min (u32 b 8) 67108864
    if inSlot s p (u64 b 0) len = false then reply p r 0x0D32 .notInPartition false [] s
    else if 16 ≤ r.transport then reply p r 0x0D32 .notReady false [] s
    else if thas s.hst.pulls r.transport then busy p r 0x0D32 s
    else
      let pull : Pull := { req := r, addr := u64 b 0, len := len, clamped := len != u32 b 8 || decide (1 < u8 b 12) || lenClamped r }
      { s with hst := { s.hst with pulls := tset s.hst.pulls r.transport pull } }) s

/-- HST_BUF_WRITE pull (R441). -/
def execHstBufWritePull (r : Req) (s : State) : Outcome := done (cmdHstBufWritePull r s)

/-- HOST_DMA_PULL_DONE (R440, R441): the data is written and the request answered, where the mode still allows it. -/
def execHostDmaPullDone (f : Nat) (data : Bytes) (s : State) : Outcome :=
  match tget s.hst.pulls f with
  | none => .next s
  | some x =>
    let s := { s with hst := { s.hst with pulls := tdel s.hst.pulls f } }
    if bufLegal s.mode.mode then
      done (writeBuffer { req := x.req, addr := x.addr, data := fit x.len data, clamped := x.clamped } s)
    else done (replyTo x.req 0x0D32 .wrongMode false [] s)

/-- HST_MODE_REQ, opcode 0x0D33: the request is held until its tick; a second one held is refused with BUSY, a run
request with the root on FRC with NOT_READY (R13, R15, R370, R441). -/
def cmdHstModeReq (k : HeldKind) (r : Req) (s : State) : State :=
  takeRequest 0x0D33 true (requestLegal k) r (fun p s =>
    if s.mode.held.isSome then busy p r 0x0D33 s
    else if k == HeldKind.run && s.clk.rootFrc then reply p r 0x0D33 .notReady false [] s
    else
      let h : Held := { kind := k, req := r, clamped := decide (1 < u8 (payloadOf r) 0) || lenClamped r }
      { s with mode := { s.mode with held := some h } }) s

/-- HST_MODE_REQ_QUIESCENT (R13). -/
def execHstModeReqQuiescent (r : Req) (s : State) : Outcome := done (cmdHstModeReq .quiescent r s)

/-- HST_MODE_REQ_RUN (R13). -/
def execHstModeReqRun (r : Req) (s : State) : Outcome := done (cmdHstModeReq .run r s)

end Sys2Proof.Machine
end

