-- ==== Sys2Proof/Machine/Ticks.lean ====
section
/-! DEFINITION. Sample, frame and row ticks, the millisecond and the whole second of the MTB, and the shadow sets (R25, R32 to R42,
R55 to R59, R97, R249, R250, R261, R449). -/

namespace Sys2Proof.Machine

/-! ### Shadow sets (R39 to R42, R97) -/

/-- One committed change takes effect at frame n of a channel. -/
def applyChange (c n : Nat) (change : ShadowChange) (s : State) : State :=
  match change with
  | .nothing => s
  | .bitrate x kbps => applyBitrate x kbps n s
  | .acknowledge x poc => applyAcknowledge x poc n s
  | .loss x => applyLoss x s
  | .correction x g => applyCorrection x g s
  | .layer l srcType src opacity visible => applyLayer c l srcType src opacity visible s
  | .graphics l visible pos slot => applyGraphics c l n visible pos slot s
  | .expected k v => applyExpected c k v s
  | .portRestart port => restartPort port s
  | .splice flow writePts b => applySplice flow n writePts b s
  | .sei _ _ _ | .rate _ _ _ | .gates _ _ _ _ _ => s

/-- Whether a change is an acknowledgement, which comes first in the order of a frame tick (R97). -/
def isAck (k : ShadowChange) : Bool := match k with | .acknowledge _ _ => true | _ => false

/-- At frame tick n the shadow set of a channel is copied: what is due takes effect, acknowledgements first and otherwise in the
order of commitment, so that a later write stands (R39, R40, R42, R97). -/
def applyShadow (c n : Nat) (s : State) : State :=
  let due := (chan s c).shadow.filter (fun k => decide (k.frame ≤ n))
  let s := modChan s c (fun h => { h with shadow := h.shadow.filter (fun k => !decide (k.frame ≤ n)) })
  let s := (due.filter (fun k => isAck k.change)).foldl (fun s k => applyChange c n k.change s) s
  (due.filter (fun k => !isAck k.change)).foldl (fun s k => applyChange c n k.change s) s

/-- SHADOW_COMMIT (R39, R42): the control plane commits a change, for a named frame or, with target 0, for the next open one. In a
pair the deciding device names the frame (R264). -/
def execShadowCommit (c target : Nat) (change : ShadowChange) (s : State) : Outcome :=
  if changeLegal s.mode.mode = true ∧ chanRunning s c = true then done (changeOf c target change s) else .next s

/-- SHADOW_APPLY (R39, R42): at frame tick `frame` what is due is copied into the active set. -/
def execShadowApply (c frame : Nat) (s : State) : Outcome :=
  if ticking s = true ∧ chanRunning s c = true then
    match atTime (frameTickAt (chan s c).rate frame) s with
    | none => .next s
    | some s => done (applyShadow c frame s)
  else .next s

/-! ### Sample ticks (R32, R35) -/

/-- Whether an audio programme belongs to a channel that runs. -/
def programmeRuns (s : State) (p : Nat) : Bool := ticking s && chanRunning s (programme s p).channel

/-- Context slot of the audio fingerprint of a programme: of the frame in progress, or of the next (R249, R358). -/
def audioSlot (p : Nat) (next : Bool) : Nat := 4 * p + (if next then 3 else 2)

/-- A sample of a programme fed to its audio fingerprint; one at or past the next frame tick belongs to the next frame (R250). -/
def feedAudio (t : Nat) (s : State) (p : Nat) : State :=
  let pg := programme s p
  if programmeRuns s p && !s.cvu.fpSuspended then
    let ch := chan s pg.channel
    match ch.lastFrame with
    | none => s
    | some n =>
      let key := audioSlot p (decide (frameTickAt ch.rate (n + 1) ≤ t))
      let slots := tupd s.cvu.slots key (crcPreset 4).i (fun v => crcRun (crcPreset 4) 8 v (symbols (Config.packedAudio pg.carriage pg.bits pg.words)))
      { s with cvu := { s.cvu with slots := slots } }
  else s

/-- What a sample tick does once the inputs and outputs have run: the flows take their samples and the fingerprints of the programmes are
fed (R203, R250). -/
def feedSample (n : Nat) (s : State) : State :=
  let s := egressSample n s
  (tkeys s.aud.programmes).foldl (fun s p => feedAudio (sampleTickAt n) s p) s

/-- SAMPLE_TICK (R32, R35): whenever the MTB counts. In the modes in which audio runs, inputs, members, programmes and outputs take their
sample; rate changes take effect, audio packets are queued and the audio fingerprints are fed (R214). -/
def execSampleTick (n : Nat) (env : SampleEnv) (s : State) : Outcome :=
  match atTime (sampleTickAt n) s with
  | none => .next s
  | some s =>
    let s := dropHeldLive s
    done (if ticking s then feedSample n (audioTick n env.underruns (ratesAtTick n s)) else ratesAtTick n s)

/-! ### Frame ticks (R32) -/

/-- The audio fingerprints of a channel's programmes for the frame that ended are final (R250). -/
def finishAudio (c ended : Nat) (s : State) : State :=
  (tkeysOf s.aud.programmes (fun _ p => p.channel == c)).foldl (fun s p =>
    match tget s.cvu.slots (audioSlot p false) with
    | none => s
    | some v =>
      let slots := tdel s.cvu.slots (audioSlot p false)
      let slots := match tget slots (audioSlot p true) with
        | some w => tset (tdel slots (audioSlot p true)) (audioSlot p false) w
        | none => slots
      localPrint ⟨.audio p ended, crcFinal (crcPreset 4) v, false⟩ { s with cvu := { s.cvu with slots := slots } }) s

/-- Every spare on floor duty for a channel takes over its engine's work at the channel's frame tick (R66). -/
def takeOvers (c n : Nat) (s : State) : State :=
  (List.range 18).foldl (fun s e => if (engine s e).st = .floorDuty then takeOver e c n s else s) s

/-- What a channel does at frame tick n, in the order of R97, R168 and R195: the shadow set, spares, restarts, the group, the layers,
the contexts, the outputs. DESIGN CHOICE: ENC_CH_FRAMES goes on counting when running resumes after M7 or M9, since R70 does not say
that it starts again (log entry 111). -/
def channelTick (c n : Nat) (env : FrameEnv) (s : State) : State :=
  let ended := (chan s c).lastFrame
  let s := applyShadow c n s
  let s := takeOvers c n s
  let s := restartsAtTick c s
  let s := match ended with | some m => finishAudio c m s | none => s
  let s := modChan s c (fun h =>
    { h with lastFrame := some n, tickMgt := some s.mtb.mgt, frames := if codesFrame s c n then h.frames + 1 else h.frames })
  let s := ingestTick c n ended s
  let s := composeTick c n s
  let s := (chan s c).ctxs.foldl (ctxFrameTick n env) s
  let s := confidenceTick c n s
  let s := egressTick c n s
  completeApplied c n s

/-- FRAME_TICK (R32, R35). -/
def execFrameTick (c n : Nat) (env : FrameEnv) (s : State) : Outcome :=
  let ch := chan s c
  let fresh := match ch.lastFrame with | some m => decide (m < n) | none => true
  if ticking s = true ∧ chanRunning s c = true ∧ fresh = true then
    match atTime (frameTickAt ch.rate n) s with
    | none => .next s
    | some s => done (channelTick c n env (dropHeldLive s))
  else .next s

/-! ### Row ticks (R34, R36, R55 to R59) -/

/-- The 16 bytes of a video layer in the prefix of row 0: the presentation time in ns and the decode fingerprint of the picture
latched at the frame tick, all ones when the layer is not ready (R249). -/
def layerPrint (v : VLayer) : Bytes :=
  if v.srcType = 2 then
    match v.latched with
    | some r => le 8 r.1 ++ le 8 r.2
    | none => List.replicate 16 255
  else []

/-- The bytes of an input fingerprint (R249). -/
def inputBytes (s : State) (c n row : Nat) (lines : List Bytes) : Bytes :=
  (if row = 0 then
    le 8 n ++ (List.range 4).flatMap (fun l => match tget (cmp s c).v l with | some v => layerPrint v | none => [])
  else []) ++ lines.flatMap id

/-- The lines of a row pass the tap of their channel's ingest picture; the last row's last line ends the picture (R355). -/
def tapRow (c : Nat) (lines : List Bytes) (last : Bool) (s : State) : State :=
  if last then tapLines 4 c lines s else lines.foldl (fun s l => tapSymbols 4 c (symbols l) [2] s) s

/-- The lines of a row of the ingest picture, in the byte form of R172. -/
def ingestBytes (s : State) (c n row : Nat) : List Bytes :=
  let ch := chan s c
  let p := pictureAt (tgetD s.ing.pics c []) n
  (rowLineNumbers ch.raster row).map (fun y =>
    let l := tgetD p.lines y {}
    regionLineBytes ch.chroma y l.y l.cb l.cr)

/-- The arrival tick of a source row: its shares are judged, its lines stand in the ingest picture, and the input fingerprint is final
(R191 to R194, R249, R355). -/
def rowArrives (c n row : Nat) (s : State) : State :=
  let s := ingestRow c n row s
  let lines := ingestBytes s c n row
  let s := tapRow c lines (decide (row + 1 = ctuRows (chan s c).raster)) s
  localPrint ⟨.input c n row, crcPresetOf 4 (inputBytes s c n row lines), rowStatus s c⟩ s

/-- The analysis of a row closes: its fields, on the source context scene-cut detection, and in a cut picture the rows in which the cut acts
and the history below its cut row (R128 to R136). DESIGN CHOICE: at L = 3 a cut acts in a rendition from the row after the rendition's own
first cut row; R136 names only row c + 1 of the source (log entry 143). -/
def rowAnalysed (c n x row : Nat) (env : RowEnv) (s : State) : State :=
  let ch := chan s c
  let source := ch.ctxs.head? == some x
  let missed := missedTiles s env c x row source
  let s := analysisCloses n row env x s
  match tget s.enc.ctxs x, picOf s x n with
  | some k, some p =>
    let s := if source then
        detectCut c n row (ctuRows ch.raster) p.starts (!missed.isEmpty) (tgetD p.changed row 0)
          (rowBlocks ch.raster row) s else s
    if firstCutRow s c ch.raster n row k then
      modPic s x n (fun k p =>
        (if k.ratesAt = p.seq then cutHistory row k p else k, { p with cutAt := some (if lowDelay ch then row + 1 else row) }))
    else s
  | _, _ => s

/-- The entropy-coding interval of a row closes: the row is packetised, with the filler data NAL unit behind the picture's last row, and
its output fingerprint is final (R55, R108, R250). -/
def rowFinished (n x row : Nat) (env : RowEnv) (s : State) : State :=
  match picOf s x n with
  | none => s
  | some _ =>
    let b := (env.outputBytes.find? (fun e => e.1 == x)).elim [] (fun e => e.2)
    let s := entropyCloses n row env x s
    let filler := match tget s.enc.ctxs x, picOf s x n with
      | some c, some p => if row + 1 = ctuRows c.raster then p.filler else 0
      | _, _ => 0
    let s := sendProduced (packetiseRow x n row (b.map (fun u => u.length)) filler s)
    localPrint ⟨.output x n row, crcPresetOf 4 b.flatten, false⟩ s

/-- The contexts of a channel on a lattice that code, in order (R59). -/
def latticeCtxs (s : State) (c lattice : Nat) : List Nat :=
  (chan s c).ctxs.filter (fun x => match tget s.enc.ctxs x with | some k => k.raster == lattice && !k.stopped | none => false)

/-- Every row of a lattice's contexts that is a number of row ticks past its arrival tick takes a step. -/
def onRows (c lattice m d : Nat) (f : Nat → Nat → State → State) (s : State) : State :=
  (latticeCtxs s c lattice).foldl (fun s x =>
    (rowsAt (chan s c).raster lattice m d).foldl (fun s r => f x r s) s) s

/-- What a channel does at row tick m of frame n on a lattice: rows k ticks past their arrival close and open their stages (Table 3 of
the tick chapter; at L = 3 analysis and coding run together, R56). -/
def rowTick (c n m : Nat) (env : RowEnv) (s : State) : State :=
  let ch := chan s c
  let lattice := env.lattice
  let low := lowDelay ch
  let s := modChan s c (fun h => { h with rowTicks := tset h.rowTicks lattice (256 * n + m) })
  let s := if lattice = ch.raster then
      (rowsAt lattice lattice m 1).foldl (fun s r => composeCloses c n r env s) s else s
  let s := onRows c lattice m 2 (fun x r s => rowAnalysed c n x r env s) s
  let s := onRows c lattice m 2 (fun x _ s => clearBroken c (ch.ctxs.head? == some x) s) s
  let s := onRows c lattice m (if low then 2 else 3)
    (fun x r s => confidenceRow x n (codingCloses n r env x s)) s
  let s := onRows c lattice m (codingOpens ch) (fun x r s => codingOpensRow n r x s) s
  let s := onRows c lattice m (if low then 3 else 4) (fun x r s => rowFinished n x r env s) s
  if lattice = ch.raster then
    (rowsAt lattice lattice m 0).foldl (fun s r => rowArrives c n r s) s else s

/-- ROW_TICK (R32, R34, R35): row ticks 1 to R + 33 of a frame, on the lattice of the channel or of a further context. -/
def execRowTick (c n m : Nat) (env : RowEnv) (s : State) : Outcome :=
  let ch := chan s c
  let known := env.lattice == ch.raster || !(latticeCtxs s c env.lattice).isEmpty
  if ticking s = true ∧ chanRunning s c = true ∧ known = true ∧ 1 ≤ m ∧ m ≤ ctuRows ch.raster + 33 ∧
      tget ch.rowTicks env.lattice ≠ some (256 * n + m) then
    match atTime (rowTickAt env.lattice ch.rate n m) s with
    | none => .next s
    | some s => done (rowTick c n m env (dropHeldLive s))
  else .next s

/-! ### Milliseconds and whole seconds (R261, R348, R449) -/

/-- MTB_MILLISECOND (R261, R348). -/
def execMtbMillisecond (m : Nat) (s : State) : Outcome :=
  match atTime (m * msUnit) s with
  | none => .next s
  | some s => done (sendTreeHeartbeat (driveHeartbeat m s))

/-- Whether PPS_OUT is driven: in M2 to M8 while the MTB is valid and no trip holds the outputs safe (R17, R449). -/
def ppsDriven (s : State) : Bool :=
  s.mtb.valid && !s.pins.forcedSafe && (match s.mode.mode with
    | .configure | .solo | .active | .standby | .resync | .quiescent | .update => true
    | _ => false)

/-- What happens at a whole second: PPS_OUT rises where it is driven, and each unit does what its rule says happens once per second
(R449). -/
def secondTick (sec : Nat) (s : State) : State :=
  let s := { s with pins := { s.pins with ppsOut := ppsDriven s, ppsFallAt := s.mtb.t + msUnit } }
  let s := tapSecond (slackSecond (audioSecond (restartsAtSecond (memorySecond s))))
  healthSecond (utilSecond (egressSecond sec s))

/-- MTB_WHOLE_SECOND (R449). -/
def execMtbWholeSecond (sec : Nat) (s : State) : Outcome :=
  match atTime (sec * secUnit) s with
  | none => .next s
  | some s => done (secondTick sec s)

end Sys2Proof.Machine
end

