-- ==== Sys2Proof/Machine/Boot.lean ====
section
/-! DEFINITION. The pass through Configure (M2): the configuration slot and its records, admission, the end of M2, and the held owner
request at its tick (R13 to R15, R20, R30, R143, R403 to R409). -/

namespace Sys2Proof.Machine

/-! ### The records of an image (R405 to R407) -/

/-- What applies a record of a type, but for key and enrolment records; none for a type this manual does not define (R405, R407). -/
def recordBody (type : Nat) : Option (Bytes → State → State) :=
  match type with
  | 0x0000 => some recPadding
  | 0x0101 => some recGpio
  | 0x0201 => some recSupply
  | 0x0220 => some recMtb
  | 0x0301 => some recMemory
  | 0x0302 => some recQosPort
  | 0x0401 => some recEthPort
  | 0x0402 => some recValsin
  | 0x0501 => some recIngressFlow
  | 0x0502 => some recAlignmentGroup
  | 0x0503 => some recGroupMember
  | 0x0601 => some recAesIn
  | 0x0602 => some recAesOut
  | 0x0603 => some recProgramme
  | 0x0701 => some recCompositor
  | 0x0702 => some recVideoLayer
  | 0x0703 => some recGraphicsLayer
  | 0x0704 => some recSlateData
  | 0x0705 => some recTopiaryRegion
  | 0x0801 => some recEncodeChannel
  | 0x0802 => some recEncodeContext
  | 0x0803 => some recContextCoding
  | 0x0804 => some recChannelColour
  | 0x0805 => some recRateControl
  | 0x0806 => some recCoppice
  | 0x0820 => some recDecodeContext
  | 0x0901 => some recEgressFlow
  | 0x0902 => some recFlowGroup
  | 0x0903 => some recPortClass
  | 0x0904 => some recGateList
  | 0x0905 => some recIngressPolicer
  | 0x0A01 => some recPair
  | 0x0B01 => some recHedgerow
  | 0x0C01 => some recSeverity
  | 0x0C02 => some recGeneralFault
  | 0x0D01 => some recBinding
  | 0x0D02 => some recPartitionKey
  | 0x0D03 => some recMgPort
  | 0x0D04 => some recPartitionChannel
  | 0x0E01 => some recPartitionQuota
  | 0x0F01 => some recGeneralUnit
  | _ => none

/-- The place of a type in the order that lets every record find the objects it names, wherever they stand in the image (R407). -/
def recordPass (type : Nat) : Nat :=
  match type with
  | 0x0801 | 0x0220 => 0
  | 0x0802 => 1
  | 0x0401 | 0x0402 | 0x0501 | 0x0502 | 0x0601 | 0x0603 | 0x0701 | 0x0902 | 0x0D10 => 2
  | 0x0F01 => 4
  | _ => 3

/-- One record of an image applied; the list holds the results of the AES-GCM tags of the key records still to come (R409, R412). -/
def applyRecord (enrolling : Bool) (a : State × List Bool) (r : Nat × Bytes) : State × List Bool :=
  if r.1 = 0x0D10 then (recKey (a.2.headD false) r.2 a.1, a.2.tail)
  else if r.1 = 0x0D20 then (if enrolling then applied a.1 else unknownRecord a.1, a.2)
  else
    match recordBody r.1 with
    | some f => (f r.2 a.1, a.2)
    | none => (unknownRecord a.1, a.2)

/-- Every record of the image in force, in record order among those that do not depend on each other (R407). -/
def applyRecords (enrolling : Bool) (tags : List Bool) (s : State) : State :=
  let image := s.sec.image
  ((List.range 5).foldl (fun a k => (image.filter (fun r => recordPass r.1 == k)).foldl (applyRecord enrolling) a) (s, tags)).1

/-- CONFIG_SLOT_VERIFY (R400, R403, R404): the preferred slot first, then the other; a slot that passes has its records applied, and
when both fail the device halts. HBM is trained from the fused delays first, before the memory check that follows (R305, R16). -/
def execConfigSlotVerify (x : CfgSlot) (s : State) : Outcome :=
  if s.mode.mode = .configure ∧ s.mode.configured = false ∧ x.slot < 2 ∧ tgetD s.sec.cfgFail x.slot 0 = 0 then
    let s := if s.sec.cfgFail.isEmpty then readSelector x.selectors s else s
    if s.sec.cfgFail.isEmpty ∧ x.slot ≠ s.sec.selCfg then .next s
    else
      let code := configCode x true s
      let enrolling := !s.sec.fuses.enrolled
      let s := { s with sec := { s.sec with cfgFail := tset s.sec.cfgFail x.slot code } }
      if code = 1 then done (applyRecords enrolling x.keyTags (takeConfig x (trainMemory s)))
      else
        let s := raise 0x1C0 (2 + x.slot) s
        if thas s.sec.cfgFail (1 - x.slot) then done (enterMode .halt (settle s)) else done s
  else .next s

/-! ### Admission (R5, R20, R51, R68, R69, R74, R88, R104, R105, R143) -/

/-- The channels of the image in record order, each once (R20). -/
def channelOrder (s : State) : List Nat :=
  (((s.sec.image.filter (fun r => r.1 == 0x0801 && decide (8 ≤ r.2.length))).map (fun r => clamp 0 63 (u8 r.2 0))).reverse.dedup).reverse

/-- The decode contexts of the image in record order, each once (R143). -/
def decodeOrder (s : State) : List Nat :=
  (((s.sec.image.filter (fun r => r.1 == 0x0820 && decide (16 ≤ r.2.length))).map (fun r => clamp 0 31 (u8 r.2 0))).reverse.dedup).reverse

/-- The bitrates, X, the level and the sweep of a context fixed, and its parameter sets built (R74, R83, R88, R105, R108). -/
def fixContext (ch : Chan) (s : State) (x : Nat) : State :=
  modCtx s x (fun c => storeSets ch (sweepValues ch.rate (fixRates ch c)))

/-- Whether a channel passes what admission asks before the four resources (R68, R69, R188, R226, R317, R412). -/
def structureFits (s : State) (c : Nat) : Bool :=
  !(chan s c).dup && !(chan s c).ctxs.isEmpty && groupFits s c && flowsSound s c

/-- A channel refused: it consumes nothing, and its state and cause are its NO_CAPACITY report (R20, R70). -/
def refuseChannel (c cause : Nat) (s : State) : State :=
  refuseEgress c (modChan s c (fun h => { h with st := 2, refused := cause }))

/-- One channel admitted or refused: its structure, then engine share, HBM, dispatcher and egress, stopping at the first that does
not fit; its engines are taken only once all fit (R20, R52). -/
def admitChannel (s : State) (c : Nat) : State :=
  let s := (chan s c).ctxs.foldl (fixContext (chan s c)) s
  if structureFits s c = false then refuseChannel c 5 s
  else
    match placeChannel s (chan s c) with
    | none => refuseChannel c 1 s
    | some (cols, group, charge) =>
      if hbmFits s c = false then refuseChannel c 2 s
      else if dispatcherFits s c = false then refuseChannel c 3 s
      else if egressFits s c = false then refuseChannel c 4 s
      else
        let s := takeAnalysers c (takeEngines c cols group charge s)
        let s := takeEgress c (takeDispatcher c (takeHbm c s))
        modChan s c (fun h => { h with st := 1, refused := 0 })

/-- ADMISSION (R20, R143): every channel in record order, then every decode context; with it the pair digest can be formed (R246). -/
def execAdmission (s : State) : Outcome :=
  if s.mode.mode = .configure ∧ s.mode.configured = true ∧ s.mode.admitted = false then
    let s := settleOutputs (settleLayers { s with drm := { s.drm with limit := hbmLimit s } })
    let s := (channelOrder s).foldl admitChannel s
    let s := settlePllS (settleSdiOuts ((decodeOrder s).foldl (admitDecode (hbmLimit s)) (s, [])).1)
    done (leaveConfigure (compareDigest { s with mode := { s.mode with admitted := true } }))
  else .next s

/-! ### The end of M2 (R30) -/

/-- CONFIGURE_COMPLETE (R13, R30): with admission done and the servo having reached LOCKED, of which CLK_MTB_VALID is the record
when it has left LOCKED again, the device leaves M2. -/
def execConfigureComplete (s : State) : Outcome :=
  if s.mode.mode = .configure ∧ s.mode.admitted = true ∧ (s.mtb.servo = 2 ∨ s.mtb.valid = true) then
    done (leaveConfigure { s with mode := { s.mode with complete := true } })
  else .next s

/-- CONFIGURE_MTB_TIMEOUT (R30): with no listed source present, 2 × CLK_MTB_LOSS_MS after entry to M2 its wait for the servo
ends. -/
def execConfigureMtbTimeout (s : State) : Outcome :=
  if s.mode.mode = .configure ∧ s.mode.configured = true ∧ s.mode.complete = false ∧ selectedSource s = 0 then
    let s := noEarlier (s.mode.m2Start + 2 * s.mtb.lossMs * msUnit) s
    done (leaveConfigure { s with mode := { s.mode with complete := true } })
  else .next s

/-! ### The held owner request (R13 to R15) -/

/-- The machine at the frame tick or, where no channel runs, the whole second that a held request waits for: the one of the present
MGT cycle, or else the next (R15, R33). -/
def atRequestTick (s : State) : State :=
  let next := fun (tick : Nat → Nat) (n : Nat) => if s.mtb.t < tick n + s.mtb.inc then s else noEarlier (tick (n + 1)) s
  match refChannel s with
  | some c =>
    let rate := (chan s c).rate
    next (frameTickAt rate) (frameNow rate s.mtb.t)
  | none => next (fun n => n * secUnit) (secOf s.mtb.t)

/-- The reply of HST_MODE_REQ once its transition is complete: u8 new mode code (R441). -/
def answerMode (h : Held) (s : State) : State :=
  replyTo h.req 0x0D33 .ok h.clamped [BitVec.ofNat 8 (modeCode s.mode.mode)] s

/-- A held request is acted on in the present mode (R13, R370). -/
def actOnRequest (h : Held) (s : State) : State :=
  if s.mode.mode = .quiescent ∧ s.clk.rootFrc = true then replyTo h.req (heldOpcode h.kind) .notReady false [] s
  else
    match h.kind with
    | .quiescent => answerMode h (enterMode .quiescent s)
    | .run => answerMode h (enterRun s)
    | .update => beginUpdate h s
    | .swap => nameSwap h s

/-- MODE_REQUEST_EXECUTE (R14, R15): at its tick, the silences, the fingerprints and a role swap of the same tick coming first; a
request that one of these overtakes has been answered WRONG_MODE. -/
def execModeRequestExecute (s : State) : Outcome :=
  if s.mode.held.isSome && alive s.mode.mode then
    let s := earlierTriggers (atRequestTick s)
    match s.mode.held with
    | none => done s
    | some h => done (actOnRequest h { s with mode := { s.mode with held := none } })
  else .next s

end Sys2Proof.Machine
end

