-- ==== Sys2Proof/Machine/Regs.lean ====
section
/-! DEFINITION. The register window (Table 5 of the host chapter): what each word reads, which reads latch or clear, and what writes
do (R7, R25, R70, R71, R100, R122, R140, R159, R179, R198, R215, R242, R273, R296, R316, R335, R351, R362, R383, R397, R424, R438,
R441, R442, R444, R451). -/

namespace Sys2Proof.Machine

/-! ### Who reads: the partition of a transport (R426, R428, R441) -/

/-- The partition through whose window a transport reads and writes: a PCIe function from M1 on, a session from M2 on (R428, R430). -/
def caller (s : State) (transport : Nat) : Option Nat :=
  if s.mode.mode = .hold then none
  else if transport < 16 then boundPart s transport
  else if serves s.mode.mode then partOf s transport else none

/-- A latch or select register of a transport's view (R441); `d` is what it reads before it is written. -/
def latched (s : State) (transport off d : Nat) : Nat := tgetD (view s transport).latch off d

/-- A latch or select register written. -/
def setLatch (transport off v : Nat) (s : State) : State :=
  setView s transport (fun x => { x with latch := tset x.latch off v })

/-- Several consecutive latch registers written. -/
def setLatches (transport off : Nat) : List Nat → State → State
  | [], s => s
  | v :: l, s => setLatches transport (off + 4) l (setLatch transport off v s)

/-! ### Identity, mode and security words (R424, R444) -/

/-- Whether firmware runs: from M2 on (R444). -/
def firmwareRuns (s : State) : Bool :=
  match s.mode.mode with
  | .hold | .boot => false
  | .safeHold | .halt => !(s.mode.prev == .hold || s.mode.prev == .boot)
  | _ => true

/-- The channels in a partition's scope that pass a test, as bits 32·i to 32·i + 31 (R426, R444). -/
def scopeWord (s : State) (p i : Nat) (f : Nat → Bool) : Nat :=
  maskOf ((List.range 32).filter (fun b => ownsChannel s p (32 * i + b) && f (32 * i + b))) 32

/-- The identity block and the mode words (Table 9 of the host chapter). -/
def identityWord (s : State) (p off : Nat) : Nat :=
  match off with
  | 0x0000 => 0x54434838
  | 0x0004 => packWord [(0x20E0, 0), (Config.stepping % 256, 16)]
  | 0x0008 => if firmwareRuns s then Config.fwVersion % 2 ^ 32 else 0
  | 0x000C => packWord [(1, 0), (p, 8)]
  | 0x0010 => u32 s.sec.fuses.serial 0
  | 0x0014 => u32 s.sec.fuses.serial 4
  | 0x0018 => u32 s.sec.fuses.serial 8
  | 0x001C => u32 s.sec.fuses.serial 12
  | 0x0100 => packWord [(modeCode s.mode.mode, 0), (b2n s.mode.degraded, 4), (b2n s.mode.held.isSome, 5),
      (modeCode s.mode.prev, 8)]
  | 0x0104 => loWord (uptimeS s)
  | 0x0108 => scopeWord s p 0 (fun _ => true)
  | 0x010C => scopeWord s p 1 (fun _ => true)
  | 0x0110 => scopeWord s p 0 (fun c => (runningChans s).contains c)
  | 0x0114 => scopeWord s p 1 (fun c => (runningChans s).contains c)
  | 0x0118 => (part s p).clamps
  | 0x011C => (part s p).wrongMode
  | 0x0120 => (part s p).refusals
  | 0x0124 => (part s p).badFrames
  | 0x0128 => (part s p).evtLost
  | 0x012C => s.mode.changes
  | 0x0130 => packWord [(if p = 0 then s.hst.assignConflicts else 0, 0),
      (if p = 0 then (tkeysOf s.hst.sessions (fun _ x => x.opened)).length else (sessionsOf s p).length, 16)]
  | _ => 0

/-- The security words, owner only (Table 10 of the security chapter). -/
def securityWord (s : State) (off : Nat) : Nat :=
  let x := s.sec
  match off with
  | 0x0180 => packWord [(x.fwSlot, 0), (x.cfgSlot, 1), (b2n x.fwFallback, 2), (b2n x.cfgFallback, 3), (b2n x.fuses.enrolled, 4),
      (b2n x.fuses.usAllOnes, 5), (b2n x.svcStaged, 6), (x.fuses.svcCount, 8), (x.updState, 16)]
  | 0x0184 => packWord [(tgetD x.fwFail 0 0, 0), (tgetD x.fwFail 1 0, 4), (tgetD x.cfgFail 0 0, 8), (tgetD x.cfgFail 1 0, 12),
      (x.updVerdict, 16)]
  | 0x0188 => packWord [(x.fwSvn, 0), (x.cfgCtr, 8), (x.cfgSvn, 16)]
  | 0x018C => x.imageId
  | 0x0190 => x.recTaken
  | 0x0194 => packWord [(x.recUnknown, 0), (x.recShort, 16)]
  | 0x0198 => packWord [(x.keys.length, 0), (x.keysFailed, 16)]
  | 0x019C => x.updBytes
  | 0x01A0 => x.attests
  | _ => 0

/-! ### Mailbox and interrupt blocks of a function (R438, R442) -/

/-- The mailbox block and the interrupt block of a PCIe function (Tables 5 and 8 of the host chapter). -/
def ringWord (r : Ring) (off : Nat) : Nat :=
  match off with
  | 0x0200 => r.reqBaseLo
  | 0x0204 => r.reqBaseHi
  | 0x0208 => r.reqSize
  | 0x020C => r.reqTail
  | 0x0210 => r.reqHead
  | 0x0214 => r.rplBaseLo
  | 0x0218 => r.rplBaseHi
  | 0x021C => r.rplSize
  | 0x0220 => r.rplHead
  | 0x0224 => r.rplTail
  | 0x0228 => packWord [(b2n r.en, 0), (b2n r.err, 1)]
  | 0x0400 => r.cause
  | 0x0404 => r.mask
  | 0x0408 => r.vec
  | 0x040C => r.modUs
  | _ => 0

/-! ### The fault view (R397) -/

/-- Whether a partition owns an instance of a source (R394, R397). -/
def seesFault (s : State) (p src inst : Nat) : Bool := p == 0 || (partsOfInstance s src inst).contains p

/-- The words latched for a selected source and instance, 0x0844 to 0x0850 (Table 7 of the fault chapter). -/
def sourceWords (s : State) (p src inst : Nat) : List Nat :=
  if seesFault s p src inst then
    let key := faultKey src inst
    let st := if s.flt.unsupervised.contains src then 3 else if s.flt.fenced.contains key then 2
      else if s.flt.retrying.contains key then 1 else 0
    [packWord [(severityOf s src inst, 0), (minimumSeverity src, 3), (b2n (hardwareSource src), 6), (st, 7)],
     tgetD s.flt.counts key 0,
     packWord [(min (recentReports s src inst).length 15, 0), (permN s src inst, 4), (permW s src inst, 8)],
     tgetD s.flt.lastSeq key 0]
  else [512, 0, 0, 0]

/-- The words latched for a selected log entry, and whether it is not held or not visible (R397). -/
def logWords (s : State) (p seq : Nat) : List Nat × Bool :=
  match s.flt.log.find? (fun e => e.seq == seq) with
  | some e =>
    if p = 0 ∨ bitOf e.parts p = true then ((List.range 8).map (fun i => u32 (logBytes e) (4 * i)), false)
    else (List.replicate 8 0, true)
  | none => (List.replicate 8 0, true)

/-- The fault view (Table 7 of the fault chapter). -/
def faultWord (s : State) (transport p off : Nat) : Nat :=
  match off with
  | 0x0800 => s.flt.logSeq
  | 0x0804 => packWord [(b2n s.flt.logWrapped, 0), (b2n (!s.flt.unsupervised.isEmpty), 1),
      (b2n (errDriven s || Config.errBallLow s.mtb.mgt), 2), (b2n (errDriven s), 3), (b2n (errHeld s), 4),
      (b2n s.flt.degradedPending, 5), (latched s transport 0x0804 0, 6)]
  | 0x080C => (part s p).reports
  | 0x0810 => s.flt.retired
  | 0x084C => latched s transport off 0xA30
  | _ => if (0x0814 ≤ off ∧ off < 0x0838) ∨ (0x0840 ≤ off ∧ off < 0x0854) then latched s transport off 0 else 0

/-- FLT_LOG_SEL written (R397). -/
def selectLog (transport p value : Nat) (s : State) : State :=
  let (words, miss) := logWords s p value
  setLatches transport 0x0818 words (setLatch transport 0x0804 (b2n miss) (setLatch transport 0x0814 value s))

/-- FLT_SRC_SEL written (R397). -/
def selectFaultSource (transport p value : Nat) (s : State) : State :=
  let src := bitsOf value 8 0
  let inst := bitsOf value 31 16
  setLatches transport 0x0844 (sourceWords s p src inst) (setLatch transport 0x0840 (src + 65536 * inst) s)

/-- A read of FLT_SRC_COUNT clears the count of the selected source and instance, where the caller owns it (R397). -/
def clearSourceCount (transport p : Nat) (s : State) : State :=
  let sel := latched s transport 0x0840 0
  let src := bitsOf sel 8 0
  let inst := bitsOf sel 31 16
  if seesFault s p src inst && thas (view s transport).latch 0x0848 then
    setLatch transport 0x0848 0 { s with flt := { s.flt with counts := tdel s.flt.counts (faultKey src inst) } }
  else s

/-- FLT_ERR_RELEASE: the owner clears the hold (R392, R397). -/
def releaseErr (p : Nat) (s : State) : State :=
  if p = 0 then { s with flt := { s.flt with holdLatched := false, holdDegraded := false } } else s

/-! ### Channel status blocks (R70, R100, R122, R140, R198) -/

/-- A word of a channel status block, its values in force. -/
def channelWord (s : State) (c off : Nat) : Nat :=
  let h := chan s c
  if off < 0x30 then encodeWord h off
  else if off < 0x64 then codingWord s h off
  else if off < 0x74 then coppiceWord (tgetD s.enc.cps c {}) off
  else ingestWord s c off

/-- What a read of an RC word of a channel status block clears. -/
def channelReadClear (c off : Nat) (s : State) : State :=
  match off with
  | 0x1C => modChan s c (fun h => { h with floorSlices := 0 })
  | 0x20 => modChan s c (fun h => { h with overruns := 0 })
  | 0x38 => modChan s c (fun h => { h with gdrRestarts := 0 })
  | 0x3C => modChan s c (fun h => { h with lossPics := 0 })
  | 0x40 => modChan s c (fun h => { h with lossNoAck := 0 })
  | 0x44 => modChan s c (fun h => { h with ackIgnored := 0 })
  | 0x48 => modChan s c (fun h => { h with seiLate := 0 })
  | 0x58 => modChan s c (fun h => { h with rcTrips := 0 })
  | 0x5C => modChan s c (fun h => { h with rcExcess := 0 })
  | 0x6C => { s with enc := { s.enc with cps := tmod s.enc.cps c (fun k => { k with cuts := 0 }) } }
  | 0x70 => { s with enc := { s.enc with cps := tmod s.enc.cps c (fun k => { k with overruns := 0 }) } }
  | 0x7C => modGroup s c (fun g => { g with substFrames := 0 })
  | _ => s

/-! ### Clocks, MTB, power and GPIO words, owner only (R25, R383, R451) -/

/-- The sources that pass a test, as bits (R383). -/
def sourceBits (s : State) (f : SourceSt → Bool) : Nat := maskOf ((List.range 11).filter (fun i => f (source s i))) 11

/-- Whether logic rail i is within its limits: 0 SUP5, 1 to 7 in the order of Table 5 (R383). -/
def railGood (s : State) (i : Nat) : Bool :=
  (if i = 0 then tgetD s.pwr.supplyGood 0 false else decide (i ≤ s.pwr.railsUp)) && !s.pwr.railBad.contains i

/-- PWR_GPIO_IN: a ball the device drives shows its level, any other what comes from outside (R451; log entry 36). -/
def gpioLevels (s : State) : Nat :=
  let run := match s.mode.mode with
    | .solo | .active | .standby | .resync | .quiescent | .update => !s.pins.forcedSafe
    | _ => false
  let oe := if run then s.pins.gpioOe else if s.pins.gpioTaken then s.pins.gpioSafeOe else 0
  let level := if run then s.pins.gpioOut else s.pins.gpioSafeLvl
  let outside := Config.gpioBalls s.mtb.mgt
  maskOf ((List.range 16).filter (fun i => if bitOf oe i then bitOf level i else bitOf outside i)) 16

/-- The clocks, MTB, power and GPIO words. -/
def clockWord (s : State) (transport off : Nat) : Nat :=
  match off with
  | 0x4000 => sourceBits s (fun x => x.ready)
  | 0x4004 => sourceBits s (fun x => x.lost)
  | 0x4008 => clkRootWord s
  | 0x400C => s.clk.losses
  | 0x4010 => s.clk.forcedSwitches
  | 0x4014 => s.clk.m9Us
  | 0x4018 | 0x401C | 0x4108 | 0x410C | 0x4110 => latched s transport off 0
  | 0x4100 => packWord [(s.mtb.src, 0), (s.mtb.servo, 4), (b2n s.mtb.valid, 8), (b2n s.mtb.onFrc, 9), (b2n s.mtb.abs, 10)]
  | 0x4104 => fracOf s.mtb.t
  | 0x4114 => loWord s.mtb.inc
  | 0x4118 => fieldOf 4 (hiWord s.mtb.inc)
  | 0x411C => ofSigned 32 s.mtb.offset
  | 0x4200 => packWord [(b2n (tgetD s.pwr.supplyGood 0 false), 0), (b2n (tgetD s.pwr.supplyGood 1 false), 1),
      (b2n (tgetD s.pwr.supplyGood 2 false), 2), (b2n ((List.range 8).all (fun i => railGood s i)), 3), (b2n s.pwr.ocActive, 4),
      (b2n s.pwr.tjAbove, 5)]
  | 0x4204 => packWord [(fieldOf 16 s.pwr.vinMv, 0), (fieldOf 16 s.pwr.iinMa, 16)]
  | 0x4208 => loWord s.pwr.pinMw
  | 0x4214 => ofSigned 9 s.pwr.tj
  | 0x4218 => ofSigned 9 s.pwr.tjPeak
  | 0x421C => s.pwr.supplyEvents
  | 0x4300 => gpioLevels s
  | 0x4304 => s.pins.gpioOut
  | _ =>
    if 0x4220 ≤ off ∧ off < 0x4240 then
      let i := (off - 0x4220) / 4
      packWord [(fieldOf 16 (tgetD s.pwr.railMv i 0), 0), (b2n (railGood s i), 16)]
    else 0

/-- What a read of an RC word of the block clears; the peak temperature starts again from the present one (R383). -/
def clockReadClear (off : Nat) (s : State) : State :=
  match off with
  | 0x400C => { s with clk := { s.clk with losses := 0 } }
  | 0x4010 => { s with clk := { s.clk with forcedSwitches := 0 } }
  | 0x4218 => { s with pwr := { s.pwr with tjPeak := s.pwr.tj } }
  | 0x421C => { s with pwr := { s.pwr with supplyEvents := 0 } }
  | _ => s

/-- CLK_LOST bits written with 1 (R383). -/
def clearLost (value : Nat) (s : State) : State :=
  (List.range 11).foldl (fun s i => if bitOf value i then setSource i (fun x => { x with lost := false }) s else s) s

/-- CLK_MON_SEL written: the measurement of the source is latched; 11 to 15 read zero (R383). -/
def selectMonitor (transport value : Nat) (s : State) : State :=
  let i := bitsOf value 3 0
  setLatch transport 0x401C (if i < 11 then ofSigned 32 (source s i).ppm else 0) (setLatch transport 0x4018 i s)

/-! ### Check values, dispatcher, redundancy, Hedgerow, audio, composition (R215, R179, R273, R296, R351, R362) -/

/-- A word of a general unit's entry (Table 6 of the check-value chapter). -/
def cvuWord (x : CvUnit) (off : Nat) : Nat :=
  match off with
  | 0x00 => packWord [(x.st, 0), (x.mode, 2), (x.tapKind, 4), (x.width, 8), (x.span, 16)]
  | 0x04 => loWord x.result
  | 0x0C => loWord x.run
  | 0x14 => x.spans
  | 0x18 => x.mismatches
  | 0x1C => x.unchecked
  | _ => 0

/-- What a read of an RC word of a unit's entry clears. -/
def cvuReadClear (off : Nat) (x : CvUnit) : CvUnit :=
  match off with
  | 0x14 => { x with spans := 0 }
  | 0x18 => { x with mismatches := 0 }
  | 0x1C => { x with unchecked := 0 }
  | _ => x

/-- The words of the dispatcher block that only the owner sees (Table 8 of the dispatcher chapter). -/
def dispatcherWord (s : State) (off : Nat) : Nat :=
  match off with
  | 0x8000 => packWord [(s.pvd.cores.length, 0), ((liveCores s).length, 8), ((tkeysOf s.pvd.cores (fun _ c => !c.live)).length, 15),
      (b2n (belowGuarantee s && !s.pvd.cores.isEmpty), 20)]
  | 0x8004 => ceilDiv s.pvd.admitted 1000000
  | 0x8008 => cycleLimit s / 1000000
  | 0x800C => packWord [(s.pvd.liveUtil, 0), (s.pvd.svcUtil, 16)]
  | 0x8010 => s.pvd.discards
  | 0x8014 => s.pvd.retries
  | 0x8018 => s.pvd.failed
  | 0x801C => s.pvd.wmarkHits
  | 0x8020 => s.pvd.wdogTrips
  | 0x8024 => s.pvd.cntFaults
  | 0x8028 => waitDepth s
  | 0x802C => max s.pvd.waitPeak (waitDepth s)
  | _ =>
    if 0x8100 ≤ off ∧ off < 0x8200 then
      let q := (off - 0x8100) / 4
      packWord [(queueLen s q, 0), (max (tgetD s.pvd.queuePeaks q 0) (queueLen s q), 16)]
    else 0

/-- The words of the dispatcher block that every partition sees of its own; before an image is in force its quotas read their reset
value (Table 8 of the dispatcher chapter). -/
def quotaWord (s : State) (p off : Nat) : Nat :=
  let q := quota s p
  match off with
  | 0x8040 => packWord [(inFlight s p, 0), (if s.mode.configured then q.quota else 0, 16)]
  | 0x8044 => if s.mode.configured then q.rate else 0
  | 0x8048 => q.submitted
  | 0x804C => q.busy
  | 0x8050 => q.rateExcess
  | 0x8054 => q.replyHeld
  | 0x8058 => q.late
  | _ => 0

/-- What a read of an RC word of the dispatcher block clears. -/
def dispatcherReadClear (p off : Nat) (s : State) : State :=
  match off with
  | 0x8048 => setQuota s p (fun q => { q with submitted := 0 })
  | 0x804C => setQuota s p (fun q => { q with busy := 0 })
  | 0x8050 => setQuota s p (fun q => { q with rateExcess := 0 })
  | 0x8054 => setQuota s p (fun q => { q with replyHeld := 0 })
  | 0x8058 => setQuota s p (fun q => { q with late := 0 })
  | _ =>
    if p ≠ 0 then s
    else
      match off with
      | 0x8010 => { s with pvd := { s.pvd with discards := 0 } }
      | 0x8014 => { s with pvd := { s.pvd with retries := 0 } }
      | 0x8018 => { s with pvd := { s.pvd with failed := 0 } }
      | 0x801C => { s with pvd := { s.pvd with wmarkHits := 0 } }
      | 0x8020 => { s with pvd := { s.pvd with wdogTrips := 0 } }
      | 0x8024 => { s with pvd := { s.pvd with cntFaults := 0 } }
      | 0x802C => { s with pvd := { s.pvd with waitPeak := 0 } }
      | _ =>
        if 0x8100 ≤ off ∧ off < 0x8200 then
          { s with pvd := { s.pvd with queuePeaks := tdel s.pvd.queuePeaks ((off - 0x8100) / 4) } }
        else s

/-- The Hedgerow words (R351). -/
def hedgerowWord (s : State) (off : Nat) : Nat :=
  let x := s.hrw
  match off with
  | 0x9100 => packWord [(x.ident, 0), (x.depth, 10), (b2n x.root, 13), (x.portsUp, 14), (b2n x.idClash, 19), (b2n x.tooDeep, 20),
      (b2n x.noRoot, 21), (b2n x.miswired, 22), (x.treeDepth, 23)]
  | 0x9104 => packWord [(x.devices, 0), (x.pending.length, 11)]
  | 0x9108 => x.bcastRx
  | 0x910C => x.late
  | 0x9110 => x.snapSeq
  | 0x9114 => x.barTimeouts
  | 0x9118 => x.barPartial
  | 0x911C => x.hbRx
  | 0x9120 => x.hbDropped
  | _ => 0

/-- The redundancy and Hedgerow block: pair registers, the health report, the Hedgerow words (R270, R273, R351). -/
def pairWord (s : State) (off : Nat) : Nat :=
  if off < 0x9040 then (pairWords s).getD ((off - 0x9000) / 4) 0
  else if 0x9080 ≤ off ∧ off < 0x90C0 then u32 s.run.own (off - 0x9080)
  else hedgerowWord s off

/-- What a read of an RC word of the block clears. -/
def pairReadClear (off : Nat) (s : State) : State :=
  match off with
  | 0x901C => { s with red := { s.red with outMismatchFrames := 0 } }
  | 0x9020 => { s with red := { s.red with inMismatchFrames := 0 } }
  | 0x9024 => { s with red := { s.red with missing := 0 } }
  | 0x9028 => { s with red := { s.red with xportErrors := 0 } }
  | 0x902C => { s with red := { s.red with swapsSkipped := 0 } }
  | 0x9108 => { s with hrw := { s.hrw with bcastRx := 0 } }
  | 0x910C => { s with hrw := { s.hrw with late := 0 } }
  | 0x9114 => { s with hrw := { s.hrw with barTimeouts := 0 } }
  | 0x9118 => { s with hrw := { s.hrw with barPartial := 0 } }
  | 0x911C => { s with hrw := { s.hrw with hbRx := 0 } }
  | 0x9120 => { s with hrw := { s.hrw with hbDropped := 0 } }
  | _ => s

/-- A word of the audio block (R215). -/
def audioWord (s : State) (p off : Nat) : Nat :=
  if off < 0xA200 then
    let i := (off - 0xA000) / 16
    match tget s.aud.ins i with
    | some x => if seesPort s p i then audInWord x (off % 16) else 0
    | none => if seesPort s p i ∧ i < 32 then audInWord {} (off % 16) else 0
  else
    let o := (off - 0xA200) / 16
    match tget s.aud.outs o with
    | some x => if seesPort s p (32 + o) then audOutWord x (off % 16) else 0
    | none => 0

/-- What a read of an RC word of the audio block clears. -/
def audioReadClear (p off : Nat) (s : State) : State :=
  if off < 0xA200 then
    let i := (off - 0xA000) / 16
    if seesPort s p i then modIn s i (clearAudIn (off % 16)) else s
  else
    let o := (off - 0xA200) / 16
    if seesPort s p (32 + o) then modOut s o (clearAudOut (off % 16)) else s

/-- What a read of an RC word of a channel's composition entry clears (R179). -/
def composeReadClear (off : Nat) (x : Cmp) : Cmp :=
  match off with
  | 0x08 => { x with mismatches := 0 }
  | 0x0C => { x with unchecked := 0 }
  | 0x10 => { x with repeats := 0 }
  | 0x14 => { x with fallbacks := 0 }
  | _ => x

/-! ### Statistics window and delay window (R242, R316) -/

/-- EGR_STAT_SEL written: the selected object is latched, and cleared where the clear bit is set (R242). -/
def selectStats (transport p value : Nat) (s : State) : State :=
  let index := bitsOf value 11 0
  let type := bitsOf value 14 12
  let s := setLatches transport 0x3004 (statWords s p type index)
    (setLatch transport 0x3000 (Nat.land value 0x17FFF) s)
  if bitOf value 16 then clearStats p type index s else s

/-- DRM_DLY_SEL written: the selected lane is latched (R316). -/
def selectDelay (transport value : Nat) (s : State) : State :=
  let sel := bitsOf value 10 0
  setLatch transport 0x6304 (delayWord s sel) (setLatch transport 0x6300 sel s)

/-! ### 64-bit counters (R70, R242, R362, R383) -/

/-- The 64-bit value whose low word a register is, as the caller sees it; none for any other register. -/
def wideValue (s : State) (transport p off : Nat) : Option Nat :=
  if 0x1000 ≤ off ∧ off < 0x3000 then
    let c := (off - 0x1000) / 0x80
    if off % 0x80 = 0x14 then some (if ownsChannel s p c then (chan s c).frames else 0) else none
  else if off = 0x3008 ∨ off = 0x3010 then
    let sel := latched s transport 0x3000 0
    if thas (view s transport).latch 0x3000 then
      let w := statWords s p (bitsOf sel 14 12) (bitsOf sel 11 0)
      let i := (off - 0x3004) / 4
      some (w.getD i 0 + 2 ^ 32 * w.getD (i + 1) 0)
    else none
  else if off = 0x420C then some (if p = 0 then s.pwr.energyMj / 1000 else 0)
  else if 0x5000 ≤ off ∧ off < 0x5400 then
    if off % 64 = 4 then some (if p = 0 then (match tget s.lnk.eth ((off - 0x5000) / 64) with | some x => x.fecCorr | none => 0) else 0)
    else none
  else if 0x7000 ≤ off ∧ off < 0x7800 then
    let u := (off - 0x7000) / 32
    let x := if seesUnit s transport u then cvUnit s u else {}
    if off % 32 = 0x04 then some x.result else if off % 32 = 0x0C then some x.run else none
  else if off = 0x9034 then some (if p = 0 then s.red.copyBytes else 0)
  else none

/-! ### Reads (R7, R441) -/

/-- A word of a block, before the latches of 64-bit counters. -/
def plainWord (s : State) (transport p off : Nat) : Nat :=
  let own := p == 0
  if off < 0x0180 then identityWord s p off
  else if off < 0x01C0 then (if own then securityWord s off else 0)
  else if off < 0x01D0 then (if own then poolWord s off else 0)
  else if off < 0x0200 then decodeWord s own (fun d => ownsDecode s p d) off
  else if off < 0x0800 then (if transport < 16 then ringWord (ring s transport) off else 0)
  else if off < 0x1000 then faultWord s transport p off
  else if off < 0x3000 then
    let c := (off - 0x1000) / 0x80
    if ownsChannel s p c then channelWord s c (off % 0x80) else 0
  else if off < 0x4000 then (if off < 0x30C0 then latched s transport off 0 else 0)
  else if off < 0x5000 then (if own then clockWord s transport off else 0)
  else if off < 0x6000 then (if own then linksWord s off else 0)
  else if off < 0x7000 then
    if !own then 0 else if off = 0x6300 ∨ off = 0x6304 then latched s transport off 0 else memoryWord s off
  else if off < 0x7800 then
    let u := (off - 0x7000) / 32
    if seesUnit s transport u then cvuWord (cvUnit s u) (off % 32) else 0
  else if off < 0x8000 then
    if own && off == 0x7800 then packWord [(32 - s.cvu.fpFenced.length, 0), (b2n s.cvu.fpSuspended, 6)] else 0
  else if off < 0x9000 then
    if 0x8040 ≤ off ∧ off < 0x8060 then quotaWord s p off else if own then dispatcherWord s off else 0
  else if off < 0xA000 then (if own then pairWord s off else 0)
  else if off < 0xB000 then audioWord s p off
  else if off < 0xB800 then
    let c := (off - 0xB000) / 32
    if ownsChannel s p c then composeWord (cmp s c) (off % 32) else 0
  else if own && off == 0xB800 then topWord s
  else 0

/-- What a register reads: a high word of a 64-bit counter reads what the last read of its low word latched (R70, R441). -/
def readWord (s : State) (transport p off : Nat) : Nat :=
  match wideValue s transport p off with
  | some v => loWord v
  | none =>
    if 4 ≤ off ∧ (wideValue s transport p (off - 4)).isSome then latched s transport off 0
    else plainWord s transport p off

/-- What a read of an RC register clears, where the caller sees it (R7, R441). -/
def readClear (transport p off : Nat) (s : State) : State :=
  let own := p == 0
  if off < 0x0180 then
    setPart s p (fun x => match off with
      | 0x0118 => { x with clamps := 0 }
      | 0x011C => { x with wrongMode := 0 }
      | 0x0120 => { x with refusals := 0 }
      | 0x0124 => { x with badFrames := 0 }
      | 0x0128 => { x with evtLost := 0 }
      | _ => x)
  else if off < 0x01C0 then
    if own && off == 0x01A0 then { s with sec := { s.sec with attests := 0 } } else s
  else if off < 0x1000 then
    if off = 0x080C then setPart s p (fun x => { x with reports := 0 })
    else if off = 0x0848 then clearSourceCount transport p s
    else s
  else if off < 0x3000 then
    let c := (off - 0x1000) / 0x80
    if ownsChannel s p c then channelReadClear c (off % 0x80) s else s
  else if off < 0x4000 then s
  else if off < 0x5000 then (if own then clockReadClear off s else s)
  else if off < 0x6000 then (if own then linksReadClear off s else s)
  else if off < 0x7000 then (if own then memoryReadClear off s else s)
  else if off < 0x7800 then
    let u := (off - 0x7000) / 32
    if seesUnit s transport u then modUnit s u (cvuReadClear (off % 32)) else s
  else if off < 0x8000 then s
  else if off < 0x9000 then dispatcherReadClear p off s
  else if off < 0xA000 then (if own then pairReadClear off s else s)
  else if off < 0xB000 then audioReadClear p off s
  else if off < 0xB800 then
    let c := (off - 0xB000) / 32
    if ownsChannel s p c && thas s.cmps c then setCmp s c (composeReadClear (off % 32)) else s
  else s

/-- What a read latches: the high word of a 64-bit counter, both words of a statistics counter, and the rest of the MTB with
CLK_MTB_FRAC (R25, R70, R242). -/
def readLatch (transport p off : Nat) (s : State) : State :=
  match wideValue s transport p off with
  | some v => setLatches transport off [loWord v, hiWord v] s
  | none =>
    if off = 0x4104 ∧ p = 0 then
      setLatches transport 0x4108 [nsOf s.mtb.t, loWord (secOf s.mtb.t), fieldOf 16 (hiWord (secOf s.mtb.t))] s
    else s

/-- A register read: its value and what the read does (R441). -/
def readReg (transport p off : Nat) (s : State) : Nat × State :=
  (readWord s transport p off, readClear transport p off (readLatch transport p off s))

/-- Consecutive words read, in order. Past the window's end there is nothing, and it reads zero. -/
def readRegs (transport p : Nat) : Nat → Nat → State → List Nat × State
  | 0, _, s => ([], s)
  | n + 1, off, s =>
    let (v, s) := if off < 65536 then readReg transport p off s else (0, s)
    let (l, s) := readRegs transport p n (off + 4) s
    (v :: l, s)

/-! ### Writes (R7, R441) -/

/-- A write to the mailbox or the interrupt block of a PCIe function; ring bases and sizes are written only while the rings are not
in use (R438, R442). -/
def writeRing (f p off value : Nat) (s : State) : State :=
  let r := ring s f
  match off with
  | 0x0200 => if r.en then s else setRing s f (fun r => { r with reqBaseLo := value / 4096 * 4096 })
  | 0x0204 => if r.en then s else setRing s f (fun r => { r with reqBaseHi := value })
  | 0x0208 => if r.en then s else setRing s f (fun r => { r with reqSize := clamp 12 20 (bitsOf value 4 0) })
  | 0x0214 => if r.en then s else setRing s f (fun r => { r with rplBaseLo := value / 4096 * 4096 })
  | 0x0218 => if r.en then s else setRing s f (fun r => { r with rplBaseHi := value })
  | 0x021C => if r.en then s else setRing s f (fun r => { r with rplSize := clamp 12 20 (bitsOf value 4 0) })
  | 0x0220 => writeRplHead f value s
  | 0x0228 =>
    let s := if bitOf value 2 then resetRing f s else s
    let s := setRing s f (fun r => { r with en := bitOf value 0 })
    if bitOf value 0 then releaseAnswered (flushHeld p (setRing s f (fun r => ringFlush r r.waiting))) else s
  | 0x0400 => setRing s f (fun r => { r with cause := w1c r.cause (bitsOf value 5 0) })
  | 0x0404 =>
    setRing s f (fun r =>
      let due := (List.range 6).filter (fun i => bitOf r.mask i && !bitOf value i && bitOf r.cause i)
      due.foldl (fun r i => raiseCause r i) { r with mask := bitsOf value 5 0 })
  | 0x0408 => setRing s f (fun r => { r with vec := bitsOf value 17 0 })
  | 0x040C => setRing s f (fun r => { r with modUs := min 1000 (bitsOf value 9 0) })
  | _ => s

/-- A tail written: the ring is in error where the tail is not on a message boundary or lies too far ahead (R438). The Boolean says
that messages may be read up to it. -/
def writeTail (f p tail : Nat) (s : State) : State × Bool :=
  let s := setRing s f (fun r => { r with reqTail := tail % 2 ^ 32 })
  let r := ring s f
  if !r.en || r.err then (s, false)
  else if tail % 16 ≠ 0 ∨ 2 ^ r.reqSize < (r.reqTail + 2 ^ 32 - r.reqHead) % 2 ^ 32 then (ringError f p s, false)
  else (s, true)

/-- A register write by a partition through its window; what is not writable, or not the caller's, is ignored (R7, R438, R441). -/
def writeReg (transport p off value : Nat) (s : State) : State :=
  let own := p == 0
  if 0x0200 ≤ off ∧ off < 0x0800 then
    if 16 ≤ transport then s
    else if off = 0x020C then (writeTail transport p value s).1
    else writeRing transport p off value s
  else if off = 0x0808 then (if bitOf value 0 then releaseErr p s else s)
  else if off = 0x0814 then selectLog transport p value s
  else if off = 0x0840 then selectFaultSource transport p value s
  else if off = 0x3000 then selectStats transport p value s
  else if 0x7000 ≤ off ∧ off < 0x7800 then
    let u := (off - 0x7000) / 32
    if off % 32 = 0x0C then stageRun transport u value s
    else if off % 32 = 0x10 then loadRun transport u value s
    else s
  else if !own then s
  else if off = 0x4004 then clearLost value s
  else if off = 0x4018 then selectMonitor transport value s
  else if off = 0x4304 then { s with pins := { s.pins with gpioOut := bitsOf value 15 0 } }
  else if off = 0x6300 then selectDelay transport value s
  else s

/-! ### Window accesses as commands -/

/-- Whether a transport is a function 0 that no binding record names, on an endpoint that serves: it is always present (R428). -/
def unboundFunction (s : State) (transport : Nat) : Bool :=
  (transport == 0 || transport == 8) && s.mode.mode != .hold && !s.hst.ringFaults.contains (transport / 8) &&
    (partOf s transport).isNone

/-- A function that no binding record names calls for no partition (R428). -/
theorem caller_unbound {s : State} {transport : Nat} (h : unboundFunction s transport = true) : caller s transport = none := by
  simp only [unboundFunction, Bool.and_eq_true, Bool.or_eq_true, beq_iff_eq, Option.isNone_iff_eq_none] at h
  have k : transport < 16 := by omega
  simp only [caller, boundPart, k, h.2, ite_self]

/-- What a function that no binding record names reads: its identity block, with partition 0xF, and zero elsewhere (R428, R444). -/
def unboundWord (s : State) (off : Nat) : Nat := if off < 0x20 then identityWord s 15 off else 0

/-- A window read by a transport; the value stands in its view (R428, R441). -/
def readAt (transport off : Nat) (s : State) : State :=
  match caller s transport with
  | none =>
    if unboundFunction s transport then
      setView s transport (fun x => { x with last := [unboundWord s (off % 65536 / 4 * 4)] })
    else s
  | some p =>
    let (v, s) := readReg transport p (off % 65536 / 4 * 4) s
    setView s transport (fun x => { x with last := [v] })

/-- A window write by a transport (R441). -/
def writeAt (transport off value : Nat) (s : State) : State :=
  match caller s transport with
  | none => s
  | some p => writeReg transport p (off % 65536 / 4 * 4) (value % 2 ^ 32) s

/-- CLK_MTB_FRAC_READ (R25). -/
def execClkMtbFracRead (transport : Nat) (s : State) : Outcome := .next (readAt transport 0x4104 s)

/-- LOW_WORD_LATCH_READ (R70). -/
def execLowWordLatchRead (transport off : Nat) (s : State) : Outcome := .next (readAt transport off s)

/-- READ_CLEAR_REGISTER_READ (R441). -/
def execReadClearRegisterRead (transport off : Nat) (s : State) : Outcome := .next (readAt transport off s)

/-- REGISTER_WRITE (R441). -/
def execRegisterWrite (transport off value : Nat) (s : State) : Outcome := done (writeAt transport off value s)

/-- EGR_STAT_SELECT (R242): a selection without its clear bit. -/
def execEgrStatSelect (transport value : Nat) (s : State) : Outcome := .next (writeAt transport 0x3000 (value % 65536) s)

/-- EGR_STAT_SELECT_CLEAR (R242): a selection with its clear bit. -/
def execEgrStatSelectClear (transport value : Nat) (s : State) : Outcome :=
  .next (writeAt transport 0x3000 (value % 65536 + 65536) s)

/-- DRM_DLY_SELECT (R316). -/
def execDrmDlySelect (transport value : Nat) (s : State) : Outcome := .next (writeAt transport 0x6300 value s)

/-- CLK_MON_SELECT (R383). -/
def execClkMonSelect (transport value : Nat) (s : State) : Outcome := .next (writeAt transport 0x4018 value s)

/-- FLT_LOG_SELECT (R397). -/
def execFltLogSelect (transport value : Nat) (s : State) : Outcome := .next (writeAt transport 0x0814 value s)

/-- FLT_SRC_SELECT (R397). -/
def execFltSrcSelect (transport value : Nat) (s : State) : Outcome := .next (writeAt transport 0x0840 value s)

/-- FLT_ERR_RELEASE (R392, R397). -/
def execFltErrRelease (transport : Nat) (s : State) : Outcome := .next (writeAt transport 0x0808 1 s)

/-- CLK_LOST_CLEAR (R383). -/
def execClkLostClear (transport mask : Nat) (s : State) : Outcome := .next (writeAt transport 0x4004 mask s)

/-- PWR_GPIO_OUT_WRITE (R451). -/
def execPwrGpioOutWrite (transport value : Nat) (s : State) : Outcome := .next (writeAt transport 0x4304 value s)

/-! ### Commands of the host (R441) -/

/-- HST_INFO, opcode 0x0D30 (R441, R444): read without clearing. -/
def cmdHstInfo (r : Req) (s : State) : State :=
  takeRequest 0x0D30 false (fun _ => true) r (fun p s =>
    let words := (List.range 8).map (fun i => identityWord s p (4 * i)) ++ (List.range 13).map (fun i => identityWord s p (0x100 + 4 * i))
    reply p r 0x0D30 .ok (lenClamped r) (wordBytes words) s) s

/-- HST_INFO (R441). -/
def execHstInfo (r : Req) (s : State) : Outcome := done (cmdHstInfo r s)

/-- HST_REG_READ, opcode 0x0D34 (R441). -/
def cmdHstRegRead (r : Req) (s : State) : State :=
  takeRequest 0x0D34 false (fun _ => true) r (fun p s =>
    let n := f16 (payloadOf r) 2 1 1016
    let (words, s) := readRegs r.transport p n.val (u16 (payloadOf r) 0 / 4 * 4) s
    reply p r 0x0D34 .ok (n.clamped || lenClamped r) (wordBytes words) s) s

/-- HST_REG_READ (R441). -/
def execHstRegRead (r : Req) (s : State) : Outcome := done (cmdHstRegRead r s)

/-- HST_REG_WRITE, opcode 0x0D35 (R441). -/
def cmdHstRegWrite (r : Req) (s : State) : State :=
  takeRequest 0x0D35 false (fun _ => true) r (fun p s =>
    let b := payloadOf r
    reply p r 0x0D35 .ok (lenClamped r) [] (writeReg r.transport p (u16 b 0 / 4 * 4) (u32 b 4) s)) s

/-- HST_REG_WRITE (R441). -/
def execHstRegWrite (r : Req) (s : State) : Outcome := done (cmdHstRegWrite r s)

/-! ### Snapshots (R345 to R347) -/

/-- The words that a snapshot copies that are not zero, by word offset in the buffer: the pair words from byte 64, the channel status
blocks from byte 128, each as it stands, high words included (R346). -/
def snapshotCopy (s : State) : List (Nat × Nat) :=
  let pair := (pairWords s).zipIdx.map (fun e => (16 + e.2, e.1))
  let blocks := (List.range 64).flatMap (fun c => (List.range 32).map (fun w => (32 + 32 * c + w, channelWord s c (4 * w))))
  (pair ++ blocks).filter (fun e => e.2 != 0)

/-- HRW_SCHEDULE_SNAPSHOT (R345, R352). -/
def execHrwScheduleSnapshot (r : Req) (s : State) : Outcome := done (cmdHrwSchedule snapshotCopy 1 r s)

/-- HRW_SCHEDULE_RESET (R345, R347, R352). -/
def execHrwScheduleReset (r : Req) (s : State) : Outcome := done (cmdHrwSchedule snapshotCopy 2 r s)

/-- HRW_SCHEDULE_RECEIVE (R345). -/
def execHrwScheduleReceive (a : TreeAction) (s : State) : Outcome := done (receiveSchedule snapshotCopy a s)

/-- HRW_ACTION_TIME (R345). -/
def execHrwActionTime (seq : Nat) (s : State) : Outcome := done (actionDue snapshotCopy seq s)

/-- HRW_REQUEST_AT_ROOT (R342). -/
def execHrwRequestAtRoot (q : TreeRequest) (s : State) : Outcome := done (requestAtRoot snapshotCopy q s)

end Sys2Proof.Machine
end

