-- ==== Sys2Proof/Machine/Serve.lean ====
section
/-! DEFINITION. How requests reach the responder: the request ring of a PCIe function and the frames of a session (R431, R432, R434,
R436, R438). -/

namespace Sys2Proof.Machine

/-! ### One request by its opcode (R434, R436) -/

/-- PVD_SUBMIT, opcode 0x0E10, by its class and, in classes 0x80 and 0x81, its type (R102, R182, R237, R289, R292). -/
def servePvdSubmit (r : Req) (s : State) : State :=
  let cls := u8 (payloadOf r) 0
  let type := u8 (classPayload r) 1
  if cls = 0x80 then cmdReferenceAction (decide (2 ≤ type)) r s
  else if cls = 0x81 then cmdOverlayUpdate (decide (type < 2)) r s
  else if cls = 0x82 then cmdSpliceInsertion r s
  else if cls = 0x83 then cmdSeiInsertion r s
  else cmdPvdSubmitUnknownClass r s

/-- A request is handed to the command its opcode names; any other opcode is answered UNKNOWN_OPCODE (R434, R436). -/
def serveRequest (opcode : Nat) (r : Req) (s : State) : State :=
  let b := payloadOf r
  match opcode with
  | 0x0210 => if u8 b 0 = 0 then cmdClkSwitchToPllR r s else cmdClkSwitchToFrc r s
  | 0x0410 => cmdLnkPortInfo r s
  | 0x0411 => cmdLnkRetrain r s
  | 0x0510 => cmdIngGroupInfo r s
  | 0x0610 => cmdAudPortRestart r s
  | 0x0710 => cmdCmpChInfo r s
  | 0x0711 => cmdCmpSetLayer r s
  | 0x0810 => cmdEncChannelInfo r s
  | 0x0811 => cmdEncPoolInfo r s
  | 0x0812 => cmdEncRefInfo r s
  | 0x0813 => cmdEncSetBitrate r s
  | 0x0814 => cmdEncRcInfo r s
  | 0x0820 => cmdDecCtxInfo r s
  | 0x0910 => cmdEgrSetRate r s
  | 0x0911 => cmdEgrSetGates r s
  | 0x0A10 => cmdRedPairInfo r s
  | 0x0A11 => cmdRedSwapNow r s
  | 0x0B10 => cmdHrwBroadcast r s
  | 0x0B11 => cmdHrwSchedule snapshotCopy (if u8 b 0 ≤ 1 then 1 else 2) r s
  | 0x0B12 => cmdHrwBarrier r s
  | 0x0B13 => cmdHrwSnapRead r s
  | 0x0D10 => cmdSecIdentity r s
  | 0x0D11 => cmdSecAttest r s
  | 0x0D12 => cmdSecAttestRead r s
  | 0x0D13 => cmdSecUpdateBegin r s
  | 0x0D14 => cmdSecUpdateData r s
  | 0x0D15 => cmdSecUpdateEnd r s
  | 0x0D16 => cmdSecUpdateAbort r s
  | 0x0D30 => cmdHstInfo r s
  | 0x0D31 => cmdHstNop r s
  | 0x0D32 => if u8 b 12 = 0 then cmdHstBufWriteInline r s else cmdHstBufWritePull r s
  | 0x0D33 => cmdHstModeReq (if u8 b 0 = 0 then .quiescent else .run) r s
  | 0x0D34 => cmdHstRegRead r s
  | 0x0D35 => cmdHstRegWrite r s
  | 0x0E10 => servePvdSubmit r s
  | _ => cmdMailboxUnknownOpcode opcode r s

/-- The payload length a message's header gives, at most 4,096 (R434). -/
def messageLength (b : Bytes) : Nat := min 4096 (u16 b 8)

/-- A message that came over a transport, taken as the request it carries (R434). -/
def serveMessage (transport : Nat) (b : Bytes) (s : State) : State :=
  let r : Req :=
    { transport := transport, hdrPartition := u8 b 2, seq := u32 b 4, tag := u32 b 12, len := u16 b 8
      payload := bytesAt b 16 (messageLength b) }
  serveRequest (u16 b 0) r s

/-! ### The request ring (R438) -/

/-- The bytes a message occupies (R434). -/
def messageBytes (b : Bytes) : Nat := 16 + 16 * ceilDiv (messageLength b) 16

/-- The messages below the tail are read one after the other, given the ring's bytes from the head on; one that would run past the
tail puts the ring in error (R438). -/
def serveRing (f p : Nat) : Nat → Bytes → State → State
  | 0, _, s => s
  | n + 1, b, s =>
    let r := ring s f
    let room := (r.reqTail + 2 ^ 32 - r.reqHead) % 2 ^ 32
    if !r.en || r.err || room == 0 || b.isEmpty then s
    else if room < messageBytes b then ringError f p (badFrame p s)
    else
      let s := setRing s f (fun r => { r with reqHead := (r.reqHead + messageBytes b) % 2 ^ 32 })
      serveRing f p n (b.drop (messageBytes b)) (serveMessage f (b.take (messageBytes b)) s)

/-- HST_REQ_TAIL_WRITE (R438, R439): `bytes` is what the ring holds from the head to the tail. Requests are served from M2 to M10. -/
def execHstReqTailWrite (f tail : Nat) (bytes : Bytes) (s : State) : Outcome :=
  match boundPart s f with
  | none => .next s
  | some p =>
    let (s, sound) := writeTail f p tail s
    done (if sound && serves s.mode.mode then serveRing f p (bytes.length / 16 + 1) bytes s else s)

/-! ### Session frames (R431, R432) -/

/-- The reply to HST_INFO with sequence 0 that opens a session (R431). -/
def welcome (p : Nat) (s : State) : Msg :=
  let words := (List.range 8).map (fun i => identityWord s p (4 * i)) ++ (List.range 13).map (fun i => identityWord s p (0x100 + 4 * i))
  { opcode := 0x0D30, partition := p, flags := 1, payload := le 2 (statusCode .ok) ++ [0, 0] ++ wordBytes words }

/-- SESSION_AUTH (R431, R433): with its signature good the session opens, and the events that waited for a transport follow the
reply; a failed signature is reported and receives no answer. -/
def execSessionAuth (i : Nat) (signatureOk : Bool) (peer : Nat) (s : State) : Outcome :=
  match tget s.hst.sessions i with
  | none => .next s
  | some x =>
    if x.opened || !serves s.mode.mode then .next s
    else if signatureOk && (part s x.partition).key.isSome then
      let s := setSession s i (fun x => { x with opened := true, hostCtr := 1, peer := peer, lastFrame := s.mtb.uptime })
      done (flushHeld x.partition (sendOn s (16 + i) x.partition (welcome x.partition s)))
    else done (failAuth x.partition { s with hst := { s.hst with sessions := tdel s.hst.sessions i } })

/-- SESSION_PROTECTED_FRAME (R432, R436): a frame whose tag fails, whose counter is not above the last accepted or whose message is
not whole is discarded and counted; any other is served, and the session's messages go to where it came from. -/
def execSessionProtectedFrame (i counter : Nat) (tagOk : Bool) (peer : Nat) (message : Bytes) (s : State) : Outcome :=
  match tget s.hst.sessions i with
  | none => .next s
  | some x =>
    if !x.opened || !serves s.mode.mode then .next s
    else if !tagOk || decide (counter ≤ x.hostCtr) || decide (2 ^ 63 ≤ counter) then done (badFrame x.partition s)
    else
      let s := setSession s i (fun x => { x with hostCtr := counter, peer := peer, lastFrame := s.mtb.uptime })
      if message.length < 16 + messageLength message then done (badFrame x.partition s)
      else done (serveMessage (16 + i) message s)

end Sys2Proof.Machine
end

