-- ==== Sys2Proof/Machine/Dispatch.lean ====
section
/-! DEFINITION. The meaning of every command: one arm per constructor, each one direct call. -/

namespace Sys2Proof.Machine

def exec (i : Instr) (s : State) : Host.Outcome State Fault Refusal :=
  match i with
  | .inputSupplyGood supply => Sys2Proof.Machine.execInputSupplyGood supply s
  | .supplyDebounceDone => Sys2Proof.Machine.execSupplyDebounceDone s
  | .railWithinLimits => Sys2Proof.Machine.execRailWithinLimits s
  | .railSequenceFail => Sys2Proof.Machine.execRailSequenceFail s
  | .railSequenceRetry => Sys2Proof.Machine.execRailSequenceRetry s
  | .powerRemoved => Sys2Proof.Machine.execPowerRemoved s
  | .frcStartFail => Sys2Proof.Machine.execFrcStartFail s
  | .frcRestart => Sys2Proof.Machine.execFrcRestart s
  | .loopLockReported source => Sys2Proof.Machine.execLoopLockReported source s
  | .sourceStable source ratio => Sys2Proof.Machine.execSourceStable source ratio s
  | .resetNFall => Sys2Proof.Machine.execResetNFall s
  | .resetAccepted => Sys2Proof.Machine.execResetAccepted s
  | .resetNRelease svcEn => Sys2Proof.Machine.execResetNRelease svcEn s
  | .clockStopDetect source => Sys2Proof.Machine.execClockStopDetect source s
  | .frequencyMeasurement source count => Sys2Proof.Machine.execFrequencyMeasurement source count s
  | .rootSwitchDone => Sys2Proof.Machine.execRootSwitchDone s
  | .safeHoldExit sourceTime => Sys2Proof.Machine.execSafeHoldExit sourceTime s
  | .pllSLockLoss => Sys2Proof.Machine.execPllSLockLoss s
  | .supplyLoss supply => Sys2Proof.Machine.execSupplyLoss supply s
  | .supplyReturn supply => Sys2Proof.Machine.execSupplyReturn supply s
  | .overcurrent => Sys2Proof.Machine.execOvercurrent s
  | .coreRailLoss rail => Sys2Proof.Machine.execCoreRailLoss rail s
  | .hbmRailLoss stack => Sys2Proof.Machine.execHbmRailLoss stack s
  | .tjSample env => Sys2Proof.Machine.execTjSample env s
  | .pmbusPage page => Sys2Proof.Machine.execPmbusPage page s
  | .pmbusClearFaults => Sys2Proof.Machine.execPmbusClearFaults s
  | .pmbusStatusWord => Sys2Proof.Machine.execPmbusStatusWord s
  | .pmbusStatusInput => Sys2Proof.Machine.execPmbusStatusInput s
  | .pmbusStatusIout => Sys2Proof.Machine.execPmbusStatusIout s
  | .pmbusStatusTemperature => Sys2Proof.Machine.execPmbusStatusTemperature s
  | .pmbusReadVin => Sys2Proof.Machine.execPmbusReadVin s
  | .pmbusReadIin => Sys2Proof.Machine.execPmbusReadIin s
  | .pmbusReadVout => Sys2Proof.Machine.execPmbusReadVout s
  | .pmbusReadIout => Sys2Proof.Machine.execPmbusReadIout s
  | .pmbusReadPin => Sys2Proof.Machine.execPmbusReadPin s
  | .pmbusReadTemperature1 => Sys2Proof.Machine.execPmbusReadTemperature1 s
  | .pmbusMfrFaultLogRead => Sys2Proof.Machine.execPmbusMfrFaultLogRead s
  | .pmbusOtherWrite command => Sys2Proof.Machine.execPmbusOtherWrite command s
  | .ptpMessageReceive port offset => Sys2Proof.Machine.execPtpMessageReceive port offset s
  | .frameInEdge offset => Sys2Proof.Machine.execFrameInEdge offset s
  | .ppsInEdge offset => Sys2Proof.Machine.execPpsInEdge offset s
  | .mtbSourceLost source => Sys2Proof.Machine.execMtbSourceLost source s
  | .clkMtbFracRead transport => Sys2Proof.Machine.execClkMtbFracRead transport s
  | .sampleTick tick env => Sys2Proof.Machine.execSampleTick tick env s
  | .frameTick channel frame env => Sys2Proof.Machine.execFrameTick channel frame env s
  | .rowTick channel frame row env => Sys2Proof.Machine.execRowTick channel frame row env s
  | .mtbWholeSecond second => Sys2Proof.Machine.execMtbWholeSecond second s
  | .ppsOutFall => Sys2Proof.Machine.execPpsOutFall s
  | .mtbMillisecond millisecond => Sys2Proof.Machine.execMtbMillisecond millisecond s
  | .shadowCommit channel target change => Sys2Proof.Machine.execShadowCommit channel target change s
  | .shadowApply channel frame => Sys2Proof.Machine.execShadowApply channel frame s
  | .pleachStripArrival engine strip => Sys2Proof.Machine.execPleachStripArrival engine strip s
  | .sliceVerdict verdict => Sys2Proof.Machine.execSliceVerdict verdict s
  | .alfDerivation context frame => Sys2Proof.Machine.execAlfDerivation context frame s
  | .ringSegmentReroute channel segment => Sys2Proof.Machine.execRingSegmentReroute channel segment s
  | .spareTakeover engine channel frame => Sys2Proof.Machine.execSpareTakeover engine channel frame s
  | .gRecompute context frame => Sys2Proof.Machine.execGRecompute context frame s
  | .sliceEmission context frame row => Sys2Proof.Machine.execSliceEmission context frame row s
  | .decodeNalReceive context nal => Sys2Proof.Machine.execDecodeNalReceive context nal s
  | .decodeCloseTimeout context => Sys2Proof.Machine.execDecodeCloseTimeout context s
  | .decodePictureDone context picture => Sys2Proof.Machine.execDecodePictureDone context picture s
  | .graphicsSlotRelease channel layer => Sys2Proof.Machine.execGraphicsSlotRelease channel layer s
  | .sdiLineReceive line => Sys2Proof.Machine.execSdiLineReceive line s
  | .st2110PacketReceive packet => Sys2Proof.Machine.execSt2110PacketReceive packet s
  | .aes3FrameReceive input frame => Sys2Proof.Machine.execAes3FrameReceive input frame s
  | .trackerBlock input count => Sys2Proof.Machine.execTrackerBlock input count s
  | .aes3Stop input => Sys2Proof.Machine.execAes3Stop input s
  | .payloadMuteRelease path pair => Sys2Proof.Machine.execPayloadMuteRelease path pair s
  | .aes3BlockStartCheck port paired => Sys2Proof.Machine.execAes3BlockStartCheck port paired s
  | .audioPortRestartApply port frame => Sys2Proof.Machine.execAudioPortRestartApply port frame s
  | .packetTransmit port => Sys2Proof.Machine.execPacketTransmit port s
  | .gateEntryChange port => Sys2Proof.Machine.execGateEntryChange port s
  | .gateListStart port => Sys2Proof.Machine.execGateListStart port s
  | .shaperRateApply leg tick => Sys2Proof.Machine.execShaperRateApply leg tick s
  | .psiInsertion flow frame => Sys2Proof.Machine.execPsiInsertion flow frame s
  | .pcrInsertion flow videoDatagram => Sys2Proof.Machine.execPcrInsertion flow videoDatagram s
  | .rtcpReceive flow message => Sys2Proof.Machine.execRtcpReceive flow message s
  | .addressResolved leg mac => Sys2Proof.Machine.execAddressResolved leg mac s
  | .queueSampleTimer => Sys2Proof.Machine.execQueueSampleTimer s
  | .pairDigestReceive digest partnerId partnerWants => Sys2Proof.Machine.execPairDigestReceive digest partnerId partnerWants s
  | .claimBeaconSend => Sys2Proof.Machine.execClaimBeaconSend s
  | .claimBeaconReceive claim epoch mode degraded count => Sys2Proof.Machine.execClaimBeaconReceive claim epoch mode degraded count s
  | .vaDown => Sys2Proof.Machine.execVaDown s
  | .vaSilent => Sys2Proof.Machine.execVaSilent s
  | .pairHbInEdge level => Sys2Proof.Machine.execPairHbInEdge level s
  | .heartbeatSilent => Sys2Proof.Machine.execHeartbeatSilent s
  | .hrwHeartbeatReceive path claim epoch => Sys2Proof.Machine.execHrwHeartbeatReceive path claim epoch s
  | .fingerprintReceive print => Sys2Proof.Machine.execFingerprintReceive print s
  | .fingerprintMissing stream => Sys2Proof.Machine.execFingerprintMissing stream s
  | .pairFrameEnd => Sys2Proof.Machine.execPairFrameEnd s
  | .resyncBulkDone channel frame bytes => Sys2Proof.Machine.execResyncBulkDone channel frame bytes s
  | .resyncSmallState channel bytes small => Sys2Proof.Machine.execResyncSmallState channel bytes small s
  | .roleSwapDue frame => Sys2Proof.Machine.execRoleSwapDue frame s
  | .roleSwap frame => Sys2Proof.Machine.execRoleSwap frame s
  | .mergeSwitch leg time unit => Sys2Proof.Machine.execMergeSwitch leg time unit s
  | .partnerPacketReceive leg packet => Sys2Proof.Machine.execPartnerPacketReceive leg packet s
  | .forwardedChangeReceive channel target change => Sys2Proof.Machine.execForwardedChangeReceive channel target change s
  | .claimReleaseFlowsStop => Sys2Proof.Machine.execClaimReleaseFlowsStop s
  | .workItemPost item => Sys2Proof.Machine.execWorkItemPost item s
  | .producerStallRelease queue => Sys2Proof.Machine.execProducerStallRelease queue s
  | .counterArm counter value => Sys2Proof.Machine.execCounterArm counter value s
  | .parkedItemWake flow seq => Sys2Proof.Machine.execParkedItemWake flow seq s
  | .coreTakeItem core => Sys2Proof.Machine.execCoreTakeItem core s
  | .workItemComplete core retry => Sys2Proof.Machine.execWorkItemComplete core retry s
  | .retryBackoffExpiry flow seq => Sys2Proof.Machine.execRetryBackoffExpiry flow seq s
  | .itemWatchdog core => Sys2Proof.Machine.execItemWatchdog core s
  | .workItemDeadline flow seq => Sys2Proof.Machine.execWorkItemDeadline flow seq s
  | .rateQuotaPeriod => Sys2Proof.Machine.execRateQuotaPeriod s
  | .refreshDue pc requests => Sys2Proof.Machine.execRefreshDue pc requests s
  | .postponedRefreshIssue pc => Sys2Proof.Machine.execPostponedRefreshIssue pc s
  | .stackTemperatureRead stack celsius => Sys2Proof.Machine.execStackTemperatureRead stack celsius s
  | .selfRefreshEntry stack => Sys2Proof.Machine.execSelfRefreshEntry stack s
  | .selfRefreshEntryDone stack => Sys2Proof.Machine.execSelfRefreshEntryDone stack s
  | .hbmRequestWake address client => Sys2Proof.Machine.execHbmRequestWake address client s
  | .selfRefreshExitDone stack => Sys2Proof.Machine.execSelfRefreshExitDone stack s
  | .poisonedRead address client => Sys2Proof.Machine.execPoisonedRead address client s
  | .scrubAccess pc corrected => Sys2Proof.Machine.execScrubAccess pc corrected s
  | .remapCopyDone => Sys2Proof.Machine.execRemapCopyDone s
  | .memoryCheckDone failing => Sys2Proof.Machine.execMemoryCheckDone failing s
  | .ethFrameReceive port frame => Sys2Proof.Machine.execEthFrameReceive port frame s
  | .pauseExpiry port => Sys2Proof.Machine.execPauseExpiry port s
  | .lnkPauseLong port => Sys2Proof.Machine.execLnkPauseLong port s
  | .ethPortUp port => Sys2Proof.Machine.execEthPortUp port s
  | .lnkEthDown port => Sys2Proof.Machine.execLnkEthDown port s
  | .valsinFrameReceive port frame => Sys2Proof.Machine.execValsinFrameReceive port frame s
  | .valsinAckTimer port => Sys2Proof.Machine.execValsinAckTimer port s
  | .valsinRetryTimeout port => Sys2Proof.Machine.execValsinRetryTimeout port s
  | .valsinTrainingReceive port sets => Sys2Proof.Machine.execValsinTrainingReceive port sets s
  | .valsinStepSwitch port => Sys2Proof.Machine.execValsinStepSwitch port s
  | .valsinStepTimeout port => Sys2Proof.Machine.execValsinStepTimeout port s
  | .valsinRetrainTimer port => Sys2Proof.Machine.execValsinRetrainTimer port s
  | .commaLoss port lane => Sys2Proof.Machine.execCommaLoss port lane s
  | .valsinSleepEntry port => Sys2Proof.Machine.execValsinSleepEntry port s
  | .valsinWake port => Sys2Proof.Machine.execValsinWake port s
  | .valsinWakeFail port => Sys2Proof.Machine.execValsinWakeFail port s
  | .hrwDiscovery port up => Sys2Proof.Machine.execHrwDiscovery port up s
  | .hrwDepthAnnounce announced => Sys2Proof.Machine.execHrwDepthAnnounce announced s
  | .hrwMapReceive port ids depth => Sys2Proof.Machine.execHrwMapReceive port ids depth s
  | .hrwNoRoot => Sys2Proof.Machine.execHrwNoRoot s
  | .hrwBcastReceive origin seq data => Sys2Proof.Machine.execHrwBcastReceive origin seq data s
  | .hrwBarrierArrival barrier port timeoutMs partialArrival => Sys2Proof.Machine.execHrwBarrierArrival barrier port timeoutMs partialArrival s
  | .hrwBarrierRelease barrier seq partialRelease => Sys2Proof.Machine.execHrwBarrierRelease barrier seq partialRelease s
  | .hrwBarrierTimeout barrier => Sys2Proof.Machine.execHrwBarrierTimeout barrier s
  | .hrwScheduleReceive action => Sys2Proof.Machine.execHrwScheduleReceive action s
  | .hrwActionTime seq => Sys2Proof.Machine.execHrwActionTime seq s
  | .faultReport source inst detail0 detail1 => Sys2Proof.Machine.execFaultReport source inst detail0 detail1 s
  | .errPulseEnd => Sys2Proof.Machine.execErrPulseEnd s
  | .unitResume source inst => Sys2Proof.Machine.execUnitResume source inst s
  | .fltPath source => Sys2Proof.Machine.execFltPath source s
  | .faultPathRestore source => Sys2Proof.Machine.execFaultPathRestore source s
  | .firmwareSlotVerify slot => Sys2Proof.Machine.execFirmwareSlotVerify slot s
  | .configSlotVerify slot => Sys2Proof.Machine.execConfigSlotVerify slot s
  | .recordPadding payload => Sys2Proof.Machine.execRecordPadding payload s
  | .recordUnknownType type payload => Sys2Proof.Machine.execRecordUnknownType type payload s
  | .gpioRecord payload => Sys2Proof.Machine.execGpioRecord payload s
  | .supplyRecord payload => Sys2Proof.Machine.execSupplyRecord payload s
  | .mtbDisciplineRecord payload => Sys2Proof.Machine.execMtbDisciplineRecord payload s
  | .memoryRecord payload => Sys2Proof.Machine.execMemoryRecord payload s
  | .qosPortRecord payload => Sys2Proof.Machine.execQosPortRecord payload s
  | .ethernetPortRecord payload => Sys2Proof.Machine.execEthernetPortRecord payload s
  | .valsinPortRecord payload => Sys2Proof.Machine.execValsinPortRecord payload s
  | .ingressFlowRecord payload => Sys2Proof.Machine.execIngressFlowRecord payload s
  | .alignmentGroupRecord payload => Sys2Proof.Machine.execAlignmentGroupRecord payload s
  | .groupMemberRecord payload => Sys2Proof.Machine.execGroupMemberRecord payload s
  | .aes3InputRecord payload => Sys2Proof.Machine.execAes3InputRecord payload s
  | .aes3OutputRecord payload => Sys2Proof.Machine.execAes3OutputRecord payload s
  | .audioProgrammeRecord payload => Sys2Proof.Machine.execAudioProgrammeRecord payload s
  | .compositorRecord payload => Sys2Proof.Machine.execCompositorRecord payload s
  | .videoLayerRecord payload => Sys2Proof.Machine.execVideoLayerRecord payload s
  | .graphicsLayerRecord payload => Sys2Proof.Machine.execGraphicsLayerRecord payload s
  | .slateDataRecord payload => Sys2Proof.Machine.execSlateDataRecord payload s
  | .topiaryRegionRecord payload => Sys2Proof.Machine.execTopiaryRegionRecord payload s
  | .encodeChannelRecord payload => Sys2Proof.Machine.execEncodeChannelRecord payload s
  | .encodeContextRecord payload => Sys2Proof.Machine.execEncodeContextRecord payload s
  | .contextCodingRecord payload => Sys2Proof.Machine.execContextCodingRecord payload s
  | .channelColourRecord payload => Sys2Proof.Machine.execChannelColourRecord payload s
  | .rateControlRecord payload => Sys2Proof.Machine.execRateControlRecord payload s
  | .coppiceRecord payload => Sys2Proof.Machine.execCoppiceRecord payload s
  | .decodeContextRecord payload => Sys2Proof.Machine.execDecodeContextRecord payload s
  | .egressFlowRecord payload => Sys2Proof.Machine.execEgressFlowRecord payload s
  | .flowGroupRecord payload => Sys2Proof.Machine.execFlowGroupRecord payload s
  | .portClassRecord payload => Sys2Proof.Machine.execPortClassRecord payload s
  | .gateListRecord payload => Sys2Proof.Machine.execGateListRecord payload s
  | .ingressPolicerRecord payload => Sys2Proof.Machine.execIngressPolicerRecord payload s
  | .pairRecord payload => Sys2Proof.Machine.execPairRecord payload s
  | .hedgerowRecord payload => Sys2Proof.Machine.execHedgerowRecord payload s
  | .severityRecord payload => Sys2Proof.Machine.execSeverityRecord payload s
  | .generalFaultRecord payload => Sys2Proof.Machine.execGeneralFaultRecord payload s
  | .bindingRecord payload => Sys2Proof.Machine.execBindingRecord payload s
  | .partitionKeyRecord payload => Sys2Proof.Machine.execPartitionKeyRecord payload s
  | .managementPortRecord payload => Sys2Proof.Machine.execManagementPortRecord payload s
  | .partitionChannelRecord payload => Sys2Proof.Machine.execPartitionChannelRecord payload s
  | .keyRecord payload tagOk => Sys2Proof.Machine.execKeyRecord payload tagOk s
  | .enrolmentRecord payload => Sys2Proof.Machine.execEnrolmentRecord payload s
  | .partitionQuotaRecord payload => Sys2Proof.Machine.execPartitionQuotaRecord payload s
  | .generalUnitRecord payload => Sys2Proof.Machine.execGeneralUnitRecord payload s
  | .engineSelftestDone engines analysers decoders => Sys2Proof.Machine.execEngineSelftestDone engines analysers decoders s
  | .boxCoreSelftestDone passing => Sys2Proof.Machine.execBoxCoreSelftestDone passing s
  | .cvuSelftestDone failing => Sys2Proof.Machine.execCvuSelftestDone failing s
  | .admission => Sys2Proof.Machine.execAdmission s
  | .configureComplete => Sys2Proof.Machine.execConfigureComplete s
  | .configureMtbTimeout => Sys2Proof.Machine.execConfigureMtbTimeout s
  | .fuseBitProgram ok => Sys2Proof.Machine.execFuseBitProgram ok s
  | .modeRequestExecute => Sys2Proof.Machine.execModeRequestExecute s
  | .updateEraseDone => Sys2Proof.Machine.execUpdateEraseDone s
  | .updateVerifyDone item config => Sys2Proof.Machine.execUpdateVerifyDone item config s
  | .updateTimeout => Sys2Proof.Machine.execUpdateTimeout s
  | .encChannelInfo req => Sys2Proof.Machine.execEncChannelInfo req s
  | .encPoolInfo req => Sys2Proof.Machine.execEncPoolInfo req s
  | .encRefInfo req => Sys2Proof.Machine.execEncRefInfo req s
  | .encSetBitrate req => Sys2Proof.Machine.execEncSetBitrate req s
  | .encRcInfo req => Sys2Proof.Machine.execEncRcInfo req s
  | .decCtxInfo req => Sys2Proof.Machine.execDecCtxInfo req s
  | .cmpChInfo req => Sys2Proof.Machine.execCmpChInfo req s
  | .cmpSetLayer req => Sys2Proof.Machine.execCmpSetLayer req s
  | .ingGroupInfo req => Sys2Proof.Machine.execIngGroupInfo req s
  | .audPortRestart req => Sys2Proof.Machine.execAudPortRestart req s
  | .egrSetRate req => Sys2Proof.Machine.execEgrSetRate req s
  | .egrSetGates req => Sys2Proof.Machine.execEgrSetGates req s
  | .redPairInfo req => Sys2Proof.Machine.execRedPairInfo req s
  | .redSwapNow req => Sys2Proof.Machine.execRedSwapNow req s
  | .referenceActionAck req => Sys2Proof.Machine.execReferenceActionAck req s
  | .referenceActionLoss req => Sys2Proof.Machine.execReferenceActionLoss req s
  | .overlayUpdateGraphics req => Sys2Proof.Machine.execOverlayUpdateGraphics req s
  | .overlayUpdateExpected req => Sys2Proof.Machine.execOverlayUpdateExpected req s
  | .spliceInsertion req => Sys2Proof.Machine.execSpliceInsertion req s
  | .seiInsertion req => Sys2Proof.Machine.execSeiInsertion req s
  | .lnkPortInfo req => Sys2Proof.Machine.execLnkPortInfo req s
  | .lnkRetrain req => Sys2Proof.Machine.execLnkRetrain req s
  | .lnkRetrainTimeout kind port => Sys2Proof.Machine.execLnkRetrainTimeout kind port s
  | .hrwBroadcast req => Sys2Proof.Machine.execHrwBroadcast req s
  | .hrwScheduleSnapshot req => Sys2Proof.Machine.execHrwScheduleSnapshot req s
  | .hrwScheduleReset req => Sys2Proof.Machine.execHrwScheduleReset req s
  | .hrwBarrier req => Sys2Proof.Machine.execHrwBarrier req s
  | .hrwSnapRead req => Sys2Proof.Machine.execHrwSnapRead req s
  | .clkSwitchToPllR req => Sys2Proof.Machine.execClkSwitchToPllR req s
  | .clkSwitchToFrc req => Sys2Proof.Machine.execClkSwitchToFrc req s
  | .secIdentity req => Sys2Proof.Machine.execSecIdentity req s
  | .secAttest req => Sys2Proof.Machine.execSecAttest req s
  | .secAttestRead req => Sys2Proof.Machine.execSecAttestRead req s
  | .secUpdateBegin req => Sys2Proof.Machine.execSecUpdateBegin req s
  | .secUpdateData req => Sys2Proof.Machine.execSecUpdateData req s
  | .secUpdateEnd req => Sys2Proof.Machine.execSecUpdateEnd req s
  | .secUpdateAbort req => Sys2Proof.Machine.execSecUpdateAbort req s
  | .hstInfo req => Sys2Proof.Machine.execHstInfo req s
  | .hstNop req => Sys2Proof.Machine.execHstNop req s
  | .hstBufWriteInline req => Sys2Proof.Machine.execHstBufWriteInline req s
  | .hstBufWritePull req => Sys2Proof.Machine.execHstBufWritePull req s
  | .hstModeReqQuiescent req => Sys2Proof.Machine.execHstModeReqQuiescent req s
  | .hstModeReqRun req => Sys2Proof.Machine.execHstModeReqRun req s
  | .hstRegRead req => Sys2Proof.Machine.execHstRegRead req s
  | .hstRegWrite req => Sys2Proof.Machine.execHstRegWrite req s
  | .mailboxUnknownOpcode opcode req => Sys2Proof.Machine.execMailboxUnknownOpcode opcode req s
  | .hstReqTailWrite function tail ring => Sys2Proof.Machine.execHstReqTailWrite function tail ring s
  | .hstRingReset function => Sys2Proof.Machine.execHstRingReset function s
  | .hstRplHeadWrite function head => Sys2Proof.Machine.execHstRplHeadWrite function head s
  | .sessionHello port partition peer => Sys2Proof.Machine.execSessionHello port partition peer s
  | .sessionAuth session signatureOk peer => Sys2Proof.Machine.execSessionAuth session signatureOk peer s
  | .sessionProtectedFrame session counter tagOk peer message => Sys2Proof.Machine.execSessionProtectedFrame session counter tagOk peer message s
  | .sessionIdleTimeout session => Sys2Proof.Machine.execSessionIdleTimeout session s
  | .authLockoutExpiry partition => Sys2Proof.Machine.execAuthLockoutExpiry partition s
  | .functionLevelReset function => Sys2Proof.Machine.execFunctionLevelReset function s
  | .interruptModerationExpiry function => Sys2Proof.Machine.execInterruptModerationExpiry function s
  | .hstIntCauseClear function mask => Sys2Proof.Machine.execHstIntCauseClear function mask s
  | .egrStatSelect transport value => Sys2Proof.Machine.execEgrStatSelect transport value s
  | .egrStatSelectClear transport value => Sys2Proof.Machine.execEgrStatSelectClear transport value s
  | .drmDlySelect transport value => Sys2Proof.Machine.execDrmDlySelect transport value s
  | .clkMonSelect transport value => Sys2Proof.Machine.execClkMonSelect transport value s
  | .fltLogSelect transport value => Sys2Proof.Machine.execFltLogSelect transport value s
  | .fltSrcSelect transport value => Sys2Proof.Machine.execFltSrcSelect transport value s
  | .fltErrRelease transport => Sys2Proof.Machine.execFltErrRelease transport s
  | .cvuRunLoWrite transport unit value => Sys2Proof.Machine.execCvuRunLoWrite transport unit value s
  | .cvuRunHiWrite transport unit value => Sys2Proof.Machine.execCvuRunHiWrite transport unit value s
  | .cvuRunLoRead transport unit => Sys2Proof.Machine.execCvuRunLoRead transport unit s
  | .clkLostClear transport mask => Sys2Proof.Machine.execClkLostClear transport mask s
  | .pwrGpioOutWrite transport value => Sys2Proof.Machine.execPwrGpioOutWrite transport value s
  | .lowWordLatchRead transport offset => Sys2Proof.Machine.execLowWordLatchRead transport offset s
  | .readClearRegisterRead transport offset => Sys2Proof.Machine.execReadClearRegisterRead transport offset s
  | .registerWrite transport offset value => Sys2Proof.Machine.execRegisterWrite transport offset value s
  | .loopLossOfLock source => Sys2Proof.Machine.execLoopLossOfLock source s
  | .inputSupplyBad supply => Sys2Proof.Machine.execInputSupplyBad supply s
  | .pvdSubmitUnknownClass req => Sys2Proof.Machine.execPvdSubmitUnknownClass req s
  | .hrwRequestAtRoot request => Sys2Proof.Machine.execHrwRequestAtRoot request s
  | .hostDmaPullDone function data => Sys2Proof.Machine.execHostDmaPullDone function data s
  | .graphicsSlotCopyDone channel layer => Sys2Proof.Machine.execGraphicsSlotCopyDone channel layer s

end Sys2Proof.Machine
end

