-- ==== Sys2Proof/Machine/Step.lean ====
section
/-! DEFINITION. One step of the block: the command at the front of the queue, or one cycle of the management clock. -/

namespace Sys2Proof.Machine

/-- An MGT cycle in which no command comes: the MTB counts while the management plane is alive, and nothing else happens (R22, R24;
log entry 4). -/
def idle (s : State) : State := if alive s.mode.mode then passCycles 1 s else s

/-- The command at the front of the queue takes its effect on everything but the queue; with none waiting a cycle passes (log entry
4). -/
def step (s : State) : Host.Outcome State Fault Refusal :=
  match s.pending with
  | [] => .next (idle s)
  | c :: rest => exec c { s with pending := rest }

/-- The state with the command that a word spells put at the front of its queue; no word spells one. -/
def State.withFetchWord (s : State) (nbits w : Nat) : State :=
  match decodeTableWord nbits w with
  | some c => { s with pending := c :: s.pending }
  | none => s

end Sys2Proof.Machine
end

