-- ==== Sys2Proof/WellFormed.lean ====
section
/-! DEFINITION. Which commands are well-formed: operands inside the ranges their rules give, records framed as R405 says, requests
whose header fields have the widths of R434. -/

namespace Sys2Proof

/-- What there is to check in a command: its bounded operands, each with the bound it lies below, its record payload and its
mailbox request. -/
structure Checks where
  ranges : List (Nat × Nat)
  record : Option Bytes
  request : Option Req
  deriving DecidableEq, Repr

/-- A command's operands as its rule bounds them: instances as Table 1 of the fault chapter numbers them, partitions, functions and
sessions as R426 to R433 do, and register words of 32 bits (R7). -/
def Instr.checks (i : Instr) : Checks :=
  match i with
  | .inputSupplyGood supply => ⟨[(supply, 3)], none, none⟩
  | .supplyDebounceDone => ⟨[], none, none⟩
  | .railWithinLimits => ⟨[], none, none⟩
  | .railSequenceFail => ⟨[], none, none⟩
  | .railSequenceRetry => ⟨[], none, none⟩
  | .powerRemoved => ⟨[], none, none⟩
  | .frcStartFail => ⟨[], none, none⟩
  | .frcRestart => ⟨[], none, none⟩
  | .loopLockReported source => ⟨[(source, 11)], none, none⟩
  | .sourceStable source _ => ⟨[(source, 11)], none, none⟩
  | .resetNFall => ⟨[], none, none⟩
  | .resetAccepted => ⟨[], none, none⟩
  | .resetNRelease _ => ⟨[], none, none⟩
  | .clockStopDetect source => ⟨[(source, 11)], none, none⟩
  | .frequencyMeasurement source _ => ⟨[(source, 11)], none, none⟩
  | .rootSwitchDone => ⟨[], none, none⟩
  | .safeHoldExit _ => ⟨[], none, none⟩
  | .pllSLockLoss => ⟨[], none, none⟩
  | .supplyLoss supply => ⟨[(supply, 6)], none, none⟩
  | .supplyReturn supply => ⟨[(supply, 6)], none, none⟩
  | .overcurrent => ⟨[], none, none⟩
  | .coreRailLoss rail => ⟨[(rail, 2)], none, none⟩
  | .hbmRailLoss stack => ⟨[(stack, 4)], none, none⟩
  | .tjSample _ => ⟨[], none, none⟩
  | .pmbusPage page => ⟨[(page, 256)], none, none⟩
  | .pmbusClearFaults => ⟨[], none, none⟩
  | .pmbusStatusWord => ⟨[], none, none⟩
  | .pmbusStatusInput => ⟨[], none, none⟩
  | .pmbusStatusIout => ⟨[], none, none⟩
  | .pmbusStatusTemperature => ⟨[], none, none⟩
  | .pmbusReadVin => ⟨[], none, none⟩
  | .pmbusReadIin => ⟨[], none, none⟩
  | .pmbusReadVout => ⟨[], none, none⟩
  | .pmbusReadIout => ⟨[], none, none⟩
  | .pmbusReadPin => ⟨[], none, none⟩
  | .pmbusReadTemperature1 => ⟨[], none, none⟩
  | .pmbusMfrFaultLogRead => ⟨[], none, none⟩
  | .pmbusOtherWrite command => ⟨[(command, 256)], none, none⟩
  | .ptpMessageReceive port _ => ⟨[(port, 18)], none, none⟩
  | .frameInEdge _ => ⟨[], none, none⟩
  | .ppsInEdge _ => ⟨[], none, none⟩
  | .mtbSourceLost source => ⟨[(source, 4)], none, none⟩
  | .clkMtbFracRead transport => ⟨[(transport, 32)], none, none⟩
  | .sampleTick _ _ => ⟨[], none, none⟩
  | .frameTick channel _ _ => ⟨[(channel, 64)], none, none⟩
  | .rowTick channel _ row _ => ⟨[(channel, 64), (row, 256)], none, none⟩
  | .mtbWholeSecond _ => ⟨[], none, none⟩
  | .ppsOutFall => ⟨[], none, none⟩
  | .mtbMillisecond _ => ⟨[], none, none⟩
  | .shadowCommit channel target _ => ⟨[(channel, 64), (target, 4294967296)], none, none⟩
  | .shadowApply channel _ => ⟨[(channel, 64)], none, none⟩
  | .pleachStripArrival engine _ => ⟨[(engine, 18)], none, none⟩
  | .sliceVerdict _ => ⟨[], none, none⟩
  | .alfDerivation context _ => ⟨[(context, 128)], none, none⟩
  | .ringSegmentReroute channel segment => ⟨[(channel, 64), (segment, 18)], none, none⟩
  | .spareTakeover engine channel _ => ⟨[(engine, 18), (channel, 64)], none, none⟩
  | .gRecompute context _ => ⟨[(context, 128)], none, none⟩
  | .sliceEmission context _ row => ⟨[(context, 128), (row, 256)], none, none⟩
  | .decodeNalReceive context _ => ⟨[(context, 32)], none, none⟩
  | .decodeCloseTimeout context => ⟨[(context, 32)], none, none⟩
  | .decodePictureDone context _ => ⟨[(context, 32)], none, none⟩
  | .graphicsSlotRelease channel layer => ⟨[(channel, 64), (layer, 8)], none, none⟩
  | .sdiLineReceive _ => ⟨[], none, none⟩
  | .st2110PacketReceive _ => ⟨[], none, none⟩
  | .aes3FrameReceive input _ => ⟨[(input, 32)], none, none⟩
  | .trackerBlock input count => ⟨[(input, 32), (count, 4294967296)], none, none⟩
  | .aes3Stop input => ⟨[(input, 32)], none, none⟩
  | .payloadMuteRelease path pair => ⟨[(path, 1056), (pair, 64)], none, none⟩
  | .aes3BlockStartCheck port _ => ⟨[(port, 48)], none, none⟩
  | .audioPortRestartApply port _ => ⟨[(port, 48)], none, none⟩
  | .packetTransmit port => ⟨[(port, 16)], none, none⟩
  | .gateEntryChange port => ⟨[(port, 16)], none, none⟩
  | .gateListStart port => ⟨[(port, 16)], none, none⟩
  | .shaperRateApply leg _ => ⟨[(leg, 4096)], none, none⟩
  | .psiInsertion flow _ => ⟨[(flow, 4096)], none, none⟩
  | .pcrInsertion flow _ => ⟨[(flow, 4096)], none, none⟩
  | .rtcpReceive flow _ => ⟨[(flow, 4096)], none, none⟩
  | .addressResolved leg mac => ⟨[(leg, 4096), (mac, 281474976710656)], none, none⟩
  | .queueSampleTimer => ⟨[], none, none⟩
  | .pairDigestReceive _ partnerId partnerWants => ⟨[(partnerId, 65536), (partnerWants, 65536)], none, none⟩
  | .claimBeaconSend => ⟨[], none, none⟩
  | .claimBeaconReceive claim epoch mode _ count => ⟨[(claim, 4294967296), (epoch, 4194304), (mode, 12), (count, 65536)], none, none⟩
  | .vaDown => ⟨[], none, none⟩
  | .vaSilent => ⟨[], none, none⟩
  | .pairHbInEdge _ => ⟨[], none, none⟩
  | .heartbeatSilent => ⟨[], none, none⟩
  | .hrwHeartbeatReceive path claim epoch => ⟨[(path.target, 4294967296), (path.sender, 1024), (claim, 4294967296), (epoch, 4194304)], none, none⟩
  | .fingerprintReceive _ => ⟨[], none, none⟩
  | .fingerprintMissing _ => ⟨[], none, none⟩
  | .pairFrameEnd => ⟨[], none, none⟩
  | .resyncBulkDone channel _ _ => ⟨[(channel, 64)], none, none⟩
  | .resyncSmallState channel _ _ => ⟨[(channel, 64)], none, none⟩
  | .roleSwapDue _ => ⟨[], none, none⟩
  | .roleSwap _ => ⟨[], none, none⟩
  | .mergeSwitch leg _ unit => ⟨[(leg, 4096), (unit, 18446744073709551616)], none, none⟩
  | .partnerPacketReceive leg _ => ⟨[(leg, 4096)], none, none⟩
  | .forwardedChangeReceive channel target _ => ⟨[(channel, 64), (target, 4294967296)], none, none⟩
  | .claimReleaseFlowsStop => ⟨[], none, none⟩
  | .workItemPost _ => ⟨[], none, none⟩
  | .producerStallRelease queue => ⟨[(queue, 65)], none, none⟩
  | .counterArm counter value => ⟨[(counter, 65536), (value, 65536)], none, none⟩
  | .parkedItemWake flow _ => ⟨[(flow, 4096)], none, none⟩
  | .coreTakeItem core => ⟨[(core, 128)], none, none⟩
  | .workItemComplete core _ => ⟨[(core, 128)], none, none⟩
  | .retryBackoffExpiry flow _ => ⟨[(flow, 4096)], none, none⟩
  | .itemWatchdog core => ⟨[(core, 128)], none, none⟩
  | .workItemDeadline flow _ => ⟨[(flow, 4096)], none, none⟩
  | .rateQuotaPeriod => ⟨[], none, none⟩
  | .refreshDue pc _ => ⟨[(pc, 128)], none, none⟩
  | .postponedRefreshIssue pc => ⟨[(pc, 128)], none, none⟩
  | .stackTemperatureRead stack _ => ⟨[(stack, 4)], none, none⟩
  | .selfRefreshEntry stack => ⟨[(stack, 4)], none, none⟩
  | .selfRefreshEntryDone stack => ⟨[(stack, 4)], none, none⟩
  | .hbmRequestWake address _ => ⟨[(address, 68719476736)], none, none⟩
  | .selfRefreshExitDone stack => ⟨[(stack, 4)], none, none⟩
  | .poisonedRead address _ => ⟨[(address, 68719476736)], none, none⟩
  | .scrubAccess pc _ => ⟨[(pc, 128)], none, none⟩
  | .remapCopyDone => ⟨[], none, none⟩
  | .memoryCheckDone _ => ⟨[], none, none⟩
  | .ethFrameReceive port _ => ⟨[(port, 16)], none, none⟩
  | .pauseExpiry port => ⟨[(port, 16)], none, none⟩
  | .lnkPauseLong port => ⟨[(port, 16)], none, none⟩
  | .ethPortUp port => ⟨[(port, 16)], none, none⟩
  | .lnkEthDown port => ⟨[(port, 16)], none, none⟩
  | .valsinFrameReceive port _ => ⟨[(port, 6)], none, none⟩
  | .valsinAckTimer port => ⟨[(port, 6)], none, none⟩
  | .valsinRetryTimeout port => ⟨[(port, 6)], none, none⟩
  | .valsinTrainingReceive port _ => ⟨[(port, 6)], none, none⟩
  | .valsinStepSwitch port => ⟨[(port, 6)], none, none⟩
  | .valsinStepTimeout port => ⟨[(port, 6)], none, none⟩
  | .valsinRetrainTimer port => ⟨[(port, 6)], none, none⟩
  | .commaLoss port lane => ⟨[(port, 6), (lane, 4)], none, none⟩
  | .valsinSleepEntry port => ⟨[(port, 6)], none, none⟩
  | .valsinWake port => ⟨[(port, 6)], none, none⟩
  | .valsinWakeFail port => ⟨[(port, 6)], none, none⟩
  | .hrwDiscovery port _ => ⟨[(port, 5)], none, none⟩
  | .hrwDepthAnnounce announced => ⟨[(announced.depth, 8)], none, none⟩
  | .hrwMapReceive port _ depth => ⟨[(port, 5), (depth, 8)], none, none⟩
  | .hrwNoRoot => ⟨[], none, none⟩
  | .hrwBcastReceive origin seq _ => ⟨[(origin, 1024), (seq, 4294967296)], none, none⟩
  | .hrwBarrierArrival barrier port timeoutMs _ => ⟨[(barrier, 16), (port, 5), (timeoutMs, 65536)], none, none⟩
  | .hrwBarrierRelease barrier seq _ => ⟨[(barrier, 16), (seq, 4294967296)], none, none⟩
  | .hrwBarrierTimeout barrier => ⟨[(barrier, 16)], none, none⟩
  | .hrwScheduleReceive _ => ⟨[], none, none⟩
  | .hrwActionTime seq => ⟨[(seq, 4294967296)], none, none⟩
  | .faultReport source inst detail0 detail1 => ⟨[(source, 512), (inst, 65536), (detail0, 4294967296), (detail1, 4294967296)], none, none⟩
  | .errPulseEnd => ⟨[], none, none⟩
  | .unitResume source inst => ⟨[(source, 512), (inst, 65536)], none, none⟩
  | .fltPath source => ⟨[(source, 512)], none, none⟩
  | .faultPathRestore source => ⟨[(source, 512)], none, none⟩
  | .firmwareSlotVerify _ => ⟨[], none, none⟩
  | .configSlotVerify _ => ⟨[], none, none⟩
  | .recordPadding payload => ⟨[], some payload, none⟩
  | .recordUnknownType type payload => ⟨[(type, 65536)], some payload, none⟩
  | .gpioRecord payload => ⟨[], some payload, none⟩
  | .supplyRecord payload => ⟨[], some payload, none⟩
  | .mtbDisciplineRecord payload => ⟨[], some payload, none⟩
  | .memoryRecord payload => ⟨[], some payload, none⟩
  | .qosPortRecord payload => ⟨[], some payload, none⟩
  | .ethernetPortRecord payload => ⟨[], some payload, none⟩
  | .valsinPortRecord payload => ⟨[], some payload, none⟩
  | .ingressFlowRecord payload => ⟨[], some payload, none⟩
  | .alignmentGroupRecord payload => ⟨[], some payload, none⟩
  | .groupMemberRecord payload => ⟨[], some payload, none⟩
  | .aes3InputRecord payload => ⟨[], some payload, none⟩
  | .aes3OutputRecord payload => ⟨[], some payload, none⟩
  | .audioProgrammeRecord payload => ⟨[], some payload, none⟩
  | .compositorRecord payload => ⟨[], some payload, none⟩
  | .videoLayerRecord payload => ⟨[], some payload, none⟩
  | .graphicsLayerRecord payload => ⟨[], some payload, none⟩
  | .slateDataRecord payload => ⟨[], some payload, none⟩
  | .topiaryRegionRecord payload => ⟨[], some payload, none⟩
  | .encodeChannelRecord payload => ⟨[], some payload, none⟩
  | .encodeContextRecord payload => ⟨[], some payload, none⟩
  | .contextCodingRecord payload => ⟨[], some payload, none⟩
  | .channelColourRecord payload => ⟨[], some payload, none⟩
  | .rateControlRecord payload => ⟨[], some payload, none⟩
  | .coppiceRecord payload => ⟨[], some payload, none⟩
  | .decodeContextRecord payload => ⟨[], some payload, none⟩
  | .egressFlowRecord payload => ⟨[], some payload, none⟩
  | .flowGroupRecord payload => ⟨[], some payload, none⟩
  | .portClassRecord payload => ⟨[], some payload, none⟩
  | .gateListRecord payload => ⟨[], some payload, none⟩
  | .ingressPolicerRecord payload => ⟨[], some payload, none⟩
  | .pairRecord payload => ⟨[], some payload, none⟩
  | .hedgerowRecord payload => ⟨[], some payload, none⟩
  | .severityRecord payload => ⟨[], some payload, none⟩
  | .generalFaultRecord payload => ⟨[], some payload, none⟩
  | .bindingRecord payload => ⟨[], some payload, none⟩
  | .partitionKeyRecord payload => ⟨[], some payload, none⟩
  | .managementPortRecord payload => ⟨[], some payload, none⟩
  | .partitionChannelRecord payload => ⟨[], some payload, none⟩
  | .keyRecord payload _ => ⟨[], some payload, none⟩
  | .enrolmentRecord payload => ⟨[], some payload, none⟩
  | .partitionQuotaRecord payload => ⟨[], some payload, none⟩
  | .generalUnitRecord payload => ⟨[], some payload, none⟩
  | .engineSelftestDone _ _ _ => ⟨[], none, none⟩
  | .boxCoreSelftestDone _ => ⟨[], none, none⟩
  | .cvuSelftestDone _ => ⟨[], none, none⟩
  | .admission => ⟨[], none, none⟩
  | .configureComplete => ⟨[], none, none⟩
  | .configureMtbTimeout => ⟨[], none, none⟩
  | .fuseBitProgram _ => ⟨[], none, none⟩
  | .modeRequestExecute => ⟨[], none, none⟩
  | .updateEraseDone => ⟨[], none, none⟩
  | .updateVerifyDone _ _ => ⟨[], none, none⟩
  | .updateTimeout => ⟨[], none, none⟩
  | .encChannelInfo req => ⟨[], none, some req⟩
  | .encPoolInfo req => ⟨[], none, some req⟩
  | .encRefInfo req => ⟨[], none, some req⟩
  | .encSetBitrate req => ⟨[], none, some req⟩
  | .encRcInfo req => ⟨[], none, some req⟩
  | .decCtxInfo req => ⟨[], none, some req⟩
  | .cmpChInfo req => ⟨[], none, some req⟩
  | .cmpSetLayer req => ⟨[], none, some req⟩
  | .ingGroupInfo req => ⟨[], none, some req⟩
  | .audPortRestart req => ⟨[], none, some req⟩
  | .egrSetRate req => ⟨[], none, some req⟩
  | .egrSetGates req => ⟨[], none, some req⟩
  | .redPairInfo req => ⟨[], none, some req⟩
  | .redSwapNow req => ⟨[], none, some req⟩
  | .referenceActionAck req => ⟨[], none, some req⟩
  | .referenceActionLoss req => ⟨[], none, some req⟩
  | .overlayUpdateGraphics req => ⟨[], none, some req⟩
  | .overlayUpdateExpected req => ⟨[], none, some req⟩
  | .spliceInsertion req => ⟨[], none, some req⟩
  | .seiInsertion req => ⟨[], none, some req⟩
  | .lnkPortInfo req => ⟨[], none, some req⟩
  | .lnkRetrain req => ⟨[], none, some req⟩
  | .lnkRetrainTimeout kind port => ⟨[(kind, 2), (port, 16)], none, none⟩
  | .hrwBroadcast req => ⟨[], none, some req⟩
  | .hrwScheduleSnapshot req => ⟨[], none, some req⟩
  | .hrwScheduleReset req => ⟨[], none, some req⟩
  | .hrwBarrier req => ⟨[], none, some req⟩
  | .hrwSnapRead req => ⟨[], none, some req⟩
  | .clkSwitchToPllR req => ⟨[], none, some req⟩
  | .clkSwitchToFrc req => ⟨[], none, some req⟩
  | .secIdentity req => ⟨[], none, some req⟩
  | .secAttest req => ⟨[], none, some req⟩
  | .secAttestRead req => ⟨[], none, some req⟩
  | .secUpdateBegin req => ⟨[], none, some req⟩
  | .secUpdateData req => ⟨[], none, some req⟩
  | .secUpdateEnd req => ⟨[], none, some req⟩
  | .secUpdateAbort req => ⟨[], none, some req⟩
  | .hstInfo req => ⟨[], none, some req⟩
  | .hstNop req => ⟨[], none, some req⟩
  | .hstBufWriteInline req => ⟨[], none, some req⟩
  | .hstBufWritePull req => ⟨[], none, some req⟩
  | .hstModeReqQuiescent req => ⟨[], none, some req⟩
  | .hstModeReqRun req => ⟨[], none, some req⟩
  | .hstRegRead req => ⟨[], none, some req⟩
  | .hstRegWrite req => ⟨[], none, some req⟩
  | .mailboxUnknownOpcode opcode req => ⟨[(opcode, 65536)], none, some req⟩
  | .hstReqTailWrite function tail _ => ⟨[(function, 16), (tail, 4294967296)], none, none⟩
  | .hstRingReset function => ⟨[(function, 16)], none, none⟩
  | .hstRplHeadWrite function head => ⟨[(function, 16), (head, 4294967296)], none, none⟩
  | .sessionHello port partition _ => ⟨[(port, 2), (partition, 16)], none, none⟩
  | .sessionAuth session _ _ => ⟨[(session, 16)], none, none⟩
  | .sessionProtectedFrame session counter _ _ _ => ⟨[(session, 16), (counter, 18446744073709551616)], none, none⟩
  | .sessionIdleTimeout session => ⟨[(session, 16)], none, none⟩
  | .authLockoutExpiry partition => ⟨[(partition, 16)], none, none⟩
  | .functionLevelReset function => ⟨[(function, 16)], none, none⟩
  | .interruptModerationExpiry function => ⟨[(function, 16)], none, none⟩
  | .hstIntCauseClear function mask => ⟨[(function, 16), (mask, 4294967296)], none, none⟩
  | .egrStatSelect transport value => ⟨[(transport, 32), (value, 4294967296)], none, none⟩
  | .egrStatSelectClear transport value => ⟨[(transport, 32), (value, 4294967296)], none, none⟩
  | .drmDlySelect transport value => ⟨[(transport, 32), (value, 4294967296)], none, none⟩
  | .clkMonSelect transport value => ⟨[(transport, 32), (value, 4294967296)], none, none⟩
  | .fltLogSelect transport value => ⟨[(transport, 32), (value, 4294967296)], none, none⟩
  | .fltSrcSelect transport value => ⟨[(transport, 32), (value, 4294967296)], none, none⟩
  | .fltErrRelease transport => ⟨[(transport, 32)], none, none⟩
  | .cvuRunLoWrite transport unit value => ⟨[(transport, 32), (unit, 64), (value, 4294967296)], none, none⟩
  | .cvuRunHiWrite transport unit value => ⟨[(transport, 32), (unit, 64), (value, 4294967296)], none, none⟩
  | .cvuRunLoRead transport unit => ⟨[(transport, 32), (unit, 64)], none, none⟩
  | .clkLostClear transport mask => ⟨[(transport, 32), (mask, 4294967296)], none, none⟩
  | .pwrGpioOutWrite transport value => ⟨[(transport, 32), (value, 4294967296)], none, none⟩
  | .lowWordLatchRead transport offset => ⟨[(transport, 32), (offset, 65536)], none, none⟩
  | .readClearRegisterRead transport offset => ⟨[(transport, 32), (offset, 65536)], none, none⟩
  | .registerWrite transport offset value => ⟨[(transport, 32), (offset, 65536), (value, 4294967296)], none, none⟩
  | .loopLossOfLock source => ⟨[(source, 11)], none, none⟩
  | .inputSupplyBad supply => ⟨[(supply, 3)], none, none⟩
  | .pvdSubmitUnknownClass req => ⟨[], none, some req⟩
  | .hrwRequestAtRoot _ => ⟨[], none, none⟩
  | .hostDmaPullDone function _ => ⟨[(function, 16)], none, none⟩
  | .graphicsSlotCopyDone channel layer => ⟨[(channel, 64), (layer, 8)], none, none⟩

/-- Every bounded operand lies below its bound. -/
def rangesOk (l : List (Nat × Nat)) : Bool := l.all (fun e => decide (e.1 < e.2))

/-- A record's length is a multiple of 4 of at most 65,532 bytes (R405). -/
def recordOk : Option Bytes → Bool
  | none => true
  | some b => decide (b.length % 4 = 0 ∧ b.length ≤ 65532)

/-- A request's transport exists and its header fields have their widths (R426, R434). -/
def headerOk : Option Req → Bool
  | none => true
  | some r => decide (r.transport < 32 ∧ r.hdrPartition < 256 ∧ r.seq < 2 ^ 32 ∧ r.tag < 2 ^ 32 ∧ r.len < 65536)

/-- A request carries the payload its header announces, 4,096 bytes at the most (R434). -/
def payloadOk : Option Req → Bool
  | none => true
  | some r => decide (r.payload.length = min r.len 4096)

/-- The checks a command can fail. -/
inductive IllFormed where
  | operandRange | recordLength | requestHeader | requestPayload
  deriving DecidableEq, Repr

/-- The checks that a command fails. -/
def Instr.defects (i : Instr) : List IllFormed :=
  let c := i.checks
  (if rangesOk c.ranges then [] else [.operandRange]) ++ (if recordOk c.record then [] else [.recordLength]) ++
    (if headerOk c.request then [] else [.requestHeader]) ++ (if payloadOk c.request then [] else [.requestPayload])

/-- A command is well-formed when it fails no check. -/
def Instr.WellFormed (i : Instr) : Bool := i.defects.isEmpty

end Sys2Proof
end

