-- ==== Sys2Proof/Safety.lean ====
section
/-! DEFINITION. What counts as a sound state and as fuses kept, in the terms the statements use. -/

namespace Sys2Proof.Safety

open Sys2Proof.Machine

/-- In a mode in which every output is safe, the outputs are forced safe (R17). -/
def outputsSafe (s : State) : Bool := !safeMode s.mode.mode || s.pins.forcedSafe

/-- The modes in which a device holds no claim: M5, M6, M9 and M11 (R12, R18). -/
def holdsNoClaim (m : Mode) : Bool :=
  match m with
  | .standby | .resync | .safeHold | .halt => true
  | _ => false

/-- In a mode that holds no claim the claim is zero (R12, R18). -/
def claimFree (s : State) : Bool := !holdsNoClaim s.mode.mode || s.red.claim == 0

/-- A sound state: HBM in its canonical form and inside the client address space (R300), outputs safe where R17 says so, no claim
where R12 says there is none, and every waiting command well-formed. -/
def Sound (s : State) : Prop :=
  hbmWf s.drm.mem = true ∧ outputsSafe s = true ∧ claimFree s = true ∧ s.pending.all Instr.WellFormed = true

/-- What is programmed in the fuses stays: the serial number, the enrolled flag and the opened device, and no counter falls (R398,
R409, R410, R420). -/
def FusesKept (a b : Fuses) : Prop :=
  b.serial = a.serial ∧ (a.enrolled = true → b.enrolled = true) ∧ (a.usAllOnes = true → b.usAllOnes = true) ∧
    a.svcCount ≤ b.svcCount ∧ ∀ k, tgetD a.counters k 0 ≤ tgetD b.counters k 0

/-- The image with a record joined to it (R407). -/
def joinImage (type : Nat) (b : Bytes) (s : State) : State :=
  { s with sec := { s.sec with image := s.sec.image ++ [(type, b)] } }

/-- The records whose tables have a fixed least size: the command, the type and the size (R405). -/
def shortRecords (b : Bytes) : List (Instr × Nat × Nat) :=
  [(.gpioRecord b, 0x0101, 8),
   (.supplyRecord b, 0x0201, 4),
   (.mtbDisciplineRecord b, 0x0220, 20),
   (.memoryRecord b, 0x0301, 8),
   (.qosPortRecord b, 0x0302, 8),
   (.ethernetPortRecord b, 0x0401, 60),
   (.valsinPortRecord b, 0x0402, 8),
   (.ingressFlowRecord b, 0x0501, 48),
   (.alignmentGroupRecord b, 0x0502, 12),
   (.groupMemberRecord b, 0x0503, 8),
   (.aes3InputRecord b, 0x0601, 4),
   (.aes3OutputRecord b, 0x0602, 16),
   (.audioProgrammeRecord b, 0x0603, 40),
   (.compositorRecord b, 0x0701, 8),
   (.videoLayerRecord b, 0x0702, 32),
   (.graphicsLayerRecord b, 0x0703, 12),
   (.slateDataRecord b, 0x0704, 12),
   (.topiaryRegionRecord b, 0x0705, 16),
   (.encodeChannelRecord b, 0x0801, 8),
   (.encodeContextRecord b, 0x0802, 8),
   (.contextCodingRecord b, 0x0803, 8),
   (.channelColourRecord b, 0x0804, 32),
   (.rateControlRecord b, 0x0805, 16),
   (.coppiceRecord b, 0x0806, 4),
   (.decodeContextRecord b, 0x0820, 16),
   (.egressFlowRecord b, 0x0901, 80),
   (.flowGroupRecord b, 0x0902, 8),
   (.portClassRecord b, 0x0903, 60),
   (.gateListRecord b, 0x0904, 20),
   (.ingressPolicerRecord b, 0x0905, 20),
   (.pairRecord b, 0x0A01, 12),
   (.hedgerowRecord b, 0x0B01, 8),
   (.severityRecord b, 0x0C01, 8),
   (.generalFaultRecord b, 0x0C02, 8),
   (.bindingRecord b, 0x0D01, 8),
   (.partitionKeyRecord b, 0x0D02, 2596),
   (.managementPortRecord b, 0x0D03, 56),
   (.partitionChannelRecord b, 0x0D04, 16),
   (.partitionQuotaRecord b, 0x0E01, 8),
   (.generalUnitRecord b, 0x0F01, 40)]

/-- A request's slot in the queue of its partition, in which replies keep the order of the requests (R284, R435). -/
def slotTaken (r : Req) (p : Nat) (s : State) : State :=
  setPart s p (fun x => { x with slots := x.slots ++ [⟨r.transport, r.seq, r.tag, none⟩] })

/-- A request that none of the first checks of R436 turns away: its transport binds partition p, its header names p, only the owner
asks for what is the owner's, and the mode allows the opcode. -/
def Accepted (ownerOnly : Bool) (legal : Mode → Bool) (r : Req) (p : Nat) (s : State) : Prop :=
  deaf s.mode.mode = false ∧ partOf s r.transport = some p ∧ r.hdrPartition = p ∧ (ownerOnly = true → p = 0) ∧
    legal s.mode.mode = true

/-- The state with an owner's request held for its tick (R15). -/
def withHeld (h : Held) (s : State) : State := { s with mode := { s.mode with held := some h } }

/-- The first MGT cycle in which the MTB has reached a time that lies ahead (R33). -/
def reach (time : Nat) (s : State) : State := passCycles (ceilDiv (time - s.mtb.t) s.mtb.inc) s

/-- A row of the legality matrix (Table 6 of the host chapter): the opcode, whether the owner alone may ask, the modes marked L, and the
request (R434, R436, R439). -/
structure MailRow where
  /-- The opcode. -/
  opcode : Nat
  /-- Whether another partition receives NOT_OWNER. -/
  ownerOnly : Bool
  /-- The modes marked L. -/
  legal : List Mode
  /-- The request. -/
  req : Req

/-- Every mode in which the responder answers. -/
def everyMode : List Mode := [.configure, .solo, .active, .standby, .resync, .quiescent, .update, .safeHold, .service]

/-- M3 to M9: the information commands (R439). -/
def infoModes : List Mode := [.solo, .active, .standby, .resync, .quiescent, .update, .safeHold]

/-- M3 to M6 and M8: the runtime changes (R439). -/
def changeModes : List Mode := [.solo, .active, .standby, .resync, .update]

/-- M3 to M8: gates, retraining, Hedgerow and buffers (R439). -/
def controlModes : List Mode := [.solo, .active, .standby, .resync, .quiescent, .update]

/-- M3 to M8 and M10: identity and attestation (R439). -/
def attestModes : List Mode := [.solo, .active, .standby, .resync, .quiescent, .update, .service]

/-- The row of a mailbox command in Table 6 (R439), with its opcode; none for every other command. -/
def mailRow : Instr → Option MailRow
  | .encChannelInfo r => some ⟨0x0810, false, infoModes, r⟩
  | .encPoolInfo r => some ⟨0x0811, true, infoModes, r⟩
  | .encRefInfo r => some ⟨0x0812, false, infoModes, r⟩
  | .encSetBitrate r => some ⟨0x0813, false, changeModes, r⟩
  | .encRcInfo r => some ⟨0x0814, false, infoModes, r⟩
  | .decCtxInfo r => some ⟨0x0820, false, infoModes, r⟩
  | .cmpChInfo r => some ⟨0x0710, false, infoModes, r⟩
  | .cmpSetLayer r => some ⟨0x0711, false, changeModes, r⟩
  | .ingGroupInfo r => some ⟨0x0510, false, infoModes, r⟩
  | .audPortRestart r => some ⟨0x0610, false, changeModes, r⟩
  | .egrSetRate r => some ⟨0x0910, false, changeModes, r⟩
  | .egrSetGates r => some ⟨0x0911, true, controlModes, r⟩
  | .redPairInfo r => some ⟨0x0A10, true, infoModes, r⟩
  | .redSwapNow r => some ⟨0x0A11, true, [.active, .standby], r⟩
  | .referenceActionAck r => some ⟨0x0E10, false, changeModes, r⟩
  | .referenceActionLoss r => some ⟨0x0E10, false, changeModes, r⟩
  | .overlayUpdateGraphics r => some ⟨0x0E10, false, changeModes, r⟩
  | .overlayUpdateExpected r => some ⟨0x0E10, false, changeModes, r⟩
  | .spliceInsertion r => some ⟨0x0E10, false, changeModes, r⟩
  | .seiInsertion r => some ⟨0x0E10, false, changeModes, r⟩
  | .pvdSubmitUnknownClass r => some ⟨0x0E10, false, changeModes, r⟩
  | .lnkPortInfo r => some ⟨0x0410, true, infoModes, r⟩
  | .lnkRetrain r => some ⟨0x0411, true, controlModes, r⟩
  | .hrwBroadcast r => some ⟨0x0B10, true, controlModes, r⟩
  | .hrwScheduleSnapshot r => some ⟨0x0B11, true, controlModes, r⟩
  | .hrwScheduleReset r => some ⟨0x0B11, true, controlModes, r⟩
  | .hrwBarrier r => some ⟨0x0B12, true, controlModes, r⟩
  | .hrwSnapRead r => some ⟨0x0B13, true, controlModes, r⟩
  | .clkSwitchToPllR r => some ⟨0x0210, true, [.quiescent], r⟩
  | .clkSwitchToFrc r => some ⟨0x0210, true, [.quiescent], r⟩
  | .secIdentity r => some ⟨0x0D10, false, attestModes, r⟩
  | .secAttest r => some ⟨0x0D11, false, attestModes, r⟩
  | .secAttestRead r => some ⟨0x0D12, false, attestModes, r⟩
  | .secUpdateBegin r => some ⟨0x0D13, true, [.solo, .standby, .quiescent], r⟩
  | .secUpdateData r => some ⟨0x0D14, true, [.update], r⟩
  | .secUpdateEnd r => some ⟨0x0D15, true, [.update], r⟩
  | .secUpdateAbort r => some ⟨0x0D16, true, [.update], r⟩
  | .hstInfo r => some ⟨0x0D30, false, everyMode, r⟩
  | .hstNop r => some ⟨0x0D31, false, everyMode, r⟩
  | .hstBufWriteInline r => some ⟨0x0D32, false, controlModes, r⟩
  | .hstBufWritePull r => some ⟨0x0D32, false, controlModes, r⟩
  | .hstModeReqQuiescent r => some ⟨0x0D33, true, [.solo, .standby], r⟩
  | .hstModeReqRun r => some ⟨0x0D33, true, [.quiescent], r⟩
  | .hstRegRead r => some ⟨0x0D34, false, everyMode, r⟩
  | .hstRegWrite r => some ⟨0x0D35, false, everyMode, r⟩
  | _ => none

/-! ### The algorithm of R353, word for word -/

/-- The low n bits of d in reverse order: bit i of the result is bit n − 1 − i of d (R353). -/
def mirror (n d : Nat) : Nat := ((List.range n).map (fun i => if d.testBit (n - 1 - i) then 2 ^ i else 0)).sum

/-- One turn of the inner loop of R353. -/
def ruleBit (p : CrcParams) (d : Nat) (reg i : Nat) : Nat :=
  let mask := 2 ^ p.w - 1
  let top := Bool.xor ((reg >>> (p.w - 1)).testBit 0) ((d >>> i).testBit 0)
  let reg := (reg <<< 1) &&& mask
  if top then reg ^^^ (p.g &&& mask) else reg

/-- One symbol of s bits, from bit s − 1 down to bit 0 (R353). -/
def ruleSymbol (p : CrcParams) (s reg d : Nat) : Nat :=
  (List.range s).reverse.foldl (ruleBit p (if p.refIn then mirror s d else d)) reg

/-- The result of R353 over a span of symbols of s bits. -/
def ruleResult (p : CrcParams) (s : Nat) (l : List Nat) : Nat :=
  let mask := 2 ^ p.w - 1
  let reg := l.foldl (ruleSymbol p s) (p.i &&& mask)
  (if p.refOut then mirror p.w reg else reg) ^^^ (p.x &&& mask)

/-- The byte at an address of HBM; none where nothing has been written (log entry 17). -/
def hbmByte (s : State) (a : Nat) : Option Byte := cellGet s.drm.mem a

end Sys2Proof.Safety
end

