-- ==== Sys2Proof/Certificates/Slice0/Obligations.lean ====
section
/-! DEFINITION. The statements for the provers. -/

open Sys2Proof Sys2Proof.Machine Sys2Proof.Safety

/-- INPUT_SUPPLY_GOOD, INPUT_SUPPLY_BAD, SUPPLY_DEBOUNCE_DONE, RAIL_WITHIN_LIMITS, RAIL_SEQUENCE_FAIL, RAIL_SEQUENCE_RETRY and POWER_REMOVED complete (R376, R393). -/
def Obligations.InputSuppliesAndRails : Prop :=
  (∀ (s : State) (i : Nat), s.mode.mode = .hold → i < 3 → (∃ k ∈ [0, 2, 4], (source s k).ready = false) → ∃ d,
      exec (.inputSupplyGood i) s =
        .next { s with pwr := { s.pwr with supplyGood := tset s.pwr.supplyGood i true, debounce := d } } ∧
      ((s.pwr.railsUp = 0 ∧ s.pwr.railRising = false ∧ s.pwr.retryWait = false ∧ s.pins.resetLow = false ∧
          (∀ k, k < 3 → k ≠ i → tgetD s.pwr.supplyGood k false = true)) → d = true) ∧
      (s.pins.resetLow = true → d = s.pwr.debounce)) ∧
  (∀ (s : State) (i : Nat), s.mode.mode = .hold → i < 3 → (∀ k, k < 3 → k ≠ i → tgetD s.pwr.supplyGood k false = true) →
      (∀ k ∈ [0, 2, 4], (source s k).ready = true) → s.pins.resetLow = false → s.pwr.railsUp = 7 →
      exec (.inputSupplyGood i) s =
        .next (settle (enterBoot { s with pwr := { s.pwr with supplyGood := tset s.pwr.supplyGood i true } }))) ∧
  (∀ (s : State) (i : Nat), s.mode.mode = .hold → i < 3 →
      exec (.inputSupplyBad i) s = .next { s with pwr := { s.pwr with
        supplyGood := tset s.pwr.supplyGood i false, debounce := false, retryWait := false } }) ∧
  (∀ s : State, s.pwr.debounce = true → inputsGood s = true → s.pins.resetLow = false →
      exec .supplyDebounceDone s = .next { s with pwr := { s.pwr with debounce := false, railRising := true, railsUp := 0 } }) ∧
  (∀ s : State, s.pwr.railRising = true → s.pwr.railsUp < 6 →
      exec .railWithinLimits s = .next { s with pwr := { s.pwr with railsUp := s.pwr.railsUp + 1 } }) ∧
  (∀ s : State, s.pwr.railRising = true → s.pwr.railsUp = 6 → s.pins.resetLow = false →
      exec .railWithinLimits s = .next { s with
        clk := { s.clk with src := [(0, { running := true }), (1, { running := true }),
          (2, { running := true, counting := true }), (3, { running := true })] }
        pwr := { s.pwr with railsUp := 7, railRising := false, railBad := []
                            supplyGood := tset (tset (tset s.pwr.supplyGood 3 true) 4 true) 5 true } }) ∧
  (∀ s : State, s.pwr.railRising = true → ∃ e,
      exec .railSequenceFail s = .next { s with
        pwr := { s.pwr with railsUp := 0, railRising := false, retryWait := true }
        flt := { s.flt with supLog := (e :: s.flt.supLog).take 64 }
        free := s.free + 2 } ∧ e.source = 0xFFFF ∧ e.mode = modeCode s.mode.mode) ∧
  (∀ s : State, s.pwr.retryWait = true → inputsGood s = true → s.pins.resetLow = false →
      exec .railSequenceRetry s = .next { s with pwr := { s.pwr with retryWait := false, railRising := true, railsUp := 0 } }) ∧
  (∀ s : State, ∃ t, exec .powerRemoved s = .next t ∧ t.mode.mode = .hold ∧ t.pins.forcedSafe = true ∧ t.flt.supLog = [] ∧
      t.pwr.railsUp = 0 ∧ t.sec.fuses = s.sec.fuses ∧ t.pending = s.pending)

/-- SUPPLY_LOSS, SUPPLY_RETURN, OVERCURRENT, CORE_RAIL_LOSS, HBM_RAIL_LOSS and TJ_SAMPLE complete (R307, R371, R377, R380). -/
def Obligations.SupplyAndTemperatureFaults : Prop :=
  (∀ (s : State) (i : Nat), alive s.mode.mode = true → i < 6 → tgetD s.pwr.supplyGood i false = true →
      exec (.supplyLoss i) s = .next (settle (raise 0x086 i (forceSafe { s with pwr := { s.pwr with
        supplyGood := tset s.pwr.supplyGood i false
        lostSupplies := sadd s.pwr.lostSupplies i
        supplyEvents := bump32 s.pwr.supplyEvents
        railBad := if 3 ≤ i then sadd s.pwr.railBad (i + 2) else s.pwr.railBad } })))) ∧
  (∀ (s : State) (i : Nat), s.pwr.lostSupplies.contains i = true →
      exec (.supplyReturn i) s = .next { s with pwr := { s.pwr with
        supplyGood := tset s.pwr.supplyGood i true
        lostSupplies := sdel s.pwr.lostSupplies i
        railBad := if 3 ≤ i then sdel s.pwr.railBad (i + 2) else s.pwr.railBad } }) ∧
  (∀ s : State, alive s.mode.mode = true →
      exec .overcurrent s = .next (settle (raise 0x088 0 (forceSafe { s with pwr := { s.pwr with ocActive := true } })))) ∧
  (∀ (s : State) (rail : Nat), alive s.mode.mode = true → rail < 2 →
      exec (.coreRailLoss rail) s =
        .next (settle (raise 0x087 rail { s with pwr := { s.pwr with railBad := sadd s.pwr.railBad (2 - rail) } }))) ∧
  (∀ (s : State) (stack : Nat), alive s.mode.mode = true → stack < 4 → ∃ rail,
      (rail = 3 ∨ rail = 4) ∧ exec (.hbmRailLoss stack) s = .next (settle (raise 0x06C stack { s with
        drm := { s.drm with mem := [], poison := [] }, pwr := { s.pwr with railBad := sadd s.pwr.railBad rail }
        free := s.free + 1 }))) ∧
  (∀ (s : State) (env : PowerSample), s.pwr.alertW = 0 → hottest s.pwr.tj env.sensors ≤ 125 →
      exec (.tjSample env) s = .next (settle (takeSample env (atSample s)))) ∧
  (∀ (s : State) (env : PowerSample), s.pwr.alertW = 0 → 135 ≤ hottest s.pwr.tj env.sensors →
      exec (.tjSample env) s = .next (settle (raise 0x08A 0 (raise 0x089 0 (takeSample env (atSample s)))))) ∧
  (∀ s : State, ∃ m, atSample s = { s with mtb := m, pwr := { s.pwr with sampleAt := m.t + msUnit } }) ∧
  (∀ (s : State) (env : PowerSample), takeSample env s = { s with pwr := (takeSample env s).pwr } ∧
      (takeSample env s).pwr.tj = hottest s.pwr.tj env.sensors ∧
      ((takeSample env s).pwr.tjAbove = true ↔ 125 < hottest s.pwr.tj env.sensors) ∧
      (takeSample env s).pwr.energyMj = s.pwr.energyMj + env.pinMw)

/-- LOOP_LOCK_REPORTED, SOURCE_STABLE, FRC_START_FAIL, FRC_RESTART, RESET_N_FALL, RESET_ACCEPTED and RESET_N_RELEASE complete (R13, R366, R373, R376, R457). -/
def Obligations.OscillatorsAndResetPin : Prop :=
  (∀ (s : State) (i : Nat), 4 ≤ i → i ≤ 10 → (source s i).running = true → (source s i).gated = false →
      (source s i).ready = false → (source s (if 5 ≤ i ∧ i ≤ 8 then 1 else 0)).ready = true →
      exec (.loopLockReported i) s = .next (setSource i (fun x => { x with counting := true }) s)) ∧
  (∀ (s t : State) (i ratio : Nat), (source s i).counting = true → countPasses i ratio = true →
      t = afterStable i (setSource i (fun x => { x with counting := false, ready := true, absent := false, ratio := ratio }) s) →
      (t.mode.mode = .hold ∧ inputsGood t = true ∧ (source t 2).ready = true ∧ (source t 0).ready = true ∧
          (source t 4).ready = true ∧ t.pins.resetLow = false → exec (.sourceStable i ratio) s = .next (settle (enterBoot t))) ∧
      (¬(t.mode.mode = .hold ∧ inputsGood t = true ∧ (source t 2).ready = true ∧ (source t 0).ready = true ∧
          (source t 4).ready = true ∧ t.pins.resetLow = false) → exec (.sourceStable i ratio) s = .next t)) ∧
  (∀ (s : State) (i ratio : Nat), countPasses i ratio = false → exec (.sourceStable i ratio) s = .next s) ∧
  (∀ s : State, s.mode.mode = .hold → (source s 2).running = true → (source s 2).ready = false → s.clk.frcFails < 7 → ∃ t,
      exec .frcStartFail s = .next t ∧ t = { s with clk := t.clk, flt := { s.flt with supLog := t.flt.supLog }, free := s.free + 2 } ∧
      (source t 2).running = false ∧ (source t 2).counting = false ∧ t.clk.frcFails = s.clk.frcFails + 1 ∧
      t.clk.losses = bump32 s.clk.losses ∧
      t.flt.supLog.length = min 64 (s.flt.supLog.length + 1)) ∧
  (∀ s : State, s.mode.mode = .hold → (source s 2).running = false → s.pwr.railsUp = 7 →
      exec .frcRestart s = .next (setSource 2 (fun x => { x with running := true, counting := true }) s)) ∧
  (∀ s : State, exec .resetNFall s = .next { s with pins := { s.pins with resetLow := true, resetFilter := true } }) ∧
  (∀ s : State, s.pins.resetFilter = true → s.pins.resetLow = true → ∃ t, exec .resetAccepted s = .next t ∧
      t.mode.mode = .hold ∧ t.pins.forcedSafe = true ∧ t.pins.resetLow = true ∧ t.pins.resetFilter = false ∧
      t.sec.fuses = s.sec.fuses ∧ t.drm.mem = [] ∧ t.pending = s.pending) ∧
  (∀ (s : State) (v : Bool), s.pins.resetLow = true → s.pins.resetFilter = true →
      exec (.resetNRelease v) s = .next { s with pins := { s.pins with resetLow := false, resetFilter := false } }) ∧
  (∀ (s : State) (v : Bool), s.pins.resetLow = true → s.pins.resetFilter = false → s.pwr.railsUp = 7 →
      exec (.resetNRelease v) s = .next { s with
        pins := { s.pins with resetLow := false, svcEn := v }
        clk := { s.clk with src := [(0, { running := true }), (1, { running := true }),
          (2, { running := true, counting := true }), (3, { running := true })] } })

/-- CLOCK_STOP_DETECT, LOOP_LOSS_OF_LOCK, FREQUENCY_MEASUREMENT, PLL_S_LOCK_LOSS, ROOT_SWITCH_DONE and SAFE_HOLD_EXIT complete (R31, R365, R367, R371, R372, R374, R383). -/
def Obligations.ClockLossAndTheRoot : Prop :=
  (∀ (s : State) (i : Nat), alive s.mode.mode = true → monitored s i = true → (source s i).absent = false →
      exec (.clockStopDetect i) s = .next (settle (tripSource i true s))) ∧
  (∀ (s : State) (i : Nat), 4 ≤ i → i ≤ 9 → alive s.mode.mode = true → monitored s i = true → (source s i).absent = false →
      exec (.loopLossOfLock i) s = .next (settle (tripSource i false s))) ∧
  (∀ (s : State) (i count : Nat), i ≠ 2 → alive s.mode.mode = true → monitored s i = true → (source s i).absent = false →
      (source s i).ratio ≠ 0 → 100 * max count (source s i).ratio ≤ 2 * (source s i).ratio + 100 * min count (source s i).ratio →
      exec (.frequencyMeasurement i count) s =
        .next (setSource i (fun x => { x with ppm := ppmOf count (source s i).ratio }) s)) ∧
  (∀ (s : State) (i count : Nat), i ≠ 2 → alive s.mode.mode = true → monitored s i = true → (source s i).absent = false →
      (source s i).ratio ≠ 0 → 2 * (source s i).ratio + 100 * min count (source s i).ratio < 100 * max count (source s i).ratio →
      exec (.frequencyMeasurement i count) s =
        .next (settle (tripSource i false (setSource i (fun x => { x with ppm := ppmOf count (source s i).ratio }) s)))) ∧
  (∀ s : State, alive s.mode.mode = true → (source s 10).ready = true →
      exec .pllSLockLoss s = .next (settle (raise 0x085 0
        { setSource 10 (fun x => { x with ready := false, counting := false, lost := true, absent := true }) s with
          pins := { s.pins with sdiUndriven := true } }))) ∧
  (∀ s : State, s.clk.switchBusy = true → s.clk.switchForced = false → s.clk.pendingLoss = [] → s.clk.switchReply = none →
      s.clk.switchStop = false → s.clk.switchToFrc = true →
      exec .rootSwitchDone s = .next { (if s.mode.mode = .quiescent then parkStacks s else s) with
        clk := { s.clk with rootFrc := true, switchBusy := false }
        mtb := { s.mtb with inc := frcInc, onFrc := s.mode.mode == .safeHold } }) ∧
  (∀ (s : State) (v : Option Nat), s.mode.mode = .safeHold → safeHoldOver s = true → s.mode.safeFrom ≠ .boot →
      s.mode.safeFrom ≠ .configure → s.mode.safeFrom ≠ .service → ∃ x, exec (.safeHoldExit v) s = .next (settle (enterRun x)) ∧
      x.clk.rootFrc = false ∧ x.clk.switchBusy = false ∧ x.mtb.onFrc = false ∧ x.pins.forcedSafe = false ∧ x.pins.tripped = false ∧
      x.mtb.inc = s.mtb.rate ∧ (selectedSource s = 0 → x.mtb.t = s.mtb.t ∧ x.mtb.valid = s.mtb.valid) ∧
      (selectedSource s ≠ 0 → x.mtb.valid = true ∧ ∀ n, v = some n → x.mtb.t = n % mtbSpan)) ∧
  (∀ (s : State) (v : Option Nat), s.mode.mode = .safeHold → (source s 4).ready = false → s.clk.pllROff = true →
      othersReturned s = true → exec (.safeHoldExit v) s = .next (restartPllR s))

/-- The PMBus commands complete while the target answers (R378, R393). How a quantity is coded in a word is the model's own free function (log entry 8). -/
def Obligations.PmbusTransactions : Prop :=
  (∀ (s : State) (page : Nat), pmbusAnswers s = true → (page ≤ 7 ∨ page = 255) →
      exec (.pmbusPage page) s = .next { s with pwr := { s.pwr with pmbPage := page } }) ∧
  (∀ s : State, pmbusAnswers s = true →
      exec .pmbusClearFaults s = .next { s with flt := { s.flt with supLog := [] }, pwr := { s.pwr with pmbLogIndex := 0 } }) ∧
  (∀ s : State, pmbusAnswers s = true → ∀ q ∈ ([(.pmbusStatusWord, 0x79, statusFacts s), (.pmbusStatusInput, 0x7C, statusFacts s),
        (.pmbusStatusIout, 0x7B, statusFacts s), (.pmbusStatusTemperature, 0x7D, statusFacts s), (.pmbusReadVin, 0x88, s.pwr.vinMv),
        (.pmbusReadIin, 0x89, s.pwr.iinMa), (.pmbusReadVout, 0x8B, pageMv s), (.pmbusReadPin, 0x97, s.pwr.pinMw),
        (.pmbusReadTemperature1, 0x8D, ofSigned 16 s.pwr.tj)] : List (Instr × Nat × Nat)),
      exec q.1 s = .next { s with pwr := { s.pwr with pmbReply := some (Config.pmbusWord q.2.1 q.2.2) } }) ∧
  (∀ s : State, pmbusAnswers s = true → ∃ v, exec .pmbusReadIout s = .next { s with
      free := s.free + 1, pwr := { s.pwr with pmbReply := some (Config.pmbusWord 0x8C v) } }) ∧
  (∀ (s : State) (e : LogEntry), pmbusAnswers s = true → s.flt.supLog.reverse[s.pwr.pmbLogIndex]? = some e →
      exec .pmbusMfrFaultLogRead s =
        .next { s with pwr := { s.pwr with pmbLogReply := logBytes e, pmbLogIndex := s.pwr.pmbLogIndex + 1 } }) ∧
  (∀ (s : State) (c : Nat), exec (.pmbusOtherWrite c) s = .next s)

/-- PTP_MESSAGE_RECEIVE, FRAME_IN_EDGE, PPS_IN_EDGE, MTB_SOURCE_LOST and PPS_OUT_FALL complete, and what they do (R27 to R29, R31, R317, R321, R449). That a PTP message over Ethernet is answered by one message of the device's own is the model's choice (log entry 76). -/
def Obligations.TimeSourcesComplete : Prop :=
  (∀ (s : State) (port m : Nat) (offset : Int), (16 ≤ port ∨ portUp s port = true) →
      (port = s.mtb.ptpPort ∧ m = 1 ∨ port ≠ s.mtb.ptpPort ∧ port = s.mtb.ptpPort2 ∧ port ≠ 255 ∧ m = 4) →
      exec (.ptpMessageReceive port offset) s = .next (answerPtp port (sourceEvent 1 offset (noteSeen m s)))) ∧
  (∀ (s : State) (port : Nat) (offset : Int), (port < 16 ∧ portUp s port = false) ∨
      (port ≠ s.mtb.ptpPort ∧ (port ≠ s.mtb.ptpPort2 ∨ port = 255)) → exec (.ptpMessageReceive port offset) s = .next s) ∧
  (∀ (s : State) (offset : Int), exec (.frameInEdge offset) s = .next (sourceEvent 2 offset (noteSeen 2 s))) ∧
  (∀ (s : State) (offset : Int), exec (.ppsInEdge offset) s = .next (sourceEvent 3 offset (noteSeen 3 s))) ∧
  (∀ (s : State) (k : Nat), alive s.mode.mode = true → k ∈ s.mtb.present →
      exec (.mtbSourceLost k) s = .next (loseSource k (passCycles (lossCycles s k) s))) ∧
  (∀ s : State, exec .ppsOutFall s =
      .next { (if s.pins.ppsOut then noEarlier s.pins.ppsFallAt s else s) with pins := { s.pins with ppsOut := false } }) ∧
  (∀ (s : State) (k : Nat) (offset : Int), alive s.mode.mode = false ∨ k ∉ listedSources s → sourceEvent k offset s = s) ∧
  (∀ (s : State) (k : Nat) (offset : Int), alive s.mode.mode = true → k ∈ listedSources s → s.clk.rootFrc = true →
      sourceEvent k offset s = markPresent k s) ∧
  (∀ (s t : State) (k : Nat) (offset : Int), alive s.mode.mode = true → k ∈ listedSources s → s.clk.rootFrc = false →
      t = selectSource (markPresent k s) → sourceEvent k offset s = if t.mtb.src = k then measure offset t else t) ∧
  (∀ (s : State) (k : Nat) (l r : List Nat), listedSources s = l ++ k :: r → k ∈ s.mtb.present → (∀ j ∈ l, j ∉ s.mtb.present) →
      selectedSource s = k ∧ selectSource s = if k = s.mtb.src then s
        else { s with mtb := { s.mtb with src := k, servo := 1, within := 0 } }) ∧
  (∀ (s : State) (offset : Int), stepMode s.mode.mode = false →
      (measure offset s).mtb.t = s.mtb.t ∧ (measure offset s).mtb.src = s.mtb.src ∧
      ((satOffset offset).natAbs ≤ s.mtb.lockNs → 15 ≤ s.mtb.within → (measure offset s).mtb.servo = 2) ∧
      (s.mtb.lockNs < (satOffset offset).natAbs → (measure offset s).mtb.within = 0 ∧ (measure offset s).mtb.servo = s.mtb.servo)) ∧
  (∀ (s : State) (k : Nat), k ∈ (markPresent k s).mtb.present) ∧
  (∀ (s t : State) (k : Nat), t = dropPresent k s →
      (s.mtb.src ≠ k → loseSource k s = t) ∧
      (s.mtb.src = k → selectedSource t ≠ 0 → loseSource k s = selectSource t) ∧
      (s.mtb.src = k → selectedSource t = 0 → loseSource k s = { t with mtb := { t.mtb with
        src := 4, servo := 3, within := 0, inc := if s.clk.rootFrc then s.mtb.inc else meanInc s, rate := meanInc s } }))

/-- SAMPLE_TICK, FRAME_TICK, ROW_TICK, MTB_MILLISECOND, MTB_WHOLE_SECOND, SHADOW_COMMIT and SHADOW_APPLY complete (R32 to R42). -/
def Obligations.TicksOfTheTimebase : Prop :=
  (∀ (s t : State) (n : Nat) (env : SampleEnv), alive s.mode.mode = true → s.mtb.t ≤ sampleTickAt n →
      t = dropHeldLive (reach (sampleTickAt n) s) →
      (ticking t = true → exec (.sampleTick n env) s = .next (settle (feedSample n (audioTick n env.underruns (ratesAtTick n t))))) ∧
      (ticking t = false → exec (.sampleTick n env) s = .next (settle (ratesAtTick n t)))) ∧
  (∀ (s : State) (c n : Nat) (env : FrameEnv), ticking s = true → chanRunning s c = true →
      (∀ m, (chan s c).lastFrame = some m → m < n) → s.mtb.t ≤ frameTickAt (chan s c).rate n →
      exec (.frameTick c n env) s = .next (settle (channelTick c n env (dropHeldLive (reach (frameTickAt (chan s c).rate n) s))))) ∧
  (∀ (s : State) (c n m : Nat) (env : RowEnv), ticking s = true → chanRunning s c = true →
      (env.lattice = (chan s c).raster ∨ latticeCtxs s c env.lattice ≠ []) →
      1 ≤ m → m ≤ ctuRows (chan s c).raster + 33 → tget (chan s c).rowTicks env.lattice ≠ some (256 * n + m) →
      s.mtb.t ≤ rowTickAt env.lattice (chan s c).rate n m →
      exec (.rowTick c n m env) s = .next (settle (rowTick c n m env (dropHeldLive (reach (rowTickAt env.lattice (chan s c).rate n m) s))))) ∧
  (∀ (s : State) (m : Nat), alive s.mode.mode = true → s.mtb.t ≤ m * msUnit →
      exec (.mtbMillisecond m) s = .next (settle (sendTreeHeartbeat (driveHeartbeat m (reach (m * msUnit) s))))) ∧
  (∀ (s : State) (sec : Nat), alive s.mode.mode = true → s.mtb.t ≤ sec * secUnit →
      exec (.mtbWholeSecond sec) s = .next (settle (secondTick sec (reach (sec * secUnit) s)))) ∧
  (∀ (s : State) (c target : Nat) (change : ShadowChange), changeLegal s.mode.mode = true → chanRunning s c = true →
      exec (.shadowCommit c target change) s = .next (settle (changeOf c target change s))) ∧
  (∀ (s : State) (c n : Nat), ticking s = true → chanRunning s c = true → s.mtb.t ≤ frameTickAt (chan s c).rate n →
      exec (.shadowApply c n) s = .next (settle (applyShadow c n (reach (frameTickAt (chan s c).rate n) s))))

/-- GPIO_RECORD, SUPPLY_RECORD, MTB_DISCIPLINE_RECORD, MEMORY_RECORD, GENERAL_FAULT_RECORD, SEVERITY_RECORD, PAIR_RECORD, HEDGEROW_RECORD, QOS_PORT_RECORD, VALSIN_PORT_RECORD and PARTITION_QUOTA_RECORD complete. -/
def Obligations.DeviceRecordsTaken : Prop :=
  (∀ (b : Bytes) (s : State), recordsOpen s = true → 8 ≤ b.length → s.pins.gpioTaken = false →
      exec (.gpioRecord b) s = .next (settle (applied { joinImage 0x0101 b s with pins := { s.pins with
        gpioTaken := true, gpioOe := u16 b 0, gpioOut := u16 b 2, gpioSafeOe := u16 b 4, gpioSafeLvl := u16 b 6 } }))) ∧
  (∀ (b : Bytes) (s : State), recordsOpen s = true → 4 ≤ b.length → s.pwr.supplyTaken = false →
      exec (.supplyRecord b) s = .next (settle (applied { joinImage 0x0201 b s with pwr := { s.pwr with
        supplyTaken := true, ocMa := orDefault (u16 b 0) 36000 20000 36000, alertW := orDefault (u16 b 2) 0 100 300 } }))) ∧
  (∀ (b : Bytes) (s : State), recordsOpen s = true → 20 ≤ b.length → s.mtb.recordTaken = false → ∃ m,
      exec (.mtbDisciplineRecord b) s = .next (settle (applied { joinImage 0x0220 b s with mtb := m })) ∧
      m.recordTaken = true ∧ m.t = s.mtb.t ∧ m.inc = s.mtb.inc ∧ m.pri = [priOf (u8 b 0), priOf (u8 b 1), priOf (u8 b 2)] ∧
      m.ptpPort = clamp 0 17 (u8 b 4) ∧ m.lossMs = clamp 10 10000 (u16 b 10) ∧ m.lockNs = clamp 10 100000 (u32 b 12) ∧
      m.slewPpb = clamp 1 100000 (u32 b 16)) ∧
  (∀ (b : Bytes) (s : State), recordsOpen s = true → 8 ≤ b.length → s.drm.taken = false →
      exec (.memoryRecord b) s = .next (settle (applied { joinImage 0x0301 b s with drm := { s.drm with
        taken := true, scrubH := orDefault (u16 b 0) 24 1 168, srIdleUs := orDefault (u16 b 2) 100 10 10000
        ceLimit := orDefault (u16 b 4) 1000 1 65535 } }))) ∧
  (∀ (b : Bytes) (s : State), recordsOpen s = true → 8 ≤ b.length → s.flt.generalTaken = false →
      exec (.generalFaultRecord b) s = .next (settle (applied { joinImage 0x0C02 b s with flt := { s.flt with
        generalTaken := true, errHold := clamp 0 2 (u8 b 0), defN := orDefault (u8 b 1) 3 1 15
        defW := orDefault (u16 b 2) 10 1 3600 } }))) ∧
  (∀ (b : Bytes) (s : State), recordsOpen s = true → 8 ≤ b.length → severityNamed (u16 b 0) (u16 b 2) = true →
      thas s.flt.rules (faultKey (u16 b 0) (u16 b 2)) = false →
      exec (.severityRecord b) s = .next (settle (applied { joinImage 0x0C01 b s with flt := { s.flt with
        rules := tset s.flt.rules (faultKey (u16 b 0) (u16 b 2))
          ⟨clamp 0 7 (u8 b 4), clamp 0 15 (u8 b 5), clamp 0 3600 (u16 b 6)⟩ } }))) ∧
  (∀ (b : Bytes) (s : State), recordsOpen s = true → 12 ≤ b.length → s.red.taken = false → u8 b 0 = 0 →
      exec (.pairRecord b) s = .next (settle (applied { joinImage 0x0A01 b s with red := { s.red with
        taken := true, paired := false, hbHedgerow := decide (1 ≤ u8 b 1)
        partnerId := if u16 b 2 ≤ 1023 then u16 b 2 else 65535, swapS := orDefault (u32 b 4) 3600 60 86400
        swapOff := decide (1 ≤ u8 b 8), grace := orDefault (u8 b 9) 1 1 64, healthEvt := decide (1 ≤ u8 b 10) } }))) ∧
  (∀ (b : Bytes) (s : State), recordsOpen s = true → 12 ≤ b.length → s.red.taken = false → 1 ≤ u8 b 0 → ∃ r,
      exec (.pairRecord b) s = .next (settle (useValsin 0 (applied { joinImage 0x0A01 b s with red := r }))) ∧ r.taken = true ∧
      r.paired = true ∧ r.swapS = orDefault (u32 b 4) 3600 60 86400 ∧ r.claim = s.red.claim ∧ r.epoch = s.red.epoch) ∧
  (∀ (b : Bytes) (s : State), recordsOpen s = true → 8 ≤ b.length → s.hrw.taken = false → ∃ h x,
      exec (.hedgerowRecord b) s = .next (settle x) ∧ x = ((List.range 5).filter (vhInUse (applied { joinImage 0x0B01 b s with hrw := h }))).foldl
        (fun s k => useValsin (k + 1) s) (applied { joinImage 0x0B01 b s with hrw := h }) ∧
      h.taken = true ∧ h.ident = clamp 0 1023 (u16 b 0) ∧ h.role = clamp 0 2 (u8 b 2) ∧ h.root = (clamp 0 2 (u8 b 2) == 1) ∧
      h.barTimeoutMs = orDefault (u16 b 4) 1000 1 10000) ∧
  (∀ (b : Bytes) (s : State), recordsOpen s = true → 8 ≤ b.length → (qosPort s (clamp 0 47 (u8 b 0))).taken = false →
      exec (.qosPortRecord b) s = .next (settle (applied { joinImage 0x0302 b s with drm := { s.drm with
        ports := tupd s.drm.ports (clamp 0 47 (u8 b 0)) {} (fun x => { x with
          taken := true, floor := some (clamp 0 3 (u8 b 1)), target := orDefault (u32 b 4) 0 100 1000000 }) } }))) ∧
  (∀ (b : Bytes) (s : State), recordsOpen s = true → 8 ≤ b.length → (valPort s (clamp 0 5 (u8 b 0))).taken = false → ∃ least,
      (least = if clamp 0 5 (u8 b 0) = 0 then 3 else clamp 0 3 (u8 b 1)) ∧
      exec (.valsinPortRecord b) s = .next (settle (applied { joinImage 0x0402 b s with lnk := { s.lnk with
        vals := tupd s.lnk.vals (clamp 0 5 (u8 b 0)) {} (fun x => { x with
          taken := true, minStep := least, maxStep := max least (clamp 0 3 (u8 b 2)), idleUs := orDefault (u32 b 4) 100 10 100000 }) } }))) ∧
  (∀ (b : Bytes) (s : State), recordsOpen s = true → 8 ≤ b.length → (quota s (clamp 0 15 (u8 b 0))).taken = false →
      exec (.partitionQuotaRecord b) s = .next (settle (applied (setQuota (joinImage 0x0E01 b s) (clamp 0 15 (u8 b 0)) (fun q => { q with
        taken := true, quota := min (orDefault (u16 b 2) 16 1 256) (quotaRoom (joinImage 0x0E01 b s) (clamp 0 15 (u8 b 0)))
        rate := orDefault (u16 b 4) 8 1 1024 })))))

/-- ENCODE_CHANNEL_RECORD, ENCODE_CONTEXT_RECORD, CONTEXT_CODING_RECORD, CHANNEL_COLOUR_RECORD, RATE_CONTROL_RECORD, COPPICE_RECORD and DECODE_CONTEXT_RECORD complete. -/
def Obligations.EncodeRecordsTaken : Prop :=
  (∀ (b : Bytes) (s : State), recordsOpen s = true → 8 ≤ b.length → ∃ ch,
      exec (.encodeChannelRecord b) s = .next (settle (applied { joinImage 0x0801 b s with enc := { s.enc with
        chans := tset s.enc.chans (clamp 0 63 (u8 b 0)) ch } })) ∧
      ch = (if (chan s (clamp 0 63 (u8 b 0))).taken then { chan s (clamp 0 63 (u8 b 0)) with dup := true }
        else { chan s (clamp 0 63 (u8 b 0)) with
          taken := true, raster := clamp 0 2 (u8 b 1), rate := clamp 0 10 (u8 b 2), frameMode := u8 b 3 != 0
          delayL := orDefault (u8 b 4) 4 3 32, delayF := clamp 1 2 (u8 b 5), chroma := clamp 0 1 (u8 b 6) })) ∧
  (∀ (b : Bytes) (s : State) (n : Nat), recordsOpen s = true → 8 ≤ b.length → n = clamp 0 63 (u8 b 1) →
      thas s.enc.ctxs (clamp 0 127 (u8 b 0)) = false → (chan s n).taken = true → (chan s n).ctxs.length < 8 → ∃ c,
      exec (.encodeContextRecord b) s = .next (settle (applied { joinImage 0x0802 b s with enc := { s.enc with
        chans := tmod s.enc.chans n (fun h => { h with ctxs := h.ctxs ++ [clamp 0 127 (u8 b 0)] })
        ctxs := tset s.enc.ctxs (clamp 0 127 (u8 b 0)) c } })) ∧
      c.channel = n ∧ c.codec = clamp 0 1 (u8 b 2) ∧ c.chroma = min (clamp 0 1 (u8 b 4)) (chan s n).chroma ∧
      c.further = !(chan s n).ctxs.isEmpty ∧ c.stopped = false) ∧
  (∀ (b : Bytes) (s : State) (c : Ctx), recordsOpen s = true → 8 ≤ b.length → tget s.enc.ctxs (clamp 0 127 (u8 b 0)) = some c →
      c.codingTaken = false →
      exec (.contextCodingRecord b) s = .next (settle (applied (modCtx (joinImage 0x0803 b s) (clamp 0 127 (u8 b 0)) (fun c => { c with
        codingTaken := true, gdrMs := orDefault (u16 b 2) 1000 100 10000, anchorK := orDefault (u8 b 4) 30 4 240
        feedback := u8 b 5 % 16, captions := u8 b 6 != 0 }))))) ∧
  (∀ (b : Bytes) (s : State), recordsOpen s = true → 32 ≤ b.length → (chan s (clamp 0 63 (u8 b 0))).taken = true →
      (chan s (clamp 0 63 (u8 b 0))).colourTaken = false → ∃ f : Chan → Chan,
      exec (.channelColourRecord b) s = .next (settle (applied (modChan (joinImage 0x0804 b s) (clamp 0 63 (u8 b 0)) f))) ∧
      ∀ h, (f h).colourTaken = true ∧ (f h).colour = clamp 0 3 (u8 b 1) ∧ (f h).maxCll = u16 b 28 ∧ (f h).maxFall = u16 b 30 ∧
        (f h).mdcv.length = 10 ∧ (f h).ctxs = h.ctxs ∧ (f h).st = h.st) ∧
  (∀ (b : Bytes) (s : State) (c : Ctx), recordsOpen s = true → 16 ≤ b.length → tget s.enc.ctxs (clamp 0 127 (u8 b 0)) = some c →
      c.rcTaken = false →
      exec (.rateControlRecord b) s = .next (settle (applied (modCtx (joinImage 0x0805 b s) (clamp 0 127 (u8 b 0)) (fun c => { c with
        rcTaken := true, rcMode := clamp 0 2 (u8 b 1), rcBuf := u8 b 2, aq := clamp 0 96 (u8 b 3), kbpsCfg := u32 b 4
        maxKbps := u32 b 8, qpMin := u8 b 12, qpMax := u8 b 13, qp := u8 b 14, ud16 := u8 b 15 }))))) ∧
  (∀ (b : Bytes) (s : State), recordsOpen s = true → 4 ≤ b.length → (chan s (clamp 0 63 (u8 b 0))).taken = true →
      (tgetD s.enc.cps (clamp 0 63 (u8 b 0)) {}).taken = false →
      exec (.coppiceRecord b) s = .next (settle (applied (setCp (joinImage 0x0806 b s) (clamp 0 63 (u8 b 0)) (fun c => { c with
        taken := true, cutPct := if u8 b 1 = 0 then 0 else clamp 10 100 (u8 b 1), guides := u8 b 2 != 0 }))))) ∧
  (∀ (b : Bytes) (s : State), recordsOpen s = true → 16 ≤ b.length → ∃ c,
      exec (.decodeContextRecord b) s = .next (settle (applied { joinImage 0x0820 b s with dec := { s.dec with
        ctxs := tset s.dec.ctxs (clamp 0 31 (u8 b 0)) c } })) ∧
      (∀ d, tget s.dec.ctxs (clamp 0 31 (u8 b 0)) = some d → c = { d with dup := true }) ∧
      (tget s.dec.ctxs (clamp 0 31 (u8 b 0)) = none → c.use = clamp 0 1 (u8 b 1) ∧ c.codec = clamp 0 1 (u8 b 2) ∧
        c.raster = clamp 0 3 (u8 b 3) ∧ c.rate = clamp 0 10 (u8 b 4) ∧ c.tsPid = clamp 0x10 0x1FFE (u16 b 10) ∧ c.dup = false))

/-- COMPOSITOR_RECORD, VIDEO_LAYER_RECORD, GRAPHICS_LAYER_RECORD, SLATE_DATA_RECORD, TOPIARY_REGION_RECORD, INGRESS_FLOW_RECORD, ALIGNMENT_GROUP_RECORD, GROUP_MEMBER_RECORD, INGRESS_POLICER_RECORD, AES3_INPUT_RECORD, AES3_OUTPUT_RECORD, AUDIO_PROGRAMME_RECORD and GENERAL_UNIT_RECORD complete. -/
def Obligations.MediaRecordsTaken : Prop :=
  (∀ (b : Bytes) (s : State) (c : Nat), recordsOpen s = true → 8 ≤ b.length → c = clamp 0 63 (u8 b 0) → (chan s c).taken = true →
      (cmp s c).taken = false → ∃ w h,
      exec (.compositorRecord b) s = .next (settle (applied (setCmp (joinImage 0x0701 b s) c (fun x => { x with
        taken := true, holdF := orDefault (u8 b 1) 3 1 30, topSev := clamp 0 7 (u8 b 2), slateW := w, slateH := h })))) ∧
      5 * w * h ≤ 4194304) ∧
  (∀ (b : Bytes) (s : State) (c : Nat), recordsOpen s = true → 32 ≤ b.length → c = clamp 0 63 (u8 b 0) → (chan s c).taken = true →
      thas (cmp s c).v (clamp 0 3 (u8 b 1)) = false → ∃ v,
      exec (.videoLayerRecord b) s = .next (settle (applied (setCmp (joinImage 0x0702 b s) c
        (fun x => { x with v := tset x.v (clamp 0 3 (u8 b 1)) (shapeLayer s c v) })))) ∧
      v.z = clamp 0 15 (u8 b 2) ∧ v.srcType = clamp 0 2 (u8 b 3) ∧ v.opacity = u8 b 6 ∧ v.fallback = clamp 0 2 (u8 b 7)) ∧
  (∀ (b : Bytes) (s : State) (c : Nat), recordsOpen s = true → 12 ≤ b.length → c = clamp 0 63 (u8 b 0) → (chan s c).taken = true →
      thas (cmp s c).g (clamp 0 7 (u8 b 1)) = false → ∃ g,
      exec (.graphicsLayerRecord b) s = .next (settle (applied (setCmp { joinImage 0x0703 b s with free := s.free + 2 } c
        (fun x => { x with g := tset x.g (clamp 0 7 (u8 b 1)) g })))) ∧
      g.z = clamp 0 15 (u8 b 2) ∧ g.maxW = evenIn 2 (activeW (chan s c).raster) (u16 b 8) ∧
      g.maxH = evenIn 2 (activeH (chan s c).raster) (u16 b 10)) ∧
  (∀ (b : Bytes) (s : State) (c : Nat), recordsOpen s = true → 12 ≤ b.length → c = clamp 0 63 (u8 b 0) → (chan s c).taken = true →
      exec (.slateDataRecord b) s = .next (settle (applied (setCmp (joinImage 0x0704 b s) c (fun x => { x with
        slate := cellWrite (some 0) x.slate (u32 b 4 / 4 * 4)
          ((b.drop 8).take (5 * x.slateW * x.slateH - u32 b 4 / 4 * 4)) }))))) ∧
  (∀ (b : Bytes) (s : State) (c : Nat), recordsOpen s = true → 16 ≤ b.length → c = clamp 0 63 (u8 b 0) → (chan s c).taken = true →
      thas (cmp s c).regions (clamp 0 15 (u8 b 1)) = false →
      overloads (cmp s c).regions (regionOf s c b) (activeW (chan s c).raster) = false →
      exec (.topiaryRegionRecord b) s = .next (settle (applied (holdTopUnits (setCmp (joinImage 0x0705 b s) c
        (fun x => { x with regions := tset x.regions (clamp 0 15 (u8 b 1)) (regionOf s c b) }))))) ∧
      (holdTopUnits s).cvu.topHeld = true ∧ (∀ u, 48 ≤ u → u < 64 → s.cvu.topHeld = false → 2 ≤ (cvUnit (holdTopUnits s) u).st) ∧
      (regionOf s c b).expSrc = clamp 0 9 (u8 b 2) ∧ (regionOf s c b).host = u32 b 12) ∧
  (∀ (b : Bytes) (s : State), recordsOpen s = true → 48 ≤ b.length → thas s.ing.flows (clamp 0 1023 (u16 b 0)) = false → ∃ f,
      exec (.ingressFlowRecord b) s = .next (settle (applied { joinImage 0x0501 b s with ing := { s.ing with
        flows := tset s.ing.flows (clamp 0 1023 (u16 b 0)) f } })) ∧
      f.kind = clamp 0 4 (u8 b 2) ∧ f.portA = clamp 0 15 (u8 b 4) ∧ f.pt = clamp 96 127 (u8 b 40) ∧ f.ssrc = u32 b 44) ∧
  (∀ (b : Bytes) (s : State), recordsOpen s = true → 12 ≤ b.length → (chan s (clamp 0 63 (u8 b 0))).taken = true →
      thas s.ing.groups (clamp 0 63 (u8 b 0)) = false → ∃ g,
      exec (.alignmentGroupRecord b) s = .next (settle (applied { joinImage 0x0502 b s with ing := { s.ing with
        groups := tset s.ing.groups (clamp 0 63 (u8 b 0)) g } })) ∧
      g.kind = clamp 0 4 (u8 b 1) ∧ g.holdF = orDefault (u8 b 3) 3 1 30 ∧ g.rejoinF = orDefault (u8 b 8) 2 1 16) ∧
  (∀ (b : Bytes) (s : State), recordsOpen s = true → 8 ≤ b.length → (chan s (clamp 0 63 (u8 b 0))).taken = true →
      thas s.ing.groups (clamp 0 63 (u8 b 0)) = true → thas (group s (clamp 0 63 (u8 b 0))).members (clamp 0 15 (u8 b 1)) = false →
      u8 b 3 = 0 → sourceSuits s (clamp 0 2 (u8 b 2)) 0 (clamp 0 15 (u16 b 4)) = true →
      sourceTaken s (clamp 0 2 (u8 b 2)) 0 (clamp 0 15 (u16 b 4)) = false → ∃ m,
      exec (.groupMemberRecord b) s = .next (settle (applied (modGroup (joinImage 0x0503 b s) (clamp 0 63 (u8 b 0))
        (fun g => { g with members := tset g.members (clamp 0 15 (u8 b 1)) m })))) ∧
      m.type = clamp 0 2 (u8 b 2) ∧ m.srcType = 0 ∧ m.src = clamp 0 15 (u16 b 4)) ∧
  (∀ (b : Bytes) (s : State), recordsOpen s = true → 20 ≤ b.length → thas s.ing.policers (clamp 0 1023 (u16 b 0)) = false → ∃ p,
      exec (.ingressPolicerRecord b) s = .next (settle (applied { joinImage 0x0905 b s with ing := { s.ing with
        policers := tset s.ing.policers (clamp 0 1023 (u16 b 0)) p } })) ∧
      p.mode = clamp 0 2 (u8 b 2) ∧ p.cir = clamp 64 400000000 (u32 b 4) ∧ p.pir = clamp (clamp 64 400000000 (u32 b 4)) 400000000 (u32 b 12) ∧
      p.cbs = clamp 1518 16777216 (u32 b 8)) ∧
  (∀ (b : Bytes) (s : State), recordsOpen s = true → 4 ≤ b.length → thas s.aud.ins (clamp 0 31 (u8 b 0)) = false → ∃ x,
      exec (.aes3InputRecord b) s = .next (settle (applied { joinImage 0x0601 b s with aud := { s.aud with
        ins := tset s.aud.ins (clamp 0 31 (u8 b 0)) x } })) ∧
      x.taken = true ∧ x.transp = (clamp 0 1 (u8 b 1) == 1) ∧ x.bw = clamp 0 2 (u8 b 2) ∧ x.st = 2) ∧
  (∀ (b : Bytes) (s : State), recordsOpen s = true → 16 ≤ b.length → (chan s (clamp 0 63 (u8 b 1))).taken = true →
      thas s.aud.outs (clamp 0 15 (u8 b 0)) = false → ∃ x,
      exec (.aes3OutputRecord b) s = .next (settle (applied { joinImage 0x0602 b s with aud := { s.aud with
        outs := tset s.aud.outs (clamp 0 15 (u8 b 0)) x } })) ∧
      x.channel = clamp 0 63 (u8 b 1) ∧ x.delay = clamp 0 4800 (u16 b 4) ∧ x.st = 1) ∧
  (∀ (b : Bytes) (s : State), recordsOpen s = true → 40 ≤ b.length → (chan s (clamp 0 63 (u8 b 1))).taken = true →
      thas s.aud.programmes (clamp 0 255 (u8 b 0)) = false → ∃ x,
      exec (.audioProgrammeRecord b) s = .next (settle (applied { joinImage 0x0603 b s with aud := { s.aud with
        programmes := tset s.aud.programmes (clamp 0 255 (u8 b 0)) x } })) ∧
      x.channel = clamp 0 63 (u8 b 1) ∧ x.carriage = clamp 0 2 (u8 b 2) ∧ x.routes.length = programmeCount (u8 b 4)) ∧
  (∀ (b : Bytes) (s : State) (u : Nat), recordsOpen s = true → 40 ≤ b.length → u = clamp 0 63 (u8 b 0) → u < 48 →
      (cvUnit s u).taken = false → 
      tapTaken (joinImage 0x0F01 b s) (clamp 1 6 (u8 b 5)) (clamp 0 (tapMax (clamp 1 6 (u8 b 5))) (u16 b 6)) = true → ∃ x,
      exec (.generalUnitRecord b) s = .next (settle (applied { joinImage 0x0F01 b s with cvu := { s.cvu with
        units := tset s.cvu.units u x } })) ∧
      x.taken = true ∧ x.width = (recordParams b).w ∧ x.poly = (recordParams b).g ∧ x.run = (recordParams b).i % 2 ^ (recordParams b).w)

/-- EGRESS_FLOW_RECORD, FLOW_GROUP_RECORD, PORT_CLASS_RECORD, GATE_LIST_RECORD, ETHERNET_PORT_RECORD, BINDING_RECORD, PARTITION_KEY_RECORD, MANAGEMENT_PORT_RECORD, PARTITION_CHANNEL_RECORD, KEY_RECORD and ENROLMENT_RECORD complete on every payload (R405: a shorter one is discarded). -/
def Obligations.NetworkAndHostRecordsTaken : Prop :=
  (∀ (b : Bytes) (s j : State) (kind src : Nat), recordsOpen s = true → 80 ≤ b.length → j = joinImage 0x0901 b s →
      kind = clamp 0 3 (u8 b 2) → src = clamp 0 (if kind ≤ 1 then 127 else 255) (u16 b 4) →
      (flowChannel j kind src = none → exec (.egressFlowRecord b) s = .next (settle (orphan j))) ∧
      (∀ c known, flowChannel j kind src = some (c, known) →
        ((chan j c).taken = false → exec (.egressFlowRecord b) s = .next (settle (orphan j))) ∧
        (∀ f legs, (chan j c).taken = true → f = (if u8 b 7 ≤ 15 then even (clamp 0 4095 (u16 b 0)) else clamp 0 4095 (u16 b 0)) →
          legs = (if u8 b 7 ≤ 15 then [(f, legOf j b c false), (f + 1, legOf j b c true)] else [(f, legOf j b c false)]) →
          (known = true → (∀ l ∈ legs, thas j.egr.legs l.1 = false) → (∀ l ∈ legs, groupSuits j l.2 = true) →
            exec (.egressFlowRecord b) s = .next (settle (applied { j with egr := { j.egr with
              legs := legs.foldl (fun t l => tset t l.1 l.2) j.egr.legs } }))) ∧
          (known = false ∨ (∃ l ∈ legs, thas j.egr.legs l.1 = true) ∨ (∃ l ∈ legs, groupSuits j l.2 = false) →
            exec (.egressFlowRecord b) s = .next (settle (applied (badFlow c j))))))) ∧
  (∀ (b : Bytes) (s j : State) (x : EgrGroup), recordsOpen s = true → 8 ≤ b.length → j = joinImage 0x0902 b s →
      x = { port := clamp 0 15 (u8 b 1), cls := clamp 0 7 (u8 b 2), weight := if u16 b 4 = 0 then 1024 else u16 b 4 } →
      exec (.flowGroupRecord b) s = .next (settle (if thas s.egr.groups (u8 b 0) = true then orphan j
        else applied { j with egr := { j.egr with groups := tset s.egr.groups (u8 b 0) x } }))) ∧
  (∀ (b : Bytes) (s j : State) (p : Nat), recordsOpen s = true → 60 ≤ b.length → j = joinImage 0x0903 b s → p = clamp 0 15 (u8 b 0) →
      exec (.portClassRecord b) s = .next (settle (if (egrPort s p).classTaken = true then orphan j
        else applied (setEgrPort j p (fun x => { x with classTaken := true, classes := (List.range 7).map (fun c =>
          (c, ({ share := min (u32 b (4 + 8 * c)) (lineRate s p / 1000), burst := orDefault (u32 b (8 + 8 * c)) 6168 1542 16777216,
                 filled := s.mtb.t } : PortClass))) }))))) ∧
  (∀ (b : Bytes) (s j : State) (p : Nat), recordsOpen s = true → 20 ≤ b.length → j = joinImage 0x0904 b s → p = clamp 0 15 (u8 b 0) →
      exec (.gateListRecord b) s = .next (settle (if b.length < 20 + 8 * clamp 1 1024 (u16 b 2) then shortRecord j
        else if (egrPort s p).nextGates.isSome = true ∨ (egrPort s p).gates.isSome = true then orphan j
        else applied (acceptGates p (gateListOf b).1 j)))) ∧
  (∀ (b : Bytes) (s j : State) (p mode : Nat), recordsOpen s = true → 60 ≤ b.length → p = clamp 0 15 (u8 b 0) →
      mode = tgetD s.lnk.quads (p / 4) (clamp 0 2 (u8 b 1)) →
      j = { joinImage 0x0401 b s with lnk := { s.lnk with quads := tset s.lnk.quads (p / 4) mode } } → ∃ x,
      exec (.ethernetPortRecord b) s = .next (settle (if portIn mode p = false ∨ thas s.lnk.eth p = true then orphan j
        else applied (bringUp { j with lnk := { j.lnk with eth := tset s.lnk.eth p x } }))) ∧
      x.speed = mode ∧ x.pmd = (if mode = 0 then clamp 0 1 (u8 b 2) else 2) ∧ x.an = (mode == 0 && decide (1 ≤ u8 b 3)) ∧
      x.pauseRx = decide (1 ≤ u8 b 4) ∧ x.precode = decide (1 ≤ u8 b 5) ∧ x.txPre = clamp 0 15 (u8 b 8) ∧ x.txPost = clamp 0 15 (u8 b 9) ∧
      x.mac = macOf p (bytesAt b 10 6) ∧ x.v4 = bytesAt b 16 4 ∧ x.v4gw = bytesAt b 20 4 ∧ x.v4len = clamp 0 32 (u8 b 24) ∧
      x.v6len = clamp 0 128 (u8 b 25) ∧ x.vlan = clamp 0 4094 (u16 b 26) ∧ x.v6 = bytesAt b 28 16 ∧ x.v6gw = bytesAt b 44 16) ∧
  (∀ (b : Bytes) (s j : State) (p hp : Nat) (f : Option Nat), recordsOpen s = true → 8 ≤ b.length → j = joinImage 0x0D01 b s →
      p = clamp 0 15 (u8 b 0) → hp = clamp 0 2 (u8 b 1) → f = (if hp = 0 then none else some (8 * (hp - 1) + clamp 0 7 (u8 b 2))) →
      exec (.bindingRecord b) s = .next (settle
        (if ((part s p).bound || (f.isSome && s.hst.parts.any (fun e => e.2.function == f))) = true then orphan j
         else applied (setPart j p (fun x =>
           { x with bound := true, function := f, mg := u8 b 3 % 4, sessions := orDefault (u8 b 4) 2 1 2 }))))) ∧
  (∀ (b : Bytes) (s j : State) (p : Nat), recordsOpen s = true → 2596 ≤ b.length → j = joinImage 0x0D02 b s → p = clamp 0 15 (u8 b 0) →
      exec (.partitionKeyRecord b) s = .next (settle
        (if u16 b 2 ≠ 0x0087 ∨ (part s p).key.isSome = true then orphan j
         else applied (setPart j p (fun x => { x with key := some (bytesAt b 4 2592) }))))) ∧
  (∀ (b : Bytes) (s j : State) (p : Nat), recordsOpen s = true → 56 ≤ b.length → j = joinImage 0x0D03 b s → p = clamp 0 1 (u8 b 0) → ∃ x,
      exec (.managementPortRecord b) s = .next (settle (if thas s.hst.mgPorts p = true then orphan j
        else applied { j with hst := { j.hst with mgPorts := tset s.hst.mgPorts p x } })) ∧
      x.udp = orDefault (u16 b 2) 50416 1 65535 ∧ x.v4 = bytesAt b 4 4 ∧ x.v4gw = bytesAt b 8 4 ∧ x.v4len = clamp 0 32 (u8 b 12) ∧
      x.v6len = clamp 0 128 (u8 b 13) ∧ x.vlan = clamp 0 4094 (u16 b 14) ∧ x.v6 = bytesAt b 16 16 ∧ x.v6gw = bytesAt b 32 16 ∧
      x.mac = (if allZero (bytesAt b 48 6) then fusedMac (16 + p) else bytesAt b 48 6)) ∧
  (∀ (b : Bytes) (s j : State), recordsOpen s = true → 16 ≤ b.length → j = joinImage 0x0D04 b s →
      (u8 b 0 = 0 → exec (.partitionChannelRecord b) s = .next (settle (orphan j))) ∧
      (∀ (chans decs dupC dupD : List Nat) (t : State), u8 b 0 ≠ 0 →
        chans = (List.range 64).filter (fun i => bitOf (u64 b 4) i) → decs = (List.range 32).filter (fun i => bitOf (u32 b 12) i) →
        dupC = chans.filter (fun i => s.hst.parts.any (fun e => bitOf e.2.channels i)) →
        dupD = decs.filter (fun i => s.hst.parts.any (fun e => bitOf e.2.decode i)) →
        t = setPart j (clamp 1 15 (u8 b 0)) (fun x =>
          { x with channels := x.channels + maskOf (chans.filter (fun i => !dupC.contains i)) 64
                   decode := x.decode + maskOf (decs.filter (fun i => !dupD.contains i)) 32 }) →
        exec (.partitionChannelRecord b) s = .next (settle (applied { t with hst := { t.hst with
          assignConflicts := bumpBy 16 s.hst.assignConflicts (dupC.length + dupD.length) } })))) ∧
  (∀ (b : Bytes) (tagOk : Bool) (s j : State) (k : Nat), recordsOpen s = true → 76 ≤ b.length → k = clamp 0 254 (u8 b 0) →
      j = { joinImage 0x0D10 b s with sec := { (joinImage 0x0D10 b s).sec with keysSeen := sadd s.sec.keysSeen k } } →
      (s.sec.keysSeen.contains k = true → exec (.keyRecord b tagOk) s = .next (settle (orphan (joinImage 0x0D10 b s)))) ∧
      (s.sec.keysSeen.contains k = false → (tagOk && s.sec.fuses.kwoProgrammed && !s.sec.fuses.usAllOnes) = true →
        exec (.keyRecord b tagOk) s = .next (settle (applied { j with sec := { j.sec with
          keys := tset s.sec.keys k ⟨fit 44 (Config.unwrapped s.sec.fuses.kwo (bytesAt b 4 12) (bytesAt b 16 44))⟩ } }))) ∧
      (s.sec.keysSeen.contains k = false → (tagOk && s.sec.fuses.kwoProgrammed && !s.sec.fuses.usAllOnes) = false →
        exec (.keyRecord b tagOk) s = .next (settle (raise 0x1C2 k { j with sec := { j.sec with
          keysFailed := bump 9 s.sec.keysFailed } })))) ∧
  (∀ (b : Bytes) (s : State), s.mode.mode = .configure → s.sec.fuses.enrolled = false →
      exec (.enrolmentRecord b) s = .next (if b.length = 32 then applied { s with sec := { s.sec with fuses := { s.sec.fuses with
        kwo := fit 32 b, kwoProgrammed := true, enrolled := true } } } else s)) ∧
  (∀ (b : Bytes) (s : State), recordsOpen s = true → s.sec.fuses.enrolled = true →
      exec (.enrolmentRecord b) s = .next (settle (unknownRecord (joinImage 0x0D20 b s))))

/-- RECORD_PADDING and RECORD_UNKNOWN_TYPE complete, and a record shorter than its table is discarded, whatever its type (R405, R406, R423). -/
def Obligations.RecordsDiscardedAndIgnored : Prop :=
  (∀ (b : Bytes) (s : State), recordsOpen s = true →
      exec (.recordPadding b) s = .next (settle (joinImage 0x0000 b s))) ∧
  (∀ (type : Nat) (b : Bytes) (s : State), recordsOpen s = true →
      exec (.recordUnknownType type b) s = .next (settle (raise 0x1C1 0 { joinImage type b s with sec :=
        { (joinImage type b s).sec with recUnknown := bump 16 s.sec.recUnknown } }))) ∧
  (∀ (b : Bytes) (s : State), recordsOpen s = true → ∀ q ∈ shortRecords b, b.length < q.2.2 →
      exec q.1 s = .next (settle (raise 0x1C1 0 { joinImage q.2.1 b s with sec :=
        { (joinImage q.2.1 b s).sec with recShort := bump 16 s.sec.recShort } })))

/-- The information requests complete (R72, R101, R123, R160, R181, R199, R274, R336, R425, R441). -/
def Obligations.InformationRequestsAnswered : Prop :=
  (∀ (r : Req) (p : Nat) (s t : State), Accepted false infoLegal r p s → t = slotTaken r p s →
      ownsChannel t p (clamp 0 63 (u8 (payloadOf r) 0)) = true →
      exec (.encChannelInfo r) s = .next (settle (reply p r 0x0810 .ok ((f8 (payloadOf r) 0 0 63).clamped || lenClamped r)
        (wordBytes ((List.range 12).map (fun i => encodeWord (chan s (clamp 0 63 (u8 (payloadOf r) 0))) (4 * i))) ++
          (chan s (clamp 0 63 (u8 (payloadOf r) 0))).ctxs.flatMap (fun x =>
            le 1 x ++ le 1 (tgetD s.enc.ctxs x {}).codec ++ le 1 (tgetD s.enc.ctxs x {}).raster ++ le 1 (tgetD s.enc.ctxs x {}).chroma)) t))) ∧
  (∀ (r : Req) (p : Nat) (s t : State), Accepted true infoLegal r p s → t = slotTaken r p s →
      exec (.encPoolInfo r) s = .next (settle (reply p r 0x0811 .ok (lenClamped r)
        (wordBytes [poolWord t 0x1C0, poolWord t 0x1C4, poolWord t 0x1C8]) t))) ∧
  (∀ (r : Req) (p : Nat) (s t : State), Accepted false infoLegal r p s → t = slotTaken r p s →
      ownsCtx t p (clamp 0 127 (u8 (payloadOf r) 0)) = true →
      exec (.encRefInfo r) s = .next (settle (reply p r 0x0812 .ok ((f8 (payloadOf r) 0 0 127).clamped || lenClamped r)
        (refInfo (tgetD s.enc.ctxs (clamp 0 127 (u8 (payloadOf r) 0)) {})) t))) ∧
  (∀ (r : Req) (p : Nat) (s t : State) (c : Ctx), Accepted false infoLegal r p s → t = slotTaken r p s →
      ownsCtx t p (clamp 0 127 (u8 (payloadOf r) 0)) = true → tget s.enc.ctxs (clamp 0 127 (u8 (payloadOf r) 0)) = some c →
      exec (.encRcInfo r) s = .next (settle (reply p r 0x0814 .ok ((f8 (payloadOf r) 0 0 127).clamped || lenClamped r) (rcInfo t c) t))) ∧
  (∀ (r : Req) (p : Nat) (s t : State), Accepted false infoLegal r p s → t = slotTaken r p s →
      ownsDecode t p (clamp 0 31 (u8 (payloadOf r) 0)) = true →
      exec (.decCtxInfo r) s = .next (settle (reply p r 0x0820 .ok ((f8 (payloadOf r) 0 0 31).clamped || lenClamped r)
        (decInfo (tgetD s.dec.ctxs (clamp 0 31 (u8 (payloadOf r) 0)) {})) t))) ∧
  (∀ (r : Req) (p : Nat) (s t : State) (c : Nat), Accepted false infoLegal r p s → t = slotTaken r p s →
      c = clamp 0 63 (u8 (payloadOf r) 0) → ownsChannel t p c = true →
      exec (.cmpChInfo r) s = .next (settle (reply p r 0x0710 .ok ((f8 (payloadOf r) 0 0 63).clamped || lenClamped r)
        (wordBytes ((List.range 8).map (fun i => composeWord (Machine.cmp s c) (4 * i))) ++
          (List.range 8).flatMap (fun l => le 8 (tgetD (Machine.cmp s c).g l {}).addrA ++ le 8 (tgetD (Machine.cmp s c).g l {}).addrB)) t))) ∧
  (∀ (r : Req) (p : Nat) (s t : State) (c : Nat), Accepted false infoLegal r p s → t = slotTaken r p s →
      c = clamp 0 63 (u8 (payloadOf r) 0) → ownsChannel t p c = true →
      exec (.ingGroupInfo r) s = .next (settle (reply p r 0x0510 .ok ((f8 (payloadOf r) 0 0 63).clamped || lenClamped r)
        (le 1 c ++ le 1 (group s c).members.length ++ [0, 0] ++ le 4 (ofSigned 32 (group s c).offsetUs) ++
          (group s c).members.flatMap (fun m => memberInfo m.1 m.2)) t))) ∧
  (∀ (r : Req) (p : Nat) (s t : State), Accepted true infoLegal r p s → t = slotTaken r p s →
      exec (.redPairInfo r) s = .next (settle (reply p r 0x0A10 .ok (lenClamped r)
        ((pairWords t).foldl (fun a w => a ++ le 4 w) [] ++ fit 64 s.run.partner) t))) ∧
  (∀ (r : Req) (p : Nat) (s t : State), Accepted true infoLegal r p s → t = slotTaken r p s →
      exec (.lnkPortInfo r) s = .next (settle (reply p r 0x0410 .ok (portNamed r).2.2 (wordBytes ((List.range 16).map (fun i =>
        if (portNamed r).1 = 0 then ethWord t (portNamed r).2.1 (4 * i) else valsinWord t (portNamed r).2.1 (4 * i)))) t))) ∧
  (∀ (r : Req) (p : Nat) (s t : State), Accepted false attestLegal r p s → t = slotTaken r p s →
      exec (.secIdentity r) s = .next (settle (reply p r 0x0D10 .ok (lenClamped r)
        (fit 16 s.sec.fuses.serial ++ le 4 (b2n s.sec.fuses.usAllOnes) ++ identityBytes s) t))) ∧
  (∀ (r : Req) (p : Nat) (s t : State), Accepted false (fun _ => true) r p s → t = slotTaken r p s →
      exec (.hstInfo r) s = .next (settle (reply p r 0x0D30 .ok (lenClamped r)
        (wordBytes ((List.range 8).map (fun i => identityWord t p (4 * i)) ++
          (List.range 13).map (fun i => identityWord t p (0x100 + 4 * i)))) t)))

/-- Register reads complete (R7, R25, R70, R357, R441). -/
def Obligations.WindowReadsLatchAndClear : Prop :=
  (∀ (tr p off : Nat) (s : State), caller s tr = some p → off < 65536 → off % 4 = 0 →
      exec (.lowWordLatchRead tr off) s =
        .next (setView (readClear tr p off (readLatch tr p off s)) tr (fun x => { x with last := [readWord s tr p off] }))) ∧
  (∀ (tr p off : Nat) (s : State), caller s tr = some p → off < 65536 → off % 4 = 0 →
      exec (.readClearRegisterRead tr off) s =
        .next (setView (readClear tr p off (readLatch tr p off s)) tr (fun x => { x with last := [readWord s tr p off] }))) ∧
  (∀ (tr : Nat) (s : State), caller s tr = some 0 →
      exec (.clkMtbFracRead tr) s =
        .next (setView (setLatches tr 0x4108 [nsOf s.mtb.t, loWord (secOf s.mtb.t), fieldOf 16 (hiWord (secOf s.mtb.t))] s) tr
          (fun x => { x with last := [clockWord s tr 0x4104] }))) ∧
  (∀ (tr u : Nat) (s : State), u < 64 → seesUnit s tr u = true →
      exec (.cvuRunLoRead tr u) s = .next (setView s tr (fun v =>
        { v with last := [loWord (cvUnit s u).run], latch := tset v.latch (0x7010 + 0x20 * u) (hiWord (cvUnit s u).run) }))) ∧
  (∀ (tr off : Nat) (s : State), unboundFunction s tr = true →
      exec (.lowWordLatchRead tr off) s = .next (setView s tr (fun x => { x with last :=
        [if off % 65536 / 4 * 4 < 0x20 then identityWord s 15 (off % 65536 / 4 * 4) else 0] }))) ∧
  (∀ (tr off : Nat) (s : State), caller s tr = none → unboundFunction s tr = false →
      exec (.lowWordLatchRead tr off) s = .next s ∧ exec (.readClearRegisterRead tr off) s = .next s ∧
      exec (.clkMtbFracRead tr) s = .next s)

/-- Register writes complete (R7, R242, R316, R357, R383, R397, R441, R451). -/
def Obligations.SelectionsAndWrites : Prop :=
  (∀ (tr p v : Nat) (s : State), caller s tr = some p →
      exec (.egrStatSelect tr v) s = .next (setLatches tr 0x3004 (statWords s p (bitsOf v 14 12) (bitsOf v 11 0))
        (setLatch tr 0x3000 (Nat.land (v % 65536) 0x17FFF) s))) ∧
  (∀ (tr p v : Nat) (s : State), caller s tr = some p →
      exec (.egrStatSelectClear tr v) s = .next (clearStats p (bitsOf v 14 12) (bitsOf v 11 0)
        (setLatches tr 0x3004 (statWords s p (bitsOf v 14 12) (bitsOf v 11 0))
          (setLatch tr 0x3000 (Nat.land (v % 65536 + 65536) 0x17FFF) s)))) ∧
  (∀ (tr v : Nat) (s : State), caller s tr = some 0 → v < 2 ^ 32 →
      exec (.drmDlySelect tr v) s = .next (setLatch tr 0x6304 (delayWord s (bitsOf v 10 0)) (setLatch tr 0x6300 (bitsOf v 10 0) s))) ∧
  (∀ (tr v : Nat) (s : State), caller s tr = some 0 → v < 2 ^ 32 →
      exec (.clkMonSelect tr v) s = .next (setLatch tr 0x401C
        (if bitsOf v 3 0 < 11 then ofSigned 32 (source s (bitsOf v 3 0)).ppm else 0) (setLatch tr 0x4018 (bitsOf v 3 0) s))) ∧
  (∀ (tr p v : Nat) (s : State), caller s tr = some p → v < 2 ^ 32 →
      exec (.fltLogSelect tr v) s = .next (setLatches tr 0x0818 (logWords s p v).1
        (setLatch tr 0x0804 (b2n (logWords s p v).2) (setLatch tr 0x0814 v s)))) ∧
  (∀ (tr p v : Nat) (s : State), caller s tr = some p → v < 2 ^ 32 →
      exec (.fltSrcSelect tr v) s = .next (setLatches tr 0x0844 (sourceWords s p (bitsOf v 8 0) (bitsOf v 31 16))
        (setLatch tr 0x0840 (bitsOf v 8 0 + 65536 * bitsOf v 31 16) s))) ∧
  (∀ (tr p : Nat) (s : State), caller s tr = some p →
      exec (.fltErrRelease tr) s =
        .next (if p = 0 then { s with flt := { s.flt with holdLatched := false, holdDegraded := false } } else s)) ∧
  (∀ (tr v : Nat) (s : State), caller s tr = some 0 → v < 2 ^ 32 → exec (.clkLostClear tr v) s = .next (clearLost v s)) ∧
  (∀ (tr v : Nat) (s : State), caller s tr = some 0 → v < 2 ^ 32 →
      exec (.pwrGpioOutWrite tr v) s = .next { s with pins := { s.pins with gpioOut := bitsOf v 15 0 } }) ∧
  (∀ (tr p v : Nat) (s : State), caller s tr = some p → p ≠ 0 →
      exec (.clkLostClear tr v) s = .next s ∧ exec (.pwrGpioOutWrite tr v) s = .next s ∧ exec (.drmDlySelect tr v) s = .next s ∧
      exec (.clkMonSelect tr v) s = .next s) ∧
  (∀ (tr u v : Nat) (s : State), u < 64 → seesUnit s tr u = true → runWritable s u = true →
      exec (.cvuRunLoWrite tr u v) s = .next (setView s tr (fun x => { x with staged := tset x.staged u (loWord v) }))) ∧
  (∀ (tr u v : Nat) (s : State), seesUnit s tr u = true → runWritable s u = true →
      exec (.cvuRunHiWrite tr u v) s = .next (modUnit s u (fun x =>
        { x with run := (loWord v * 2 ^ 32 + tgetD (view s tr).staged u 0) % 2 ^ x.width }))) ∧
  (∀ (tr u v : Nat) (s : State), runWritable s u = false →
      exec (.cvuRunLoWrite tr u v) s = .next s ∧ exec (.cvuRunHiWrite tr u v) s = .next s) ∧
  (∀ (tr p off v : Nat) (s : State), caller s tr = some p → off < 65536 → off % 4 = 0 → v < 2 ^ 32 →
      exec (.registerWrite tr off v) s = .next (settle (writeReg tr p off v s)))

/-- Runtime changes complete (R42, R119, R124, R180, R216, R229, R243, R244, R264). -/
def Obligations.RuntimeChangesDecided : Prop :=
  (∀ (p op c named : Nat) (cl : Bool) (data : Bytes) (change : ShadowChange) (r : Req) (t : State) (ch : Chan),
      tget t.enc.chans c = some ch → decidesHere t = true →
      changeFor p r op c named cl data change t = reply p r op .ok cl (data ++ le 4 (targetFrame t ch named).1)
        (commitBoth c (targetFrame t ch named).1 (targetFrame t ch named).2 change none t)) ∧
  (∀ (p op c named : Nat) (cl : Bool) (data : Bytes) (change : ShadowChange) (r : Req) (t : State) (ch : Chan),
      tget t.enc.chans c = some ch → decidesHere t = false →
      changeFor p r op c named cl data change t =
        forward { req := some r, opcode := op, channel := c, change := change, clamped := cl, data := data } named t ∧
      (forward { req := some r, opcode := op, channel := c, change := change, clamped := cl, data := data } named t).run.forwards =
        t.run.forwards ++ [{ req := some r, opcode := op, channel := c, change := change, clamped := cl, data := data }]) ∧
  (∀ (r : Req) (p : Nat) (s t : State) (x : Nat) (c : Ctx), Accepted false changeLegal r p s → t = slotTaken r p s →
      x = clamp 0 127 (u8 (payloadOf r) 0) → ownsCtx t p x = true → tget s.enc.ctxs x = some c → c.stopped = false →
      chanRunning s c.channel = true →
      exec (.encSetBitrate r) s = .next (settle (changeFor p r 0x0813 c.channel 0
        ((f8 (payloadOf r) 0 0 127).clamped || clamp c.kmin c.kmax (u32 (payloadOf r) 4) != u32 (payloadOf r) 4 || lenClamped r)
        (le 4 (bpsOf (clamp c.kmin c.kmax (u32 (payloadOf r) 4)))) (.bitrate x (u32 (payloadOf r) 4)) t))) ∧
  (∀ (r : Req) (p : Nat) (s t : State) (c l k v src : Nat), Accepted false changeLegal r p s → t = slotTaken r p s →
      c = clamp 0 63 (u8 (payloadOf r) 0) → l = clamp 0 3 (u8 (payloadOf r) 1) → k = clamp 0 2 (u8 (payloadOf r) 2) →
      v = clamp 0 1 (u8 (payloadOf r) 3) → src = sourceIn k (u16 (payloadOf r) 4) →
      ownsChannel t p c = true → thas (Machine.cmp s c).v l = true → chanRunning s c = true →
      exec (.cmpSetLayer r) s = .next (settle (changeFor p r 0x0711 c (u32 (payloadOf r) 8)
        (c != u8 (payloadOf r) 0 || l != u8 (payloadOf r) 1 || k != u8 (payloadOf r) 2 || v != u8 (payloadOf r) 3 ||
          src != u16 (payloadOf r) 4 || lenClamped r)
        (le 1 c ++ le 1 l ++ le 1 k ++ le 1 v ++ le 2 src ++ le 1 (u8 (payloadOf r) 6) ++ [0])
        (.layer l k src (u8 (payloadOf r) 6) (v == 1)) t))) ∧
  (∀ (r : Req) (p : Nat) (s t : State) (k n port : Nat), Accepted false changeLegal r p s → t = slotTaken r p s →
      k = clamp 0 1 (u8 (payloadOf r) 0) → n = clamp 0 (if k = 0 then 31 else 15) (u8 (payloadOf r) 1) → port = 32 * k + n →
      seesPort t p port = true → (if port < 32 then (aesIn t port).taken else thas t.aud.outs (port - 32)) = true →
      exec (.audPortRestart r) s = .next (settle (match portChannels t port with
        | c :: _ => changeFor p r 0x0610 c (u32 (payloadOf r) 4)
            (k != u8 (payloadOf r) 0 || n != u8 (payloadOf r) 1 || lenClamped r) [] (.portRestart port) t
        | [] => reply p r 0x0610 .ok (k != u8 (payloadOf r) 0 || n != u8 (payloadOf r) 1 || lenClamped r)
            (le 4 (drawFree t).1)
            (sendVa 3 (.va (.restart port)) (restartLater port (drawFree t).2))))) ∧
  (∀ (port : Nat) (s : State), restartLater port s = if port < 32 then modIn s port (fun i => { i with restartDue := true })
      else modOut s (port - 32) (fun o => { o with restartDue := true })) ∧
  (∀ (r : Req) (p : Nat) (s t : State) (k rate depth : Nat) (l : Leg), Accepted false changeLegal r p s → t = slotTaken r p s →
      k = clamp 0 4095 (u16 (payloadOf r) 0) → ownsLeg t p k = true → tget s.egr.legs k = some l → l.st = 1 → sliceLeg l = false →
      rate = clamp l.minRate l.maxRate (u32 (payloadOf r) 4 * 1000) →
      depth = (if u32 (payloadOf r) 8 = 0 then l.depth else clamp 1542 16777216 (u32 (payloadOf r) 8)) →
      exec (.egrSetRate r) s = .next (settle (reply p r 0x0910 .ok
        ((f16 (payloadOf r) 0 0 4095).clamped || rate != u32 (payloadOf r) 4 * 1000 ||
          depth != (if u32 (payloadOf r) 8 = 0 then l.depth else u32 (payloadOf r) 8) || lenClamped r)
        (le 4 (rate / 1000) ++ le 4 depth ++ le 4 (nextSample s.mtb.t))
        (toStandby (.change l.channel 0 (.rate k rate depth))
          (modLeg t k (fun l => { l with change := some ⟨rate, depth, nextSample s.mtb.t⟩ })))))) ∧
  (∀ (r : Req) (p : Nat) (s t : State) (k : Nat) (l : Leg), Accepted false changeLegal r p s → t = slotTaken r p s →
      k = clamp 0 4095 (u16 (payloadOf r) 0) → ownsLeg t p k = true → tget s.egr.legs k = some l → l.st = 1 → sliceLeg l = true →
      exec (.egrSetRate r) s = .next (settle (reply p r 0x0910 .ok
        ((f16 (payloadOf r) 0 0 4095).clamped || l.rate != u32 (payloadOf r) 4 * 1000 ||
          l.depth != (if u32 (payloadOf r) 8 = 0 then l.depth else u32 (payloadOf r) 8) || lenClamped r)
        (le 4 (l.rate / 1000) ++ le 4 l.depth ++ le 4 (nextSample s.mtb.t)) t))) ∧
  (∀ (r : Req) (p : Nat) (s t : State) (start : Nat), Accepted true gatesLegal r p s → t = slotTaken r p s →
      start = gateStart s.mtb.t (gateListOf (payloadOf r)).1 →
      exec (.egrSetGates r) s = .next (settle (reply p r 0x0911 .ok
        ((f8 (payloadOf r) 0 0 15).clamped || (gateListOf (payloadOf r)).2 || lenClamped r)
        (le 4 (gateListOf (payloadOf r)).1.entries.length ++ le 4 (start / 1000000000 % 2 ^ 32) ++
          le 2 (start / 1000000000 / 2 ^ 32) ++ [0, 0] ++ le 4 (start % 1000000000))
        (toStandby (.change 0 0 (.gates (clamp 0 15 (u8 (payloadOf r) 0)) (gateListOf (payloadOf r)).1.cycle
            (gateListOf (payloadOf r)).1.base start (gateListOf (payloadOf r)).1.entries))
          (acceptGates (clamp 0 15 (u8 (payloadOf r) 0)) (gateListOf (payloadOf r)).1 t)))))

/-- Host items complete (R102, R182, R237, R285, R287, R289, R292, R294). -/
def Obligations.HostItemsEnterTheDispatcher : Prop :=
  (∀ (p cls c named : Nat) (r : Req) (change : ShadowChange) (cl : Bool) (t : State) (ch : Chan),
      tget t.enc.chans c = some ch → ch.st = 1 → waitDepth t < 250000 → inFlight t p < (quota t p).quota →
      ∃ i : Item, i.cls = cls ∧ i.flow = 4080 + p ∧
        i.deadline = deadlineOf (match change with
          | .sei _ _ _ => seiDeadline ch (resolveTarget (openFrame t ch) (named % 2 ^ 32)).1
          | _ => guardAt ch.raster ch.rate (resolveTarget (openFrame t ch) (named % 2 ^ 32)).1) ∧
        i.queue = (if (quota t p).rate ≤ (quota t p).used then 7 else 32 + p) ∧ i.payload % 16 = 0 ∧ i.payload < 2 ^ 36 ∧
        i.host = some { req := r, partition := p, channel := c, target := (resolveTarget (openFrame t ch) (named % 2 ^ 32)).1
                        missed := (resolveTarget (openFrame t ch) (named % 2 ^ 32)).2, change := change, clamped := cl } ∧
        submitHost p cls r c named change cl t = submit i (setQuota t p (fun q => { q with
          used := q.used + 1, submitted := bump32 q.submitted
          rateExcess := if (quota t p).rate ≤ (quota t p).used then bump32 q.rateExcess else q.rateExcess }))) ∧
  (∀ (p cls c named : Nat) (r : Req) (change : ShadowChange) (cl : Bool) (t : State) (ch : Chan),
      tget t.enc.chans c = some ch → ch.st = 1 → 250000 ≤ waitDepth t ∨ (quota t p).quota ≤ inFlight t p →
      submitHost p cls r c named change cl t = reply p r 0x0E10 .busy false
        (le 4 (retryHint (setQuota t p (fun q => { q with busy := bump32 q.busy })) p))
        (setQuota t p (fun q => { q with busy := bump32 q.busy }))) ∧
  (∀ (r : Req) (p : Nat) (s t : State) (x c : Nat), Accepted false changeLegal r p s → t = slotTaken r p s →
      x = clamp 0 127 (u8 (classPayload r) 0) → ownsCtx t p x = true → chanOfCtx t x = some c →
      exec (.referenceActionAck r) s = .next (settle (submitHost p 0x80 r c 0
        (if (tgetD t.enc.ctxs x {}).feedback.testBit 3 then .acknowledge x (u32 (classPayload r) 4) else .nothing)
        (x != u8 (classPayload r) 0 || u8 (classPayload r) 1 == 0 || decide (2 < u8 (classPayload r) 1) || lenClamped r) t))) ∧
  (∀ (r : Req) (p : Nat) (s t : State) (x c : Nat), Accepted false changeLegal r p s → t = slotTaken r p s →
      x = clamp 0 127 (u8 (classPayload r) 0) → ownsCtx t p x = true → chanOfCtx t x = some c →
      exec (.referenceActionLoss r) s = .next (settle (submitHost p 0x80 r c 0
        (if (tgetD t.enc.ctxs x {}).feedback.testBit 3 then .loss x else .nothing)
        (x != u8 (classPayload r) 0 || u8 (classPayload r) 1 == 0 || decide (2 < u8 (classPayload r) 1) || lenClamped r) t))) ∧
  (∀ (r : Req) (p : Nat) (s t : State) (c l v : Nat), Accepted false changeLegal r p s → t = slotTaken r p s →
      c = clamp 0 63 (u8 (classPayload r) 0) → l = clamp 0 7 (u8 (classPayload r) 2) → v = clamp 0 1 (u8 (classPayload r) 3) →
      ownsChannel t p c = true → thas (Machine.cmp t c).g l = true →
      exec (.overlayUpdateGraphics r) s = .next (settle (submitHost p 0x81 r c (u32 (classPayload r) 8)
        (.graphics l (v == 1) (overlayPosition t c (u32 (classPayload r) 4)).1
          (if u8 (classPayload r) 12 ≤ 1 then some (u8 (classPayload r) 12) else none))
        (c != u8 (classPayload r) 0 || u8 (classPayload r) 1 == 0 || decide (2 < u8 (classPayload r) 1) || lenClamped r ||
          l != u8 (classPayload r) 2 || v != u8 (classPayload r) 3 || (overlayPosition t c (u32 (classPayload r) 4)).2 ||
          (decide (2 ≤ u8 (classPayload r) 12) && u8 (classPayload r) 12 != 255)) t))) ∧
  (∀ (r : Req) (p : Nat) (s t : State) (c k : Nat), Accepted false changeLegal r p s → t = slotTaken r p s →
      c = clamp 0 63 (u8 (classPayload r) 0) → k = clamp 0 15 (u8 (classPayload r) 2) →
      ownsChannel t p c = true → thas (Machine.cmp t c).regions k = true →
      exec (.overlayUpdateExpected r) s = .next (settle (submitHost p 0x81 r c (u32 (classPayload r) 8)
        (.expected k (u32 (classPayload r) 4))
        (c != u8 (classPayload r) 0 || u8 (classPayload r) 1 == 0 || decide (2 < u8 (classPayload r) 1) || lenClamped r ||
          k != u8 (classPayload r) 2) t))) ∧
  (∀ (r : Req) (p : Nat) (s t : State) (k n : Nat) (l : Leg), Accepted false changeLegal r p s → t = slotTaken r p s →
      k = clamp 0 4095 (u16 (classPayload r) 0) → n = clamp 16 1024 (u16 (classPayload r) 8) →
      ownsLeg t p k = true → tget t.egr.legs k = some l →
      exec (.spliceInsertion r) s = .next (settle (submitHost p 0x82 r l.channel (u32 (classPayload r) 4)
        (.splice k (bitOf (u8 (classPayload r) 2) 0) (bytesAt (classPayload r) 12 n))
        (k != u16 (classPayload r) 0 || n != u16 (classPayload r) 8 || lenClamped r) t))) ∧
  (∀ (r : Req) (p : Nat) (s t : State) (x c n : Nat), Accepted false changeLegal r p s → t = slotTaken r p s →
      x = clamp 0 127 (u8 (classPayload r) 0) → n = clamp 1 1024 (u16 (classPayload r) 2) →
      ownsCtx t p x = true → chanOfCtx t x = some c →
      exec (.seiInsertion r) s = .next (settle (submitHost p 0x83 r c (u32 (classPayload r) 4)
        (.sei x (clamp 0 1 (u8 (classPayload r) 1)) (bytesAt (classPayload r) 8 n))
        (x != u8 (classPayload r) 0 || decide (1 < u8 (classPayload r) 1) || n != u16 (classPayload r) 2 || lenClamped r) t))) ∧
  (∀ (r : Req) (p : Nat) (s t : State), Accepted false changeLegal r p s → t = slotTaken r p s →
      exec (.pvdSubmitUnknownClass r) s = .next (settle (reply p r 0x0E10 .unknownOpcode false [] t)))

/-- The owner's control requests complete (R13, R15, R275, R337, R369, R370, R415 to R417, R441). -/
def Obligations.OwnerRequestsHeldOrAnswered : Prop :=
  (∀ (r : Req) (p : Nat) (s t : State), Accepted true (requestLegal .quiescent) r p s → t = slotTaken r p s →
      exec (.hstModeReqQuiescent r) s = .next (settle (if s.mode.held.isSome then busy p r 0x0D33 t
        else withHeld { kind := .quiescent, req := r, clamped := decide (1 < u8 (payloadOf r) 0) || lenClamped r } t))) ∧
  (∀ (r : Req) (p : Nat) (s t : State), Accepted true (requestLegal .run) r p s → t = slotTaken r p s →
      exec (.hstModeReqRun r) s = .next (settle (if s.mode.held.isSome then busy p r 0x0D33 t
        else if s.clk.rootFrc then reply p r 0x0D33 .notReady false [] t
        else withHeld { kind := .run, req := r, clamped := decide (1 < u8 (payloadOf r) 0) || lenClamped r } t))) ∧
  (∀ (r : Req) (p : Nat) (s t : State) (k n : Nat), Accepted true updateLegal r p s → t = slotTaken r p s →
      k = clamp 0 3 (u8 (payloadOf r) 0) → n = min (u32 (payloadOf r) 4) (updateMax k) →
      exec (.secUpdateBegin r) s = .next (settle (if s.mode.held.isSome then busy p r 0x0D13 t
        else if s.mode.mode == .quiescent && s.clk.rootFrc then reply p r 0x0D13 .notReady false [] t
        else withHeld { kind := .update, req := r, updKind := k, updLen := n, clamped := k != u8 (payloadOf r) 0 || n != u32 (payloadOf r) 4 || lenClamped r } t))) ∧
  (∀ (r : Req) (p : Nat) (s t : State), Accepted true (requestLegal .swap) r p s → t = slotTaken r p s →
      exec (.redSwapNow r) s = .next (settle (if s.mode.held.isSome || s.run.swapAsked.isSome then busy p r 0x0A11 t
        else withHeld { kind := .swap, req := r, clamped := lenClamped r } t))) ∧
  (∀ (r : Req) (p : Nat) (s t : State) (u : Update) (n : Nat), Accepted true updateOnly r p s → t = slotTaken r p s →
      s.sec.update = some u → u.erased = true → u.ended = none → u32 (payloadOf r) 0 = u.received →
      n = min (clamp 4 4064 (u16 (payloadOf r) 4) / 4 * 4) (u.len - u.received) →
      exec (.secUpdateData r) s = .next (settle (reply p r 0x0D14 .ok (n != u16 (payloadOf r) 4 || lenClamped r) (le 4 (u.received + n))
        { t with sec := { t.sec with
            update := some { u with received := u.received + n, data := u.data ++ bytesAt (payloadOf r) 8 n, lastChunk := s.mtb.t },
            updBytes := u.received + n } }))) ∧
  (∀ (r : Req) (p : Nat) (s t : State) (u : Update), Accepted true updateOnly r p s → t = slotTaken r p s →
      s.sec.update = some u → u.erased = true → u.ended = none → u32 (payloadOf r) 0 ≠ u.received →
      exec (.secUpdateData r) s = .next (settle (reply p r 0x0D14 .ok
        (clamp 4 4064 (u16 (payloadOf r) 4) / 4 * 4 != u16 (payloadOf r) 4 || lenClamped r) (le 4 u.received) t))) ∧
  (∀ (r : Req) (p : Nat) (s t : State) (u : Update), Accepted true updateOnly r p s → t = slotTaken r p s →
      s.sec.update = some u → u.erased = true → u.ended = none →
      exec (.secUpdateEnd r) s = .next (settle { t with sec := { t.sec with update := some { u with ended := some r }, updState := 2 } })) ∧
  (∀ (r : Req) (p : Nat) (s t : State) (u : Update), Accepted true updateOnly r p s → t = slotTaken r p s → s.sec.update = some u →
      exec (.secUpdateAbort r) s = .next (settle (reply p r 0x0D16 .ok (lenClamped r) [] (leaveUpdate (abandonUpdate t))))) ∧
  (∀ (r : Req) (p : Nat) (s t : State), Accepted true quiescentOnly r p s → t = slotTaken r p s →
      exec (.clkSwitchToPllR r) s = .next (settle (if s.clk.switchBusy then busy p r 0x0210 t
        else if s.clk.rootFrc = false then
          reply p r 0x0210 .ok (decide (1 < u8 (payloadOf r) 1) || lenClamped r) (le 4 (clkRootWord t)) t
        else if (source s 4).ready = false then reply p r 0x0210 .notReady false [] t
        else { beginSwitch false false t with
               clk := { (beginSwitch false false t).clk with switchReply := some r, switchStop := false } }))) ∧
  (∀ (r : Req) (p : Nat) (s t : State), Accepted true quiescentOnly r p s → t = slotTaken r p s → s.clk.switchBusy = false →
      s.clk.rootFrc = false →
      exec (.clkSwitchToFrc r) s = .next (settle { beginSwitch true false t with
        clk := { (beginSwitch true false t).clk with switchReply := some r, switchStop := decide (1 ≤ u8 (payloadOf r) 1) } })) ∧
  (∀ (r : Req) (p : Nat) (s t u : State), Accepted true quiescentOnly r p s → t = slotTaken r p s → s.clk.switchBusy = false →
      s.clk.rootFrc = true → u = (if 1 ≤ u8 (payloadOf r) 1 then stopPllR t else restartPllR t) →
      exec (.clkSwitchToFrc r) s = .next (settle (reply p r 0x0210 .ok
        (decide (1 < u8 (payloadOf r) 0) || decide (1 < u8 (payloadOf r) 1) || lenClamped r) (le 4 (clkRootWord u)) u))) ∧
  (∀ (r : Req) (p : Nat) (s t : State) (k : Nat), Accepted true retrainLegal r p s → t = slotTaken r p s →
      (portNamed r).1 = 0 → k = (portNamed r).2.1 → thas t.lnk.eth k = true →
      exec (.lnkRetrain r) s = .next (settle (setEth (bringUp (ethDown k t)) k (fun x =>
        { x with retrain := x.retrain ++ [r], askedAt := if x.retrain.isEmpty then t.mtb.t else x.askedAt })))) ∧
  (∀ (r : Req) (p : Nat) (s t : State) (k : Nat), Accepted true retrainLegal r p s → t = slotTaken r p s →
      (portNamed r).1 ≠ 0 → k = (portNamed r).2.1 → (valPort t k).st ≠ 0 →
      exec (.lnkRetrain r) s = .next (settle (setVal (retrain k t) k (fun x =>
        { x with retrain := x.retrain ++ [r], askedAt := if x.retrain.isEmpty then t.mtb.t else x.askedAt }))))

/-- The data requests complete (R352, R414, R425, R436, R441). The signature and the BUSY hint are free values (log entries 2 and 9). -/
def Obligations.DataRequestsAnswered : Prop :=
  (∀ (r : Req) (p : Nat) (s t : State), Accepted false (fun _ => true) r p s → t = slotTaken r p s →
      exec (.hstNop r) s = .next (settle (reply p r 0x0D31 .ok (decide (4092 < (payloadOf r).length) || lenClamped r)
        ((payloadOf r).take 4092) t))) ∧
  (∀ (r : Req) (p : Nat) (s t u : State) (words : List Nat), Accepted false (fun _ => true) r p s → t = slotTaken r p s →
      (words, u) = readRegs r.transport p (clamp 1 1016 (u16 (payloadOf r) 2)) (u16 (payloadOf r) 0 / 4 * 4) t →
      exec (.hstRegRead r) s = .next (settle (reply p r 0x0D34 .ok ((f16 (payloadOf r) 2 1 1016).clamped || lenClamped r) (wordBytes words) u))) ∧
  (∀ (r : Req) (p : Nat) (s t : State), Accepted false (fun _ => true) r p s → t = slotTaken r p s →
      exec (.hstRegWrite r) s = .next (settle (reply p r 0x0D35 .ok (lenClamped r) []
        (writeReg r.transport p (u16 (payloadOf r) 0 / 4 * 4) (u32 (payloadOf r) 4) t)))) ∧
  (∀ (r : Req) (p : Nat) (s t : State) (n : Nat), Accepted false bufLegal r p s → t = slotTaken r p s →
      n = min (u32 (payloadOf r) 8) (min 4064 ((payloadOf r).length - 16)) → inSlot t p (u64 (payloadOf r) 0) n = true →
      exec (.hstBufWriteInline r) s = .next (settle (writeBuffer
        { req := r, addr := u64 (payloadOf r) 0, data := bytesAt (payloadOf r) 16 n
          clamped := n != u32 (payloadOf r) 8 || lenClamped r } t))) ∧
  (∀ (r : Req) (p : Nat) (s t : State) (n : Nat), Accepted false bufLegal r p s → t = slotTaken r p s →
      n = min (u32 (payloadOf r) 8) 67108864 → inSlot t p (u64 (payloadOf r) 0) n = true → r.transport < 16 →
      exec (.hstBufWritePull r) s = .next (settle (if thas t.hst.pulls r.transport then busy p r 0x0D32 t
        else { t with hst := { t.hst with pulls := tset t.hst.pulls r.transport (Pull.mk r (u64 (payloadOf r) 0) n
                                            (n != u32 (payloadOf r) 8 || decide (1 < u8 (payloadOf r) 12) || lenClamped r)) } }))) ∧
  (∀ (f : Nat) (data : Bytes) (s t : State) (x : Pull), tget s.hst.pulls f = some x →
      t = { s with hst := { s.hst with pulls := tdel s.hst.pulls f } } → bufLegal s.mode.mode = true →
      exec (.hostDmaPullDone f data) s = .next (settle (writeBuffer { req := x.req, addr := x.addr, data := fit x.len data, clamped := x.clamped } t))) ∧
  (∀ (w : HeldWrite) (s u : State), stacksAwake s w.addr w.data.length = true →
      u = (blocksOf w.addr w.data.length).foldl (fun s b => requestOn 46 b s) s →
      (writeLegal s.mode.mode = true →
        writeBuffer w s = replyTo w.req 0x0D32 .ok w.clamped (le 4 w.data.length) (hbmWrite w.addr w.data u)) ∧
      (writeLegal s.mode.mode = false → writeBuffer w s = replyTo w.req 0x0D32 .wrongMode false [] u)) ∧
  (∀ (l : List Nat) (s u : State), u = l.foldl (fun s b => requestOn 46 b s) s → ∃ d, u = { s with drm := d } ∧ d.mem = s.drm.mem) ∧
  (∀ (w : HeldWrite) (s : State), stacksAwake s w.addr w.data.length = false → (writeBuffer w s).drm.mem = s.drm.mem ∧
      ∃ u : State, writeBuffer w s = { u with hst := { u.hst with heldWrites := u.hst.heldWrites ++ [w] } }) ∧
  (∀ (r : Req) (p : Nat) (s t u : State) (sig : Bytes), Accepted false attestLegal r p s → t = slotTaken r p s →
      (sig, u) = drawBytes 4627 t →
      exec (.secAttest r) s = .next (settle (reply p r 0x0D11 .ok (lenClamped r)
        (attestReport p ((t.sec.attestSeq + 1) % 2 ^ 32) (bytesAt (payloadOf r) 0 64) t)
        (setPart { u with sec := { u.sec with attests := bump32 u.sec.attests, attestSeq := (t.sec.attestSeq + 1) % 2 ^ 32 } } p
          (fun x => { x with attest := sig }))))) ∧
  (∀ (r : Req) (p : Nat) (s t : State) (off n : Nat), Accepted false attestLegal r p s → t = slotTaken r p s →
      off = min (u16 (payloadOf r) 0) 4624 → n = min (min (u16 (payloadOf r) 2) 4064) (4627 - off) →
      exec (.secAttestRead r) s = .next (settle (if (part t p).attest.isEmpty then reply p r 0x0D12 .notReady false [] t
        else reply p r 0x0D12 .ok (off != u16 (payloadOf r) 0 || n != u16 (payloadOf r) 2 || lenClamped r)
          (bytesAt (part t p).attest off n) t))) ∧
  (∀ (r : Req) (p : Nat) (s t : State) (off n : Nat), Accepted true hrwLegal r p s → t = slotTaken r p s →
      off = min (u16 (payloadOf r) 0 / 4 * 4) 8316 → n = min (min (u16 (payloadOf r) 2) 4064) (8320 - off) →
      exec (.hrwSnapRead r) s = .next (settle (reply p r 0x0B13 .ok
        (decide (8316 < u16 (payloadOf r) 0 / 4 * 4) || decide (n < u16 (payloadOf r) 2) || lenClamped r)
        (le 4 t.hrw.snapSeq ++ (List.range n).map (fun i =>
          BitVec.ofNat 8 (tgetD t.hrw.snapshot ((off + i) / 4) 0 / 2 ^ (8 * ((off + i) % 4))))) t))) ∧
  (∀ (op : Nat) (r : Req) (p : Nat) (s t : State), Accepted false (fun _ => true) r p s → t = slotTaken r p s → op < 65536 →
      exec (.mailboxUnknownOpcode op r) s = .next (settle (reply p r op .unknownOpcode false [] t)))

/-- The tree requests complete (R342 to R345, R347, R352). -/
def Obligations.TreeRequestsSentOrHeld : Prop :=
  (∀ (r : Req) (p : Nat) (s t : State), Accepted true hrwLegal r p s → t = slotTaken r p s → inTree t = true → s.hrw.root = true →
      exec (.hrwBroadcast r) s = .next (settle (reply p r 0x0B10 .ok (broadcastData r).2 (le 4 s.hrw.nextSeq)
        (broadcastDown s.hrw.ident s.hrw.nextSeq (broadcastData r).1 (nextTreeSeq t).2)))) ∧
  (∀ (r : Req) (p : Nat) (s t : State), Accepted true hrwLegal r p s → t = slotTaken r p s → inTree t = true → s.hrw.root = false →
      exec (.hrwBroadcast r) s = .next (settle (sendUp 5 (.request ⟨s.hrw.ident, .broadcast (broadcastData r).1⟩)
        { t with hrw := { t.hrw with broadcasts := t.hrw.broadcasts ++ [r] } }))) ∧
  (∀ (r : Req) (p : Nat) (s t u : State) (a : TreeAction), Accepted true hrwLegal r p s → t = slotTaken r p s → inTree t = true →
      s.hrw.root = true → s.hrw.pending.length < 4 → u = (nextTreeSeq t).2 → a = scheduledAction r 1 s.hrw.nextSeq u →
      exec (.hrwScheduleSnapshot r) s = .next (settle (reply p r 0x0B11 .ok (scheduleClamped r) (scheduleReply a) (scheduleDown snapshotCopy a u)))) ∧
  (∀ (r : Req) (p : Nat) (s t u : State) (a : TreeAction), Accepted true hrwLegal r p s → t = slotTaken r p s → inTree t = true →
      s.hrw.root = true → s.hrw.pending.length < 4 → u = (nextTreeSeq t).2 → a = scheduledAction r 2 s.hrw.nextSeq u →
      exec (.hrwScheduleReset r) s = .next (settle (reply p r 0x0B11 .ok (scheduleClamped r) (scheduleReply a) (scheduleDown snapshotCopy a u)))) ∧
  (∀ (r : Req) (p : Nat) (s t : State), Accepted true hrwLegal r p s → t = slotTaken r p s → inTree t = true → s.hrw.root = true →
      4 ≤ s.hrw.pending.length →
      exec (.hrwScheduleSnapshot r) s = .next (settle (reply p r 0x0B11 .busy false (le 4 (treeHint t)) t)) ∧
      exec (.hrwScheduleReset r) s = .next (settle (reply p r 0x0B11 .busy false (le 4 (treeHint t)) t))) ∧
  (∀ (r : Req) (p : Nat) (s t : State) (a : TreeAction), Accepted true hrwLegal r p s → t = slotTaken r p s → inTree t = true →
      s.hrw.root = false → a = scheduledAction r 1 0 t →
      exec (.hrwScheduleSnapshot r) s = .next (settle (sendUp 2 (.request ⟨s.hrw.ident, .action 1 a.seconds a.nanoseconds⟩)
        { t with hrw := { t.hrw with schedules := t.hrw.schedules ++ [r] } })) ∧
      exec (.hrwScheduleReset r) s = .next (settle (reply p r 0x0B11 .notOwner false [] t))) ∧
  (∀ (r : Req) (p : Nat) (s t : State) (k : Nat), Accepted true hrwLegal r p s → t = slotTaken r p s → inTree t = true →
      k = clamp 0 15 (u8 (payloadOf r) 0) →
      exec (.hrwBarrier r) s = .next (settle (if (barrier t k).own.isSome then busy p r 0x0B12 t
        else judgeBarrier k (setBarrier t k (fun x =>
          { x with own := some r,
                   started := some (x.started.getD s.mtb.t),
                   timeoutMs := if x.started.isSome then x.timeoutMs
                     else if u16 (payloadOf r) 2 = 0 then s.hrw.barTimeoutMs else clamp 1 10000 (u16 (payloadOf r) 2) }))))) ∧
  (∀ (r : Req) (p : Nat) (s t : State), Accepted true hrwLegal r p s → t = slotTaken r p s → inTree t = false →
      exec (.hrwBroadcast r) s = .next (settle (reply p r 0x0B10 .notReady false [] t)) ∧
      exec (.hrwScheduleSnapshot r) s = .next (settle (reply p r 0x0B11 .notReady false [] t)) ∧
      exec (.hrwScheduleReset r) s = .next (settle (reply p r 0x0B11 .notReady false [] t)) ∧
      exec (.hrwBarrier r) s = .next (settle (reply p r 0x0B12 .notReady false [] t)))

/-- The encode events complete (R60, R61, R65 to R67, R92, R97, R106, R111, R115). -/
def Obligations.EncodeEventsComplete : Prop :=
  (∀ (e : Nat) (a : Strip) (s u : State), routeCut s e a = false →
      u = { setEngine s e (fun x => { x with awaiting := x.awaiting.filter (fun b => !sameTrain b a) }) with
        enc := { (setEngine s e (fun x => { x with awaiting := x.awaiting.filter (fun b => !sameTrain b a) })).enc with
          pool := { (setEngine s e (fun x => { x with awaiting := x.awaiting.filter (fun b => !sameTrain b a) })).enc.pool with
            trains := s.enc.pool.trains.filter (fun x => !(x.dest == e && sameTrain x.strip a)) } } } →
      (tget s.enc.ctxs a.context = none → exec (.pleachStripArrival e a) s = .next u) ∧
      (∀ c, tget s.enc.ctxs a.context = some c → exec (.pleachStripArrival e a) s =
        .next ((List.range c.engines.length).foldl (fun s t =>
          if pathEngine s (c.engines.getD t 18) = e then useStrip a.context a.row t a.tile a.kind c s else s) u)) ∧
      (engine u e).awaiting = (engine s e).awaiting.filter (fun b => !sameTrain b a) ∧ (∀ k, k ≠ e → engine u k = engine s k)) ∧
  (∀ (x row t u : Nat) (c : Ctx) (s : State), useStrip x row t u .stripB c s =
      filterEdge x row t u (if c.codec = 0 then [.sao, .alf, .ccAlf] else [.sao]) s) ∧
  (∀ (e : Nat) (a : Strip) (s : State), routeCut s e a = true → exec (.pleachStripArrival e a) s = .next s) ∧
  (∀ (v : SliceResult) (s : State) (c c' : Ctx) (p p' : Pic) (h : Chan), tget s.enc.ctxs v.context = some c →
      picOf s v.context v.frame = some p → tget s.enc.chans c.channel = some h → c.stopped = false → ticking s = true →
      thas p.caps (sliceKey v.row v.tile) = true → thas p.emitted (sliceKey v.row v.tile) = false →
      p.floorTiles.contains v.tile = false → p.floorDue.contains (sliceKey v.row v.tile) = false → v.tile < 4 →
      inTurn s (c.engines.getD v.tile 18) v = true →
      verdictOf v (lowDelay h) c p = (c', p', false) →
      exec (.sliceVerdict v) s =
        .next (settle (settleRow v.context v.frame v.row (sendVerdict v.context v.row v.tile
          (tgetD p'.emitted (sliceKey v.row v.tile) 0) false c (setEngine (modPic s v.context v.frame (fun _ _ => (c', p'))) (c.engines.getD v.tile 18) (fun y => { y with inCtu := none })))))) ∧
  (∀ (v : SliceResult) (s : State) (c c' : Ctx) (p p' : Pic) (h : Chan), tget s.enc.ctxs v.context = some c →
      picOf s v.context v.frame = some p → tget s.enc.chans c.channel = some h → c.stopped = false → ticking s = true →
      thas p.caps (sliceKey v.row v.tile) = true → thas p.emitted (sliceKey v.row v.tile) = false →
      p.floorTiles.contains v.tile = false → p.floorDue.contains (sliceKey v.row v.tile) = false → v.tile < 4 →
      inTurn s (c.engines.getD v.tile 18) v = true →
      verdictOf v (lowDelay h) c p = (c', p', true) →
      exec (.sliceVerdict v) s = .next (settle (settleRow v.context v.frame v.row (sendVerdict v.context v.row v.tile
        (tgetD p'.emitted (sliceKey v.row v.tile) 0) true c
        (countFloor v.context (sliceKey v.row v.tile) p' (modChan (setEngine (modPic s v.context v.frame (fun _ _ => (c', p')))
            (c.engines.getD v.tile 18) (fun y => { y with inCtu := none })) c.channel
          (fun h => { h with rcTrips := bump32 h.rcTrips }))))))) ∧
  (∀ (x frame : Nat) (s : State) (c : Ctx) (p : Pic), tget s.enc.ctxs x = some c → picOf s x frame = some p → c.codec = 0 →
      c.stopped = false → p.rowsIn.contains (ctuRows c.raster - (if c.raster = 3 ∧ c.further then 2 else 1)) = true →
      (c.engines.length = 4 → [1, 2, 3].all p.statsIn.contains = true) →
      exec (.alfDerivation x frame) s = .next (modCtx s x (fun c => { c with alf := some (derivedAlf x frame (p.f + 1)) }))) ∧
  (∀ x frame f : Nat, (derivedAlf x frame f).apsId = f % 8) ∧
  (∀ (c seg : Nat) (s : State), c < 64 → seg < 18 → ∃ m, exec (.ringSegmentReroute c seg) s = .next { s with
      mtb := m, enc := { s.enc with pool := { s.enc.pool with
        ringFenced := sadd s.enc.pool.ringFenced seg,
        ringAvoided := tupd s.enc.pool.ringAvoided c [] (fun l => sadd l seg) } } } ∧
      (chanRunning s c = false ∨ ticking s = false → m = s.mtb)) ∧
  (∀ (e c frame : Nat) (s : State), (ticking s = false ∨ chanRunning s c = false →
      exec (.spareTakeover e c frame) s = .next (takeOver e c frame s)) ∧
    (ticking s = true → chanRunning s c = true →
      exec (.spareTakeover e c frame) s = .next (takeOver e c frame (noEarlier (frameTickAt (chan s c).rate frame) s)))) ∧
  (∀ (x frame g : Nat) (s : State) (c : Ctx), tget s.enc.ctxs x = some c → decides s = true → ticking s = true → c.rcMode = 1 →
      c.stopped = false → c.seqFrame.isSome = true → pocAt c frame % 32 = 0 → correctionOf (pocAt c frame) c = some g →
      s.mtb.t < guardAt (chan s c.channel).raster (chan s c.channel).rate (frame + 8) →
      exec (.gRecompute x frame) s = .next (commitBoth c.channel (frame + 8) false (.correction x g) none s)) ∧
  (∀ (x frame row : Nat) (s : State) (c : Ctx) (h : Chan), tget s.enc.ctxs x = some c → tget s.enc.chans c.channel = some h →
      c.stopped = false → (∀ p, picOf s x frame = some p → p.rowsDone.contains row = true) → chanRunning s c.channel = true →
      alive s.mode.mode = true → s.mtb.t ≤ emissionTime h c frame row →
      exec (.sliceEmission x frame row) s = .next (modCtx (reach (emissionTime h c frame row) s) x
        (fun c => { c with released := c.released + tileCols c.raster })))

/-- Decode and overlay events complete (R150, R151, R155, R156, R170, R265). -/
def Obligations.DecodeAndOverlayEventsComplete : Prop :=
  (∀ (d : Nat) (nal : NalIn) (s : State) (c : DecCtx), tget s.dec.ctxs d = some c → c.st = 1 → c.use = 1 → ticking s = true →
      exec (.decodeNalReceive d nal) s = .next (settle (if (takeNal nal c).2 then raise 0x03A d (modDec s d (fun _ => (takeNal nal c).1))
        else modDec s d (fun _ => (takeNal nal c).1)))) ∧
  (∀ (d : Nat) (s : State) (c : DecCtx) (p : DecPic), tget s.dec.ctxs d = some c → c.cur = some p → c.st = 1 → ticking s = true →
      exec (.decodeCloseTimeout d) s =
        .next (modDec (noEarlier (presentationTime s.mtb.t p.pts + c.delay * streamPeriod c) s) d closePicture)) ∧
  (∀ (d : Nat) (pic : DecodedPicture) (s : State) (c : DecCtx), tget s.dec.ctxs d = some c → c.st = 1 → ticking s = true →
      c.closed ≠ [] →
      exec (.decodePictureDone d pic) s =
        .next ((((finishPicture pic c).outs.filter (fun o => !c.outs.contains o)).reverse).foldl
          (fun s o => tapLines 5 d (pictureBytes o.picture) s) (modDec s d (fun _ => finishPicture pic c)))) ∧
  (∀ (c l : Nat) (s : State) (d : Displaced), (tget (Machine.cmp s c).g l).bind (fun g => g.displaced) = some d → ticking s = true →
      d.item = none →
      exec (.graphicsSlotRelease c l) s = .next (setCmp
        (noEarlier (rowTickAt (chan s c).raster (chan s c).rate d.lastFrame (ctuRows (chan s c).raster + 1)) s) c
        (fun x => { x with g := tmod x.g l (fun g => { g with displaced := none }) }))) ∧
  (∀ (c l k : Nat) (s t : State) (d : Displaced) (h : HostItem), (tget (Machine.cmp s c).g l).bind (fun g => g.displaced) = some d →
      ticking s = true → d.item = some k →
      t = setCmp (noEarlier (rowTickAt (chan s c).raster (chan s c).rate d.lastFrame (ctuRows (chan s c).raster + 1)) s) c
        (fun x => { x with g := tmod x.g l (fun g => { g with displaced := none }) }) →
      (itemOf t k).bind (fun i => i.host) = some h →
      exec (.graphicsSlotRelease c l) s = .next (settle (finishItem k h.target t))) ∧
  (∀ (c l : Nat) (s : State) (d : SlotCopy) (rest : List SlotCopy), (tget (Machine.cmp s c).g l).map (fun g => g.copying) = some (d :: rest) →
      exec (.graphicsSlotCopyDone c l) s = .next (settle (decideCopied c d (chan s c) { s with
        cmps := tmod s.cmps c (fun x => { x with g := tmod x.g l (fun g => { g with copying := rest }) }),
        run := { s.run with copies := s.run.copies + 1 } })))

/-- Ingest and audio events complete (R184 to R186, R200, R202, R204, R207, R212). -/
def Obligations.IngestAndAudioEventsComplete : Prop :=
  (∀ (l : SdiLine) (s : State), ticking s = true → s.ing.sdiFenced.contains l.input = false →
      exec (.sdiLineReceive l) s = .next (onMembers 0 l.input (fun ch g m => sdiMember ch g l s.mtb.t m)
        (tapSymbols 3 l.input l.lumaWords (if l.line + 1 = linkLines (linkSeen l s) l.input then [2, 3] else [2]) (linkSeen l s)))) ∧
  (∀ (p : MediaPacket) (s t : State) (taken : Bool), (t, taken) = receivePacket p s →
      ((taken = false ∨ ∀ hz depth us samples, p.form ≠ .audio hz depth us samples) →
        exec (.st2110PacketReceive p) s = .next (settle t)) ∧
      (∀ (hz depth us : Nat) (samples : List (List Nat)), taken = true → p.form = .audio hz depth us samples →
        exec (.st2110PacketReceive p) s = .next (settle (detectFlow p hz depth samples t)))) ∧
  (∀ (i n : Nat) (f : AesFrame) (sign : Bool) (s t u : State), aesRuns s i = true →
      n = (if f.blockStart then 1 else if (aesIn s i).blockFrame = 0 then 0 else (aesIn s i).blockFrame + 1) →
      t = onMembers 2 i (fun _ _ m => { m with heard := true }) (tapSymbols 6 i (aesSymbols f) (if n = 192 then [4] else []) s) →
      sign = frameSign i f t → u = detectFrame i f (heardTick i s) t →
      exec (.aes3FrameReceive i f) s = .next (modIn u i (fun x => converterIn s.mtb.t f (adapterIn f { x with
        blockFrame := if n = 192 then 0 else n, nonAudio := f.nonAudio, burstNow := x.burstNow || sign
        skip := x.skip || (x.st == 3 && midBlock s.mtb.t) })))) ∧
  (∀ (i count : Nat) (s : State), aesRuns s i = true → (aesIn s i).transp = true →
      exec (.trackerBlock i count) s = .next (modIn s i (transparentBlock count))) ∧
  (∀ (i count f : Nat) (r : AudIn × Bool) (s t u v : State), aesRuns s i = true → (aesIn s i).transp = false → (f, t) = drawFree s →
      r = trackBlock t.mtb.t count f (aesIn t i) →
      u = (if actingMode t = .active then sendVa 2 (.va (.ratio i r.1.ratio)) t else t) →
      v = modIn u i (fun x => if borrowsRatio u then { r.1 with ratio := x.ratio } else { r.1 with partnerRatio := none }) →
      exec (.trackerBlock i count) s = .next (settle (if r.2 then raise 0x054 i v else v))) ∧
  (∀ (i : Nat) (s : State), aesRuns s i = true → (aesIn s i).st ≠ 3 →
      exec (.aes3Stop i) s = .next (settle (raise 0x054 i (modIn s i (fun x => { x with st := 3, stops := satAdd 8 x.stops 1, coarse := true, within := 0, deviated := false, skip := true, gain := if x.transp then x.gain else { x.gain with up := false } }))))) ∧
  (∀ (path pair : Nat) (s t : State) (m : Mute), m = tgetD s.aud.mutes (64 * path + pair) {} → m.active = true →
      (32 ≤ path ∨ (aesIn s path).nonAudio = false) → m.lastSign + 4096 ≤ s.aud.tick →
      t = { s with aud := { s.aud with mutes := tset s.aud.mutes (64 * path + pair) { m with active := false, gain := { m.gain with up := true } } } } →
      exec (.payloadMuteRelease path pair) s =
        .next { t with aud := { t.aud with outs := tmap t.aud.outs (fun _ o => { o with muted337 := outputMuted t o }) } }) ∧
  (∀ (port : Nat) (paired : Bool) (s : State), ticking s = true → port < 32 → (aesIn s port).taken = true → (aesIn s port).fenced = false →
      exec (.aes3BlockStartCheck port paired) s = .next (if (aesIn s port).realign then modIn s port realignIn
        else if paired then modIn s port (fun i => { i with swapped := false })
        else settle (raise 0x053 port (modIn s port (fun i =>
          { i with swapped := true, swaps := satAdd 8 i.swaps 1, restartDue := i.restartDue || i.autoRestart }))))) ∧
  (∀ (port : Nat) (paired : Bool) (s : State) (x : AudOut), ticking s = true → 32 ≤ port → tget s.aud.outs (port - 32) = some x → x.st ≠ 3 →
      exec (.aes3BlockStartCheck port paired) s = .next (if x.realign then modOut s (port - 32) realignOut
        else if paired then modOut s (port - 32) (fun o => { o with swapped := false })
        else settle (raise 0x053 port (modOut s (port - 32) (fun o =>
          { o with swapped := true, swaps := satAdd 8 o.swaps 1, restartDue := o.restartDue || o.autoRestart }))))) ∧
  (∀ (port frame : Nat) (s : State) (holds : Commit → Bool), holds = (fun k => k.frame == frame && k.change == .portRestart port) →
      ((if port < 32 then (aesIn s port).restartDue else (tgetD s.aud.outs (port - 32) {}).restartDue) = true ∨
        tkeysOf s.enc.chans (fun _ h => h.shadow.any holds) ≠ []) →
      exec (.audioPortRestartApply port frame) s = .next (restartPort port ((tkeysOf s.enc.chans (fun _ h => h.shadow.any holds)).foldl
        (fun s c => modChan s c (fun h => { h with shadow := h.shadow.filter (fun k => !holds k) })) s)))

/-- The egress events complete (R224, R226, R230, R231, R233, R234, R236, R240, R242, R243). -/
def Obligations.EgressEventsComplete : Prop :=
  (∀ (p : Nat) (s : State), portSends s p = true →
      exec (.packetTransmit p) s = .next (settle (sendProduced (takeTurn p (refreshPort p s))))) ∧
  (∀ (p : Nat) (s : State) (e : Nat × Nat × Leg × PairPacket), ticking s = true → forwardNext s p = some e →
      takeTurn p s = turnForwarded p e.1 e.2.1 e.2.2.1 e.2.2.2 s) ∧
  (∀ (p : Nat) (s : State) (e : Nat × Leg × QPkt), ticking s = true → forwardNext s p = none → sliceNext s p = some e →
      takeTurn p s = turnPacket p 7 e.1 e.2.1 e.2.2 s) ∧
  (∀ (p : Nat) (s : State), ticking s = false ∨ (forwardNext s p = none ∧ sliceNext s p = none) →
      (∀ c f, classToSend s p = some (c, .own f) → takeTurn p s = turnOwn p f s) ∧
      (∀ c k l q, classToSend s p = some (c, .leg k l q) → takeTurn p s = turnPacket p c k l q s) ∧
      (classToSend s p = none → takeTurn p s = s)) ∧
  (∀ (p : Nat) (s : State) (g : GateList) (t : Nat), (egrPort s p).gates = some g → t = (egrPort s p).gateUntil →
      egressRuns s.mode.mode = true →
      exec (.gateEntryChange p) s = .next (setEgrPort ((atTime (t * nsUnit) s).getD s) p (fun x =>
        if t = x.cycleAt + g.cycle then atEntry g t 0 t x else atEntry g x.cycleAt (x.gateIdx + 1) t x))) ∧
  (∀ (p : Nat) (s : State) (g : GateList), (egrPort s p).nextGates = some g → egressRuns s.mode.mode = true →
      exec (.gateListStart p) s = .next (setEgrPort ((atTime (g.start * nsUnit) s).getD s) p (fun x =>
        atEntry g g.start 0 g.start { x with gates := some g, nextGates := none }))) ∧
  (∀ (k tick : Nat) (s : State) (l : Leg) (c : RateChange), tget s.egr.legs k = some l → l.change = some c →
      exec (.shaperRateApply k tick) s = .next (modLeg (noEarlier (sampleTickAt tick) s) k (applyRate tick (noEarlier (sampleTickAt tick) s).mtb.mgt))) ∧
  (∀ (k frame : Nat) (s : State) (l : Leg), tget s.egr.legs k = some l → chanRunning s l.channel = true → ticking s = true →
      exec (.psiInsertion k frame) s = .next (sendProduced (modLeg s k (insertPsi s k (frameTickAt (chan s l.channel).rate frame))))) ∧
  (∀ (k : Nat) (s : State) (l : Leg), tget s.egr.legs k = some l → l.st = 1 → pcrDue s.mtb.t l = true → ticking s = true →
      exec (.pcrInsertion k true) s = .next s ∧
      exec (.pcrInsertion k false) s = .next (sendProduced ((legsWith l k).foldl (fun s j => modLeg s j (insertPcr s j)) s))) ∧
  (∀ (k : Nat) (s : State) (l : Leg), tget s.egr.legs k = some l → l.rtcp = true → l.st = 1 → ticking s = true → sliceLeg l = true →
      exec (.rtcpReceive k .other) s = .next (ignoreRtcp k s) ∧
      (∀ ssrc, exec (.rtcpReceive k (.pli ssrc)) s = .next (lossReport k ssrc 1 l s)) ∧
      (∀ ssrc, exec (.rtcpReceive k (.nack ssrc)) s = .next (lossReport k ssrc 2 l s)) ∧
      (∀ ssrc bits, ssrc ≠ l.ssrc → exec (.rtcpReceive k (.rpsi ssrc bits)) s = .next (ignoreRtcp k s)) ∧
      (∀ bits poc c, rpsiPoc bits = some poc → tget s.enc.ctxs l.source = some c → bitOf c.feedback 0 = true → c.stopped = false →
        exec (.rtcpReceive k (.rpsi l.ssrc bits)) s = .next (changeOf l.channel 0 (.acknowledge l.source poc) s))) ∧
  (∀ (k : Nat) (m : Rtcp) (s : State) (l : Leg), tget s.egr.legs k = some l → l.rtcp = true → l.st = 1 → ticking s = true →
      sliceLeg l = false → exec (.rtcpReceive k m) s = .next (ignoreRtcp k s)) ∧
  (∀ (k mac : Nat) (s : State), exec (.addressResolved k mac) s =
      .next (modLeg s k (fun l => if l.resolved then l else { l with resolved := true, mac := mac % 2 ^ 48 }))) ∧
  (∀ (s : State), (runningChans s).isEmpty = true → egressRuns s.mode.mode = true →
      exec .queueSampleTimer s = .next (sampleGroups (noEarlier (s.egr.sampledAt + 10 * msUnit) s)))

/-- The pair's link events complete (R252 to R256, R258, R260, R261, R263, R271). -/
def Obligations.PairLinkEventsComplete : Prop :=
  (∀ (digest : Bytes) (ident wants : Nat) (s : State), pairMode s.mode.mode = true → pairInForce s = true → s.red.vaUp = true →
      (s.mode.mode = .configure → s.red.digestDone = false) →
      exec (.pairDigestReceive digest ident wants) s = .next (settle (compareDigest { s with
        red := { s.red with peerId := ident % 65536 },
        run := { s.run with digest := some ⟨fit 64 digest, ident % 65536, wants % 65536⟩ } }))) ∧
  (∀ (s : State), beaconsPass s = true →
      exec .claimBeaconSend s = .next (sendVa 1 (.beacon (beaconNow s)) { s with run := { s.run with
        beaconCount := (s.run.beaconCount + 1) % 65536, beacon := some (beaconNow s) } }) ∧
      (beaconNow s).claim = s.red.claim ∧ (beaconNow s).count = (s.run.beaconCount + 1) % 65536) ∧
  (∀ (claim epoch mode count : Nat) (degraded : Bool) (s : State), beaconsPass s = true →
      exec (.claimBeaconReceive claim epoch mode degraded count) s = .next (settle (onPartner (settleMerge { s with
        red := { s.red with partnerClaim := claim % 2 ^ 32, epoch := max s.red.epoch (epoch % 2 ^ 22), partnerMode := mode % 16,
                            partnerDegraded := degraded, peerId := if claim % 2 ^ 32 = 0 then s.red.peerId else claim % 1024 },
        run := { s.run with partnerCount := count % 65536 } })))) ∧
  (∀ (s : State), s.red.vaUp = true →
      exec .vaDown s = .next (settle (pairVaDown (noEarlier (vaHeardAt s + 10 * usUnit) s)))) ∧
  (∀ (s t : State), s.red.paired = true → s.red.vaUp = false → s.red.vaSilent = false → pairMode s.mode.mode = true →
      t = noEarlier (s.red.vaDownAt + 20 * msUnit) s →
      exec .vaSilent s = .next (settle (actOnSilence { t with red := { t.red with vaSilent := true } }))) ∧
  (∀ (level : Bool) (s t : State), pairInForce s = true → hearsPair s.mode.mode = true →
      t = { s with red := { s.red with hbAt := s.mtb.t, hbEdgeAt := some s.mtb.t, hbSilent := false } } →
      watchesSplit t = true → s.mtb.valid = true →
      exec (.pairHbInEdge level) s = .next (settle
        (if (if level != expectedLevel t then min 3 (s.red.splitEdges + 1) else 0) = 3 then
          setSplit { t with red := { t.red with splitEdges := if level != expectedLevel t then min 3 (s.red.splitEdges + 1) else 0 } }
        else { t with red := { t.red with splitEdges := if level != expectedLevel t then min 3 (s.red.splitEdges + 1) else 0 } }))) ∧
  (∀ (level : Bool) (s t : State), pairInForce s = true → hearsPair s.mode.mode = true →
      t = { s with red := { s.red with hbAt := s.mtb.t, hbEdgeAt := some s.mtb.t, hbSilent := false } } →
      (watchesSplit t && s.mtb.valid) = false →
      exec (.pairHbInEdge level) s = .next { t with red := { t.red with splitEdges := 0 } }) ∧
  (∀ (s t : State), s.red.paired = true → s.red.hbSilent = false → pairMode s.mode.mode = true →
      t = noEarlier (heartbeatHeard s + 20 * msUnit) s →
      exec .heartbeatSilent s = .next (settle (actOnSilence { (if t.red.clash then t else raise 0x05D 0 t) with
        red := { (if t.red.clash then t else raise 0x05D 0 t).red with hbSilent := true, hbEdgeAt := none } }))) ∧
  (∀ (sender claim epoch : Nat) (s t : State), pairInForce s = true → s.red.hbHedgerow = true → hrwRuns s.mode.mode = true →
      (s.red.partnerId = 65535 ∨ sender = s.red.partnerId) →
      t = { s with red := { s.red with hrwHbAt := some s.mtb.t, hbSilent := false }, hrw := { s.hrw with hbRx := bump32 s.hrw.hbRx } } →
      exec (.hrwHeartbeatReceive ⟨s.hrw.ident, sender⟩ claim epoch) s = .next (settle (if watchesSplit t && claim != 0 then setSplit t else t))) ∧
  (∀ (target sender claim epoch : Nat) (s : State), target ≠ s.hrw.ident → inTree s = true → hrwRuns s.mode.mode = true →
      exec (.hrwHeartbeatReceive ⟨target, sender⟩ claim epoch) s = .next (sendAddressed target sender claim epoch s)) ∧
  (∀ (s : State) (t : Nat), s.run.claimLost = some t → s.red.claim = 0 →
      exec .claimReleaseFlowsStop s = .next (stopLocalFlows (noEarlier (t + 20 * msUnit) s)))

/-- The pair's copy events complete (R249 to R251, R256, R264 to R269). -/
def Obligations.PairCopyEventsComplete : Prop :=
  (∀ (f : Fingerprint) (s : State) (r : Row) (rest : List Row), comparing s = true → takeRow f.stream s.run.locals = (some r, rest) →
      exec (.fingerprintReceive f) s = .next (settle (judgePrint r.print f { s with run := { s.run with locals := rest } }))) ∧
  (∀ (f : Fingerprint) (s : State) (rest : List Row), comparing s = true → takeRow f.stream s.run.locals = (none, rest) →
      exec (.fingerprintReceive f) s = .next { s with run := { s.run with partners := keepRows (s.run.partners ++ [⟨f, s.mtb.t⟩]) } }) ∧
  (∀ (x : FpStream) (s t : State) (r : Row) (rest : List Row), comparing s = true → takeRow x s.run.locals = (some r, rest) →
      t = noEarlier (r.time + missingAfter s x) s →
      exec (.fingerprintMissing x) s = .next (setHealth { t with
        red := { t.red with missing := bump32 t.red.missing },
        run := { t.run with locals := rest, missed := true, worse := breakRun t x } } (fun h => { h with missing := bump32 h.missing }))) ∧
  (∀ (s : State) (n : Nat), boundaryNow s = some n → s.run.judgedAhead = some n →
      exec .pairFrameEnd s = .next { s with run := { s.run with judgedAhead := none } }) ∧
  (∀ (s : State), s.run.judgedAhead = none ∨ boundaryNow s ≠ s.run.judgedAhead → judgesFrames s = true →
      exec .pairFrameEnd s = .next (settle (endPairFrame (atPairEnd s)))) ∧
  (∀ (s t : State), t = judgeFrame s → endPairFrame s = (match t.mode.mode with
        | .standby => if t.run.badRun = 2 then enterMode .resync t else t
        | .resync => if (s.run.counting && s.run.outBad && !s.run.inBad) = true then startResync t
            else if t.run.copying = false ∧ t.red.matchRun = 16 then enterMode .standby t else t
        | _ => t)) ∧
  (∀ (c frame bytes : Nat) (s t : State) (b : BulkState), resyncSource s = true → chanRunning s c = true → (b, t) = bulkOf c s →
      exec (.resyncBulkDone c frame bytes) s = .next (sendVa 5 (.join c (joinNow t c)) (sendVa 5 (.va (.bulk b)) { t with
        run := { t.run with srcJoins := tset t.run.srcJoins c (joinNow t c), srcSmall := t.run.srcSmall.filter (fun k => k != c) } }))) ∧
  (∀ (c bytes : Nat) (x : SmallState) (s : State), resyncSource s = true → chanRunning s c = true →
      exec (.resyncSmallState c bytes x) s = .next (sendVa 5 (.small c (smallStateOf s c)) { s with
        run := { s.run with srcSmall := sadd s.run.srcSmall c } })) ∧
  (∀ (c frame bytes : Nat) (s : State), s.mode.mode = .resync → s.run.copying = true → s.red.vaUp = true → chanRunning s c = true →
      joinFits s c frame = true →
      exec (.resyncBulkDone c frame bytes) s =
        .next { s with run := { s.run with joins := tset s.run.joins c frame, bytes := s.run.bytes + bytes } }) ∧
  (∀ (c bytes : Nat) (x : SmallState) (s t : State), s.mode.mode = .resync → s.run.copying = true → s.red.vaUp = true →
      thas s.run.joins c = true → s.run.joined.contains c = false →
      t = { joinChannel c x s with run := { (joinChannel c x s).run with
        joined := (joinChannel c x s).run.joined ++ [c], bytes := (joinChannel c x s).run.bytes + bytes } } →
      exec (.resyncSmallState c bytes x) s = .next (if (runningChans t).all (fun k => t.run.joined.contains k) then
        { t with red := { t.red with copyBytes := t.run.bytes % 2 ^ 64, copyUs := min ((t.mtb.t - t.run.m6At) / usUnit) (2 ^ 32 - 1) },
                 run := { t.run with copying := false } } else t)) ∧
  (∀ (frame c : Nat) (s t : State), refChannel s = some c → pairInForce s = true → s.mode.mode = .active → s.run.swapFrame = none →
      t = noEarlier (frameTickAt (chan s c).rate frame) s →
      exec (.roleSwapDue frame) s = .next (if t.mtb.t < swapDueAt t then t
        else if swapAllowed t then sendVa 3 (.va (.swap (frame + 2))) { t with run := { t.run with swapFrame := some (frame + 2) } }
        else skipSwap t)) ∧
  (∀ (frame c : Nat) (s t : State), refChannel s = some c → pairInForce s = true → (s.mode.mode = .active ∨ s.mode.mode = .standby) →
      (s.run.swapFrame = some frame ∨ s.run.swapFrame = none ∧ s.mode.mode = .standby) → s.run.swapped ≠ some frame →
      t = noEarlier (frameTickAt (chan s c).rate frame) s → exec (.roleSwap frame) s = .next (settle (swapInTurn frame t))) ∧
  (∀ (frame : Nat) (s t : State), t = judgeAhead s → swapInTurn frame s = (if t.mode.mode = .active ∨ t.mode.mode = .standby
      then swapAt frame t else { t with run := { t.run with swapFrame := none } })) ∧
  (∀ (frame : Nat) (s t : State), t = { s with run := { s.run with swapFrame := none, swapped := some frame } } →
      swapAt frame s = (if s.red.matchRun < 16 then (if s.mode.mode = .active then skipSwap t else t)
        else if s.mode.mode = .active then enterMode .standby (countSwap t)
        else enterMode .active (takeClaim true true (countSwap t)))) ∧
  (∀ (k time unit : Nat) (s : State) (l : Leg) (w : MergeSrc), tget s.egr.legs k = some l → l.want = some w →
      exec (.mergeSwitch k time unit) s = .next
        (if pairInForce s && ticking s && switchesAt s l time unit then
          modLeg s k (fun l => { l with src := w, want := none, wantPoint := none, nextPointAt := none, forwarded := false,
                                        running := l.running && (w == .device || s.red.claim != 0) })
        else modLeg s k (notePoint time unit))) ∧
  (∀ (s : State) (l : Leg) (time unit : Nat), switchesAt s l time unit = true → l.wantAt + 4 * usUnit ≤ time ∧
      ∃ a, arrivedAt s l unit = some a ∧ a + 4 * usUnit ≤ time) ∧
  (∀ (k : Nat) (q : PairPacket) (s t : State) (l : Leg), tget s.egr.legs k = some l → pairInForce s = true → s.red.vaUp = true →
      ticking s = true → l.st = 1 →
      t = modLeg s k (noteArrival s.mtb.t q) →
      l.src ≠ .partner → exec (.partnerPacketReceive k q) s = .next t) ∧
  (∀ (k : Nat) (q : PairPacket) (s t u : State) (l : Leg), tget s.egr.legs k = some l → pairInForce s = true → s.red.vaUp = true →
      ticking s = true → l.st = 1 →
      t = modLeg s k (noteArrival s.mtb.t q) →
      l.src = .partner →
      u = setHealth (passAtOnce k q (modLeg t k (readTransport q))) (fun h => { h with
        xChecked := bump32 h.xChecked, xErrors := if transportFails t l q then bump32 h.xErrors else h.xErrors }) →
      exec (.partnerPacketReceive k q) s = .next (if transportFails t l q then
        settle (raise 0x060 0 { u with red := { u.red with xportErrors := bump32 u.red.xportErrors } }) else u)) ∧
  (∀ (c target k rate depth p cycle base start : Nat) (entries : List (Nat × Nat)) (s : State), pairInForce s = true → s.red.vaUp = true →
      exec (.forwardedChangeReceive c target (.rate k rate depth)) s = .next (takeRate k rate depth s) ∧
      exec (.forwardedChangeReceive c target (.gates p cycle base start entries)) s = .next (takeGates p cycle base start entries s)) ∧
  (∀ (c target : Nat) (change : ShadowChange) (s : State) (h : Chan), tget s.enc.chans c = some h → pairInForce s = true →
      s.red.vaUp = true → ticking s = true → h.st = 1 → decides s = true →
      (∀ k rate depth, change ≠ .rate k rate depth) → (∀ p cycle base start l, change ≠ .gates p cycle base start l) →
      exec (.forwardedChangeReceive c target change) s = .next (settle (decideForwarded c target h change s))) ∧
  (∀ (c target : Nat) (change : ShadowChange) (s t : State) (h : Chan) (at_ : Nat × Bool) (f : Option Fwd) (rest : List Fwd),
      tget s.enc.chans c = some h → pairInForce s = true → s.red.vaUp = true → ticking s = true → h.st = 1 → decides s = false →
      (∀ k rate depth, change ≠ .rate k rate depth) → (∀ p cycle base start l, change ≠ .gates p cycle base start l) →
      at_ = resolveTarget (openFrame s h) (target % 2 ^ 32) → (f, rest) = takeForward c change s.run.forwards →
      t = { s with run := { s.run with forwards := rest } } →
      exec (.forwardedChangeReceive c target change) s =
        .next (settle (answerForward f at_.1 (commitAt c at_.1 at_.2 change (f.bind (fun f => f.item)) t))))

/-- The dispatcher events complete (R277 to R284, R286, R287). -/
def Obligations.DispatcherEventsComplete : Prop :=
  (∀ (w : WorkItem) (s : State), queueMay s (w.queue % 64) = true → heldPosts s w.producer = [] → blocker s w = none →
      exec (.workItemPost w) s = .next (settle (enterItem w s))) ∧
  (∀ (w : WorkItem) (q : Nat) (s : State), queueMay s (w.queue % 64) = true → heldPosts s w.producer = [] → blocker s w = some q →
      exec (.workItemPost w) s = .next (settle (holdPost w q true s))) ∧
  (∀ (w v : WorkItem) (q : Nat) (l : List WorkItem) (s : State), queueMay s (w.queue % 64) = true → heldPosts s w.producer = v :: l →
      (w.producer.isSome = true → l.length < 7) → blocker s w = some q →
      exec (.workItemPost w) s = .next (settle (holdPost w q false s))) ∧
  (∀ (w v : WorkItem) (l : List WorkItem) (s : State), queueMay s (w.queue % 64) = true → heldPosts s w.producer = v :: l →
      w.producer.isSome = true → 7 ≤ l.length → exec (.workItemPost w) s = .next s) ∧
  (∀ (w : WorkItem) (q p : Nat) (s : State), w.producer = some p →
      (q = w.queue % 64 ∨ q = 64) → (s.pvd.stalled.contains q = true ∨ aboveHigh s q = true) → (blocker s w).isSome = true) ∧
  (∀ (w : WorkItem) (q p : Nat) (s : State), w.producer = some p →
      holdPost w q true s = raise 0x063 q (setPvd (setPvd s (fun p => { p with stalled := sadd p.stalled q, posts := p.posts ++ [w] }))
        (fun p => { p with wmarkHits := bump32 p.wmarkHits }))) ∧
  (∀ (q : Nat) (s : State), s.pvd.stalled.contains q = true → atLow s q = true → dispatcherMay s = true →
      exec (.producerStallRelease q) s = .next (settle
        (releasePosts s.pvd.posts (setPvd s (fun p => { p with stalled := sdel p.stalled q, posts := [] }))))) ∧
  (∀ (w : WorkItem) (l : List WorkItem) (s : State), heldPosts s w.producer = [] → blocker s w = none →
      releasePosts (w :: l) s = releasePosts l (enterItem w s)) ∧
  (∀ (k v : Nat) (s : State), k < 65536 → 0 < v → v < 65536 → tgetD s.pvd.counters k 0 = 0 → dispatcherMay s = true →
      exec (.counterArm k v) s = .next (setPvd s (fun p => { p with counters := tset p.counters k v }))) ∧
  (∀ (k v : Nat) (s : State), k < 65536 → tgetD s.pvd.counters k 0 ≠ 0 → dispatcherMay s = true →
      exec (.counterArm k v) s = .next (settle (counterFault k s))) ∧
  (∀ (f n : Nat) (s : State) (i : Item), itemAt s f n = some i → i.place = .parked → dispatcherMay s = true →
      exec (.parkedItemWake f n) s = .next (settle (promote (setItem (noEarlier (i.deadline * deadlineUnit - 32000 * usUnit) s) i.order
        (fun i => { i with place := .waiting }))))) ∧
  (∀ (k : Nat) (s : State) (c : Core) (i : Item), tget s.pvd.cores k = some c → c.busy = none → coreMay s k = true → nextItem s k c = some i →
      exec (.coreTakeItem k) s = .next (promote (setCore (setItem s i.order (fun i => { i with place := .running k })) k (fun c =>
        { c with busy := some (i.flow, i.seq), since := s.mtb.t, startedAt := s.mtb.t,
                 took := if (serviceCores s).head? = some k then (c.took + 1) % 16 else 0 })))) ∧
  (∀ (k : Nat) (s : State) (i : Item), runsOn s k = some i → coreMay s k = true →
      exec (.workItemComplete k true) s = .next (settle (retryItem i (freeCore k s))) ∧
      exec (.workItemComplete k false) s = .next (settle (release i.flow (setItem (freeCore k s) i.order (fun i => { i with place := .done }))))) ∧
  (∀ (k : Nat) (s : State) (c : Core), tget s.pvd.cores k = some c → c.busy.isSome = true → coreMay s k = true →
      exec (.itemWatchdog k) s = .next (settle (raise 0x064 k (dropCoreItem k (setPvd
        (noEarlier (c.startedAt + watchdogTime) s) (fun p => { p with wdogTrips := bump32 p.wdogTrips })))))) ∧
  (∀ (k : Nat) (retry : Bool) (s : State), runsOn s k = none → coreMay s k = true →
      exec (.workItemComplete k retry) s = .next (freeCore k s)) ∧
  (∀ (f n : Nat) (s : State) (i : Item), itemAt s f n = some i → i.place = .backoff → dispatcherMay s = true →
      exec (.retryBackoffExpiry f n) s = .next (promote (setItem (noEarlier i.retryAt s) i.order (fun i => { i with place := .waiting })))) ∧
  (∀ (f n : Nat) (s : State) (i : Item), itemAt s f n = some i → 48 ≤ i.queue → i.place ≠ .done → dispatcherMay s = true →
      exec (.workItemDeadline f n) s = .next (settle (emptyItem i (setPvd (noEarlier (i.deadline * deadlineUnit) s)
        (fun p => { p with discards := bump32 p.discards }))))) ∧
  (∀ (s t : State) (n : Nat), alive s.mode.mode = true → (t, n) = atBoundary s.pvd.periodAt s →
      exec .rateQuotaPeriod s = .next (setPvd t (fun p =>
        { p with periodAt := some n, quotas := tmap p.quotas (fun _ q => { q with used := 0 }) })))

/-- The memory events complete (R302 to R308, R310 to R312). -/
def Obligations.MemoryEventsComplete : Prop :=
  (∀ (p : Nat) (l : List HbmWait) (s t : State), alive s.mode.mode = true → pcServes s p = true → (stack s (p / 32)).sr = .awake →
      t = noteLate p l (atRefresh p s) →
      (urgentWaits t l = false → exec (.refreshDue p l) s = .next (refresh p t)) ∧
      (urgentWaits t l = true → (pcOf t p).owed < 3 →
        exec (.refreshDue p l) s = .next (setPc { t with drm := { t.drm with refPostponed := bump32 t.drm.refPostponed } } p
          (fun x => { x with owed := x.owed + 1 }))) ∧
      (urgentWaits t l = true → 3 ≤ (pcOf t p).owed →
        exec (.refreshDue p l) s = .next (settle (raise 0x06A p (refresh p t))))) ∧
  (∀ (p : Nat) (s : State), alive s.mode.mode = true → pcServes s p = true → (stack s (p / 32)).sr = .awake → (pcOf s p).owed ≠ 0 →
      exec (.postponedRefreshIssue p) s = .next (refresh p s)) ∧
  (∀ (k : Nat) (c t : Int) (s : State), alive s.mode.mode = true → k < 4 → t = toSigned 9 (ofSigned 9 c) →
      nextBand (stack s k).band t = (stack s k).band →
      exec (.stackTemperatureRead k c) s =
        .next (setStack (atReading k s) k (fun x => { x with temp := t, rate := nextRate x.rate t, band := (stack s k).band }))) ∧
  (∀ (k : Nat) (c t : Int) (s u : State), alive s.mode.mode = true → k < 4 → t = toSigned 9 (ofSigned 9 c) →
      nextBand (stack s k).band t ≠ (stack s k).band →
      u = setStack (atReading k s) k (fun x => { x with temp := t, rate := nextRate x.rate t, band := nextBand (stack s k).band t }) →
      exec (.stackTemperatureRead k c) s = .next { u with drm := { u.drm with
        pcs := (List.range 32).foldl (fun l i => tupd l (32 * k + i) {} (fun x => { x with rewrite := true })) u.drm.pcs } }) ∧
  (∀ (k : Nat) (s : State), k < 4 → s.mode.mode = .quiescent → (stack s k).sr = .awake →
      exec (.selfRefreshEntry k) s = .next (setStack (noEarlier (stack s k).idleFrom s) k (fun x => { x with sr := .entering }))) ∧
  (∀ (k : Nat) (s : State), k < 4 → s.mode.mode = .safeHold → (stack s k).sr ≠ .asleep →
      exec (.selfRefreshEntry k) s = .next (setStack s k (fun x => { x with sr := .entering, waiting := [] }))) ∧
  (∀ (k : Nat) (s : State), k < 4 → (stack s k).sr = .entering →
      exec (.selfRefreshEntryDone k) s =
        .next (if (stack s k).waiting.isEmpty && !runMode s.mode.mode then setStack s k (fun x => { x with sr := .asleep })
          else beginExit k s)) ∧
  (∀ (a q : Nat) (c : HbmClient) (s : State), a < hbmEnd → mayAccess s c a = true → portOf c = some q → portAwake s.mode.mode q = true →
      exec (.hbmRequestWake a c) s = .next (requestOn q a s)) ∧
  (∀ (a q k : Nat) (s t u : State) (w : HbmRequest), k = stackAt s a → w = { port := q, at_ := s.mtb.t, addr := a } →
      u = setStack s k (fun x => { x with idleFrom := s.mtb.t + s.drm.srIdleUs * usUnit }) →
      t = setStack u k (fun x => { x with waiting := x.waiting ++ [w] }) →
      ((stack s k).sr = .awake → requestOn q a s = leaveOpen w u) ∧
      ((stack s k).sr = .asleep → requestOn q a s = beginExit k t) ∧
      ((stack s k).sr = .exiting → requestOn q a s = t) ∧
      ((stack s k).sr = .entering → requestOn q a s = { t with drm := { t.drm with srWaits := bump32 t.drm.srWaits } })) ∧
  (∀ (a : Nat) (c : HbmClient) (s : State), portOf c = none ∨ hbmEnd ≤ a ∨ mayAccess s c a = false →
      exec (.hbmRequestWake a c) s = .next s) ∧
  (∀ (k : Nat) (s t : State), k < 4 → (stack s k).sr = .exiting → t = loadDelays k (noEarlier (stack s k).awakeAt s) →
      exec (.selfRefreshExitDone k) s = .next (flushWrites
        (setStack (issueAll (stack t k).waiting.length (stack t k).waiting t) k (fun x => { x with sr := .awake, waiting := [] })))) ∧
  (∀ (a : Nat) (c : HbmClient) (s : State), a < hbmEnd → (portOf c).isSome = true → mayAccess s c a = true → alive s.mode.mode = true →
      exec (.poisonedRead a c) s = .next (settle (poisonStage c (raise 0x069 (channelOf s a) { s with drm := { s.drm with
        poison := sadd s.drm.poison (a / 32), ueCount := bump32 s.drm.ueCount } })))) ∧
  (∀ (a : Nat) (c : HbmClient) (s : State), a < hbmEnd → mayAccess s c a = false → exec (.poisonedRead a c) s = .next s) ∧
  (∀ (p : Nat) (s : State), alive s.mode.mode = true → p = patrolPc s → (stack s (p / 32)).sr = .awake →
      exec (.scrubAccess p false) s = .next (patrolOne (atPatrol s)) ∧
      exec (.scrubAccess p true) s = .next (settle (correctOne p (patrolOne (atPatrol s))))) ∧
  (∀ (p : Nat) (s : State), (pcOf (atRefresh p s) p).owed = (pcOf s p).owed ∧ (atRefresh p s).drm.mem = s.drm.mem ∧
      (stack (atReading p s) p).band = (stack s p).band ∧ (atPatrol s).drm.mem = s.drm.mem) ∧
  (∀ (s : State), s.drm.remapActive = true →
      exec .remapCopyDone s = .next { s with drm := { s.drm with remapActive := false, remap := blocksToMove s, remapWritten := [] } }) ∧
  (∀ (failing : List Nat) (s : State), s.mode.mode = .configure → s.mode.admitted = false →
      exec (.memoryCheckDone failing) s = .next (settle (((List.range 128).filter (fun p => failing.contains p)).foldl
        (fun s p => retirePc p false s) s)))

/-- The Ethernet events complete (R318 to R321, R335, R337). -/
def Obligations.EthernetEventsComplete : Prop :=
  (∀ (p : Nat) (f : EthFrame) (s t : State) (x : EthPort), tget s.lnk.eth p = some x → x.st = 3 →
      t = (List.range f.fecUncorrectable).foldl (fun s _ => raise 0x06F p s) (setEth s p (fun x =>
        { x with fecCorr := bumpBy 64 x.fecCorr f.fecCorrected, fecUncorr := bumpBy 32 x.fecUncorr f.fecUncorrectable, rxAt := rxStamp s p x f })) →
      exec (.ethFrameReceive p f) s = .next (settle (if 1522 < f.length then setEth t p (fun x => { x with rxOversize := bump 16 x.rxOversize })
        else if f.fcsOk = false ∨ 0 < f.fecUncorrectable then setEth t p (fun x => { x with rxFcs := bump32 x.rxFcs })
        else takeEthFrame p f t))) ∧
  (∀ (p t : Nat) (s : State) (x : EthPort), tget s.lnk.eth p = some x → x.pausedUntil = some t →
      exec (.pauseExpiry p) s = .next (setEth (noEarlier t s) p (endPause (noEarlier t s).mtb.t))) ∧
  (∀ (p u : Nat) (s : State) (x : EthPort), tget s.lnk.eth p = some x → x.pausedUntil = some u → x.longReported = false →
      x.pausedAt + 100 * usUnit < u →
      exec (.lnkPauseLong p) s = .next (settle (raise 0x06E p (setEth (noEarlier (x.pausedAt + 100 * usUnit) s) p
        (fun x => { x with longReported := true, pauseLong := satAdd 16 x.pauseLong 1 }))))) ∧
  (∀ (p : Nat) (s : State) (x : EthPort), tget s.lnk.eth p = some x → x.st = 2 → mayLink s p = true →
      exec (.ethPortUp p) s = .next (settle (answerRetrain x.retrain .ok ((joinsOf s p).foldl (fun s _ => queueOwn p false s)
        (equalise p x (setEth s p (fun x => { x with st := 3, anDone := x.an, retrain := [], joins := joinsOf s p }))))))) ∧
  (∀ (p : Nat) (x : EthPort) (s : State), x.an = false → equalise p x s =
      setEth s p (fun x => { x with precodeOn := x.precode, eqPre := x.txPre, eqPost := x.txPost })) ∧
  (∀ (x : EthPort) (f : EthFrame), ownAddress x f = true → f.target = x.v4 ∨ f.target = x.v6) ∧
  (∀ (p : Nat) (s : State), exec (.lnkEthDown p) s = .next (settle (bringUp (ethDown p s)))) ∧
  (∀ (k p : Nat) (s : State), (k = 0 → (tgetD s.lnk.eth p {}).retrain ≠ [] → exec (.lnkRetrainTimeout k p) s = .next (settle
      (answerRetrain (tgetD s.lnk.eth p {}).retrain .notReady
        (setEth (noEarlier ((tgetD s.lnk.eth p {}).askedAt + secUnit) s) p (fun x => { x with retrain := [] }))))) ∧
    (k ≠ 0 → (valPort s p).retrain ≠ [] → exec (.lnkRetrainTimeout k p) s = .next (settle
      (answerRetrain (valPort s p).retrain .notReady
        (setVal (noEarlier ((valPort s p).askedAt + secUnit) s) p (fun x => { x with retrain := [] }))))))

/-- The Valsin events complete (R323, R325 to R332). -/
def Obligations.ValsinEventsComplete : Prop :=
  (∀ (v : Nat) (f : LinkFrame) (s : State), valsinMode s.mode.mode = true →
      ((valPort s v).st = 2 ∨ ((valPort s v).st = 1 ∧ (valPort s v).entered = true)) → frameGood f = true →
      exec (.valsinFrameReceive v f) s = .next (settle (takeLinkFrame v f s))) ∧
  (∀ (v : Nat) (f : LinkFrame) (s t : State), valsinMode s.mode.mode = true →
      ((valPort s v).st = 2 ∨ ((valPort s v).st = 1 ∧ (valPort s v).entered = true)) → frameGood f = false →
      t = setVal s v (takeBadFrame s.mtb.t) →
      exec (.valsinFrameReceive v f) s = .next (settle
        (if ((valPort s v).nak == some (f.seq % 65536) && bitOf f.flags 0) && (valPort s v).st == 2 then settleMerge (startTraining v t) else t))) ∧
  (∀ (now : Nat) (x : ValPort), x.txAsleep = false → takeBadFrame now x =
      { x with crcFail := bump32 x.crcFail, failed := x.failed + 1, nak := some (x.nak.getD x.rxSeq),
               nakAt := if x.nak.isSome then x.nakAt else max now (x.wakeAt + 2 * usUnit) }) ∧
  (∀ (now : Nat) (x : ValPort), x.txAsleep = true → takeBadFrame now x =
      wakePort now { x with crcFail := bump32 x.crcFail, failed := x.failed + 1, nak := some (x.nak.getD x.rxSeq),
                            nakAt := if x.nak.isSome then x.nakAt else now + 2 * usUnit }) ∧
  (∀ (v : Nat) (s : State), exec (.valsinAckTimer v) s =
      .next (setVal s v (fun x => if x.st = 2 ∧ x.txAsleep = false then { x with ackOwed := false } else x))) ∧
  (∀ (v : Nat) (s : State), (valPort s v).st = 2 → valsinMode s.mode.mode = true →
      ((valPort s v).nak.isSome = true → exec (.valsinRetryTimeout v) s =
        .next (settle (retrain v (noEarlier ((valPort s v).nakAt + retryBound (valPort s v)) s)))) ∧
      exec (.valsinWakeFail v) s = .next (settle (retrain v (noEarlier ((valPort s v).wakeAt + 2 * usUnit) s))) ∧
      (∀ lane, lane < valsinLanes v → 2 ≤ (valPort s v).step → exec (.commaLoss v lane) s = .next (settle (retrain v s)))) ∧
  (∀ (v : Nat) (s : State), valsinMode s.mode.mode = true → ((valPort s v).st = 3 ∨ ((valPort s v).st = 1 ∧ (valPort s v).stepLow = true)) →
      exec (.valsinRetrainTimer v) s = .next (settle (retrain v (noEarlier ((valPort s v).stepAt + 10 * msUnit) s)))) ∧
  (∀ (v : Nat) (a : TrainingSet) (s t u : State), valsinMode s.mode.mode = true → (valPort s v).st = 1 →
      t = setVal s v (fun x => { x with lastSet := some a }) →
      u = (if v = 1 ∧ a.otherIsVh0 = true ∧ t.hrw.miswired = false then raise 0x078 0 { t with hrw := { t.hrw with miswired := true } } else t) →
      exec (.valsinTrainingReceive v a) s = .next (settle (
        if (valPort s v).entering = true then
          if (valPort s v).step = 0 then
            if setsGood v a (valPort s v) = true then
              settleStep v (setVal u v (fun x => { x with entering := false, wiring := false, peerMax := min 3 a.peerMax, peerId := a.deviceId % 1024, common := min x.maxStep (min 3 a.peerMax) }))
            else u
          else if (a.good && a.acknowledge) = true then settleStep v (setVal u v (fun x => { x with entering := false })) else u
        else if (valPort s v).stepLow = false ∧ (valPort s v).step < (valPort s v).common ∧ a.requested = (valPort s v).step + 1 ∧ a.acknowledge = true then
          setVal u v (fun x => { x with target := some (x.step + 1) })
        else u))) ∧
  (∀ (v k : Nat) (s : State), (valPort s v).target = some k →
      exec (.valsinStepSwitch v) s = .next (setVal s v (fun x =>
        if x.st = 1 then { x with step := k, target := none, entering := true, entered := false, stepAt := s.mtb.t } else x))) ∧
  (∀ (v : Nat) (s t : State), (valPort s v).st = 1 → (valPort s v).entering = true → (valPort s v).step = 0 →
      t = noEarlier ((valPort s v).stepAt + 16 * usUnit) s →
      exec (.valsinStepTimeout v) s = .next (if (valPort s v).fallbackDone then
          setVal t v (fun x => { x with st := 3, entering := false, stepAt := t.mtb.t })
        else settle (fallback v t))) ∧
  (∀ (v : Nat) (s : State), (valPort s v).st = 1 → (valPort s v).entering = true → (valPort s v).step ≠ 0 →
      exec (.valsinStepTimeout v) s = .next (settle (settleStep v (setVal (noEarlier ((valPort s v).stepAt + 16 * usUnit) s) v
        (fun x => { x with step := x.step - 1, common := x.step - 1, entering := false }))))) ∧
  (∀ (v : Nat) (s : State), s.mode.mode = .quiescent → (valPort s v).st = 2 → (valPort s v).txAsleep = false → (valPort s v).queue = [] →
      exec (.valsinSleepEntry v) s = .next (setVal (noEarlier ((valPort s v).txAt + (valPort s v).idleUs * usUnit) s) v
        (fun x => { x with txAsleep := true }))) ∧
  (∀ (v : Nat) (s : State), exec (.valsinWake v) s = .next (setVal s v (fun x => if x.txAsleep then wakePort s.mtb.t x else x)))

/-- The tree events complete (R338, R340, R342 to R345, R347, R352). -/
def Obligations.TreeEventsComplete : Prop :=
  (∀ (port : Nat) (up : Bool) (s : State), (hrwRuns s.mode.mode = true ∨ s.mode.mode = .configure) →
      exec (.hrwDiscovery port up) s = .next (settle (treeLink port up s))) ∧
  (∀ (d : Nat) (tree : Option Nat) (s : State), s.hrw.role = 2 → vhUp s 0 = true → d + 1 < 6 →
      exec (.hrwDepthAnnounce ⟨d, tree⟩) s = .next (settle (announceDown tree { s with hrw := { s.hrw with
        treeDepth := tree.getD s.hrw.treeDepth, depth := d + 1, announced := true, tooDeep := false, noRoot := false } }))) ∧
  (∀ (d : Nat) (tree : Option Nat) (s t : State), s.hrw.role = 2 → vhUp s 0 = true → 6 ≤ d + 1 → d ≠ 7 →
      t = { s with hrw := { s.hrw with treeDepth := tree.getD s.hrw.treeDepth } } →
      exec (.hrwDepthAnnounce ⟨d, tree⟩) s = .next (settle (announceDown tree (declineDepth (if t.hrw.tooDeep then t else raise 0x076 0 t))))) ∧
  (∀ (tree : Option Nat) (s : State), s.hrw.role = 2 → vhUp s 0 = true →
      exec (.hrwDepthAnnounce ⟨7, tree⟩) s = .next (settle (failTreeRequests (sendDown 2 (.depth 7 none) { s with hrw := { s.hrw with
        treeDepth := tree.getD s.hrw.treeDepth, depth := 7, tooDeep := false } })))) ∧
  (∀ (port d : Nat) (ids : List Nat) (s : State), (childPorts s).contains port = true → vhUp s port = true →
      exec (.hrwMapReceive port ids d) s = .next (settle (judgeMaps { s with hrw := { s.hrw with
        maps := tset s.hrw.maps port (ids.filter (fun i => decide (i < 1024))).dedup, depths := tset s.hrw.depths port (d + 1) } }))) ∧
  (∀ (up : Nat) (s t : State), s.hrw.vh0UpAt = some up → s.hrw.announced = false → s.hrw.noRoot = false →
      t = noEarlier (up + 100 * msUnit) s →
      exec .hrwNoRoot s = .next (settle (raise 0x077 0 { t with hrw := { t.hrw with noRoot := true } }))) ∧
  (∀ (o n : Nat) (data : Bytes) (s t : State), inTree s = true → hrwRuns s.mode.mode = true → t = broadcastDown o n data s →
      (t.hrw.broadcasts = [] → exec (.hrwBcastReceive o n data) s = .next (settle t)) ∧
      (∀ r rest, t.hrw.broadcasts = r :: rest → exec (.hrwBcastReceive o n data) s = .next (settle
        (if o = t.hrw.ident then replyTo r 0x0B10 .ok (broadcastData r).2 (le 4 n) { t with hrw := { t.hrw with broadcasts := rest } } else t)))) ∧
  (∀ (k port ms : Nat) (b : Bool) (s : State), inTree s = true → hrwRuns s.mode.mode = true → k < 16 → (childrenUp s).contains port = true →
      exec (.hrwBarrierArrival k port ms b) s = .next (settle (judgeBarrier k (setBarrier s k (fun x =>
        { x with children := sadd x.children port, isPartial := x.isPartial || b, started := some (x.started.getD s.mtb.t),
                 timeoutMs := if x.started.isSome then x.timeoutMs else ms }))))) ∧
  (∀ (k n : Nat) (b : Bool) (s : State), inTree s = true → hrwRuns s.mode.mode = true → s.hrw.root = false →
      (thas s.hrw.barriers k = true →
        exec (.hrwBarrierRelease k n b) s = .next (settle (releaseBarrier k b (sendDown 3 (.release k n b) s)))) ∧
      (thas s.hrw.barriers k = false → exec (.hrwBarrierRelease k n b) s = .next (sendDown 3 (.release k n b) s))) ∧
  (∀ (k : Nat) (s : State), tget s.hrw.barriers k = none → s.hrw.root = true → exec (.hrwBarrierTimeout k) s = .next s) ∧
  (∀ (k : Nat) (s t u v : State) (x : Barrier), tget s.hrw.barriers k = some x →
      v = (if timesBarrier s then noEarlier (x.started.getD s.mtb.t + x.timeoutMs * msUnit) s else s) →
      u = (if inTree v then sendDown 3 (.timeout k) v else v) →
      t = { u with hrw := { u.hrw with barriers := tdel u.hrw.barriers k, barTimeouts := bump32 u.hrw.barTimeouts } } →
      exec (.hrwBarrierTimeout k) s = .next (settle (raise 0x079 k (match x.own with
        | some r => replyTo r 0x0B12 .notReady false [] t
        | none => t)))) ∧
  (∀ (a : TreeAction) (s : State), inTree s = true → hrwRuns s.mode.mode = true → s.hrw.root = false →
      exec (.hrwScheduleReceive a) s = .next (settle (scheduleDown snapshotCopy a (match s.hrw.schedules with
        | r :: rest =>
          if a.origin = s.hrw.ident then
            replyTo r 0x0B11 .ok (scheduleClamped r) (scheduleReply a) { s with hrw := { s.hrw with schedules := rest } }
          else s
        | [] => s)))) ∧
  (∀ (n : Nat) (s : State) (p : Pending), s.hrw.pending.find? (fun p => p.action.seq == n) = some p → alive s.mode.mode = true →
      s.mtb.t ≤ actionTime p.action →
      exec (.hrwActionTime n) s = .next (settle (actOn snapshotCopy p false (reach (actionTime p.action) s)))) ∧
  (∀ (o : Nat) (data : Bytes) (s : State), s.hrw.root = true → hrwRuns s.mode.mode = true →
      exec (.hrwRequestAtRoot ⟨o, .broadcast data⟩) s =
        .next (settle (broadcastDown o s.hrw.nextSeq (data.take 256) (nextTreeSeq s).2))) ∧
  (∀ (o a b : Nat) (s : State), s.hrw.root = true → hrwRuns s.mode.mode = true → s.hrw.pending.length < 4 →
      exec (.hrwRequestAtRoot ⟨o, .action 1 a b⟩) s =
        .next (settle (scheduleDown snapshotCopy ⟨s.hrw.nextSeq, 1, a, b, o⟩ (nextTreeSeq s).2))) ∧
  (∀ (o a b : Nat) (s : State), s.hrw.root = true → hrwRuns s.mode.mode = true → 4 ≤ s.hrw.pending.length →
      exec (.hrwRequestAtRoot ⟨o, .action 1 a b⟩) s = .next (settle (sendDown 2 (.busy o (treeHint s)) s))) ∧
  (∀ (q : TreeRequest) (s : State), inTree s = true → hrwRuns s.mode.mode = true → s.hrw.root = false →
      exec (.hrwRequestAtRoot q) s = .next (settle (sendUp (requestClass q) (.request q) s))) ∧
  (∀ (o h : Nat) (s : State) (r : Req) (rest : List Req), inTree s = true → hrwRuns s.mode.mode = true → s.hrw.root = false →
      s.hrw.schedules = r :: rest → takeBusy o h s = (if o = s.hrw.ident then
        replyTo r 0x0B11 .busy false (le 4 h) { s with hrw := { s.hrw with schedules := rest } } else sendDown 2 (.busy o h) s))

/-- The fault events complete (R384, R385, R387 to R390, R392, R394). The details of a path failure are free values (log entry 32). -/
def Obligations.FaultEventsComplete : Prop :=
  (∀ (src inst d0 d1 : Nat) (s : State), exec (.faultReport src inst d0 d1) s = .next (settle (raiseWith src inst d0 d1 s))) ∧
  (∀ (s : State) (e : Nat), s.flt.pulseUntil = some e →
      exec .errPulseEnd s = .next { (if s.mtb.mgt < e then passCycles (e - s.mtb.mgt) s else s) with
        flt := { (if s.mtb.mgt < e then passCycles (e - s.mtb.mgt) s else s).flt with
          pulseUntil := none,
          holdLatched := (if s.mtb.mgt < e then passCycles (e - s.mtb.mgt) s else s).flt.holdLatched ||
            (if s.mtb.mgt < e then passCycles (e - s.mtb.mgt) s else s).flt.errHold == 1,
          holdDegraded := (if s.mtb.mgt < e then passCycles (e - s.mtb.mgt) s else s).flt.holdDegraded ||
            (if s.mtb.mgt < e then passCycles (e - s.mtb.mgt) s else s).flt.errHold == 2 } }) ∧
  (∀ (src inst : Nat) (s : State), s.flt.retrying.contains (faultKey src inst) = true →
      exec (.unitResume src inst) s = .next { s with flt := { s.flt with retrying := sdel s.flt.retrying (faultKey src inst) } }) ∧
  (∀ (src d0 d1 a : Nat) (s t u v : State), alive s.mode.mode = true → src < 512 → reservedSource src = false →
      s.flt.unsupervised.contains src = false → (d0, t) = drawFree s → (d1, u) = drawFree t →
      (v, a) = collect true ⟨0x08C, src, d0 % 2 ^ 32, d1 % 2 ^ 32⟩ u → minimumSeverity src = 0 →
      exec (.fltPath src) s = .next (settle (modeReaction a
        { v with flt := { v.flt with unsupervised := sadd v.flt.unsupervised src } }))) ∧
  (∀ (src d0 d1 a b : Nat) (s t u v w : State), alive s.mode.mode = true → src < 512 → reservedSource src = false →
      s.flt.unsupervised.contains src = false → (d0, t) = drawFree s → (d1, u) = drawFree t →
      (v, a) = collect true ⟨0x08C, src, d0 % 2 ^ 32, d1 % 2 ^ 32⟩ u → minimumSeverity src ≠ 0 →
      (w, b) = collect true ⟨src, 0, d1 % 2 ^ 32, d0 % 2 ^ 32⟩ { v with flt := { v.flt with unsupervised := sadd v.flt.unsupervised src } } →
      exec (.fltPath src) s = .next (settle (modeReaction (max a b) w))) ∧
  (∀ (src : Nat) (s : State),
      exec (.faultPathRestore src) s = .next { s with flt := { s.flt with unsupervised := sdel s.flt.unsupervised src } })

/-- The boot events complete (R13, R376, R398, R401 to R403, R407 to R410, R419, R422). -/
def Obligations.BootEventsComplete : Prop :=
  (∀ (x : FwSlot) (s t u v : State), s.mode.mode = .boot → x.slot < 2 → tgetD s.sec.fwFail x.slot 0 = 0 →
      t = (if s.sec.fwFail.isEmpty then readSelector x.selectors s else s) → (t.sec.fwFail.isEmpty = true → x.slot = t.sec.selFw) →
      u = completeErasure x (if x.fusesOk then t else raise 0x1C6 0 t) → firmwareCode x (tgetD u.sec.fuses.counters 0 0) = 1 →
      v = { u with sec := { u.sec with
        fwFail := tset u.sec.fwFail x.slot 1, fwSlot := x.slot, fwFallback := x.slot != u.sec.selFw, fwSvn := x.svn, fwMeas := x.measurement } } →
      exec (.firmwareSlotVerify x) s = .next (settle
        (if x.fusesOk then afterFirmware x v else v))) ∧
  (∀ (x : FwSlot) (s t u v : State) (code : Nat), s.mode.mode = .boot → x.slot < 2 → tgetD s.sec.fwFail x.slot 0 = 0 →
      t = (if s.sec.fwFail.isEmpty then readSelector x.selectors s else s) → (t.sec.fwFail.isEmpty = true → x.slot = t.sec.selFw) →
      u = completeErasure x (if x.fusesOk then t else raise 0x1C6 0 t) → code = firmwareCode x (tgetD u.sec.fuses.counters 0 0) → code ≠ 1 →
      v = raise 0x1C0 x.slot { u with sec := { u.sec with fwFail := tset u.sec.fwFail x.slot code } } →
      exec (.firmwareSlotVerify x) s = .next (settle (if thas v.sec.fwFail (1 - x.slot) then enterMode .halt (settle v) else v))) ∧
  (∀ (x : CfgSlot) (s t : State), s.mode.mode = .configure → s.mode.configured = false → x.slot < 2 → tgetD s.sec.cfgFail x.slot 0 = 0 →
      t = (if s.sec.cfgFail.isEmpty then readSelector x.selectors s else s) → (t.sec.cfgFail.isEmpty = true → x.slot = t.sec.selCfg) →
      configCode x true t = 1 →
      exec (.configSlotVerify x) s = .next (settle (applyRecords (!t.sec.fuses.enrolled) x.keyTags
        (takeConfig x (trainMemory { t with sec := { t.sec with cfgFail := tset t.sec.cfgFail x.slot 1 } }))))) ∧
  (∀ (x : CfgSlot) (s t v : State) (code : Nat), s.mode.mode = .configure → s.mode.configured = false → x.slot < 2 →
      tgetD s.sec.cfgFail x.slot 0 = 0 →
      t = (if s.sec.cfgFail.isEmpty then readSelector x.selectors s else s) → (t.sec.cfgFail.isEmpty = true → x.slot = t.sec.selCfg) →
      code = configCode x true t → code ≠ 1 →
      v = raise 0x1C0 (2 + x.slot) { t with sec := { t.sec with cfgFail := tset t.sec.cfgFail x.slot code } } →
      exec (.configSlotVerify x) s = .next (settle (if thas v.sec.cfgFail (1 - x.slot) then enterMode .halt (settle v) else v))) ∧
  (∀ (engines analysers decoders : List Nat) (s : State), s.mode.mode = .configure → s.mode.admitted = false →
      exec (.engineSelftestDone engines analysers decoders) s = .next { s with
        enc := { s.enc with pool := { s.enc.pool with engines := testedEngines engines, sparesLeft := (below 18 engines).length - 16, analysers := below 16 analysers, retiredAn := [] } },
        dec := { s.dec with engines := (List.range 4).map (fun e => (e, { failed := !decoders.contains e })) } }) ∧
  (∀ (passing ok : List Nat) (s : State), s.mode.mode = .configure → s.mode.admitted = false →
      ok = (List.range 128).filter (fun k => passing.contains k) →
      exec (.boxCoreSelftestDone passing) s = .next (settle (if ok.length < 17 then
          raise 0x08D 0 (setPvd s (fun p => { p with passing := ok.length, cores := (ok.zip (List.range ok.length)).map (fun e => (e.1, { live := decide (16 ≤ e.2) })) }))
        else setPvd s (fun p => { p with passing := ok.length, cores := (ok.zip (List.range ok.length)).map (fun e => (e.1, { live := decide (16 ≤ e.2) })) })))) ∧
  (∀ (failing : List Nat) (s : State), s.mode.mode = .configure →
      exec (.cvuSelftestDone failing) s = .next ((failing.filter (fun u => decide (u < 96))).foldl (fun s u => fenceCvu u s) s)) ∧
  (∀ (s t u : State), s.mode.mode = .configure → s.mode.configured = true → s.mode.admitted = false →
      t = settleOutputs (settleLayers { s with drm := { s.drm with limit := hbmLimit s } }) →
      u = (channelOrder t).foldl admitChannel t →
      exec .admission s = .next (settle (leaveConfigure (compareDigest
        { settlePllS (settleSdiOuts ((decodeOrder u).foldl (admitDecode (hbmLimit u)) (u, [])).1) with
          mode := { (settlePllS (settleSdiOuts ((decodeOrder u).foldl (admitDecode (hbmLimit u)) (u, [])).1)).mode with admitted := true } })))) ∧
  (∀ (s : State), s.mode.mode = .configure → s.mode.admitted = true → s.mtb.servo = 2 ∨ s.mtb.valid = true →
      exec .configureComplete s = .next (settle (leaveConfigure { s with mode := { s.mode with complete := true } }))) ∧
  (∀ (s t : State), s.mode.mode = .configure → s.mode.configured = true → s.mode.complete = false → selectedSource s = 0 →
      t = noEarlier (s.mode.m2Start + 2 * s.mtb.lossMs * msUnit) s →
      exec .configureMtbTimeout s = .next (settle (leaveConfigure { t with mode := { t.mode with complete := true } }))) ∧
  (∀ (c : Nat) (rest : List Nat) (s t u : State), s.sec.antiRollback = c :: rest → alive s.mode.mode = true →
      u = noEarlier s.sec.fuseAt s →
      t = { u with sec := { u.sec with antiRollback := rest, fuseAt := u.mtb.t + 20 * usUnit } } →
      exec (.fuseBitProgram true) s = .next { t with sec := { t.sec with fuses := { t.sec.fuses with
        counters := tset t.sec.fuses.counters c (fuseUp 64 (tgetD t.sec.fuses.counters c 0)) } } } ∧
      exec (.fuseBitProgram false) s = .next (settle (raise 0x1C3 0 t)))

/-- The update and mode request events complete (R13, R15, R415 to R417). -/
def Obligations.UpdateAndModeEventsComplete : Prop :=
  (∀ (s t u : State) (h : Held), s.mode.held.isSome = true → alive s.mode.mode = true →
      u = earlierTriggers (atRequestTick s) → u.mode.held = some h → t = { u with mode := { u.mode with held := none } } →
      exec .modeRequestExecute s = .next (settle
        (if t.mode.mode = .quiescent ∧ t.clk.rootFrc = true then replyTo h.req (heldOpcode h.kind) .notReady false [] t
         else match h.kind with
           | .quiescent => answerMode h (enterMode .quiescent t)
           | .run => answerMode h (enterRun t)
           | .update => beginUpdate h t
           | .swap => nameSwap h t))) ∧
  (∀ (s u : State), s.mode.held.isSome = true → alive s.mode.mode = true → u = earlierTriggers (atRequestTick s) → u.mode.held = none →
      exec .modeRequestExecute s = .next (settle u)) ∧
  (∀ s : State, earlierTriggers s = swapIfDue (judgeAhead (silencesDue s))) ∧
  (∀ (s t : State) (u : Update) (r : Req), s.sec.update = some u → s.mode.mode = .update → u.erased = false → u.begun = some r →
      t = { s with sec := { s.sec with update := some { u with erased := true, begun := none, lastChunk := s.mtb.t } } } →
      exec .updateEraseDone s = .next (settle (replyTo r 0x0D13 .ok u.clamped (regionBytes u.kind t) t))) ∧
  (∀ (s t : State) (u : Update) (r : Req) (item : FwSlot) (config : CfgSlot), s.sec.update = some u → s.mode.mode = .update →
      u.ended = some r → itemCode u item config s = 1 →
      t = takeItem u { s with sec := { s.sec with updVerdict := 1, updState := 3 } } →
      exec (.updateVerifyDone item config) s = .next (settle
        (replyTo r 0x0D15 .ok (lenClamped r) (le 4 1 ++ regionBytes u.kind s) (leaveUpdate t)))) ∧
  (∀ (s t : State) (u : Update) (r : Req) (item : FwSlot) (config : CfgSlot) (code : Nat), s.sec.update = some u → s.mode.mode = .update →
      u.ended = some r → code = itemCode u item config s → code ≠ 1 →
      t = raise 0x1C5 u.kind { s with sec := { s.sec with updVerdict := code, updState := 4 } } →
      exec (.updateVerifyDone item config) s = .next (settle
        (replyTo r 0x0D15 .ok (lenClamped r) (le 4 code ++ regionBytes u.kind s) (leaveUpdate t)))) ∧
  (∀ (s : State) (u : Update), s.sec.update = some u → s.mode.mode = .update → u.ended = none →
      exec .updateTimeout s = .next (settle (leaveUpdate (abandonUpdate ((atTime (u.lastChunk + 10 * secUnit) s).getD s)))))

/-- The transports' events complete (R284, R428, R431 to R434, R436, R438, R442). The session ID, the challenge and the key are free values (log entries 2 and 137). -/
def Obligations.TransportsComplete : Prop :=
  (∀ (f tail p : Nat) (b : Bytes) (s t : State) (sound : Bool), boundPart s f = some p → (t, sound) = writeTail f p tail s →
      exec (.hstReqTailWrite f tail b) s =
        .next (settle (if sound && serves t.mode.mode then serveRing f p (b.length / 16 + 1) b t else t))) ∧
  (∀ (f p : Nat) (s : State), boundPart s f = some p →
      exec (.hstRingReset f) s = .next (setRing s f (fun r => { r with reqTail := 0, reqHead := 0, err := false })) ∧
      (∀ head, exec (.hstRplHeadWrite f head) s = .next (releaseAnswered (setRing s f (fun r =>
        ringFlush { r with rplHead := head % 2 ^ 32 } r.waiting)))) ∧
      (∀ mask, exec (.hstIntCauseClear f mask) s = .next (setRing s f (fun r => { r with cause := w1c r.cause mask })))) ∧
  (∀ (port p peer : Nat) (s : State), serves s.mode.mode = true → port ≤ 1 → s.hst.mgFaults.contains port = false → (part s p).lockout = false →
      (15 < p ∨ (part s p).bound = false ∨ bitOf (part s p).mg port = false) →
      exec (.sessionHello port p peer) s = .next (refuseHello port peer .notInPartition s)) ∧
  (∀ (port p peer : Nat) (s : State), serves s.mode.mode = true → port ≤ 1 → s.hst.mgFaults.contains port = false → (part s p).lockout = false →
      p ≤ 15 → (part s p).bound = true → bitOf (part s p).mg port = true → (part s p).sessions ≤ (sessionsOf s p).length →
      exec (.sessionHello port p peer) s = .next (refuseHello port peer .busy s)) ∧
  (∀ (port p peer i n v : Nat) (s t u : State) (x : Session), serves s.mode.mode = true → port ≤ 1 → s.hst.mgFaults.contains port = false →
      (part s p).lockout = false → p ≤ 15 → (part s p).bound = true → bitOf (part s p).mg port = true →
      (sessionsOf s p).length < (part s p).sessions → freeSession s = some i → (n, t) = drawFree s → (v, u) = drawFree t →
      x = { partition := p, port := port, ident := n % 2 ^ 32, hostCtr := 0, deviceCtr := 2 ^ 63 + 1, peer := peer
            lastFrame := u.mtb.uptime, challenge := Config.sessionChallenge v, key := Config.sessionKey v } →
      exec (.sessionHello port p peer) s = .next { u with hst := { u.hst with sessions := tset u.hst.sessions i x } }) ∧
  (∀ (port p peer : Nat) (s : State), s.mode.mode = .boot →
      exec (.sessionHello port p peer) s = .next { s with hst := { s.hst with hellos := s.hst.hellos ++ [(port, p, peer)] } }) ∧
  (∀ (i peer : Nat) (s t : State) (x : Session), tget s.hst.sessions i = some x → x.opened = false → serves s.mode.mode = true →
      (part s x.partition).key.isSome = true → t = setSession s i (fun x => { x with opened := true, hostCtr := 1, peer := peer, lastFrame := s.mtb.uptime }) →
      exec (.sessionAuth i true peer) s = .next (settle (flushHeld x.partition (sendOn t (16 + i) x.partition (welcome x.partition t)))) ∧
      exec (.sessionAuth i false peer) s =
        .next (settle (failAuth x.partition { s with hst := { s.hst with sessions := tdel s.hst.sessions i } }))) ∧
  (∀ (i ctr peer : Nat) (m : Bytes) (s t : State) (x : Session), tget s.hst.sessions i = some x → x.opened = true →
      serves s.mode.mode = true → x.hostCtr < ctr → ctr < 2 ^ 63 → t = setSession s i (fun x => { x with hostCtr := ctr, peer := peer, lastFrame := s.mtb.uptime }) →
      exec (.sessionProtectedFrame i ctr true peer m) s = .next (settle
        (if m.length < 16 + messageLength m then badFrame x.partition t else serveMessage (16 + i) m t)) ∧
      exec (.sessionProtectedFrame i ctr false peer m) s = .next (settle (badFrame x.partition s))) ∧
  (∀ (i : Nat) (s : State) (x : Session), tget s.hst.sessions i = some x →
      exec (.sessionIdleTimeout i) s = .next (endSession i (afterUptime (x.lastFrame + 60 * uptimeSecond) s))) ∧
  (∀ (p : Nat) (s : State), (part s p).lockout = true →
      exec (.authLockoutExpiry p) s = .next (setPart (afterUptime (part s p).lockoutUntil s) p (fun x => { x with lockout := false, authFails := [] }))) ∧
  (∀ (f : Nat) (s : State), f < 16 →
      exec (.functionLevelReset f) s = .next (releaseAnswered (dropTransport f (setRing s f (fun r => { r with en := false, waiting := [] })))) ∧
      exec (.interruptModerationExpiry f) s = .next (setRing s f endModeration))

/-- Ordinary data never ends a run: every command answers a next state in every state, save POISONED_READ of an address that R300 gives no memory (a fault by name). -/
def Obligations.EveryCommandCompletes : Prop :=
  ∀ (i : Instr) (s : State), (∃ t, exec i s = .next t) ∨
    ∃ a q, i = .poisonedRead a q ∧ hbmEnd ≤ a ∧ exec i s = .fault (.addressOutsideMemory a)

/-- The queue of waiting commands is the model's own (log entry 4): a step takes its front. -/
def Obligations.StepTakesTheFront : Prop :=
  ∀ (c : Instr) (rest : List Instr) (s : State),
    step { s with pending := c :: rest } = exec c { s with pending := rest }

/-- The idle step (log entry 4, DESIGN CHOICE): the MTB advances once by its increment while it counts (R22, R24). -/
def Obligations.EmptyQueuePassesACycle : Prop :=
  (∀ s : State, s.pending = [] → alive s.mode.mode = true →
      step s = .next { s with mtb := { s.mtb with
        t := (s.mtb.t + s.mtb.inc) % mtbSpan, mgt := s.mtb.mgt + 1, uptime := s.mtb.uptime + 2700000000 / domainHz s .mgt } }) ∧
  (∀ s : State, s.pending = [] → (s.mode.mode = .hold ∨ s.mode.mode = .halt) → step s = .next s)

/-- The invariant of EveryStepKeepsSound holds at reset. -/
def Obligations.SoundAtReset : Prop :=
  Safety.Sound State.reset

/-- Soundness is kept by every step from every sound state, whichever command is at the front (R12, R17, R18, R300). -/
def Obligations.EveryStepKeepsSound : Prop :=
  ∀ s t : State, Safety.Sound s → step s = .next t → Safety.Sound t

/-- The fuses are programmed once and never fall, on any step from any state (R398, R409, R410, R420). -/
def Obligations.FusesNeverFall : Prop :=
  ∀ s t : State, step s = .next t → Safety.FusesKept s.sec.fuses t.sec.fuses

/-- First in, first out: no command touches the queue behind it (log entry 4). -/
def Obligations.TheQueueLosesItsFront : Prop :=
  ∀ s t : State, step s = .next t → t.pending = s.pending.drop 1

/-- R33 as atTime has it, which every tick command goes through (log entry 4 says how cycles pass). A scheduled time lies within the 48 bits of seconds that the MTB has (R22). -/
def Obligations.TicksFireInTheirCycle : Prop :=
  (∀ (time : Nat) (s : State), alive s.mode.mode = true → 0 < s.mtb.inc → s.mtb.t ≤ time → time + s.mtb.inc ≤ mtbSpan → ∃ n,
      atTime time s = some (passCycles n s) ∧ time ≤ (passCycles n s).mtb.t ∧
      (passCycles n s).mtb.t < time + s.mtb.inc ∧ ∀ k, k < n → (passCycles k s).mtb.t < time) ∧
  (∀ (time later : Nat) (s u : State), alive s.mode.mode = true → 0 < s.mtb.inc → atTime time s = some u →
      later ≤ u.mtb.t → u.mtb.t < later + u.mtb.inc → atTime later u = some u)

/-- R24. That a cycle passes on an empty queue is log entry 4; that it counts is the rule's. -/
def Obligations.TimebaseFromHoldToHalt : Prop :=
  (∀ s : State, (enterHold s).mode.mode = .hold ∧ (enterHold s).mtb = State.reset.mtb) ∧
  (∀ s : State, s.mode.mode = .hold → s.pending = [] → step s = .next s) ∧
  (∀ s : State, (enterBoot s).mode.mode = .boot ∧ (enterBoot s).mtb.t = 0 ∧ (enterBoot s).mtb.servo = 0) ∧
  (∀ s : State, 1 ≤ modeCode s.mode.mode → modeCode s.mode.mode ≤ 10 → s.pending = [] →
      ∃ t, step s = .next t ∧ t.mtb.t = (s.mtb.t + s.mtb.inc) % mtbSpan)

/-- What every transition of Table 3 (R13) does whatever it came from, and its frame. -/
def Obligations.EnteringAMode : Prop :=
  ∀ (m : Mode) (s t : State), t = enterMode m s →
    t.mode.mode = m ∧ t.mode.prev = s.mode.mode ∧
    (t.pins.forcedSafe = true ↔ m ∈ [.hold, .boot, .safeHold, .service, .halt] ∨ s.pins.tripped = true) ∧
    (m ∈ [.standby, .resync, .safeHold, .halt] → t.red.claim = 0) ∧
    t.drm.mem = s.drm.mem ∧ t.sec.fuses = s.sec.fuses ∧ t.mtb.t = s.mtb.t ∧ t.pending = s.pending

/-- The first and the last clause of R391, over any list of reports. -/
def Obligations.ReportsInAscendingOrder : Prop :=
  (∀ l : List Report, (sortReports l).Perm l ∧
      (sortReports l).Pairwise (fun a b => a.source < b.source ∨ (a.source = b.source ∧ a.inst ≤ b.inst))) ∧
  (∀ (a : Report) (l : List Report) (s : State),
      (collectAll (a :: l) s).2 = max (collect false a s).2 (collectAll l (collect false a s).1).2)

/-- The Mode column of Table 2 (R387) with the transitions of R13, for one report of the cycle. -/
def Obligations.SeverityDecidesTheMode : Prop :=
  ∀ (r : Report) (s t : State), alive s.mode.mode = true → s.flt.due = [r] → reservedSource r.source = false →
    s.flt.unsupervised.contains r.source = false → s.flt.fenced.contains (faultKey r.source r.inst) = false →
    t = settleOnce s →
    (severityOf s r.source r.inst = 7 → t.mode.mode = .halt) ∧
    (severityOf s r.source r.inst = 6 → t.mode.mode = .safeHold) ∧
    (severityOf s r.source r.inst = 5 → s.mode.mode = .active → t.mode.mode = .standby) ∧
    (severityOf s r.source r.inst ≤ 4 → t.mode.mode = s.mode.mode) ∧ t.drm.mem = s.drm.mem

/-- Table 1 of R354, row by row, with its check column. -/
def Obligations.CheckValuePresets : Prop :=
  (∀ b : Bytes, clamp 0 5 (u8 b 2) = 1 → recordParams b = ⟨32, 0x04C11DB7, 0xFFFFFFFF, 0xFFFFFFFF, true, true⟩) ∧
  (∀ b : Bytes, clamp 0 5 (u8 b 2) = 2 → recordParams b = ⟨32, 0x04C11DB7, 0xFFFFFFFF, 0, false, false⟩) ∧
  (∀ b : Bytes, clamp 0 5 (u8 b 2) = 3 → recordParams b = ⟨18, 0x00031, 0, 0, true, true⟩) ∧
  (∀ b : Bytes, clamp 0 5 (u8 b 2) = 4 → recordParams b = ⟨64, 0x42F0E1EBA9EA3693, 0, 0, false, false⟩) ∧
  (∀ b : Bytes, clamp 0 5 (u8 b 2) = 5 →
      recordParams b = ⟨64, 0x42F0E1EBA9EA3693, 0xFFFFFFFFFFFFFFFF, 0xFFFFFFFFFFFFFFFF, false, false⟩) ∧
  symbolBits 3 = 10 ∧ (∀ kind, kind ≠ 3 → symbolBits kind = 8) ∧
  crcPresetOf 1 [0x31, 0x32, 0x33, 0x34, 0x35, 0x36, 0x37, 0x38, 0x39] = 0xCBF43926 ∧
  crcPresetOf 2 [0x31, 0x32, 0x33, 0x34, 0x35, 0x36, 0x37, 0x38, 0x39] = 0x0376E6E7 ∧
  crcPresetOf 4 [0x31, 0x32, 0x33, 0x34, 0x35, 0x36, 0x37, 0x38, 0x39] = 0x6C40DF5F0B497347 ∧
  crcPresetOf 5 [0x31, 0x32, 0x33, 0x34, 0x35, 0x36, 0x37, 0x38, 0x39] = 0x62EC59E3F1A4F00A

/-- R353: the model's bit operations against the rule's own algorithm (ruleResult). -/
def Obligations.CheckValueOfASpan : Prop :=
  (∀ (p : CrcParams) (bits : Nat) (l : List Nat), 1 ≤ p.w → p.w ≤ 64 → crcOf p bits l = ruleResult p bits l) ∧
  (∀ (p : CrcParams) (bits g i x : Nat) (l : List Nat), 1 ≤ p.w → p.w ≤ 64 → p.g % 2 ^ p.w = g % 2 ^ p.w →
      p.i % 2 ^ p.w = i % 2 ^ p.w → p.x % 2 ^ p.w = x % 2 ^ p.w →
      crcOf p bits l = crcOf { p with g := g, i := i, x := x } bits l) ∧
  (∀ (p : CrcParams) (bits : Nat), 1 ≤ p.w → p.w ≤ 64 →
      crcOf p bits [] = (if p.refOut then mirror p.w (p.i % 2 ^ p.w) else p.i % 2 ^ p.w) ^^^ (p.x % 2 ^ p.w)) ∧
  (∀ (x : CvUnit) (l : List Nat), 1 ≤ x.width → x.width ≤ 64 → x.run = x.init % 2 ^ x.width →
      (endSpan (feedUnit l x)).result = ruleResult (unitParams x) (symbolBits x.tapKind) l ∧
      (endSpan (feedUnit l x)).run = x.init % 2 ^ x.width)

/-- The byte order of R7, on which every record, message and log entry rests. -/
def Obligations.FieldsAreLittleEndian : Prop :=
  ∀ (n v : Nat) (before after : Bytes),
    (le n v).length = n ∧ (∀ i, i < n → (le n v)[i]? = some (BitVec.ofNat 8 (v / 256 ^ i))) ∧
    leAt (before ++ le n v ++ after) before.length n = v % 256 ^ n

/-- The second paragraph of R42: which frame a target of a command, a work item or a forwarded change names. -/
def Obligations.TargetFramesResolve : Prop :=
  ∀ (o v : Nat), v < 2 ^ 32 →
    (v = 0 → resolveTarget o v = (o, false)) ∧
    (v ≠ 0 → ∀ n : Nat, n % 2 ^ 32 = v → o ≤ n → n < o + 2 ^ 31 → resolveTarget o v = (n, false)) ∧
    (v ≠ 0 → ∀ n : Nat, n % 2 ^ 32 = v → n < o → o ≤ n + 2 ^ 31 → resolveTarget o v = (o, true))

/-- What a host's write does to HBM, and that it does nothing else to it (R300, R441). -/
def Obligations.HostWritesLandInHbm : Prop :=
  (∀ (r : Req) (p : Nat) (s t : State) (n : Nat), Accepted false bufLegal r p s → t = slotTaken r p s →
      n = min (u32 (payloadOf r) 8) (min 4064 ((payloadOf r).length - 16)) →
      inSlot t p (u64 (payloadOf r) 0) n = true → u64 (payloadOf r) 0 + n ≤ hbmEnd →
      (stacksAwake t (u64 (payloadOf r) 0) n = true → ∃ u, exec (.hstBufWriteInline r) s = .next u ∧ ∀ a,
        hbmByte u a = if u64 (payloadOf r) 0 ≤ a ∧ a < u64 (payloadOf r) 0 + n then
          some ((payloadOf r).getD (16 + (a - u64 (payloadOf r) 0)) 0) else hbmByte s a) ∧
      (stacksAwake t (u64 (payloadOf r) 0) n = false →
        ∃ u, exec (.hstBufWriteInline r) s = .next u ∧ ∀ a, hbmByte u a = hbmByte s a)) ∧
  (∀ (s u : State) (a b q k : Nat) (h : HbmClient) (c : Bool) (w : List HbmWait),
      (exec (.poisonedRead b h) s = .next u ∨ exec (.scrubAccess q c) s = .next u ∨ exec .remapCopyDone s = .next u ∨
        exec (.refreshDue q w) s = .next u ∨ exec (.selfRefreshEntry k) s = .next u ∨ exec (.postponedRefreshIssue q) s = .next u) →
      hbmByte u a = hbmByte s a)

/-- R274. The reply itself goes out in request order as RepliesKeepRequestOrder says. -/
def Obligations.PairInfoReply : Prop :=
  (∀ (r : Req) (s t u : State), s.mode.mode ∈ infoModes → partOf s r.transport = some 0 → r.hdrPartition = 0 →
      s.flt.due = [] → t = slotTaken r 0 s →
      u = reply 0 r 0x0A10 .ok (lenClamped r)
        ((List.range 16).flatMap (fun i => le 4 (plainWord t r.transport 0 (0x9000 + 4 * i))) ++ fit 64 s.run.partner) t →
      exec (.redPairInfo r) s = .next u ∧ ∃ h q, u = { s with hst := h, pvd := q }) ∧
  (∀ (r : Req) (p : Nat) (s t : State), s.mode.mode ∈ everyMode → partOf s r.transport = some p → r.hdrPartition = p → p ≠ 0 →
      s.flt.due = [] → t = reply p r 0x0A10 .notOwner false [] (slotTaken r p s) →
      exec (.redPairInfo r) s = .next t ∧ ∃ h q, t = { s with hst := h, pvd := q }) ∧
  (∀ (r : Req) (s t : State), s.mode.mode ∈ [.configure, .service] → partOf s r.transport = some 0 → r.hdrPartition = 0 →
      s.flt.due = [] → t = reply 0 r 0x0A10 .wrongMode false [] (slotTaken r 0 s) →
      exec (.redPairInfo r) s = .next t ∧ ∃ h q, t = { s with hst := h, pvd := q })

/-- R336, with the clamps of its payload. -/
def Obligations.PortInfoReply : Prop :=
  (∀ (r : Req) (s t u : State) (kind port most : Nat), s.mode.mode ∈ infoModes → partOf s r.transport = some 0 → r.hdrPartition = 0 →
      s.flt.due = [] → t = slotTaken r 0 s → kind = min 1 (u8 (payloadOf r) 0) → most = (if kind = 0 then 15 else 5) →
      port = min most (u8 (payloadOf r) 1) →
      u = reply 0 r 0x0410 .ok (decide (1 < u8 (payloadOf r) 0) || decide (most < u8 (payloadOf r) 1) || lenClamped r)
        ((List.range 16).flatMap (fun i => le 4 (if kind = 0 then ethWord t port (4 * i) else valsinWord t port (4 * i)))) t →
      exec (.lnkPortInfo r) s = .next u ∧ ∃ h q, u = { s with hst := h, pvd := q }) ∧
  (∀ (r : Req) (p : Nat) (s t : State), s.mode.mode ∈ everyMode → partOf s r.transport = some p → r.hdrPartition = p → p ≠ 0 →
      s.flt.due = [] → t = reply p r 0x0410 .notOwner false [] (slotTaken r p s) →
      exec (.lnkPortInfo r) s = .next t ∧ ∃ h q, t = { s with hst := h, pvd := q }) ∧
  (∀ (r : Req) (s t : State), s.mode.mode ∈ [.configure, .service] → partOf s r.transport = some 0 → r.hdrPartition = 0 →
      s.flt.due = [] → t = reply 0 r 0x0410 .wrongMode false [] (slotTaken r 0 s) →
      exec (.lnkPortInfo r) s = .next t ∧ ∃ h q, t = { s with hst := h, pvd := q })

/-- Steps 2, 4 and 5 of R436 over the whole of Table 6 (R439), whose rows are Safety.mailRow. -/
def Obligations.MailboxRefusals : Prop :=
  ∀ (i : Instr) (w : MailRow) (s : State), mailRow i = some w → s.flt.due = [] →
    (∀ (p : Nat) (t : State), s.mode.mode ∈ everyMode → partOf s w.req.transport = some p → w.req.hdrPartition ≠ p →
      t = reply p w.req w.opcode .notInPartition false [] (slotTaken w.req p s) →
      exec i s = .next t ∧ ∃ h q, t = { s with hst := h, pvd := q }) ∧
    (∀ (p : Nat) (t : State), s.mode.mode ∈ everyMode → partOf s w.req.transport = some p → w.req.hdrPartition = p →
      w.ownerOnly = true → p ≠ 0 → t = reply p w.req w.opcode .notOwner false [] (slotTaken w.req p s) →
      exec i s = .next t ∧ ∃ h q, t = { s with hst := h, pvd := q }) ∧
    (∀ (p : Nat) (t : State), s.mode.mode ∈ everyMode → partOf s w.req.transport = some p → w.req.hdrPartition = p →
      (w.ownerOnly = true → p = 0) → s.mode.mode ∉ w.legal →
      t = reply p w.req w.opcode .wrongMode false [] (slotTaken w.req p s) →
      exec i s = .next t ∧ ∃ h q, t = { s with hst := h, pvd := q }) ∧
    (s.mode.mode ∉ everyMode ∨ partOf s w.req.transport = none → exec i s = .next s)

/-- R284 and R435 as every command's reply obeys them; the counters of R436 and R437. -/
def Obligations.RepliesKeepRequestOrder : Prop :=
  ∀ (p o : Nat) (r : Req) (st : Status) (c : Bool) (d : Bytes) (s t : State) (m : Msg),
    t = reply p r o st c d s →
    m = { opcode := o, partition := p, flags := if c = true ∧ st = .ok then 5 else 1, seq := r.seq, tag := r.tag
          payload := le 2 (statusCode st) ++ [0, 0] ++ (if st = .ok ∨ st = .busy then d else []) } →
    (∀ (first : Slot) (rest : List Slot), (part s p).slots = first :: rest → first.reply = none →
      ¬ (first.transport = r.transport ∧ first.seq = r.seq ∧ first.tag = r.tag) →
      t.hst.rings = s.hst.rings ∧ t.hst.sessions = s.hst.sessions ∧ t.pvd = s.pvd ∧
      (part t p).slots = first :: answerSlot r m rest) ∧
    ((part s p).slots = [⟨r.transport, r.seq, r.tag, none⟩] → r.transport < 16 →
      (part t p).slots = [] ∧ ring t r.transport = ringPush (ring s r.transport) m ∧
      ∀ f, f ≠ r.transport → ring t f = ring s f) ∧
    (part t p).refusals = (if st = .ok then (part s p).refusals else bump32 (part s p).refusals) ∧
    (part t p).wrongMode = (if st = .wrongMode then bump32 (part s p).wrongMode else (part s p).wrongMode) ∧
    (part t p).clamps = (if c = true ∧ st = .ok then bump32 (part s p).clamps else (part s p).clamps)

/-- Isolation of partitions over the register window (R70, R426, R441). Two states that differ only in those blocks read the same through it. -/
def Obligations.PartitionsSeeOnlyTheirOwn : Prop :=
  (∀ (s : State) (tr p off : Nat), p ≠ 0 →
      ((0x0180 ≤ off ∧ off < 0x01D0) ∨ (0x4000 ≤ off ∧ off < 0x7000) ∨ (0x9000 ≤ off ∧ off < 0xA000)) →
      plainWord s tr p off = 0 ∧ readClear tr p off s = s ∧ ∀ v, writeReg tr p off v s = s) ∧
  (∀ (s : State) (tr p c o : Nat), ownsChannel s p c = false → c < 64 → o < 0x80 →
      plainWord s tr p (0x1000 + 0x80 * c + o) = 0 ∧ readClear tr p (0x1000 + 0x80 * c + o) s = s ∧
      ∀ v, writeReg tr p (0x1000 + 0x80 * c + o) v s = s) ∧
  (∀ (s : State) (tr p off v : Nat), caller s tr = some p → p ≠ 0 → s.flt.due = [] → off % 4 = 0 →
      ((0x0180 ≤ off ∧ off < 0x01D0) ∨ (0x4000 ≤ off ∧ off < 0x7000) ∨ (0x9000 ≤ off ∧ off < 0xA000)) →
      exec (.registerWrite tr off v) s = .next s)

/-- The reset values that the spec's register tables give (values the model chose are in log entry 5 and are not stated here). -/
def Obligations.ResetLeavesHold : Prop :=
  State.reset.mode.mode = .hold ∧ modeCode State.reset.mode.mode = 0 ∧ State.reset.mode.degraded = false ∧
  State.reset.pins.forcedSafe = true ∧ State.reset.mtb.t = 0 ∧ State.reset.mtb.servo = 0 ∧ State.reset.red.claim = 0 ∧
  State.reset.red.partnerClaim = 0 ∧ State.reset.red.epoch = 0 ∧ State.reset.flt.log = [] ∧ State.reset.flt.logSeq = 0 ∧
  State.reset.enc.chans = [] ∧ State.reset.enc.ctxs = [] ∧ State.reset.dec.ctxs = [] ∧ State.reset.ing.flows = [] ∧
  State.reset.aud.ins = [] ∧ State.reset.aud.outs = [] ∧ State.reset.egr.legs = [] ∧ State.reset.lnk.eth = [] ∧
  State.reset.hst.parts = [] ∧ State.reset.drm.mem = [] ∧ State.reset.pending = []

/-- The blending of the compositor (R162). -/
def Obligations.ABlendLiesBetweenItsSamples : Prop :=
  (∀ alpha layer below : Nat, alpha ≤ 255 →
      min layer below ≤ blend alpha layer below ∧ blend alpha layer below ≤ max layer below ∧
      blend 255 layer below = layer ∧ blend 0 layer below = below) ∧
  (∀ (background lo hi : Nat) (layers : List (Nat × Nat)), lo ≤ background → background ≤ hi →
      (∀ l ∈ layers, l.1 ≤ 255 ∧ lo ≤ l.2 ∧ l.2 ≤ hi) →
      lo ≤ blendAll background layers ∧ blendAll background layers ≤ hi)

/-- The guides of Coppice (R129, R136), over the vectors of the CTU's blocks. -/
def Obligations.GuidesLieBeyondDirectSearch : Prop :=
  (∀ vs : List MotionVec, (guidesOf vs).length ≤ 2 ∧
      (∀ v ∈ guidesOf vs, v ∈ vs ∧ (224 < v.1.natAbs ∨ 96 < v.2.natAbs)) ∧
      (∀ a b : MotionVec, guidesOf vs = [a, b] →
        (32 < (b.1 - a.1).natAbs ∨ 32 < (b.2 - a.2).natAbs) ∧ ∀ w ∈ vs, votes vs w ≤ votes vs a)) ∧
  (∀ (enabled loss first : Bool) (cut : Option Nat) (row : Nat) (vs : List MotionVec),
      enabled = false ∨ loss = true ∨ first = true ∨ (∃ c, cut = some c ∧ c ≤ row) →
      guidesInForce enabled loss first cut row vs = [])
end

