-- ==== Sys2Proof/Laws/Cells.lean ====
section
/-! SUPPORT. The laws of cells: read after write, and the canonical form that every write keeps. -/

namespace Sys2Proof.Machine

/-- A bound below the first address may be lowered. -/
theorem cellsFrom_mono {m n : Nat} {l : List Host.Cell} (h : m ≤ n) (k : cellsFrom n l = true) : cellsFrom m l = true := by
  cases l with
  | nil => rfl
  | cons p l =>
    obtain ⟨a, v⟩ := p
    simp only [cellsFrom, Bool.and_eq_true, decide_eq_true_eq] at k ⊢
    exact ⟨by omega, k.2⟩

/-- A byte put keeps the addresses rising. -/
theorem cellPut_from {l : List Host.Cell} {m n : Nat} {v : Byte} (h : m ≤ n) (k : cellsFrom m l = true) :
    cellsFrom m (cellPut l n v) = true := by
  induction l generalizing m with
  | nil => simp [cellPut, cellsFrom, h]
  | cons p l ih =>
    obtain ⟨a, w⟩ := p
    simp only [cellsFrom, Bool.and_eq_true, decide_eq_true_eq] at k
    simp only [cellPut]
    split
    · simp only [cellsFrom, Bool.and_eq_true, decide_eq_true_eq]; exact ⟨h, by omega, k.2⟩
    · split
      · rename_i e; subst e
        simp only [cellsFrom, Bool.and_eq_true, decide_eq_true_eq]; exact ⟨h, k.2⟩
      · simp only [cellsFrom, Bool.and_eq_true, decide_eq_true_eq]; exact ⟨k.1, ih (by omega) k.2⟩

/-- A cell taken out keeps the addresses rising. -/
theorem cellDrop_from {l : List Host.Cell} {m : Nat} (n : Nat) (k : cellsFrom m l = true) : cellsFrom m (cellDrop l n) = true := by
  induction l generalizing m with
  | nil => rfl
  | cons p l ih =>
    obtain ⟨a, w⟩ := p
    simp only [cellsFrom, Bool.and_eq_true, decide_eq_true_eq] at k
    simp only [cellDrop]
    split
    · exact cellsFrom_mono (by omega) k.2
    · simp only [cellsFrom, Bool.and_eq_true, decide_eq_true_eq]; exact ⟨k.1, ih k.2⟩

/-- What holds of every cell and of the byte put holds of every cell after. -/
theorem cellPut_all {l : List Host.Cell} {n : Nat} {v : Byte} {p : Host.Cell → Bool} (h : p (n, v) = true) (k : l.all p = true) :
    (cellPut l n v).all p = true := by
  induction l with
  | nil => simp [cellPut, h]
  | cons c l ih =>
    obtain ⟨a, w⟩ := c
    simp only [List.all_cons, Bool.and_eq_true] at k
    simp only [cellPut]
    split
    · simp [h, k]
    · split
      · simp [h, k]
      · simp [k, ih k.2]

/-- What holds of every cell holds of those left. -/
theorem cellDrop_all {l : List Host.Cell} {n : Nat} {p : Host.Cell → Bool} (k : l.all p = true) : (cellDrop l n).all p = true := by
  induction l with
  | nil => rfl
  | cons c l ih =>
    obtain ⟨a, w⟩ := c
    simp only [List.all_cons, Bool.and_eq_true] at k
    simp only [cellDrop]
    split
    · exact k.2
    · simp [k, ih k.2]

/-- A byte written keeps the canonical form. -/
theorem cellSet_wf {dflt : Option Byte} {l : List Host.Cell} (n : Nat) (v : Byte) (h : cellsWf dflt l = true) :
    cellsWf dflt (cellSet dflt l n v) = true := by
  simp only [cellsWf, Bool.and_eq_true] at h ⊢
  unfold cellSet
  split
  · exact ⟨cellDrop_from n h.1, cellDrop_all h.2⟩
  · rename_i e
    exact ⟨cellPut_from (Nat.zero_le n) h.1, cellPut_all (by simpa using e) h.2⟩

/-- Bytes written keep the canonical form. -/
theorem cellWrite_wf {dflt : Option Byte} (b : Bytes) {l : List Host.Cell} (n : Nat) (h : cellsWf dflt l = true) :
    cellsWf dflt (cellWrite dflt l n b) = true := by
  induction b generalizing l n with
  | nil => exact h
  | cons v b ih => exact ih (n + 1) (cellSet_wf n v h)

/-- Bytes written below a bound keep every address below it. -/
theorem cellWrite_below {dflt : Option Byte} (b : Bytes) {l : List Host.Cell} (n e : Nat) (hb : n + b.length ≤ e)
    (h : l.all (fun c => decide (c.1 < e)) = true) : (cellWrite dflt l n b).all (fun c => decide (c.1 < e)) = true := by
  induction b generalizing l n with
  | nil => exact h
  | cons v b ih =>
    simp only [List.length_cons] at hb
    refine ih (n + 1) (by omega) ?_
    unfold cellSet
    split
    · exact cellDrop_all h
    · exact cellPut_all (by simp; omega) h

/-- HBM keeps its canonical form through every write, wherever the write lies (R300). -/
theorem hbmWrite_wf (a : Nat) (b : Bytes) (s : State) (h : hbmWf s.drm.mem = true) : hbmWf (hbmWrite a b s).drm.mem = true := by
  simp only [hbmWf, Bool.and_eq_true] at h ⊢
  unfold hbmWrite
  by_cases e : a ≤ hbmEnd
  · exact ⟨cellWrite_wf _ _ h.1, cellWrite_below _ _ _ (by simp only [List.length_take]; omega) h.2⟩
  · have : b.take (hbmEnd - a) = [] := by
      have : hbmEnd - a = 0 := by omega
      simp [this]
    simp only [this]
    exact h

/-- What a cell list reads at an address after a byte was put. -/
theorem cellGet_put (l : List Host.Cell) (n k : Nat) (v : Byte) : cellGet (cellPut l n v) k = if n = k then some v else cellGet l k := by
  induction l with
  | nil => simp [cellPut, cellGet]
  | cons p l ih =>
    obtain ⟨a, w⟩ := p
    simp only [cellPut]
    split
    · simp only [cellGet]
    · rename_i h
      split
      · rename_i e; subst e
        simp only [cellGet]; split <;> simp_all
      · simp only [cellGet, ih]
        split
        · rename_i f; subst f; rw [if_neg]; omega
        · rfl

/-- HBM reads the byte written at each address of a write, and every other address reads as before. -/
theorem cellGet_write (b : Bytes) (l : List Host.Cell) (n k : Nat) :
    cellGet (cellWrite none l n b) k = if n ≤ k ∧ k < n + b.length then b[k - n]? else cellGet l k := by
  induction b generalizing l n with
  | nil => rw [if_neg (by simp)]; rfl
  | cons v b ih =>
    simp only [cellWrite, ih, cellSet, reduceCtorEq, if_false, cellGet_put, List.length_cons]
    by_cases h : n = k
    · subst h
      rw [if_neg (by omega), if_pos rfl, if_pos (by omega)]
      simp
    · by_cases g : n + 1 ≤ k ∧ k < n + 1 + b.length
      · rw [if_pos g, if_pos (by omega)]
        have : k - n = (k - (n + 1)) + 1 := by omega
        simp [this]
      · rw [if_neg g, if_neg h, if_neg (by omega)]

end Sys2Proof.Machine
end

