-- ==== Sys2Proof/Laws/Completes.lean ====
section
/-! SUPPORT. Each command answers a next state: the block has no command that stops it but a read outside HBM (R300, R308). -/

namespace Sys2Proof.Machine

theorem next_ite {c : Prop} [Decidable c] {a b : Outcome} (h : ∃ t : State, a = .next t) (k : ∃ t : State, b = .next t) :
    ∃ t : State, (if c then a else b) = .next t := by
  split
  · exact h
  · exact k

/-- The start of boot, where it is taken. -/
theorem tryBoot_next s : ∃ t, tryBoot s = .next t := by
  unfold tryBoot; split <;> exact ⟨_, rfl⟩

/-- A forwarded change is decided, committed or let fall. -/
theorem receiveChange_next c target change s : ∃ t, receiveChange c target change s = .next t := by
  unfold receiveChange; repeat' (first | exact ⟨_, rfl⟩ | split)

theorem execInputSupplyGood_next supply s : ∃ t, execInputSupplyGood supply s = .next t := by
  unfold execInputSupplyGood; split
  · exact tryBoot_next _
  · exact ⟨_, rfl⟩

theorem execSupplyDebounceDone_next s : ∃ t, execSupplyDebounceDone s = .next t := by
  unfold execSupplyDebounceDone; split <;> exact ⟨_, rfl⟩

theorem execRailWithinLimits_next s : ∃ t, execRailWithinLimits s = .next t := by
  unfold execRailWithinLimits; repeat' (first | exact ⟨_, rfl⟩ | split)

theorem execRailSequenceFail_next s : ∃ t, execRailSequenceFail s = .next t := by
  unfold execRailSequenceFail; split <;> exact ⟨_, rfl⟩

theorem execRailSequenceRetry_next s : ∃ t, execRailSequenceRetry s = .next t := by
  unfold execRailSequenceRetry; split <;> exact ⟨_, rfl⟩

theorem execPowerRemoved_next s : ∃ t, execPowerRemoved s = .next t := ⟨_, rfl⟩

theorem execFrcStartFail_next s : ∃ t, execFrcStartFail s = .next t := by
  unfold execFrcStartFail; repeat' (first | exact ⟨_, rfl⟩ | split | dsimp only)

theorem execFrcRestart_next s : ∃ t, execFrcRestart s = .next t := by
  unfold execFrcRestart; split <;> exact ⟨_, rfl⟩

theorem execLoopLockReported_next source s : ∃ t, execLoopLockReported source s = .next t := by
  unfold execLoopLockReported; repeat' (first | exact ⟨_, rfl⟩ | split | dsimp only)

theorem execSourceStable_next source ratio s : ∃ t, execSourceStable source ratio s = .next t := by
  unfold execSourceStable; split
  · exact tryBoot_next _
  · exact ⟨_, rfl⟩

theorem execResetNFall_next s : ∃ t, execResetNFall s = .next t := ⟨_, rfl⟩

theorem execResetAccepted_next s : ∃ t, execResetAccepted s = .next t := by
  unfold execResetAccepted; split <;> exact ⟨_, rfl⟩

theorem execResetNRelease_next svcEn s : ∃ t, execResetNRelease svcEn s = .next t := by
  unfold execResetNRelease; repeat' (first | exact ⟨_, rfl⟩ | split)

theorem execClockStopDetect_next source s : ∃ t, execClockStopDetect source s = .next t := by
  unfold execClockStopDetect; split <;> exact ⟨_, rfl⟩

theorem execFrequencyMeasurement_next source count s : ∃ t, execFrequencyMeasurement source count s = .next t := by
  unfold execFrequencyMeasurement; repeat' (first | exact ⟨_, rfl⟩ | split | dsimp only)

theorem execRootSwitchDone_next s : ∃ t, execRootSwitchDone s = .next t := by
  unfold execRootSwitchDone
  refine next_ite ?_ ⟨_, rfl⟩
  refine next_ite ⟨_, rfl⟩ ?_
  extract_lets
  split <;> exact ⟨_, rfl⟩

theorem execSafeHoldExit_next sourceTime s : ∃ t, execSafeHoldExit sourceTime s = .next t := by
  unfold execSafeHoldExit; repeat' (first | exact ⟨_, rfl⟩ | split | dsimp only)

theorem execPllSLockLoss_next s : ∃ t, execPllSLockLoss s = .next t := by
  unfold execPllSLockLoss; split <;> exact ⟨_, rfl⟩

theorem execSupplyLoss_next supply s : ∃ t, execSupplyLoss supply s = .next t := by
  unfold execSupplyLoss; split <;> exact ⟨_, rfl⟩

theorem execSupplyReturn_next supply s : ∃ t, execSupplyReturn supply s = .next t := by
  unfold execSupplyReturn; split <;> exact ⟨_, rfl⟩

theorem execOvercurrent_next s : ∃ t, execOvercurrent s = .next t := by
  unfold execOvercurrent; split <;> exact ⟨_, rfl⟩

theorem execCoreRailLoss_next rail s : ∃ t, execCoreRailLoss rail s = .next t := by
  unfold execCoreRailLoss; split <;> exact ⟨_, rfl⟩

theorem execHbmRailLoss_next stack s : ∃ t, execHbmRailLoss stack s = .next t := by
  unfold execHbmRailLoss; split <;> exact ⟨_, rfl⟩

theorem execTjSample_next env s : ∃ t, execTjSample env s = .next t := ⟨_, rfl⟩

theorem execPmbusPage_next page s : ∃ t, execPmbusPage page s = .next t := by
  unfold execPmbusPage; split <;> exact ⟨_, rfl⟩

theorem execPmbusClearFaults_next s : ∃ t, execPmbusClearFaults s = .next t := by
  unfold execPmbusClearFaults; split <;> exact ⟨_, rfl⟩

theorem execPmbusStatusWord_next s : ∃ t, execPmbusStatusWord s = .next t := by
  unfold execPmbusStatusWord pmbusRead; split <;> exact ⟨_, rfl⟩

theorem execPmbusStatusInput_next s : ∃ t, execPmbusStatusInput s = .next t := by
  unfold execPmbusStatusInput pmbusRead; split <;> exact ⟨_, rfl⟩

theorem execPmbusStatusIout_next s : ∃ t, execPmbusStatusIout s = .next t := by
  unfold execPmbusStatusIout pmbusRead; split <;> exact ⟨_, rfl⟩

theorem execPmbusStatusTemperature_next s : ∃ t, execPmbusStatusTemperature s = .next t := by
  unfold execPmbusStatusTemperature pmbusRead; split <;> exact ⟨_, rfl⟩

theorem execPmbusReadVin_next s : ∃ t, execPmbusReadVin s = .next t := by
  unfold execPmbusReadVin pmbusRead; split <;> exact ⟨_, rfl⟩

theorem execPmbusReadIin_next s : ∃ t, execPmbusReadIin s = .next t := by
  unfold execPmbusReadIin pmbusRead; split <;> exact ⟨_, rfl⟩

theorem execPmbusReadVout_next s : ∃ t, execPmbusReadVout s = .next t := by
  unfold execPmbusReadVout pmbusRead; split <;> exact ⟨_, rfl⟩

theorem execPmbusReadIout_next s : ∃ t, execPmbusReadIout s = .next t := by
  unfold execPmbusReadIout
  repeat' (first | exact ⟨_, rfl⟩ | split | dsimp only | unfold recordCommand | unfold takeRequest | unfold pmbusRead)

theorem execPmbusReadPin_next s : ∃ t, execPmbusReadPin s = .next t := by
  unfold execPmbusReadPin pmbusRead; split <;> exact ⟨_, rfl⟩

theorem execPmbusReadTemperature1_next s : ∃ t, execPmbusReadTemperature1 s = .next t := by
  unfold execPmbusReadTemperature1 pmbusRead; split <;> exact ⟨_, rfl⟩

theorem execPmbusMfrFaultLogRead_next s : ∃ t, execPmbusMfrFaultLogRead s = .next t := by
  unfold execPmbusMfrFaultLogRead; repeat' (first | exact ⟨_, rfl⟩ | split)

theorem execPmbusOtherWrite_next command s : ∃ t, execPmbusOtherWrite command s = .next t := ⟨_, rfl⟩

theorem execPtpMessageReceive_next port offset s : ∃ t, execPtpMessageReceive port offset s = .next t := by
  unfold execPtpMessageReceive; repeat' (first | exact ⟨_, rfl⟩ | split)

theorem execFrameInEdge_next offset s : ∃ t, execFrameInEdge offset s = .next t := ⟨_, rfl⟩

theorem execPpsInEdge_next offset s : ∃ t, execPpsInEdge offset s = .next t := ⟨_, rfl⟩

theorem execMtbSourceLost_next source s : ∃ t, execMtbSourceLost source s = .next t := by
  unfold execMtbSourceLost; split <;> exact ⟨_, rfl⟩

theorem execClkMtbFracRead_next transport s : ∃ t, execClkMtbFracRead transport s = .next t := ⟨_, rfl⟩

theorem execSampleTick_next tick env s : ∃ t, execSampleTick tick env s = .next t := by
  unfold execSampleTick; split <;> exact ⟨_, rfl⟩

theorem execFrameTick_next channel frame env s : ∃ t, execFrameTick channel frame env s = .next t := by
  unfold execFrameTick; repeat' (first | exact ⟨_, rfl⟩ | split | dsimp only)

theorem execRowTick_next channel frame row env s : ∃ t, execRowTick channel frame row env s = .next t := by
  unfold execRowTick; repeat' (first | exact ⟨_, rfl⟩ | split | dsimp only)

theorem execMtbWholeSecond_next second s : ∃ t, execMtbWholeSecond second s = .next t := by
  unfold execMtbWholeSecond; split <;> exact ⟨_, rfl⟩

theorem execPpsOutFall_next s : ∃ t, execPpsOutFall s = .next t := ⟨_, rfl⟩

theorem execMtbMillisecond_next millisecond s : ∃ t, execMtbMillisecond millisecond s = .next t := by
  unfold execMtbMillisecond; split <;> exact ⟨_, rfl⟩

theorem execShadowCommit_next channel target change s : ∃ t, execShadowCommit channel target change s = .next t := by
  unfold execShadowCommit; split <;> exact ⟨_, rfl⟩

theorem execShadowApply_next channel frame s : ∃ t, execShadowApply channel frame s = .next t := by
  unfold execShadowApply; repeat' (first | exact ⟨_, rfl⟩ | split)

theorem execPleachStripArrival_next engine strip s : ∃ t, execPleachStripArrival engine strip s = .next t := by
  unfold execPleachStripArrival; repeat' (first | exact ⟨_, rfl⟩ | split | dsimp only)

theorem execSliceVerdict_next verdict s : ∃ t, execSliceVerdict verdict s = .next t := by
  unfold execSliceVerdict; repeat' (first | exact ⟨_, rfl⟩ | split | dsimp only)

theorem execAlfDerivation_next context frame s : ∃ t, execAlfDerivation context frame s = .next t := by
  unfold execAlfDerivation; repeat' (first | exact ⟨_, rfl⟩ | split | dsimp only)

theorem execRingSegmentReroute_next channel segment s : ∃ t, execRingSegmentReroute channel segment s = .next t := by
  unfold execRingSegmentReroute; split <;> exact ⟨_, rfl⟩

theorem execSpareTakeover_next engine channel frame s : ∃ t, execSpareTakeover engine channel frame s = .next t := ⟨_, rfl⟩

theorem execGRecompute_next context frame s : ∃ t, execGRecompute context frame s = .next t := by
  unfold execGRecompute; repeat' (first | exact ⟨_, rfl⟩ | split | dsimp only)

theorem execSliceEmission_next context frame row s : ∃ t, execSliceEmission context frame row s = .next t := by
  unfold execSliceEmission; repeat' (first | exact ⟨_, rfl⟩ | split | dsimp only)

theorem execDecodeNalReceive_next context nal s : ∃ t, execDecodeNalReceive context nal s = .next t := ⟨_, rfl⟩

theorem execDecodeCloseTimeout_next context s : ∃ t, execDecodeCloseTimeout context s = .next t := by
  unfold execDecodeCloseTimeout; repeat' (first | exact ⟨_, rfl⟩ | split)

theorem execDecodePictureDone_next context picture s : ∃ t, execDecodePictureDone context picture s = .next t := by
  unfold execDecodePictureDone; repeat' (first | exact ⟨_, rfl⟩ | split)

theorem execGraphicsSlotRelease_next channel layer s : ∃ t, execGraphicsSlotRelease channel layer s = .next t := by
  unfold execGraphicsSlotRelease; repeat' (first | exact ⟨_, rfl⟩ | split | dsimp only)

theorem execSdiLineReceive_next line s : ∃ t, execSdiLineReceive line s = .next t := by
  unfold execSdiLineReceive; split <;> exact ⟨_, rfl⟩

theorem execSt2110PacketReceive_next packet s : ∃ t, execSt2110PacketReceive packet s = .next t := by
  unfold execSt2110PacketReceive; repeat' (first | exact ⟨_, rfl⟩ | split)

theorem execAes3FrameReceive_next input frame s : ∃ t, execAes3FrameReceive input frame s = .next t := by
  unfold execAes3FrameReceive; split <;> exact ⟨_, rfl⟩

theorem execTrackerBlock_next input count s : ∃ t, execTrackerBlock input count s = .next t := by
  unfold execTrackerBlock; repeat' (first | exact ⟨_, rfl⟩ | split)

theorem execAes3Stop_next input s : ∃ t, execAes3Stop input s = .next t := by
  unfold execAes3Stop; split <;> exact ⟨_, rfl⟩

theorem execPayloadMuteRelease_next path pair s : ∃ t, execPayloadMuteRelease path pair s = .next t := by
  unfold execPayloadMuteRelease; repeat' (first | exact ⟨_, rfl⟩ | split | dsimp only)

theorem execAes3BlockStartCheck_next port paired s : ∃ t, execAes3BlockStartCheck port paired s = .next t := by
  unfold execAes3BlockStartCheck; repeat' (first | exact ⟨_, rfl⟩ | split | dsimp only)

theorem execAudioPortRestartApply_next port frame s : ∃ t, execAudioPortRestartApply port frame s = .next t := by
  unfold execAudioPortRestartApply; repeat' (first | exact ⟨_, rfl⟩ | split | dsimp only)

theorem execPacketTransmit_next port s : ∃ t, execPacketTransmit port s = .next t := by
  unfold execPacketTransmit; split <;> exact ⟨_, rfl⟩

theorem execGateEntryChange_next port s : ∃ t, execGateEntryChange port s = .next t := by
  unfold execGateEntryChange; repeat' (first | exact ⟨_, rfl⟩ | split | dsimp only)

theorem execGateListStart_next port s : ∃ t, execGateListStart port s = .next t := by
  unfold execGateListStart; repeat' (first | exact ⟨_, rfl⟩ | split)

theorem execShaperRateApply_next leg tick s : ∃ t, execShaperRateApply leg tick s = .next t := by
  unfold execShaperRateApply; repeat' (first | exact ⟨_, rfl⟩ | split)

theorem execPsiInsertion_next flow frame s : ∃ t, execPsiInsertion flow frame s = .next t := by
  unfold execPsiInsertion; repeat' (first | exact ⟨_, rfl⟩ | split)

theorem execPcrInsertion_next flow videoDatagram s : ∃ t, execPcrInsertion flow videoDatagram s = .next t := by
  unfold execPcrInsertion; repeat' (first | exact ⟨_, rfl⟩ | split)

theorem execRtcpReceive_next flow message s : ∃ t, execRtcpReceive flow message s = .next t := by
  unfold execRtcpReceive; repeat' (first | exact ⟨_, rfl⟩ | split)

theorem execAddressResolved_next leg mac s : ∃ t, execAddressResolved leg mac s = .next t := ⟨_, rfl⟩

theorem execQueueSampleTimer_next s : ∃ t, execQueueSampleTimer s = .next t := by
  unfold execQueueSampleTimer; split <;> exact ⟨_, rfl⟩

theorem execPairDigestReceive_next digest partnerId partnerWants s : ∃ t, execPairDigestReceive digest partnerId partnerWants s = .next t := by
  unfold execPairDigestReceive; split <;> exact ⟨_, rfl⟩

theorem execClaimBeaconSend_next s : ∃ t, execClaimBeaconSend s = .next t := by
  unfold execClaimBeaconSend; split <;> exact ⟨_, rfl⟩

theorem execClaimBeaconReceive_next claim epoch mode degraded count s : ∃ t, execClaimBeaconReceive claim epoch mode degraded count s = .next t := by
  unfold execClaimBeaconReceive; split <;> exact ⟨_, rfl⟩

theorem execVaDown_next s : ∃ t, execVaDown s = .next t := by
  unfold execVaDown; split <;> exact ⟨_, rfl⟩

theorem execVaSilent_next s : ∃ t, execVaSilent s = .next t := by
  unfold execVaSilent; split <;> exact ⟨_, rfl⟩

theorem execPairHbInEdge_next level s : ∃ t, execPairHbInEdge level s = .next t := by
  unfold execPairHbInEdge; repeat' (first | exact ⟨_, rfl⟩ | split | dsimp only)

theorem execHeartbeatSilent_next s : ∃ t, execHeartbeatSilent s = .next t := by
  unfold execHeartbeatSilent; split <;> exact ⟨_, rfl⟩

theorem execHrwHeartbeatReceive_next path claim epoch s : ∃ t, execHrwHeartbeatReceive path claim epoch s = .next t := by
  unfold execHrwHeartbeatReceive; repeat' (first | exact ⟨_, rfl⟩ | split)

theorem execFingerprintReceive_next print s : ∃ t, execFingerprintReceive print s = .next t := by
  unfold execFingerprintReceive; repeat' (first | exact ⟨_, rfl⟩ | split)

theorem execFingerprintMissing_next stream s : ∃ t, execFingerprintMissing stream s = .next t := by
  unfold execFingerprintMissing; repeat' (first | exact ⟨_, rfl⟩ | split)

theorem execPairFrameEnd_next s : ∃ t, execPairFrameEnd s = .next t := by
  unfold execPairFrameEnd; repeat' (first | exact ⟨_, rfl⟩ | split)

theorem execResyncBulkDone_next channel frame bytes s : ∃ t, execResyncBulkDone channel frame bytes s = .next t := by
  unfold execResyncBulkDone; repeat' (first | exact ⟨_, rfl⟩ | split)

theorem execResyncSmallState_next channel bytes small s : ∃ t, execResyncSmallState channel bytes small s = .next t := by
  unfold execResyncSmallState; repeat' (first | exact ⟨_, rfl⟩ | split | dsimp only)

theorem execRoleSwapDue_next frame s : ∃ t, execRoleSwapDue frame s = .next t := by
  unfold execRoleSwapDue; repeat' (first | exact ⟨_, rfl⟩ | split | dsimp only)

theorem execRoleSwap_next frame s : ∃ t, execRoleSwap frame s = .next t := by
  unfold execRoleSwap; repeat' (first | exact ⟨_, rfl⟩ | split | dsimp only)

theorem execMergeSwitch_next leg time unit s : ∃ t, execMergeSwitch leg time unit s = .next t := by
  unfold execMergeSwitch; repeat' (first | exact ⟨_, rfl⟩ | split)

theorem execPartnerPacketReceive_next leg packet s : ∃ t, execPartnerPacketReceive leg packet s = .next t := by
  unfold execPartnerPacketReceive; repeat' (first | exact ⟨_, rfl⟩ | split | dsimp only)

theorem execForwardedChangeReceive_next channel target change s : ∃ t, execForwardedChangeReceive channel target change s = .next t := by
  unfold execForwardedChangeReceive; split
  · split
    · exact ⟨_, rfl⟩
    · exact ⟨_, rfl⟩
    · exact receiveChange_next ..
  · exact ⟨_, rfl⟩

theorem execClaimReleaseFlowsStop_next s : ∃ t, execClaimReleaseFlowsStop s = .next t := by
  unfold execClaimReleaseFlowsStop; repeat' (first | exact ⟨_, rfl⟩ | split)

theorem execWorkItemPost_next item s : ∃ t, execWorkItemPost item s = .next t := by
  unfold execWorkItemPost; repeat' (first | exact ⟨_, rfl⟩ | split | dsimp only)

theorem execProducerStallRelease_next queue s : ∃ t, execProducerStallRelease queue s = .next t := by
  unfold execProducerStallRelease; split <;> exact ⟨_, rfl⟩

theorem execCounterArm_next counter value s : ∃ t, execCounterArm counter value s = .next t := by
  unfold execCounterArm; repeat' (first | exact ⟨_, rfl⟩ | split | dsimp only)

theorem execParkedItemWake_next flow seq s : ∃ t, execParkedItemWake flow seq s = .next t := by
  unfold execParkedItemWake; repeat' (first | exact ⟨_, rfl⟩ | split)

theorem execCoreTakeItem_next core s : ∃ t, execCoreTakeItem core s = .next t := by
  unfold execCoreTakeItem; repeat' (first | exact ⟨_, rfl⟩ | split)

theorem execWorkItemComplete_next core retry s : ∃ t, execWorkItemComplete core retry s = .next t := by
  unfold execWorkItemComplete; repeat' (first | exact ⟨_, rfl⟩ | split)

theorem execRetryBackoffExpiry_next flow seq s : ∃ t, execRetryBackoffExpiry flow seq s = .next t := by
  unfold execRetryBackoffExpiry; repeat' (first | exact ⟨_, rfl⟩ | split)

theorem execItemWatchdog_next core s : ∃ t, execItemWatchdog core s = .next t := by
  unfold execItemWatchdog; repeat' (first | exact ⟨_, rfl⟩ | split)

theorem execWorkItemDeadline_next flow seq s : ∃ t, execWorkItemDeadline flow seq s = .next t := by
  unfold execWorkItemDeadline; repeat' (first | exact ⟨_, rfl⟩ | split)

theorem execRateQuotaPeriod_next s : ∃ t, execRateQuotaPeriod s = .next t := by
  unfold execRateQuotaPeriod; split <;> exact ⟨_, rfl⟩

theorem execRefreshDue_next pc requests s : ∃ t, execRefreshDue pc requests s = .next t := by
  unfold execRefreshDue; repeat' (first | exact ⟨_, rfl⟩ | split | dsimp only)

theorem execPostponedRefreshIssue_next pc s : ∃ t, execPostponedRefreshIssue pc s = .next t := by
  unfold execPostponedRefreshIssue; split <;> exact ⟨_, rfl⟩

theorem execStackTemperatureRead_next stack celsius s : ∃ t, execStackTemperatureRead stack celsius s = .next t := by
  unfold execStackTemperatureRead; split <;> exact ⟨_, rfl⟩

theorem execSelfRefreshEntry_next stack s : ∃ t, execSelfRefreshEntry stack s = .next t := by
  unfold execSelfRefreshEntry; repeat' (first | exact ⟨_, rfl⟩ | split)

theorem execSelfRefreshEntryDone_next stack s : ∃ t, execSelfRefreshEntryDone stack s = .next t := by
  unfold execSelfRefreshEntryDone; split <;> exact ⟨_, rfl⟩

theorem execHbmRequestWake_next address client s : ∃ t, execHbmRequestWake address client s = .next t := by
  unfold execHbmRequestWake; repeat' (first | exact ⟨_, rfl⟩ | split)

theorem execSelfRefreshExitDone_next stack s : ∃ t, execSelfRefreshExitDone stack s = .next t := by
  unfold execSelfRefreshExitDone; split <;> exact ⟨_, rfl⟩

theorem execScrubAccess_next pc corrected s : ∃ t, execScrubAccess pc corrected s = .next t := by
  unfold execScrubAccess; repeat' (first | exact ⟨_, rfl⟩ | split)

theorem execRemapCopyDone_next s : ∃ t, execRemapCopyDone s = .next t := by
  unfold execRemapCopyDone; split <;> exact ⟨_, rfl⟩

theorem execMemoryCheckDone_next failing s : ∃ t, execMemoryCheckDone failing s = .next t := by
  unfold execMemoryCheckDone; split <;> exact ⟨_, rfl⟩

theorem execEthFrameReceive_next port frame s : ∃ t, execEthFrameReceive port frame s = .next t := by
  unfold execEthFrameReceive; repeat' (first | exact ⟨_, rfl⟩ | split)

theorem execPauseExpiry_next port s : ∃ t, execPauseExpiry port s = .next t := by
  unfold execPauseExpiry; repeat' (first | exact ⟨_, rfl⟩ | split)

theorem execLnkPauseLong_next port s : ∃ t, execLnkPauseLong port s = .next t := by
  unfold execLnkPauseLong; repeat' (first | exact ⟨_, rfl⟩ | split)

theorem execEthPortUp_next port s : ∃ t, execEthPortUp port s = .next t := by
  unfold execEthPortUp; repeat' (first | exact ⟨_, rfl⟩ | split)

theorem execLnkEthDown_next port s : ∃ t, execLnkEthDown port s = .next t := ⟨_, rfl⟩

theorem execValsinFrameReceive_next port frame s : ∃ t, execValsinFrameReceive port frame s = .next t := by
  unfold execValsinFrameReceive; repeat' (first | exact ⟨_, rfl⟩ | split | dsimp only)

theorem execValsinAckTimer_next port s : ∃ t, execValsinAckTimer port s = .next t := ⟨_, rfl⟩

theorem execValsinRetryTimeout_next port s : ∃ t, execValsinRetryTimeout port s = .next t := by
  unfold execValsinRetryTimeout; repeat' (first | exact ⟨_, rfl⟩ | split | dsimp only)

theorem execValsinTrainingReceive_next port sets s : ∃ t, execValsinTrainingReceive port sets s = .next t := by
  unfold execValsinTrainingReceive; repeat' (first | exact ⟨_, rfl⟩ | split | dsimp only)

theorem execValsinStepSwitch_next port s : ∃ t, execValsinStepSwitch port s = .next t := by
  unfold execValsinStepSwitch; split <;> exact ⟨_, rfl⟩

theorem execValsinStepTimeout_next port s : ∃ t, execValsinStepTimeout port s = .next t := by
  unfold execValsinStepTimeout; repeat' (first | exact ⟨_, rfl⟩ | split | dsimp only)

theorem execValsinRetrainTimer_next port s : ∃ t, execValsinRetrainTimer port s = .next t := by
  unfold execValsinRetrainTimer; repeat' (first | exact ⟨_, rfl⟩ | split | dsimp only)

theorem execCommaLoss_next port lane s : ∃ t, execCommaLoss port lane s = .next t := by
  unfold execCommaLoss; repeat' (first | exact ⟨_, rfl⟩ | split | dsimp only)

theorem execValsinSleepEntry_next port s : ∃ t, execValsinSleepEntry port s = .next t := by
  unfold execValsinSleepEntry; repeat' (first | exact ⟨_, rfl⟩ | split | dsimp only)

theorem execValsinWake_next port s : ∃ t, execValsinWake port s = .next t := ⟨_, rfl⟩

theorem execValsinWakeFail_next port s : ∃ t, execValsinWakeFail port s = .next t := by
  unfold execValsinWakeFail; split <;> exact ⟨_, rfl⟩

theorem execHrwDiscovery_next port up s : ∃ t, execHrwDiscovery port up s = .next t := by
  unfold execHrwDiscovery; split <;> exact ⟨_, rfl⟩

theorem execHrwDepthAnnounce_next announced s : ∃ t, execHrwDepthAnnounce announced s = .next t := by
  unfold execHrwDepthAnnounce; repeat' (first | exact ⟨_, rfl⟩ | split)

theorem execHrwMapReceive_next port ids depth s : ∃ t, execHrwMapReceive port ids depth s = .next t := by
  unfold execHrwMapReceive; split <;> exact ⟨_, rfl⟩

theorem execHrwNoRoot_next s : ∃ t, execHrwNoRoot s = .next t := by
  unfold execHrwNoRoot; repeat' (first | exact ⟨_, rfl⟩ | split)

theorem execHrwBcastReceive_next origin seq data s : ∃ t, execHrwBcastReceive origin seq data s = .next t := by
  unfold execHrwBcastReceive; repeat' (first | exact ⟨_, rfl⟩ | split | dsimp only)

theorem execHrwBarrierArrival_next barrier port timeoutMs partialArrival s : ∃ t, execHrwBarrierArrival barrier port timeoutMs partialArrival s = .next t := by
  unfold execHrwBarrierArrival; split <;> exact ⟨_, rfl⟩

theorem execHrwBarrierRelease_next barrier seq partialRelease s : ∃ t, execHrwBarrierRelease barrier seq partialRelease s = .next t := by
  unfold execHrwBarrierRelease; repeat' (first | exact ⟨_, rfl⟩ | split | dsimp only)

theorem execHrwBarrierTimeout_next barrier s : ∃ t, execHrwBarrierTimeout barrier s = .next t := by
  unfold execHrwBarrierTimeout; split <;> exact ⟨_, rfl⟩

theorem execHrwScheduleReceive_next action s : ∃ t, execHrwScheduleReceive action s = .next t := ⟨_, rfl⟩

theorem execHrwActionTime_next seq s : ∃ t, execHrwActionTime seq s = .next t := ⟨_, rfl⟩

theorem execFaultReport_next source inst detail0 detail1 s : ∃ t, execFaultReport source inst detail0 detail1 s = .next t := ⟨_, rfl⟩

theorem execErrPulseEnd_next s : ∃ t, execErrPulseEnd s = .next t := by
  unfold execErrPulseEnd; split <;> exact ⟨_, rfl⟩

theorem execUnitResume_next source inst s : ∃ t, execUnitResume source inst s = .next t := by
  unfold execUnitResume; split <;> exact ⟨_, rfl⟩

theorem execFltPath_next source s : ∃ t, execFltPath source s = .next t := by
  unfold execFltPath; split <;> exact ⟨_, rfl⟩

theorem execFaultPathRestore_next source s : ∃ t, execFaultPathRestore source s = .next t := ⟨_, rfl⟩

theorem execFirmwareSlotVerify_next slot s : ∃ t, execFirmwareSlotVerify slot s = .next t := by
  unfold execFirmwareSlotVerify; repeat' (first | exact ⟨_, rfl⟩ | split | dsimp only)

theorem execConfigSlotVerify_next slot s : ∃ t, execConfigSlotVerify slot s = .next t := by
  unfold execConfigSlotVerify; repeat' (first | exact ⟨_, rfl⟩ | split | dsimp only)

theorem execRecordPadding_next payload s : ∃ t, execRecordPadding payload s = .next t := by
  unfold execRecordPadding recordCommand; split <;> exact ⟨_, rfl⟩

theorem execRecordUnknownType_next type payload s : ∃ t, execRecordUnknownType type payload s = .next t := by
  unfold execRecordUnknownType recordCommand; split <;> exact ⟨_, rfl⟩

theorem execGpioRecord_next payload s : ∃ t, execGpioRecord payload s = .next t := by
  unfold execGpioRecord recordCommand; split <;> exact ⟨_, rfl⟩

theorem execSupplyRecord_next payload s : ∃ t, execSupplyRecord payload s = .next t := by
  unfold execSupplyRecord recordCommand; split <;> exact ⟨_, rfl⟩

theorem execMtbDisciplineRecord_next payload s : ∃ t, execMtbDisciplineRecord payload s = .next t := by
  unfold execMtbDisciplineRecord recordCommand; split <;> exact ⟨_, rfl⟩

theorem execMemoryRecord_next payload s : ∃ t, execMemoryRecord payload s = .next t := by
  unfold execMemoryRecord recordCommand; split <;> exact ⟨_, rfl⟩

theorem execQosPortRecord_next payload s : ∃ t, execQosPortRecord payload s = .next t := by
  unfold execQosPortRecord recordCommand; split <;> exact ⟨_, rfl⟩

theorem execEthernetPortRecord_next payload s : ∃ t, execEthernetPortRecord payload s = .next t := by
  unfold execEthernetPortRecord recordCommand; split <;> exact ⟨_, rfl⟩

theorem execValsinPortRecord_next payload s : ∃ t, execValsinPortRecord payload s = .next t := by
  unfold execValsinPortRecord recordCommand; split <;> exact ⟨_, rfl⟩

theorem execIngressFlowRecord_next payload s : ∃ t, execIngressFlowRecord payload s = .next t := by
  unfold execIngressFlowRecord recordCommand; split <;> exact ⟨_, rfl⟩

theorem execAlignmentGroupRecord_next payload s : ∃ t, execAlignmentGroupRecord payload s = .next t := by
  unfold execAlignmentGroupRecord recordCommand; split <;> exact ⟨_, rfl⟩

theorem execGroupMemberRecord_next payload s : ∃ t, execGroupMemberRecord payload s = .next t := by
  unfold execGroupMemberRecord recordCommand; split <;> exact ⟨_, rfl⟩

theorem execAes3InputRecord_next payload s : ∃ t, execAes3InputRecord payload s = .next t := by
  unfold execAes3InputRecord recordCommand; split <;> exact ⟨_, rfl⟩

theorem execAes3OutputRecord_next payload s : ∃ t, execAes3OutputRecord payload s = .next t := by
  unfold execAes3OutputRecord recordCommand; split <;> exact ⟨_, rfl⟩

theorem execAudioProgrammeRecord_next payload s : ∃ t, execAudioProgrammeRecord payload s = .next t := by
  unfold execAudioProgrammeRecord recordCommand; split <;> exact ⟨_, rfl⟩

theorem execCompositorRecord_next payload s : ∃ t, execCompositorRecord payload s = .next t := by
  unfold execCompositorRecord recordCommand; split <;> exact ⟨_, rfl⟩

theorem execVideoLayerRecord_next payload s : ∃ t, execVideoLayerRecord payload s = .next t := by
  unfold execVideoLayerRecord recordCommand; split <;> exact ⟨_, rfl⟩

theorem execGraphicsLayerRecord_next payload s : ∃ t, execGraphicsLayerRecord payload s = .next t := by
  unfold execGraphicsLayerRecord recordCommand; split <;> exact ⟨_, rfl⟩

theorem execSlateDataRecord_next payload s : ∃ t, execSlateDataRecord payload s = .next t := by
  unfold execSlateDataRecord recordCommand; split <;> exact ⟨_, rfl⟩

theorem execTopiaryRegionRecord_next payload s : ∃ t, execTopiaryRegionRecord payload s = .next t := by
  unfold execTopiaryRegionRecord recordCommand; split <;> exact ⟨_, rfl⟩

theorem execEncodeChannelRecord_next payload s : ∃ t, execEncodeChannelRecord payload s = .next t := by
  unfold execEncodeChannelRecord recordCommand; split <;> exact ⟨_, rfl⟩

theorem execEncodeContextRecord_next payload s : ∃ t, execEncodeContextRecord payload s = .next t := by
  unfold execEncodeContextRecord recordCommand; split <;> exact ⟨_, rfl⟩

theorem execContextCodingRecord_next payload s : ∃ t, execContextCodingRecord payload s = .next t := by
  unfold execContextCodingRecord recordCommand; split <;> exact ⟨_, rfl⟩

theorem execChannelColourRecord_next payload s : ∃ t, execChannelColourRecord payload s = .next t := by
  unfold execChannelColourRecord recordCommand; split <;> exact ⟨_, rfl⟩

theorem execRateControlRecord_next payload s : ∃ t, execRateControlRecord payload s = .next t := by
  unfold execRateControlRecord recordCommand; split <;> exact ⟨_, rfl⟩

theorem execCoppiceRecord_next payload s : ∃ t, execCoppiceRecord payload s = .next t := by
  unfold execCoppiceRecord recordCommand; split <;> exact ⟨_, rfl⟩

theorem execDecodeContextRecord_next payload s : ∃ t, execDecodeContextRecord payload s = .next t := by
  unfold execDecodeContextRecord recordCommand; split <;> exact ⟨_, rfl⟩

theorem execEgressFlowRecord_next payload s : ∃ t, execEgressFlowRecord payload s = .next t := by
  unfold execEgressFlowRecord recordCommand; split <;> exact ⟨_, rfl⟩

theorem execFlowGroupRecord_next payload s : ∃ t, execFlowGroupRecord payload s = .next t := by
  unfold execFlowGroupRecord recordCommand; split <;> exact ⟨_, rfl⟩

theorem execPortClassRecord_next payload s : ∃ t, execPortClassRecord payload s = .next t := by
  unfold execPortClassRecord recordCommand; split <;> exact ⟨_, rfl⟩

theorem execGateListRecord_next payload s : ∃ t, execGateListRecord payload s = .next t := by
  unfold execGateListRecord recordCommand; split <;> exact ⟨_, rfl⟩

theorem execIngressPolicerRecord_next payload s : ∃ t, execIngressPolicerRecord payload s = .next t := by
  unfold execIngressPolicerRecord recordCommand; split <;> exact ⟨_, rfl⟩

theorem execPairRecord_next payload s : ∃ t, execPairRecord payload s = .next t := by
  unfold execPairRecord recordCommand; split <;> exact ⟨_, rfl⟩

theorem execHedgerowRecord_next payload s : ∃ t, execHedgerowRecord payload s = .next t := by
  unfold execHedgerowRecord recordCommand; split <;> exact ⟨_, rfl⟩

theorem execSeverityRecord_next payload s : ∃ t, execSeverityRecord payload s = .next t := by
  unfold execSeverityRecord recordCommand; split <;> exact ⟨_, rfl⟩

theorem execGeneralFaultRecord_next payload s : ∃ t, execGeneralFaultRecord payload s = .next t := by
  unfold execGeneralFaultRecord recordCommand; split <;> exact ⟨_, rfl⟩

theorem execBindingRecord_next payload s : ∃ t, execBindingRecord payload s = .next t := by
  unfold execBindingRecord recordCommand; split <;> exact ⟨_, rfl⟩

theorem execPartitionKeyRecord_next payload s : ∃ t, execPartitionKeyRecord payload s = .next t := by
  unfold execPartitionKeyRecord recordCommand; split <;> exact ⟨_, rfl⟩

theorem execManagementPortRecord_next payload s : ∃ t, execManagementPortRecord payload s = .next t := by
  unfold execManagementPortRecord recordCommand; split <;> exact ⟨_, rfl⟩

theorem execPartitionChannelRecord_next payload s : ∃ t, execPartitionChannelRecord payload s = .next t := by
  unfold execPartitionChannelRecord recordCommand; split <;> exact ⟨_, rfl⟩

theorem execKeyRecord_next payload tagOk s : ∃ t, execKeyRecord payload tagOk s = .next t := by
  unfold execKeyRecord recordCommand; split <;> exact ⟨_, rfl⟩

theorem execEnrolmentRecord_next payload s : ∃ t, execEnrolmentRecord payload s = .next t := by
  unfold execEnrolmentRecord
  repeat' (first | exact ⟨_, rfl⟩ | split | dsimp only | unfold recordCommand)

theorem execPartitionQuotaRecord_next payload s : ∃ t, execPartitionQuotaRecord payload s = .next t := by
  unfold execPartitionQuotaRecord recordCommand; split <;> exact ⟨_, rfl⟩

theorem execGeneralUnitRecord_next payload s : ∃ t, execGeneralUnitRecord payload s = .next t := by
  unfold execGeneralUnitRecord recordCommand; split <;> exact ⟨_, rfl⟩

theorem execEngineSelftestDone_next engines analysers decoders s : ∃ t, execEngineSelftestDone engines analysers decoders s = .next t := by
  unfold execEngineSelftestDone; split <;> exact ⟨_, rfl⟩

theorem execBoxCoreSelftestDone_next passing s : ∃ t, execBoxCoreSelftestDone passing s = .next t := by
  unfold execBoxCoreSelftestDone; split <;> exact ⟨_, rfl⟩

theorem execCvuSelftestDone_next failing s : ∃ t, execCvuSelftestDone failing s = .next t := by
  unfold execCvuSelftestDone; split <;> exact ⟨_, rfl⟩

theorem execAdmission_next s : ∃ t, execAdmission s = .next t := by
  unfold execAdmission; split <;> exact ⟨_, rfl⟩

theorem execConfigureComplete_next s : ∃ t, execConfigureComplete s = .next t := by
  unfold execConfigureComplete; split <;> exact ⟨_, rfl⟩

theorem execConfigureMtbTimeout_next s : ∃ t, execConfigureMtbTimeout s = .next t := by
  unfold execConfigureMtbTimeout; split <;> exact ⟨_, rfl⟩

theorem execFuseBitProgram_next ok s : ∃ t, execFuseBitProgram ok s = .next t := by
  unfold execFuseBitProgram; repeat' (first | exact ⟨_, rfl⟩ | split)

theorem execModeRequestExecute_next s : ∃ t, execModeRequestExecute s = .next t := by
  unfold execModeRequestExecute; repeat' (first | exact ⟨_, rfl⟩ | split | dsimp only)

theorem execUpdateEraseDone_next s : ∃ t, execUpdateEraseDone s = .next t := by
  unfold execUpdateEraseDone; repeat' (first | exact ⟨_, rfl⟩ | split)

theorem execUpdateVerifyDone_next item config s : ∃ t, execUpdateVerifyDone item config s = .next t := by
  unfold execUpdateVerifyDone; repeat' (first | exact ⟨_, rfl⟩ | split)

theorem execUpdateTimeout_next s : ∃ t, execUpdateTimeout s = .next t := by
  unfold execUpdateTimeout; repeat' (first | exact ⟨_, rfl⟩ | split)

theorem execEncChannelInfo_next req s : ∃ t, execEncChannelInfo req s = .next t := ⟨_, rfl⟩

theorem execEncPoolInfo_next req s : ∃ t, execEncPoolInfo req s = .next t := ⟨_, rfl⟩

theorem execEncRefInfo_next req s : ∃ t, execEncRefInfo req s = .next t := ⟨_, rfl⟩

theorem execEncSetBitrate_next req s : ∃ t, execEncSetBitrate req s = .next t := ⟨_, rfl⟩

theorem execEncRcInfo_next req s : ∃ t, execEncRcInfo req s = .next t := ⟨_, rfl⟩

theorem execDecCtxInfo_next req s : ∃ t, execDecCtxInfo req s = .next t := ⟨_, rfl⟩

theorem execCmpChInfo_next req s : ∃ t, execCmpChInfo req s = .next t := ⟨_, rfl⟩

theorem execCmpSetLayer_next req s : ∃ t, execCmpSetLayer req s = .next t := ⟨_, rfl⟩

theorem execIngGroupInfo_next req s : ∃ t, execIngGroupInfo req s = .next t := ⟨_, rfl⟩

theorem execAudPortRestart_next req s : ∃ t, execAudPortRestart req s = .next t := ⟨_, rfl⟩

theorem execEgrSetRate_next req s : ∃ t, execEgrSetRate req s = .next t := ⟨_, rfl⟩

theorem execEgrSetGates_next req s : ∃ t, execEgrSetGates req s = .next t := ⟨_, rfl⟩

theorem execRedPairInfo_next req s : ∃ t, execRedPairInfo req s = .next t := ⟨_, rfl⟩

theorem execRedSwapNow_next req s : ∃ t, execRedSwapNow req s = .next t := ⟨_, rfl⟩

theorem execReferenceActionAck_next req s : ∃ t, execReferenceActionAck req s = .next t := ⟨_, rfl⟩

theorem execReferenceActionLoss_next req s : ∃ t, execReferenceActionLoss req s = .next t := ⟨_, rfl⟩

theorem execOverlayUpdateGraphics_next req s : ∃ t, execOverlayUpdateGraphics req s = .next t := ⟨_, rfl⟩

theorem execOverlayUpdateExpected_next req s : ∃ t, execOverlayUpdateExpected req s = .next t := ⟨_, rfl⟩

theorem execSpliceInsertion_next req s : ∃ t, execSpliceInsertion req s = .next t := ⟨_, rfl⟩

theorem execSeiInsertion_next req s : ∃ t, execSeiInsertion req s = .next t := ⟨_, rfl⟩

theorem execLnkPortInfo_next req s : ∃ t, execLnkPortInfo req s = .next t := ⟨_, rfl⟩

theorem execLnkRetrain_next req s : ∃ t, execLnkRetrain req s = .next t := ⟨_, rfl⟩

theorem execLnkRetrainTimeout_next kind port s : ∃ t, execLnkRetrainTimeout kind port s = .next t := by
  unfold execLnkRetrainTimeout; repeat' (first | exact ⟨_, rfl⟩ | split | dsimp only)

theorem execHrwBroadcast_next req s : ∃ t, execHrwBroadcast req s = .next t := ⟨_, rfl⟩

theorem execHrwScheduleSnapshot_next req s : ∃ t, execHrwScheduleSnapshot req s = .next t := ⟨_, rfl⟩

theorem execHrwScheduleReset_next req s : ∃ t, execHrwScheduleReset req s = .next t := ⟨_, rfl⟩

theorem execHrwBarrier_next req s : ∃ t, execHrwBarrier req s = .next t := ⟨_, rfl⟩

theorem execHrwSnapRead_next req s : ∃ t, execHrwSnapRead req s = .next t := ⟨_, rfl⟩

theorem execClkSwitchToPllR_next req s : ∃ t, execClkSwitchToPllR req s = .next t := ⟨_, rfl⟩

theorem execClkSwitchToFrc_next req s : ∃ t, execClkSwitchToFrc req s = .next t := ⟨_, rfl⟩

theorem execSecIdentity_next req s : ∃ t, execSecIdentity req s = .next t := ⟨_, rfl⟩

theorem execSecAttest_next req s : ∃ t, execSecAttest req s = .next t := ⟨_, rfl⟩

theorem execSecAttestRead_next req s : ∃ t, execSecAttestRead req s = .next t := ⟨_, rfl⟩

theorem execSecUpdateBegin_next req s : ∃ t, execSecUpdateBegin req s = .next t := ⟨_, rfl⟩

theorem execSecUpdateData_next req s : ∃ t, execSecUpdateData req s = .next t := ⟨_, rfl⟩

theorem execSecUpdateEnd_next req s : ∃ t, execSecUpdateEnd req s = .next t := ⟨_, rfl⟩

theorem execSecUpdateAbort_next req s : ∃ t, execSecUpdateAbort req s = .next t := ⟨_, rfl⟩

theorem execHstInfo_next req s : ∃ t, execHstInfo req s = .next t := ⟨_, rfl⟩

theorem execHstNop_next req s : ∃ t, execHstNop req s = .next t := ⟨_, rfl⟩

theorem execHstBufWriteInline_next req s : ∃ t, execHstBufWriteInline req s = .next t := ⟨_, rfl⟩

theorem execHstBufWritePull_next req s : ∃ t, execHstBufWritePull req s = .next t := ⟨_, rfl⟩

theorem execHstModeReqQuiescent_next req s : ∃ t, execHstModeReqQuiescent req s = .next t := ⟨_, rfl⟩

theorem execHstModeReqRun_next req s : ∃ t, execHstModeReqRun req s = .next t := ⟨_, rfl⟩

theorem execHstRegRead_next req s : ∃ t, execHstRegRead req s = .next t := ⟨_, rfl⟩

theorem execHstRegWrite_next req s : ∃ t, execHstRegWrite req s = .next t := ⟨_, rfl⟩

theorem execMailboxUnknownOpcode_next opcode req s : ∃ t, execMailboxUnknownOpcode opcode req s = .next t := ⟨_, rfl⟩

theorem execHstReqTailWrite_next function tail ring s : ∃ t, execHstReqTailWrite function tail ring s = .next t := by
  unfold execHstReqTailWrite; split <;> exact ⟨_, rfl⟩

theorem execHstRingReset_next function s : ∃ t, execHstRingReset function s = .next t := by
  unfold execHstRingReset; split <;> exact ⟨_, rfl⟩

theorem execHstRplHeadWrite_next function head s : ∃ t, execHstRplHeadWrite function head s = .next t := by
  unfold execHstRplHeadWrite; split <;> exact ⟨_, rfl⟩

theorem execSessionHello_next port partition peer s : ∃ t, execSessionHello port partition peer s = .next t := by
  unfold execSessionHello; repeat' (first | exact ⟨_, rfl⟩ | split)

theorem execSessionAuth_next session signatureOk peer s : ∃ t, execSessionAuth session signatureOk peer s = .next t := by
  unfold execSessionAuth; repeat' (first | exact ⟨_, rfl⟩ | split)

theorem execSessionProtectedFrame_next session counter tagOk peer message s : ∃ t, execSessionProtectedFrame session counter tagOk peer message s = .next t := by
  unfold execSessionProtectedFrame; repeat' (first | exact ⟨_, rfl⟩ | split)

theorem execSessionIdleTimeout_next session s : ∃ t, execSessionIdleTimeout session s = .next t := by
  unfold execSessionIdleTimeout; split <;> exact ⟨_, rfl⟩

theorem execAuthLockoutExpiry_next partition s : ∃ t, execAuthLockoutExpiry partition s = .next t := by
  unfold execAuthLockoutExpiry; split <;> exact ⟨_, rfl⟩

theorem execFunctionLevelReset_next function s : ∃ t, execFunctionLevelReset function s = .next t := by
  unfold execFunctionLevelReset; split <;> exact ⟨_, rfl⟩

theorem execInterruptModerationExpiry_next function s : ∃ t, execInterruptModerationExpiry function s = .next t := by
  unfold execInterruptModerationExpiry; split <;> exact ⟨_, rfl⟩

theorem execHstIntCauseClear_next function mask s : ∃ t, execHstIntCauseClear function mask s = .next t := by
  unfold execHstIntCauseClear; split <;> exact ⟨_, rfl⟩

theorem execEgrStatSelect_next transport value s : ∃ t, execEgrStatSelect transport value s = .next t := ⟨_, rfl⟩

theorem execEgrStatSelectClear_next transport value s : ∃ t, execEgrStatSelectClear transport value s = .next t := ⟨_, rfl⟩

theorem execDrmDlySelect_next transport value s : ∃ t, execDrmDlySelect transport value s = .next t := ⟨_, rfl⟩

theorem execClkMonSelect_next transport value s : ∃ t, execClkMonSelect transport value s = .next t := ⟨_, rfl⟩

theorem execFltLogSelect_next transport value s : ∃ t, execFltLogSelect transport value s = .next t := ⟨_, rfl⟩

theorem execFltSrcSelect_next transport value s : ∃ t, execFltSrcSelect transport value s = .next t := ⟨_, rfl⟩

theorem execFltErrRelease_next transport s : ∃ t, execFltErrRelease transport s = .next t := ⟨_, rfl⟩

theorem execCvuRunLoWrite_next transport unit value s : ∃ t, execCvuRunLoWrite transport unit value s = .next t := ⟨_, rfl⟩

theorem execCvuRunHiWrite_next transport unit value s : ∃ t, execCvuRunHiWrite transport unit value s = .next t := ⟨_, rfl⟩

theorem execCvuRunLoRead_next transport unit s : ∃ t, execCvuRunLoRead transport unit s = .next t := by
  unfold execCvuRunLoRead; split <;> exact ⟨_, rfl⟩

theorem execClkLostClear_next transport mask s : ∃ t, execClkLostClear transport mask s = .next t := ⟨_, rfl⟩

theorem execPwrGpioOutWrite_next transport value s : ∃ t, execPwrGpioOutWrite transport value s = .next t := ⟨_, rfl⟩

theorem execLowWordLatchRead_next transport offset s : ∃ t, execLowWordLatchRead transport offset s = .next t := ⟨_, rfl⟩

theorem execReadClearRegisterRead_next transport offset s : ∃ t, execReadClearRegisterRead transport offset s = .next t := ⟨_, rfl⟩

theorem execRegisterWrite_next transport offset value s : ∃ t, execRegisterWrite transport offset value s = .next t := ⟨_, rfl⟩

theorem execLoopLossOfLock_next source s : ∃ t, execLoopLossOfLock source s = .next t := by
  unfold execLoopLossOfLock; split <;> exact ⟨_, rfl⟩

theorem execInputSupplyBad_next supply s : ∃ t, execInputSupplyBad supply s = .next t := by
  unfold execInputSupplyBad; split <;> exact ⟨_, rfl⟩

theorem execPvdSubmitUnknownClass_next req s : ∃ t, execPvdSubmitUnknownClass req s = .next t := ⟨_, rfl⟩

theorem execHrwRequestAtRoot_next request s : ∃ t, execHrwRequestAtRoot request s = .next t := ⟨_, rfl⟩

theorem execHostDmaPullDone_next function data s : ∃ t, execHostDmaPullDone function data s = .next t := by
  unfold execHostDmaPullDone; repeat' (first | exact ⟨_, rfl⟩ | split | dsimp only)

theorem execGraphicsSlotCopyDone_next channel layer s : ∃ t, execGraphicsSlotCopyDone channel layer s = .next t := by
  unfold execGraphicsSlotCopyDone; split <;> exact ⟨_, rfl⟩

end Sys2Proof.Machine
end

