-- ==== Sys2Proof/Laws/Tables.lean ====
section
/-! SUPPORT. The laws of sparse tables: what reads after what was put. -/

namespace Sys2Proof.Machine

variable {α : Type}

/-- What a table reads at a key after a value was put at some key. -/
theorem tget_tset (t : Tab α) (n k : Nat) (v : α) : tget (tset t n v) k = if n = k then some v else tget t k := by
  induction t with
  | nil => simp [tset, tget]
  | cons p t ih =>
    obtain ⟨j, w⟩ := p
    simp only [tset]
    split
    · simp only [tget]
    · rename_i h
      split
      · rename_i e
        subst e
        simp only [tget]
        split <;> simp_all
      · rename_i e
        simp only [tget, ih]
        split <;> rename_i f
        · subst f; rw [if_neg]; omega
        · rfl

/-- The value put at a key reads back. -/
@[simp] theorem tget_tset_self (t : Tab α) (n : Nat) (v : α) : tget (tset t n v) n = some v := by simp [tget_tset]

/-- A value put at another key changes nothing. -/
theorem tget_tset_ne (t : Tab α) {n k : Nat} (v : α) (h : n ≠ k) : tget (tset t n v) k = tget t k := by simp [tget_tset, h]

/-- The value or default that reads after a value was put. -/
theorem tgetD_tset (t : Tab α) (n k : Nat) (v d : α) : tgetD (tset t n v) k d = if n = k then v else tgetD t k d := by
  simp only [tgetD, tget_tset]; split <;> rfl

/-- The value put at a key reads back, whatever the default. -/
@[simp] theorem tgetD_tset_self (t : Tab α) (n : Nat) (v d : α) : tgetD (tset t n v) n d = v := by simp [tgetD_tset]

/-- A value changed at another key changes nothing here. -/
theorem tgetD_tupd (t : Tab α) (n k : Nat) (d : α) (f : α → α) :
    tgetD (tupd t n d f) k d = if n = k then f (tgetD t k d) else tgetD t k d := by
  simp only [tupd, tgetD_tset]; split <;> simp_all

/-- The value changed at a key from its present value or a default. -/
@[simp] theorem tgetD_tupd_self (t : Tab α) (n : Nat) (d : α) (f : α → α) : tgetD (tupd t n d f) n d = f (tgetD t n d) := by
  simp [tgetD_tupd]

/-- A value changed where the table has one. -/
theorem tget_tmod (t : Tab α) (n k : Nat) (f : α → α) :
    tget (tmod t n f) k = if n = k then (tget t k).map f else tget t k := by
  induction t with
  | nil => simp [tmod, tget]
  | cons p t ih =>
    obtain ⟨j, w⟩ := p
    simp only [tmod, List.map_cons] at ih ⊢
    by_cases h : j = n
    · subst h
      simp only [if_pos, tget, ih]
      split <;> simp_all
    · simp only [if_neg h, tget, ih]
      by_cases e : j = k
      · subst e; simp [Ne.symm h]
      · simp [e]

/-- A key taken out reads nothing, every other as before. -/
theorem tget_tdel (t : Tab α) (n k : Nat) : tget (tdel t n) k = if n = k then none else tget t k := by
  induction t with
  | nil => simp [tdel, tget]
  | cons p t ih =>
    obtain ⟨j, w⟩ := p
    simp only [tdel, List.filter_cons] at ih ⊢
    by_cases h : j = n
    · subst h
      simp only [bne_self_eq_false, Bool.false_eq_true, if_false, tget, ih]
      split <;> simp_all
    · simp only [bne_iff_ne, ne_eq, h, not_false_eq_true, if_true, tget, ih]
      by_cases e : j = k
      · subst e; simp [Ne.symm h]
      · simp [e]

/-- Every value changed, key by key. -/
theorem tget_tmap (t : Tab α) (k : Nat) (f : Nat → α → α) : tget (tmap t f) k = (tget t k).map (f k) := by
  induction t with
  | nil => simp [tmap, tget]
  | cons p t ih =>
    obtain ⟨j, w⟩ := p
    simp only [tmap, List.map_cons] at ih ⊢
    simp only [tget, ih]
    split
    · rename_i e; subst e; rfl
    · rfl

end Sys2Proof.Machine
end

