-- ==== Sys2Proof/Laws/Keeps.lean ====
section
/-! SUPPORT. What every operation keeps: the queue of commands, the canonical form of HBM, the fuses, and in a mode that asks for
them the safety of the outputs and the absence of a claim. -/

namespace Sys2Proof.Machine

open Sys2Proof.Safety

/-- The queue, HBM's form and the fuses are kept. -/
structure Kept (s t : State) : Prop where
  pending : t.pending = s.pending
  mem : hbmWf s.drm.mem = true → hbmWf t.drm.mem = true
  fuses : FusesKept s.sec.fuses t.sec.fuses

/-- What Kept says, and the safety of the outputs and the absence of a claim besides. -/
structure Keeps (s t : State) : Prop extends Kept s t where
  safe : outputsSafe s = true → outputsSafe t = true
  claim : claimFree s = true → claimFree t = true

/-- An outcome that, where it is a next state, keeps what Keeps says. -/
def KeepsO (s : State) (o : Outcome) : Prop := ∀ t, o = .next t → Keeps s t

theorem fusesKept_refl (a : Fuses) : FusesKept a a := ⟨rfl, id, id, Nat.le_refl _, fun _ => Nat.le_refl _⟩

theorem fusesKept_trans {a b c : Fuses} (h : FusesKept a b) (k : FusesKept b c) : FusesKept a c :=
  ⟨k.1.trans h.1, fun x => k.2.1 (h.2.1 x), fun x => k.2.2.1 (h.2.2.1 x), h.2.2.2.1.trans k.2.2.2.1,
    fun i => (h.2.2.2.2 i).trans (k.2.2.2.2 i)⟩

theorem Kept.refl (s : State) : Kept s s := ⟨rfl, id, fusesKept_refl _⟩

theorem Kept.trans {a b c : State} (h : Kept a b) (k : Kept b c) : Kept a c :=
  ⟨k.pending.trans h.pending, fun x => k.mem (h.mem x), fusesKept_trans h.fuses k.fuses⟩

theorem Keeps.refl (s : State) : Keeps s s := ⟨Kept.refl s, id, id⟩

theorem Keeps.trans {a b c : State} (h : Keeps a b) (k : Keeps b c) : Keeps a c :=
  ⟨h.toKept.trans k.toKept, fun x => k.safe (h.safe x), fun x => k.claim (h.claim x)⟩

/-- A state in which the parts concerned are those of another. -/
theorem Keeps.of_eq {s t : State} (hp : t.pending = s.pending) (hm : t.drm.mem = s.drm.mem) (ho : t.mode.mode = s.mode.mode)
    (hs : t.pins.forcedSafe = s.pins.forcedSafe) (hc : t.red.claim = s.red.claim) (hf : t.sec.fuses = s.sec.fuses) : Keeps s t :=
  ⟨⟨hp, fun k => by rw [hm]; exact k, by rw [hf]; exact fusesKept_refl _⟩,
    fun k => by simp only [outputsSafe, ho, hs] at *; exact k, fun k => by simp only [claimFree, ho, hc] at *; exact k⟩

/-- Fields put that leave the parts concerned alone. -/
theorem Keeps.put {s x : State} {f1 f2 f3 f4 f5 f6 f7 f8 f9 f10 f11 f12 f13 f14 f15 f16 f17 f18 f19 f20 f21 f22 f23}
    (hp : f23 = x.pending) (h : Keeps s x) (hm : f15.mem = x.drm.mem) (ho : f5.mode = x.mode.mode)
    (hs : f3.forcedSafe = x.pins.forcedSafe) (hc : f12.claim = x.red.claim) (hf : f19.fuses = x.sec.fuses) :
    Keeps s (State.mk f1 f2 f3 f4 f5 f6 f7 f8 f9 f10 f11 f12 f13 f14 f15 f16 f17 f18 f19 f20 f21 f22 f23) :=
  h.trans (Keeps.of_eq hp hm ho hs hc hf)

/-- Fields put of which only the fuses concern what is kept. -/
theorem Keeps.put_fuses {s x : State} {f1 f2 f3 f4 f5 f6 f7 f8 f9 f10 f11 f12 f13 f14 f15 f16 f17 f18 f19 f20 f21 f22 f23}
    (hf : FusesKept x.sec.fuses f19.fuses) (hp : f23 = x.pending) (h : Keeps s x) (hm : f15.mem = x.drm.mem)
    (ho : f5.mode = x.mode.mode) (hs : f3.forcedSafe = x.pins.forcedSafe) (hc : f12.claim = x.red.claim) :
    Keeps s (State.mk f1 f2 f3 f4 f5 f6 f7 f8 f9 f10 f11 f12 f13 f14 f15 f16 f17 f18 f19 f20 f21 f22 f23) :=
  h.trans ⟨⟨hp, fun k => by rw [hm]; exact k, hf⟩,
    fun k => by simp only [outputsSafe, ho, hs] at *; exact k, fun k => by simp only [claimFree, ho, hc] at *; exact k⟩

theorem Keeps.ite {s a b : State} {c : Prop} [Decidable c] (h : Keeps s a) (k : Keeps s b) : Keeps s (if c then a else b) := by
  split
  · exact h
  · exact k

theorem Keeps.ite_fst {α : Type} {s : State} {a b : State × α} {c : Prop} [Decidable c] (h : Keeps s a.1) (k : Keeps s b.1) :
    Keeps s (if c then a else b).1 := by
  split
  · exact h
  · exact k

theorem Keeps.ite_snd {α : Type} {s : State} {a b : α × State} {c : Prop} [Decidable c] (h : Keeps s a.2) (k : Keeps s b.2) :
    Keeps s (if c then a else b).2 := by
  split
  · exact h
  · exact k

theorem Keeps.foldl {α : Type} {s x : State} {g : State → α → State} {l : List α} (h : Keeps s x) (k : ∀ y a, Keeps y (g y a)) :
    Keeps s (l.foldl g x) := by
  induction l generalizing x with
  | nil => exact h
  | cons a l ih => exact ih (h.trans (k x a))

/-- A fold that carries something beside the state. -/
theorem Keeps.foldl_fst {α β : Type} {s : State} {x : State × β} {g : State × β → α → State × β} {l : List α} (h : Keeps s x.1)
    (k : ∀ y a, Keeps y.1 (g y a).1) : Keeps s (l.foldl g x).1 := by
  induction l generalizing x with
  | nil => exact h
  | cons a l ih => exact ih (h.trans (k x a))

/-- A fold that carries something before the state. -/
theorem Keeps.foldl_snd {α β : Type} {s : State} {x : β × State} {g : β × State → α → β × State} {l : List α} (h : Keeps s x.2)
    (k : ∀ y a, Keeps y.2 (g y a).2) : Keeps s (l.foldl g x).2 := by
  induction l generalizing x with
  | nil => exact h
  | cons a l ih => exact ih (h.trans (k x a))

theorem Keeps.of_snd {α : Type} {s t : State} {a : α} {p : α × State} (e : p = (a, t)) (h : Keeps s p.2) : Keeps s t := by
  subst e; exact h

theorem Keeps.of_fst {α : Type} {s t : State} {a : α} {p : State × α} (e : p = (t, a)) (h : Keeps s p.1) : Keeps s t := by
  subst e; exact h

theorem Keeps.of_getD {s x : State} {o : Option State} (h : Keeps s x) (k : ∀ t, o = some t → Keeps s t) : Keeps s (o.getD x) := by
  cases o with
  | none => exact h
  | some t => exact k t rfl

theorem KeepsO.next {s t : State} (h : Keeps s t) : KeepsO s (.next t) := by
  intro u e; cases e; exact h

theorem KeepsO.trans {s x : State} {o : Outcome} (h : Keeps s x) (k : KeepsO x o) : KeepsO s o :=
  fun t e => h.trans (k t e)

theorem KeepsO.fault {s : State} {f : Fault} : KeepsO s (.fault f) := by
  intro u e; cases e

theorem KeepsO.ite {s : State} {a b : Outcome} {c : Prop} [Decidable c] (h : KeepsO s a) (k : KeepsO s b) :
    KeepsO s (if c then a else b) := by
  split
  · exact h
  · exact k

end Sys2Proof.Machine
end

