-- ==== Sys2Proof/Laws/KeepsBase.lean ====
section
/-! SUPPORT. What the operations of Machine/Base.lean keep (Laws/Keeps.lean). -/

set_option linter.unusedTactic false
set_option linter.unreachableTactic false

namespace Sys2Proof.Machine

open Sys2Proof.Safety

theorem drawFree_keeps (s : State) : Keeps s (drawFree s).2 := by
  unfold drawFree
  repeat' (with_reducible first
    | apply Keeps.refl | fail_if_no_progress refine Keeps.put rfl ?_ rfl rfl rfl rfl rfl)

theorem drawBytes_keeps (n : Nat) (s : State) : Keeps s (drawBytes n s).2 := by
  unfold drawBytes
  repeat' (with_reducible first
    | apply Keeps.refl | fail_if_no_progress refine Keeps.put rfl ?_ rfl rfl rfl rfl rfl)

end Sys2Proof.Machine
end

