-- ==== Sys2Proof/Laws/KeepsTime.lean ====
section
/-! SUPPORT. What the operations of Machine/Time.lean keep (Laws/Keeps.lean). -/

set_option linter.unusedTactic false
set_option linter.unreachableTactic false

namespace Sys2Proof.Machine

open Sys2Proof.Safety

theorem passCycles_keeps (n : Nat) (s : State) : Keeps s (passCycles n s) := by
  unfold passCycles
  repeat' (with_reducible first
    | apply Keeps.refl | fail_if_no_progress refine Keeps.put rfl ?_ rfl rfl rfl rfl rfl)

theorem atTime_keeps (t : Nat) (s : State) : ∀ u, atTime t s = some u → Keeps s u := by
  intro u h
  unfold atTime at h
  split at h
  · cases h
  · split at h
    · cases h
    · cases h; exact passCycles_keeps _ _

theorem stepMtb_keeps (t : Nat) (s : State) : Keeps s (stepMtb t s) := by
  unfold stepMtb
  repeat' (with_reducible first
    | apply Keeps.refl | apply Keeps.trans ?_ (readAt_keeps ..)
    | fail_if_no_progress refine Keeps.put rfl ?_ rfl rfl rfl rfl rfl | intro _ | dsimp only)

theorem noEarlier_keeps (t : Nat) (s : State) : Keeps s (noEarlier t s) :=
  Keeps.of_getD (Keeps.refl s) (atTime_keeps t s)

theorem afterUptime_keeps (u : Nat) (s : State) : Keeps s (afterUptime u s) := by
  unfold afterUptime
  repeat' (with_reducible first
    | apply Keeps.refl | apply Keeps.trans ?_ (passCycles_keeps ..) | apply Keeps.ite)

theorem raiseWith_keeps (source : Nat) (inst : Nat) (d0 : Nat) (d1 : Nat) (s : State) : Keeps s (raiseWith source inst d0 d1 s) := by
  unfold raiseWith
  repeat' (with_reducible first
    | apply Keeps.refl | fail_if_no_progress refine Keeps.put rfl ?_ rfl rfl rfl rfl rfl)

theorem raise_keeps (source : Nat) (inst : Nat) (s : State) : Keeps s (raise source inst s) := by
  unfold raise
  repeat' (with_reducible first
    | apply Keeps.refl | apply Keeps.trans ?_ (raiseWith_keeps ..)
    | fail_if_no_progress refine Keeps.put rfl ?_ rfl rfl rfl rfl rfl)

end Sys2Proof.Machine
end

