-- ==== Sys2Proof/Laws/KeepsOps.lean ====
section
/-! SUPPORT. What the operations of Machine/Ops.lean keep (Laws/Keeps.lean). -/

set_option linter.unusedTactic false
set_option linter.unreachableTactic false

namespace Sys2Proof.Machine

open Sys2Proof.Safety

theorem hbmWrite_keeps (a : Nat) (b : Bytes) (s : State) : Keeps s (hbmWrite a b s) :=
  ⟨⟨rfl, hbmWrite_wf a b s, fusesKept_refl _⟩, id, id⟩

theorem reportPoison_keeps (l : List Nat) (s : State) : Keeps s (reportPoison l s) := by
  unfold reportPoison
  repeat' (with_reducible first
    | apply Keeps.refl | apply Keeps.foldl | apply Keeps.foldl_fst | apply Keeps.foldl_snd
    | apply Keeps.trans ?_ (raise_keeps ..) | fail_if_no_progress refine Keeps.put rfl ?_ rfl rfl rfl rfl rfl | intro _)

theorem hbmRead_keeps (a : Nat) (n : Nat) (s : State) : Keeps s (hbmRead a n s).2 := by
  unfold hbmRead
  repeat' (with_reducible first
    | apply Keeps.refl | apply Keeps.ite_snd | apply Keeps.trans ?_ (drawBytes_keeps ..) | apply Keeps.ite
    | apply Keeps.of_snd (by assumption) | apply Keeps.of_fst (by assumption) | intro _ | split | dsimp only)

end Sys2Proof.Machine
end

