-- ==== Sys2Proof/Laws/KeepsSend.lean ====
section
/-! SUPPORT. What the operations of Machine/Send.lean keep (Laws/Keeps.lean). -/

set_option linter.unusedTactic false
set_option linter.unreachableTactic false

namespace Sys2Proof.Machine

open Sys2Proof.Safety

theorem sendLink_keeps (v : Nat) (cls : Nat) (msg : LinkMsg) (s : State) : Keeps s (sendLink v cls msg s) := by
  unfold sendLink
  repeat' (with_reducible first
    | apply Keeps.refl | apply Keeps.ite | fail_if_no_progress refine Keeps.put rfl ?_ rfl rfl rfl rfl rfl | intro _)

theorem sendVa_keeps (cls : Nat) (msg : LinkMsg) (s : State) : Keeps s (sendVa cls msg s) := by
  unfold sendVa
  repeat' (with_reducible first
    | apply Keeps.refl | apply Keeps.trans ?_ (sendLink_keeps ..) | apply Keeps.ite)

theorem sendTree_keeps (k : Nat) (cls : Nat) (msg : LinkMsg) (s : State) : Keeps s (sendTree k cls msg s) := by
  unfold sendTree
  repeat' (with_reducible first
    | apply Keeps.refl | apply Keeps.trans ?_ (sendLink_keeps ..) | apply Keeps.ite)

theorem sendDown_keeps (cls : Nat) (msg : LinkMsg) (s : State) : Keeps s (sendDown cls msg s) := by
  unfold sendDown
  repeat' (with_reducible first
    | apply Keeps.refl | apply Keeps.foldl | apply Keeps.foldl_fst | apply Keeps.foldl_snd
    | apply Keeps.trans ?_ (sendTree_keeps ..) | intro _)

theorem sendUp_keeps (cls : Nat) (msg : LinkMsg) (s : State) : Keeps s (sendUp cls msg s) := by
  unfold sendUp
  repeat' (with_reducible first
    | apply Keeps.refl | apply Keeps.trans ?_ (sendTree_keeps ..))

end Sys2Proof.Machine
end

