-- ==== Sys2Proof/Laws/KeepsMail.lean ====
section
/-! SUPPORT. What the operations of Machine/Mail.lean keep (Laws/Keeps.lean). -/

set_option linter.unusedTactic false
set_option linter.unreachableTactic false

namespace Sys2Proof.Machine

open Sys2Proof.Safety

theorem setPart_keeps (s : State) (p : Nat) (f : Part → Part) : Keeps s (setPart s p f) := by
  unfold setPart
  repeat' (with_reducible first
    | apply Keeps.refl | fail_if_no_progress refine Keeps.put rfl ?_ rfl rfl rfl rfl rfl)

theorem setRing_keeps (s : State) (f : Nat) (g : Ring → Ring) : Keeps s (setRing s f g) := by
  unfold setRing
  repeat' (with_reducible first
    | apply Keeps.refl | fail_if_no_progress refine Keeps.put rfl ?_ rfl rfl rfl rfl rfl)

theorem setSession_keeps (s : State) (i : Nat) (f : Session → Session) : Keeps s (setSession s i f) := by
  unfold setSession
  repeat' (with_reducible first
    | apply Keeps.refl | fail_if_no_progress refine Keeps.put rfl ?_ rfl rfl rfl rfl rfl)

theorem setView_keeps (s : State) (transport : Nat) (f : View → View) : Keeps s (setView s transport f) := by
  unfold setView
  repeat' (with_reducible first
    | apply Keeps.refl | fail_if_no_progress refine Keeps.put rfl ?_ rfl rfl rfl rfl rfl)

theorem setQuota_keeps (s : State) (p : Nat) (f : Quota → Quota) : Keeps s (setQuota s p f) := by
  unfold setQuota
  repeat' (with_reducible first
    | apply Keeps.refl | fail_if_no_progress refine Keeps.put rfl ?_ rfl rfl rfl rfl rfl)

theorem sendOn_keeps (s : State) (transport : Nat) (p : Nat) (m : Msg) : Keeps s (sendOn s transport p m) := by
  unfold sendOn
  repeat' (with_reducible first
    | apply Keeps.refl | apply Keeps.trans ?_ (setRing_keeps ..) | apply Keeps.trans ?_ (setSession_keeps ..)
    | apply Keeps.trans ?_ (setQuota_keeps ..) | apply Keeps.ite
    | fail_if_no_progress refine Keeps.put rfl ?_ rfl rfl rfl rfl rfl | intro _ | dsimp only)

theorem releaseReplies_keeps (s : State) (p : Nat) (l : List Slot) : Keeps s (releaseReplies s p l) := by
  induction l generalizing s with
  | nil => exact setPart_keeps ..
  | cons a l ih =>
    unfold releaseReplies
    split
    · exact (sendOn_keeps ..).trans (ih _)
    · exact setPart_keeps ..

theorem reply_keeps (p : Nat) (r : Req) (opcode : Nat) (st : Status) (clamped : Bool) (data : Bytes) (s : State) : Keeps s (reply p r opcode st clamped data s) := by
  unfold reply
  repeat' (with_reducible first
    | apply Keeps.refl | apply Keeps.trans ?_ (setPart_keeps ..) | apply Keeps.trans ?_ (releaseReplies_keeps ..)
    | apply Keeps.trans ?_ (busy_keeps ..) | apply Keeps.ite
    | fail_if_no_progress refine Keeps.put rfl ?_ rfl rfl rfl rfl rfl | intro _ | dsimp only)

theorem replyTo_keeps (r : Req) (opcode : Nat) (st : Status) (clamped : Bool) (data : Bytes) (s : State) : Keeps s (replyTo r opcode st clamped data s) := by
  unfold replyTo
  repeat' (with_reducible first
    | apply Keeps.refl | apply Keeps.trans ?_ (reply_keeps ..))

theorem limitEvents_keeps (s : State) (p : Nat) : Keeps s (limitEvents s p) := by
  unfold limitEvents
  repeat' (with_reducible first
    | apply Keeps.refl | apply Keeps.trans ?_ (raise_keeps ..) | apply Keeps.trans ?_ (setPart_keeps ..)
    | apply Keeps.trans ?_ (setRing_keeps ..) | apply Keeps.ite | apply Keeps.of_snd (by assumption)
    | apply Keeps.of_fst (by assumption) | fail_if_no_progress refine Keeps.put rfl ?_ rfl rfl rfl rfl rfl | intro _
    | split | dsimp only)

theorem sendEvent_keeps (p : Nat) (opcode : Nat) (payload : Bytes) (s : State) : Keeps s (sendEvent p opcode payload s) := by
  unfold sendEvent
  repeat' (with_reducible first
    | apply Keeps.refl | apply Keeps.foldl | apply Keeps.foldl_fst | apply Keeps.foldl_snd
    | apply Keeps.trans ?_ (setPart_keeps ..) | apply Keeps.trans ?_ (sendOn_keeps ..)
    | apply Keeps.trans ?_ (limitEvents_keeps ..) | apply Keeps.ite | apply Keeps.of_snd (by assumption)
    | apply Keeps.of_fst (by assumption) | fail_if_no_progress refine Keeps.put rfl ?_ rfl rfl rfl rfl rfl | intro _
    | split | dsimp only)

theorem flushHeld_keeps (p : Nat) (s : State) : Keeps s (flushHeld p s) := by
  unfold flushHeld
  repeat' (with_reducible first
    | apply Keeps.refl | apply Keeps.foldl | apply Keeps.foldl_fst | apply Keeps.foldl_snd
    | apply Keeps.trans ?_ (setPart_keeps ..) | apply Keeps.trans ?_ (sendOn_keeps ..) | apply Keeps.ite
    | apply Keeps.of_snd (by assumption) | apply Keeps.of_fst (by assumption)
    | fail_if_no_progress refine Keeps.put rfl ?_ rfl rfl rfl rfl rfl | intro _ | split | dsimp only)

theorem sendEventAll_keeps (opcode : Nat) (payload : Bytes) (s : State) : Keeps s (sendEventAll opcode payload s) := by
  unfold sendEventAll
  repeat' (with_reducible first
    | apply Keeps.refl | apply Keeps.foldl | apply Keeps.foldl_fst | apply Keeps.foldl_snd
    | apply Keeps.trans ?_ (sendEvent_keeps ..) | intro _)

theorem modeEvent_keeps (newMode : Mode) (oldMode : Mode) (s : State) : Keeps s (modeEvent newMode oldMode s) := by
  unfold modeEvent
  repeat' (with_reducible first
    | apply Keeps.refl | apply Keeps.foldl | apply Keeps.foldl_fst | apply Keeps.foldl_snd
    | apply Keeps.trans ?_ (setRing_keeps ..) | apply Keeps.trans ?_ (sendEventAll_keeps ..) | intro _ | dsimp only)

theorem takeRequest_keeps (opcode : Nat) (ownerOnly : Bool) (legal : Mode → Bool) (r : Req) (body : Nat → State → State) (s : State) (hbody : ∀ a0 a1, Keeps a1 (body a0 a1)) : Keeps s (takeRequest opcode ownerOnly legal r body s) := by
  unfold takeRequest
  repeat' (with_reducible first
    | apply Keeps.refl | apply Keeps.trans ?_ (setPart_keeps ..) | apply Keeps.trans ?_ (reply_keeps ..)
    | apply Keeps.trans ?_ (hbody ..) | apply Keeps.ite | apply Keeps.of_snd (by assumption)
    | apply Keeps.of_fst (by assumption) | fail_if_no_progress refine Keeps.put rfl ?_ rfl rfl rfl rfl rfl | intro _
    | split | dsimp only)

theorem refuseHello_keeps (port : Nat) (peer : Nat) (st : Status) (s : State) : Keeps s (refuseHello port peer st s) := by
  unfold refuseHello
  repeat' (with_reducible first
    | apply Keeps.refl | fail_if_no_progress refine Keeps.put rfl ?_ rfl rfl rfl rfl rfl)

theorem answerHello_keeps (port : Nat) (p : Nat) (peer : Nat) (s : State) : Keeps s (answerHello port p peer s) := by
  unfold answerHello
  repeat' (with_reducible first
    | apply Keeps.refl | apply Keeps.trans ?_ (drawFree_keeps ..) | apply Keeps.trans ?_ (refuseHello_keeps ..)
    | apply Keeps.trans ?_ (busy_keeps ..) | apply Keeps.ite | apply Keeps.of_snd (by assumption)
    | apply Keeps.of_fst (by assumption) | fail_if_no_progress refine Keeps.put rfl ?_ rfl rfl rfl rfl rfl | split
    | dsimp only)

theorem serveHellos_keeps (s : State) : Keeps s (serveHellos s) := by
  unfold serveHellos
  repeat' (with_reducible first
    | apply Keeps.refl | apply Keeps.foldl | apply Keeps.foldl_fst | apply Keeps.foldl_snd
    | apply Keeps.trans ?_ (answerHello_keeps ..) | fail_if_no_progress refine Keeps.put rfl ?_ rfl rfl rfl rfl rfl
    | intro _)

end Sys2Proof.Machine
end

