-- ==== Sys2Proof/Laws/KeepsChanges.lean ====
section
/-! SUPPORT. What the operations of Machine/Changes.lean keep (Laws/Keeps.lean). -/

set_option linter.unusedTactic false
set_option linter.unreachableTactic false

namespace Sys2Proof.Machine

open Sys2Proof.Safety

theorem modChan_keeps (s : State) (c : Nat) (f : Chan → Chan) : Keeps s (modChan s c f) := by
  unfold modChan
  repeat' (with_reducible first
    | apply Keeps.refl | fail_if_no_progress refine Keeps.put rfl ?_ rfl rfl rfl rfl rfl)

theorem modCtx_keeps (s : State) (x : Nat) (f : Ctx → Ctx) : Keeps s (modCtx s x f) := by
  unfold modCtx
  repeat' (with_reducible first
    | apply Keeps.refl | fail_if_no_progress refine Keeps.put rfl ?_ rfl rfl rfl rfl rfl)

theorem modPic_keeps (s : State) (x : Nat) (frame : Nat) (f : Ctx → Pic → Ctx × Pic) : Keeps s (modPic s x frame f) := by
  unfold modPic
  repeat' (with_reducible first
    | apply Keeps.refl | apply Keeps.trans ?_ (modCtx_keeps ..) | apply Keeps.ite | apply Keeps.of_snd (by assumption)
    | apply Keeps.of_fst (by assumption) | fail_if_no_progress refine Keeps.put rfl ?_ rfl rfl rfl rfl rfl | intro _
    | split | dsimp only)

theorem noteCommit_keeps (late : Bool) (change : ShadowChange) (s : State) : Keeps s (noteCommit late change s) := by
  unfold noteCommit
  repeat' (with_reducible first
    | apply Keeps.refl | apply Keeps.trans ?_ (modCtx_keeps ..) | apply Keeps.ite | apply Keeps.of_snd (by assumption)
    | apply Keeps.of_fst (by assumption) | fail_if_no_progress refine Keeps.put rfl ?_ rfl rfl rfl rfl rfl | intro _
    | split)

theorem commitSei_keeps (x : Nat) (frame : Nat) (kind : Nat) (data : Bytes) (item : Option Nat) (s : State) : Keeps s (commitSei x frame kind data item s) := by
  unfold commitSei
  repeat' (with_reducible first
    | apply Keeps.refl | apply Keeps.trans ?_ (modChan_keeps ..) | apply Keeps.trans ?_ (modCtx_keeps ..)
    | apply Keeps.trans ?_ (modPic_keeps ..) | apply Keeps.ite | apply Keeps.of_snd (by assumption)
    | apply Keeps.of_fst (by assumption) | fail_if_no_progress refine Keeps.put rfl ?_ rfl rfl rfl rfl rfl | intro _
    | split | dsimp only)

theorem commitAt_keeps (c : Nat) (frame : Nat) (late : Bool) (change : ShadowChange) (item : Option Nat) (s : State) : Keeps s (commitAt c frame late change item s) := by
  unfold commitAt
  repeat' (with_reducible first
    | apply Keeps.refl | apply Keeps.trans ?_ (modChan_keeps ..) | apply Keeps.trans ?_ (noteCommit_keeps ..)
    | apply Keeps.trans ?_ (commitSei_keeps ..) | apply Keeps.ite | apply Keeps.of_snd (by assumption)
    | apply Keeps.of_fst (by assumption) | fail_if_no_progress refine Keeps.put rfl ?_ rfl rfl rfl rfl rfl | intro _
    | split)

theorem commitBoth_keeps (c : Nat) (frame : Nat) (late : Bool) (change : ShadowChange) (item : Option Nat) (s : State) : Keeps s (commitBoth c frame late change item s) := by
  unfold commitBoth
  repeat' (with_reducible first
    | apply Keeps.refl | apply Keeps.trans ?_ (sendVa_keeps ..) | apply Keeps.trans ?_ (commitAt_keeps ..)
    | apply Keeps.ite | fail_if_no_progress refine Keeps.put rfl ?_ rfl rfl rfl rfl rfl | dsimp only)

theorem forward_keeps (f : Fwd) (named : Nat) (s : State) : Keeps s (forward f named s) := by
  unfold forward
  repeat' (with_reducible first
    | apply Keeps.refl | apply Keeps.trans ?_ (sendVa_keeps ..)
    | fail_if_no_progress refine Keeps.put rfl ?_ rfl rfl rfl rfl rfl)

theorem changeOf_keeps (c : Nat) (named : Nat) (change : ShadowChange) (s : State) : Keeps s (changeOf c named change s) := by
  unfold changeOf
  repeat' (with_reducible first
    | apply Keeps.refl | apply Keeps.trans ?_ (commitBoth_keeps ..) | apply Keeps.trans ?_ (forward_keeps ..)
    | apply Keeps.ite | apply Keeps.of_snd (by assumption) | apply Keeps.of_fst (by assumption)
    | fail_if_no_progress refine Keeps.put rfl ?_ rfl rfl rfl rfl rfl | split | dsimp only)

theorem changeFor_keeps (p : Nat) (r : Req) (opcode : Nat) (c : Nat) (named : Nat) (clamped : Bool) (data : Bytes) (change : ShadowChange) (s : State) : Keeps s (changeFor p r opcode c named clamped data change s) := by
  unfold changeFor
  repeat' (with_reducible first
    | apply Keeps.refl | apply Keeps.trans ?_ (reply_keeps ..) | apply Keeps.trans ?_ (commitBoth_keeps ..)
    | apply Keeps.trans ?_ (forward_keeps ..) | apply Keeps.ite | apply Keeps.of_snd (by assumption)
    | apply Keeps.of_fst (by assumption) | fail_if_no_progress refine Keeps.put rfl ?_ rfl rfl rfl rfl rfl | split
    | dsimp only)

end Sys2Proof.Machine
end

