-- ==== Sys2Proof/Laws/KeepsItems.lean ====
section
/-! SUPPORT. What the operations of Machine/Items.lean keep (Laws/Keeps.lean). -/

set_option linter.unusedTactic false
set_option linter.unreachableTactic false

namespace Sys2Proof.Machine

open Sys2Proof.Safety

theorem setPvd_keeps (s : State) (f : Pvd → Pvd) : Keeps s (setPvd s f) := by
  unfold setPvd
  repeat' (with_reducible first
    | apply Keeps.refl | fail_if_no_progress refine Keeps.put rfl ?_ rfl rfl rfl rfl rfl)

theorem setItem_keeps (s : State) (order : Nat) (f : Item → Item) : Keeps s (setItem s order f) := by
  unfold setItem
  repeat' (with_reducible first
    | apply Keeps.refl | apply Keeps.trans ?_ (setPvd_keeps ..) | apply Keeps.ite
    | fail_if_no_progress refine Keeps.put rfl ?_ rfl rfl rfl rfl rfl | intro _)

theorem notePeaks_keeps (s : State) : Keeps s (notePeaks s) := by
  unfold notePeaks
  repeat' (with_reducible first
    | apply Keeps.refl | apply Keeps.foldl | apply Keeps.foldl_fst | apply Keeps.foldl_snd
    | apply Keeps.trans ?_ (setPvd_keeps ..) | apply Keeps.ite
    | fail_if_no_progress refine Keeps.put rfl ?_ rfl rfl rfl rfl rfl | intro _)

theorem promote_keeps (s : State) : Keeps s (promote s) := by
  unfold promote
  repeat' (with_reducible first
    | apply Keeps.refl | apply Keeps.foldl | apply Keeps.foldl_fst | apply Keeps.foldl_snd
    | apply Keeps.trans ?_ (setItem_keeps ..) | apply Keeps.trans ?_ (notePeaks_keeps ..) | apply Keeps.ite
    | apply Keeps.of_snd (by assumption) | apply Keeps.of_fst (by assumption)
    | fail_if_no_progress refine Keeps.put rfl ?_ rfl rfl rfl rfl rfl | intro _ | split)

theorem submit_keeps (i : Item) (s : State) : Keeps s (submit i s) := by
  unfold submit
  repeat' (with_reducible first
    | apply Keeps.refl | apply Keeps.trans ?_ (setPvd_keeps ..) | apply Keeps.trans ?_ (promote_keeps ..)
    | apply Keeps.ite | apply Keeps.of_snd (by assumption) | apply Keeps.of_fst (by assumption)
    | fail_if_no_progress refine Keeps.put rfl ?_ rfl rfl rfl rfl rfl | intro _ | split | dsimp only)

theorem counterFault_keeps (k : Nat) (s : State) : Keeps s (counterFault k s) := by
  unfold counterFault
  repeat' (with_reducible first
    | apply Keeps.refl | apply Keeps.trans ?_ (raise_keeps ..) | apply Keeps.trans ?_ (setPvd_keeps ..)
    | fail_if_no_progress refine Keeps.put rfl ?_ rfl rfl rfl rfl rfl | intro _)

theorem decrement_keeps (s : State) (k : Nat) : Keeps s (decrement s k) := by
  unfold decrement
  repeat' (with_reducible first
    | apply Keeps.refl | apply Keeps.trans ?_ (setPvd_keeps ..) | apply Keeps.trans ?_ (counterFault_keeps ..)
    | apply Keeps.ite | fail_if_no_progress refine Keeps.put rfl ?_ rfl rfl rfl rfl rfl | intro _ | dsimp only)

theorem retireItem_keeps (i : Item) (s : State) : Keeps s (retireItem i s) := by
  unfold retireItem
  repeat' (with_reducible first
    | apply Keeps.refl | apply Keeps.foldl | apply Keeps.foldl_fst | apply Keeps.foldl_snd
    | apply Keeps.trans ?_ (setPvd_keeps ..) | apply Keeps.trans ?_ (decrement_keeps ..)
    | fail_if_no_progress refine Keeps.put rfl ?_ rfl rfl rfl rfl rfl | intro _ | dsimp only)

theorem markCommitted_keeps (order : Nat) (frame : Nat) (s : State) : Keeps s (markCommitted order frame s) := by
  unfold markCommitted
  repeat' (with_reducible first
    | apply Keeps.refl | apply Keeps.trans ?_ (setPvd_keeps ..) | apply Keeps.trans ?_ (setItem_keeps ..)
    | fail_if_no_progress refine Keeps.put rfl ?_ rfl rfl rfl rfl rfl | intro _)

theorem commitItem_keeps (order : Nat) (h : HostItem) (ch : Chan) (s : State) : Keeps s (commitItem order h ch s).1 := by
  unfold commitItem
  repeat' (with_reducible first
    | apply Keeps.refl | apply Keeps.ite_fst | apply Keeps.trans ?_ (setQuota_keeps ..)
    | apply Keeps.trans ?_ (commitBoth_keeps ..) | apply Keeps.trans ?_ (markCommitted_keeps ..) | apply Keeps.ite
    | apply Keeps.of_snd (by assumption) | apply Keeps.of_fst (by assumption)
    | fail_if_no_progress refine Keeps.put rfl ?_ rfl rfl rfl rfl rfl | intro _ | split | dsimp only)

theorem slotData_keeps (g : GLayer) (slot : Nat) (s : State) : Keeps s (slotData g slot s).2 := by
  unfold slotData
  repeat' (with_reducible first
    | apply Keeps.refl | apply Keeps.trans ?_ (hbmRead_keeps ..))

theorem writeSlot_keeps (c : Nat) (layer : Nat) (slot : Nat) (offset : Nat) (data : Bytes) (s : State) : Keeps s (writeSlot c layer slot offset data s) := by
  unfold writeSlot
  repeat' (with_reducible first
    | apply Keeps.refl | apply Keeps.trans ?_ (hbmWrite_keeps ..) | apply Keeps.of_snd (by assumption)
    | apply Keeps.of_fst (by assumption) | fail_if_no_progress refine Keeps.put rfl ?_ rfl rfl rfl rfl rfl | split)

theorem installSlot_keeps (c : Nat) (layer : Nat) (slot : Nat) (data : Bytes) (s : State) : Keeps s (installSlot c layer slot data s) := by
  unfold installSlot
  repeat' (with_reducible first
    | apply Keeps.refl | apply Keeps.trans ?_ (writeSlot_keeps ..)
    | fail_if_no_progress refine Keeps.put rfl ?_ rfl rfl rfl rfl rfl | intro _ | dsimp only)

theorem startCopy_keeps (c : Nat) (layer : Nat) (slot : Nat) (copy : SlotCopy) (s : State) : Keeps s (startCopy c layer slot copy s) := by
  unfold startCopy
  repeat' (with_reducible first
    | apply Keeps.refl | apply Keeps.trans ?_ (slotData_keeps ..) | apply Keeps.trans ?_ (reportPoison_keeps ..)
    | apply Keeps.trans ?_ (sendVa_keeps ..) | apply Keeps.of_snd (by assumption) | apply Keeps.of_fst (by assumption)
    | fail_if_no_progress refine Keeps.put rfl ?_ rfl rfl rfl rfl rfl | intro _ | split | dsimp only)

theorem hostEffect_keeps (order : Nat) (h : HostItem) (s : State) : Keeps s (hostEffect order h s).1 := by
  unfold hostEffect
  repeat' (with_reducible first
    | apply Keeps.refl | apply Keeps.ite_fst | apply Keeps.trans ?_ (commitItem_keeps ..)
    | apply Keeps.trans ?_ (forward_keeps ..) | apply Keeps.trans ?_ (setItem_keeps ..)
    | apply Keeps.trans ?_ (startCopy_keeps ..) | apply Keeps.ite | apply Keeps.of_snd (by assumption)
    | apply Keeps.of_fst (by assumption) | fail_if_no_progress refine Keeps.put rfl ?_ rfl rfl rfl rfl rfl | intro _
    | split | dsimp only)

theorem answerItem_keeps (h : HostItem) (st : Status) (data : Bytes) (s : State) : Keeps s (answerItem h st data s) := by
  unfold answerItem
  repeat' (with_reducible first
    | apply Keeps.refl | apply Keeps.trans ?_ (replyTo_keeps ..))

theorem answered_keeps (i : Item) (h : HostItem) (st : Status) (data : Bytes) (s : State) : Keeps s (answered i h st data s) := by
  unfold answered
  repeat' (with_reducible first
    | apply Keeps.refl | apply Keeps.trans ?_ (setItem_keeps ..) | apply Keeps.trans ?_ (retireItem_keeps ..)
    | apply Keeps.trans ?_ (answerItem_keeps ..) | apply KeepsO.trans ?_ (done_keeps ..) | apply Keeps.ite
    | fail_if_no_progress refine Keeps.put rfl ?_ rfl rfl rfl rfl rfl | intro _ | dsimp only)

theorem releaseFlow_keeps (flow n : Nat) (s : State) : Keeps s (releaseFlow flow n s) := by
  induction n generalizing s with
  | zero => exact Keeps.refl _
  | succ n ih =>
    unfold releaseFlow
    split
    · exact Keeps.refl _
    · rename_i i _
      split
      · exact (retireItem_keeps i s).trans (ih _)
      · rename_i h _
        split
        · exact (answered_keeps ..).trans (ih _)
        · have k := hostEffect_keeps i.order h s
          split
          · exact Keeps.of_fst (by assumption) k
          · exact ((Keeps.of_fst (by assumption) k).trans (answered_keeps ..)).trans (ih _)
          · exact ((Keeps.of_fst (by assumption) k).trans (answered_keeps ..)).trans (ih _)

theorem release_keeps (flow : Nat) (s : State) : Keeps s (release flow s) := by
  unfold release
  repeat' (with_reducible first
    | apply Keeps.refl | apply Keeps.trans ?_ (promote_keeps ..) | apply Keeps.trans ?_ (releaseFlow_keeps ..))

theorem finishItem_keeps (order : Nat) (frame : Nat) (s : State) : Keeps s (finishItem order frame s) := by
  unfold finishItem
  repeat' (with_reducible first
    | apply Keeps.refl | apply Keeps.trans ?_ (answered_keeps ..) | apply Keeps.trans ?_ (release_keeps ..)
    | apply Keeps.ite | apply Keeps.of_snd (by assumption) | apply Keeps.of_fst (by assumption)
    | fail_if_no_progress refine Keeps.put rfl ?_ rfl rfl rfl rfl rfl | split)

theorem refuseItem_keeps (order : Nat) (st : Status) (s : State) : Keeps s (refuseItem order st s) := by
  unfold refuseItem
  repeat' (with_reducible first
    | apply Keeps.refl | apply Keeps.trans ?_ (answered_keeps ..) | apply Keeps.trans ?_ (release_keeps ..)
    | apply Keeps.ite | apply Keeps.of_snd (by assumption) | apply Keeps.of_fst (by assumption)
    | fail_if_no_progress refine Keeps.put rfl ?_ rfl rfl rfl rfl rfl | split)

theorem releaseAnswered_keeps (s : State) : Keeps s (releaseAnswered s) := by
  unfold releaseAnswered
  repeat' (with_reducible first
    | apply Keeps.refl | apply Keeps.foldl | apply Keeps.foldl_fst | apply Keeps.foldl_snd
    | apply Keeps.trans ?_ (retireItem_keeps ..) | apply Keeps.trans ?_ (release_keeps ..) | apply Keeps.ite
    | apply Keeps.of_snd (by assumption) | apply Keeps.of_fst (by assumption)
    | fail_if_no_progress refine Keeps.put rfl ?_ rfl rfl rfl rfl rfl | intro _ | split)

theorem countLate_keeps (order : Nat) (frame : Nat) (s : State) : Keeps s (countLate order frame s) := by
  unfold countLate
  repeat' (with_reducible first
    | apply Keeps.refl | apply Keeps.trans ?_ (setQuota_keeps ..) | apply Keeps.ite | apply Keeps.of_snd (by assumption)
    | apply Keeps.of_fst (by assumption) | fail_if_no_progress refine Keeps.put rfl ?_ rfl rfl rfl rfl rfl | intro _
    | split)

theorem itemDecided_keeps (order : Nat) (frame : Nat) (change : ShadowChange) (s : State) : Keeps s (itemDecided order frame change s) := by
  unfold itemDecided
  repeat' (with_reducible first
    | apply Keeps.refl | apply Keeps.trans ?_ (markCommitted_keeps ..) | apply Keeps.trans ?_ (finishItem_keeps ..)
    | apply Keeps.trans ?_ (countLate_keeps ..) | apply Keeps.of_snd (by assumption)
    | apply Keeps.of_fst (by assumption) | fail_if_no_progress refine Keeps.put rfl ?_ rfl rfl rfl rfl rfl | split
    | dsimp only)

theorem completeApplied_keeps (c : Nat) (n : Nat) (s : State) : Keeps s (completeApplied c n s) := by
  unfold completeApplied
  repeat' (with_reducible first
    | apply Keeps.refl | apply Keeps.foldl | apply Keeps.foldl_fst | apply Keeps.foldl_snd
    | apply Keeps.trans ?_ (finishItem_keeps ..) | apply Keeps.of_snd (by assumption)
    | apply Keeps.of_fst (by assumption) | fail_if_no_progress refine Keeps.put rfl ?_ rfl rfl rfl rfl rfl | intro _
    | split)

theorem missCaptions_keeps (i : Item) (s : State) : Keeps s (missCaptions i s) := by
  unfold missCaptions
  repeat' (with_reducible first
    | apply Keeps.refl | apply Keeps.trans ?_ (modChan_keeps ..) | apply Keeps.trans ?_ (modCtx_keeps ..)
    | apply Keeps.ite | apply Keeps.of_snd (by assumption) | apply Keeps.of_fst (by assumption)
    | fail_if_no_progress refine Keeps.put rfl ?_ rfl rfl rfl rfl rfl | intro _ | split | dsimp only)

theorem emptyItem_keeps (i : Item) (s : State) : Keeps s (emptyItem i s) := by
  unfold emptyItem
  repeat' (with_reducible first
    | apply Keeps.refl | apply Keeps.trans ?_ (raise_keeps ..) | apply Keeps.trans ?_ (setItem_keeps ..)
    | apply Keeps.trans ?_ (release_keeps ..) | apply Keeps.trans ?_ (missCaptions_keeps ..)
    | apply KeepsO.trans ?_ (done_keeps ..) | fail_if_no_progress refine Keeps.put rfl ?_ rfl rfl rfl rfl rfl | intro _
    | dsimp only)

theorem retryItem_keeps (i : Item) (s : State) : Keeps s (retryItem i s) := by
  unfold retryItem
  repeat' (with_reducible first
    | apply Keeps.refl | apply Keeps.trans ?_ (setPvd_keeps ..) | apply Keeps.trans ?_ (setItem_keeps ..)
    | apply Keeps.trans ?_ (emptyItem_keeps ..) | apply Keeps.ite
    | fail_if_no_progress refine Keeps.put rfl ?_ rfl rfl rfl rfl rfl | intro _)

theorem setCore_keeps (s : State) (k : Nat) (f : Core → Core) : Keeps s (setCore s k f) := by
  unfold setCore
  repeat' (with_reducible first
    | apply Keeps.refl | apply Keeps.trans ?_ (setPvd_keeps ..)
    | fail_if_no_progress refine Keeps.put rfl ?_ rfl rfl rfl rfl rfl | intro _)

theorem noteBusy_keeps (k : Nat) (s : State) : Keeps s (noteBusy k s) := by
  unfold noteBusy
  repeat' (with_reducible first
    | apply Keeps.refl | apply Keeps.trans ?_ (setPvd_keeps ..) | apply Keeps.trans ?_ (setCore_keeps ..)
    | apply Keeps.ite | apply Keeps.of_snd (by assumption) | apply Keeps.of_fst (by assumption)
    | fail_if_no_progress refine Keeps.put rfl ?_ rfl rfl rfl rfl rfl | intro _ | split | dsimp only)

theorem freeCore_keeps (k : Nat) (s : State) : Keeps s (freeCore k s) := by
  unfold freeCore
  repeat' (with_reducible first
    | apply Keeps.refl | apply Keeps.trans ?_ (setCore_keeps ..) | apply Keeps.trans ?_ (noteBusy_keeps ..)
    | apply Keeps.trans ?_ (busy_keeps ..) | fail_if_no_progress refine Keeps.put rfl ?_ rfl rfl rfl rfl rfl | intro _)

theorem dropCoreItem_keeps (k : Nat) (s : State) : Keeps s (dropCoreItem k s) := by
  unfold dropCoreItem
  repeat' (with_reducible first
    | apply Keeps.refl | apply Keeps.trans ?_ (retryItem_keeps ..) | apply Keeps.trans ?_ (freeCore_keeps ..)
    | apply Keeps.of_snd (by assumption) | apply Keeps.of_fst (by assumption)
    | fail_if_no_progress refine Keeps.put rfl ?_ rfl rfl rfl rfl rfl | split)

theorem dropHeldLive_keeps (s : State) : Keeps s (dropHeldLive s) := by
  unfold dropHeldLive
  repeat' (with_reducible first
    | apply Keeps.refl | apply Keeps.foldl | apply Keeps.foldl_fst | apply Keeps.foldl_snd
    | apply Keeps.trans ?_ (setPvd_keeps ..) | apply Keeps.trans ?_ (emptyItem_keeps ..)
    | apply KeepsO.trans ?_ (done_keeps ..) | apply Keeps.ite | apply Keeps.of_snd (by assumption)
    | apply Keeps.of_fst (by assumption) | fail_if_no_progress refine Keeps.put rfl ?_ rfl rfl rfl rfl rfl | intro _
    | split | dsimp only)

end Sys2Proof.Machine
end

