-- ==== Sys2Proof/Laws/KeepsUnits.lean ====
section
/-! SUPPORT. What the operations of Machine/Units.lean keep (Laws/Keeps.lean). -/

set_option linter.unusedTactic false
set_option linter.unreachableTactic false

namespace Sys2Proof.Machine

open Sys2Proof.Safety

theorem stopLegsWhere_keeps (p : Nat → Leg → Bool) (s : State) : Keeps s (stopLegsWhere p s) := by
  unfold stopLegsWhere
  repeat' (with_reducible first
    | apply Keeps.refl | apply Keeps.ite | fail_if_no_progress refine Keeps.put rfl ?_ rfl rfl rfl rfl rfl | intro _)

theorem stopContext_keeps (x : Nat) (s : State) : Keeps s (stopContext x s) := by
  unfold stopContext
  repeat' (with_reducible first
    | apply Keeps.refl | apply Keeps.trans ?_ (stopLegsWhere_keeps ..)
    | fail_if_no_progress refine Keeps.put rfl ?_ rfl rfl rfl rfl rfl | intro _ | dsimp only)

theorem disableChannel_keeps (c : Nat) (s : State) : Keeps s (disableChannel c s) := by
  unfold disableChannel
  repeat' (with_reducible first
    | apply Keeps.refl | apply Keeps.foldl | apply Keeps.foldl_fst | apply Keeps.foldl_snd
    | apply Keeps.trans ?_ (modChan_keeps ..) | apply Keeps.trans ?_ (stopLegsWhere_keeps ..)
    | apply Keeps.trans ?_ (stopContext_keeps ..) | apply Keeps.ite | apply Keeps.of_snd (by assumption)
    | apply Keeps.of_fst (by assumption) | fail_if_no_progress refine Keeps.put rfl ?_ rfl rfl rfl rfl rfl | intro _
    | split | dsimp only)

theorem countFloor_keeps (x : Nat) (key : Nat) (p : Pic) (s : State) : Keeps s (countFloor x key p s) := by
  unfold countFloor
  repeat' (with_reducible first
    | apply Keeps.refl | apply Keeps.trans ?_ (modChan_keeps ..) | apply Keeps.trans ?_ (modCtx_keeps ..)
    | apply Keeps.ite | apply Keeps.of_snd (by assumption) | apply Keeps.of_fst (by assumption)
    | fail_if_no_progress refine Keeps.put rfl ?_ rfl rfl rfl rfl rfl | intro _ | split | dsimp only)

theorem replaceSlice_keeps (x : Nat) (frame : Nat) (key : Nat) (s : State) : Keeps s (replaceSlice x frame key s) := by
  unfold replaceSlice
  repeat' (with_reducible first
    | apply Keeps.refl | apply Keeps.trans ?_ (modPic_keeps ..) | apply Keeps.trans ?_ (countFloor_keeps ..)
    | apply Keeps.ite | apply Keeps.of_snd (by assumption) | apply Keeps.of_fst (by assumption)
    | fail_if_no_progress refine Keeps.put rfl ?_ rfl rfl rfl rfl rfl | intro _ | split | dsimp only)

theorem floorInFlight_keeps (e : Nat) (s : State) : Keeps s (floorInFlight e s) := by
  unfold floorInFlight
  repeat' (with_reducible first
    | apply Keeps.refl | apply Keeps.foldl | apply Keeps.foldl_fst | apply Keeps.foldl_snd
    | apply Keeps.trans ?_ (modPic_keeps ..) | apply Keeps.trans ?_ (replaceSlice_keeps ..)
    | apply Keeps.of_snd (by assumption) | apply Keeps.of_fst (by assumption)
    | fail_if_no_progress refine Keeps.put rfl ?_ rfl rfl rfl rfl rfl | intro _ | split | dsimp only)

theorem floorRetry_keeps (e : Nat) (s : State) : Keeps s (floorRetry e s) := by
  unfold floorRetry
  repeat' (with_reducible first
    | apply Keeps.refl | apply Keeps.foldl | apply Keeps.foldl_fst | apply Keeps.foldl_snd
    | apply Keeps.trans ?_ (modPic_keeps ..) | apply Keeps.trans ?_ (replaceSlice_keeps ..)
    | apply Keeps.of_snd (by assumption) | apply Keeps.of_fst (by assumption)
    | fail_if_no_progress refine Keeps.put rfl ?_ rfl rfl rfl rfl rfl | intro _ | split | dsimp only)

theorem setEngine_keeps (s : State) (e : Nat) (f : Engine → Engine) : Keeps s (setEngine s e f) := by
  unfold setEngine
  repeat' (with_reducible first
    | apply Keeps.refl | fail_if_no_progress refine Keeps.put rfl ?_ rfl rfl rfl rfl rfl)

theorem loseEngineOf_keeps (e : Nat) (c : Nat) (s : State) : Keeps s (loseEngineOf e c s) := by
  unfold loseEngineOf
  repeat' (with_reducible first
    | apply Keeps.refl | apply Keeps.foldl | apply Keeps.foldl_fst | apply Keeps.foldl_snd
    | apply Keeps.trans ?_ (modChan_keeps ..) | apply Keeps.trans ?_ (stopContext_keeps ..)
    | apply Keeps.trans ?_ (disableChannel_keeps ..) | apply Keeps.ite | apply Keeps.of_snd (by assumption)
    | apply Keeps.of_fst (by assumption) | fail_if_no_progress refine Keeps.put rfl ?_ rfl rfl rfl rfl rfl | intro _
    | split | dsimp only)

theorem takeSpare_keeps (s : State) : Keeps s (takeSpare s) := by
  unfold takeSpare
  repeat' (with_reducible first
    | apply Keeps.refl | fail_if_no_progress refine Keeps.put rfl ?_ rfl rfl rfl rfl rfl)

theorem giveDuty_keeps (sp : Nat) (d : Duty) (s : State) : Keeps s (giveDuty sp d s) := by
  unfold giveDuty
  repeat' (with_reducible first
    | apply Keeps.refl | apply Keeps.foldl | apply Keeps.foldl_fst | apply Keeps.foldl_snd
    | apply Keeps.trans ?_ (setEngine_keeps ..) | fail_if_no_progress refine Keeps.put rfl ?_ rfl rfl rfl rfl rfl
    | intro _ | dsimp only)

theorem readdress_keeps (e : Nat) (sp : Nat) (s : State) : Keeps s (readdress e sp s) := by
  unfold readdress
  repeat' (with_reducible first
    | apply Keeps.refl | apply Keeps.ite | fail_if_no_progress refine Keeps.put rfl ?_ rfl rfl rfl rfl rfl | intro _)

theorem movePort_keeps (e : Nat) (sp : Nat) (s : State) : Keeps s (movePort e sp s) := by
  unfold movePort
  repeat' (with_reducible first
    | apply Keeps.refl | fail_if_no_progress refine Keeps.put rfl ?_ rfl rfl rfl rfl rfl | intro _ | dsimp only)

theorem takeOver_keeps (sp : Nat) (c : Nat) (n : Nat) (s : State) : Keeps s (takeOver sp c n s) := by
  unfold takeOver
  repeat' (with_reducible first
    | apply Keeps.refl | apply Keeps.trans ?_ (modChan_keeps ..) | apply Keeps.trans ?_ (setEngine_keeps ..)
    | apply Keeps.trans ?_ (movePort_keeps ..) | apply Keeps.ite
    | fail_if_no_progress refine Keeps.put rfl ?_ rfl rfl rfl rfl rfl | intro _ | dsimp only)

theorem assignSpare_keeps (olds : List Nat) (chans : List Nat) (s : State) : Keeps s (assignSpare olds chans s).1 := by
  unfold assignSpare
  repeat' (with_reducible first
    | apply Keeps.refl | apply Keeps.ite_fst | apply Keeps.foldl | apply Keeps.foldl_fst | apply Keeps.foldl_snd
    | apply Keeps.trans ?_ (modChan_keeps ..) | apply Keeps.trans ?_ (loseEngineOf_keeps ..)
    | apply Keeps.trans ?_ (takeSpare_keeps ..) | apply Keeps.trans ?_ (giveDuty_keeps ..)
    | apply Keeps.trans ?_ (readdress_keeps ..) | apply Keeps.trans ?_ (takeOver_keeps ..) | apply Keeps.ite
    | apply Keeps.of_snd (by assumption) | apply Keeps.of_fst (by assumption)
    | fail_if_no_progress refine Keeps.put rfl ?_ rfl rfl rfl rfl rfl | intro _ | split | dsimp only)

theorem retireEngine_keeps (e : Nat) (s : State) : Keeps s (retireEngine e s).1 := by
  unfold retireEngine
  repeat' (with_reducible first
    | apply Keeps.refl | apply Keeps.ite_fst | apply Keeps.trans ?_ (assignSpare_keeps ..)
    | apply Keeps.trans ?_ (floorInFlight_keeps ..) | apply Keeps.trans ?_ (setEngine_keeps ..)
    | apply Keeps.trans ?_ (takeSpare_keeps ..) | apply Keeps.ite | apply Keeps.of_snd (by assumption)
    | apply Keeps.of_fst (by assumption) | fail_if_no_progress refine Keeps.put rfl ?_ rfl rfl rfl rfl rfl | intro _
    | split | dsimp only)

theorem retireAnalyser_keeps (a : Nat) (s : State) : Keeps s (retireAnalyser a s) := by
  unfold retireAnalyser
  repeat' (with_reducible first
    | apply Keeps.refl | apply Keeps.ite | fail_if_no_progress refine Keeps.put rfl ?_ rfl rfl rfl rfl rfl | intro _)

theorem retireDecoder_keeps (e : Nat) (s : State) : Keeps s (retireDecoder e s) := by
  unfold retireDecoder
  repeat' (with_reducible first
    | apply Keeps.refl | apply Keeps.ite | fail_if_no_progress refine Keeps.put rfl ?_ rfl rfl rfl rfl rfl | intro _)

theorem disableDecode_keeps (d : Nat) (s : State) : Keeps s (disableDecode d s) := by
  unfold disableDecode
  repeat' (with_reducible first
    | apply Keeps.refl | apply Keeps.ite | fail_if_no_progress refine Keeps.put rfl ?_ rfl rfl rfl rfl rfl | intro _)

theorem fenceCompositor_keeps (c : Nat) (s : State) : Keeps s (fenceCompositor c s) := by
  unfold fenceCompositor
  repeat' (with_reducible first
    | apply Keeps.refl | apply Keeps.trans ?_ (fenced_keeps ..)
    | fail_if_no_progress refine Keeps.put rfl ?_ rfl rfl rfl rfl rfl | intro _)

theorem fenceAesIn_keeps (i : Nat) (s : State) : Keeps s (fenceAesIn i s) := by
  unfold fenceAesIn
  repeat' (with_reducible first
    | apply Keeps.refl | apply Keeps.trans ?_ (fenced_keeps ..)
    | fail_if_no_progress refine Keeps.put rfl ?_ rfl rfl rfl rfl rfl | intro _)

theorem fenceAesOut_keeps (i : Nat) (s : State) : Keeps s (fenceAesOut i s) := by
  unfold fenceAesOut
  repeat' (with_reducible first
    | apply Keeps.refl | fail_if_no_progress refine Keeps.put rfl ?_ rfl rfl rfl rfl rfl | intro _)

theorem fenceFlows_keeps (p : Nat → Leg → Bool) (s : State) : Keeps s (fenceFlows p s) := by
  unfold fenceFlows
  repeat' (with_reducible first
    | apply Keeps.refl | apply Keeps.foldl | apply Keeps.foldl_fst | apply Keeps.foldl_snd
    | apply Keeps.trans ?_ (stopLegsWhere_keeps ..) | apply Keeps.trans ?_ (disableChannel_keeps ..) | intro _
    | dsimp only)

theorem fenceCore_keeps (k : Nat) (s : State) : Keeps s (fenceCore k s) := by
  unfold fenceCore
  repeat' (with_reducible first
    | apply Keeps.refl | apply Keeps.trans ?_ (dropCoreItem_keeps ..) | apply Keeps.ite
    | apply Keeps.of_snd (by assumption) | apply Keeps.of_fst (by assumption)
    | fail_if_no_progress refine Keeps.put rfl ?_ rfl rfl rfl rfl rfl | intro _ | split | dsimp only)

theorem setStack_keeps (s : State) (k : Nat) (f : Stack → Stack) : Keeps s (setStack s k f) := by
  unfold setStack
  repeat' (with_reducible first
    | apply Keeps.refl | fail_if_no_progress refine Keeps.put rfl ?_ rfl rfl rfl rfl rfl)

theorem beginExit_keeps (k : Nat) (s : State) : Keeps s (beginExit k s) := by
  unfold beginExit
  repeat' (with_reducible first
    | apply Keeps.refl | apply Keeps.trans ?_ (setStack_keeps ..) | apply Keeps.ite
    | fail_if_no_progress refine Keeps.put rfl ?_ rfl rfl rfl rfl rfl | intro _)

theorem parkStacks_keeps (s : State) : Keeps s (parkStacks s) := by
  unfold parkStacks
  repeat' (with_reducible first
    | apply Keeps.refl | apply Keeps.foldl | apply Keeps.foldl_fst | apply Keeps.foldl_snd
    | apply Keeps.trans ?_ (setStack_keeps ..) | fail_if_no_progress refine Keeps.put rfl ?_ rfl rfl rfl rfl rfl
    | intro _)

theorem wakeWaiting_keeps (s : State) : Keeps s (wakeWaiting s) := by
  unfold wakeWaiting
  repeat' (with_reducible first
    | apply Keeps.refl | apply Keeps.foldl | apply Keeps.foldl_fst | apply Keeps.foldl_snd
    | apply Keeps.trans ?_ (beginExit_keeps ..) | apply Keeps.ite | intro _)

theorem loadDelays_keeps (k : Nat) (s : State) : Keeps s (loadDelays k s) := by
  unfold loadDelays
  repeat' (with_reducible first
    | apply Keeps.refl | apply Keeps.foldl | apply Keeps.foldl_fst | apply Keeps.foldl_snd
    | fail_if_no_progress refine Keeps.put rfl ?_ rfl rfl rfl rfl rfl | intro _)

theorem trainMemory_keeps (s : State) : Keeps s (trainMemory s) := by
  unfold trainMemory
  repeat' (with_reducible first
    | apply Keeps.refl | apply Keeps.foldl | apply Keeps.foldl_fst | apply Keeps.foldl_snd
    | apply Keeps.trans ?_ (loadDelays_keeps ..) | intro _)

theorem retirePc_keeps (p : Nat) (copy : Bool) (s : State) : Keeps s (retirePc p copy s) := by
  unfold retirePc
  repeat' (with_reducible first
    | apply Keeps.refl | apply Keeps.trans ?_ (raise_keeps ..) | apply Keeps.ite
    | fail_if_no_progress refine Keeps.put rfl ?_ rfl rfl rfl rfl rfl | intro _)

theorem bringUp_keeps (s : State) : Keeps s (bringUp s) := by
  unfold bringUp
  repeat' (with_reducible first
    | apply Keeps.refl | apply Keeps.ite | fail_if_no_progress refine Keeps.put rfl ?_ rfl rfl rfl rfl rfl | intro _)

theorem ethDown_keeps (p : Nat) (s : State) : Keeps s (ethDown p s) := by
  unfold ethDown
  repeat' (with_reducible first
    | apply Keeps.refl | apply Keeps.trans ?_ (raise_keeps ..) | apply Keeps.ite | apply Keeps.of_snd (by assumption)
    | apply Keeps.of_fst (by assumption) | fail_if_no_progress refine Keeps.put rfl ?_ rfl rfl rfl rfl rfl | intro _
    | split | dsimp only)

theorem setEgrPort_keeps (s : State) (p : Nat) (f : EgrPort → EgrPort) : Keeps s (setEgrPort s p f) := by
  unfold setEgrPort
  repeat' (with_reducible first
    | apply Keeps.refl | fail_if_no_progress refine Keeps.put rfl ?_ rfl rfl rfl rfl rfl)

theorem queueOwn_keeps (p : Nat) (ptp : Bool) (s : State) : Keeps s (queueOwn p ptp s) := by
  unfold queueOwn
  repeat' (with_reducible first
    | apply Keeps.refl | apply Keeps.trans ?_ (drawFree_keeps ..) | apply Keeps.trans ?_ (setEgrPort_keeps ..)
    | apply Keeps.of_snd (by assumption) | apply Keeps.of_fst (by assumption)
    | fail_if_no_progress refine Keeps.put rfl ?_ rfl rfl rfl rfl rfl | intro _ | split | dsimp only)

theorem fenceEth_keeps (p : Nat) (s : State) : Keeps s (fenceEth p s) := by
  unfold fenceEth
  repeat' (with_reducible first
    | apply Keeps.refl | apply Keeps.trans ?_ (fenced_keeps ..) | apply Keeps.trans ?_ (ethDown_keeps ..)
    | fail_if_no_progress refine Keeps.put rfl ?_ rfl rfl rfl rfl rfl | intro _ | dsimp only)

theorem announceTo_keeps (k : Nat) (tree : Option Nat) (s : State) : Keeps s (announceTo k tree s) := by
  unfold announceTo
  repeat' (with_reducible first
    | apply Keeps.refl | apply Keeps.trans ?_ (sendTree_keeps ..) | apply Keeps.of_snd (by assumption)
    | apply Keeps.of_fst (by assumption) | fail_if_no_progress refine Keeps.put rfl ?_ rfl rfl rfl rfl rfl | split)

theorem announceDown_keeps (tree : Option Nat) (s : State) : Keeps s (announceDown tree s) := by
  unfold announceDown
  repeat' (with_reducible first
    | apply Keeps.refl | apply Keeps.foldl | apply Keeps.foldl_fst | apply Keeps.foldl_snd
    | apply Keeps.trans ?_ (announceTo_keeps ..) | intro _)

theorem sendMap_keeps (s : State) : Keeps s (sendMap s) := by
  unfold sendMap
  repeat' (with_reducible first
    | apply Keeps.refl | apply Keeps.trans ?_ (sendUp_keeps ..))

theorem judgeMaps_keeps (s : State) : Keeps s (judgeMaps s) := by
  unfold judgeMaps
  repeat' (with_reducible first
    | apply Keeps.refl | apply Keeps.trans ?_ (raise_keeps ..) | apply Keeps.trans ?_ (announceDown_keeps ..)
    | apply Keeps.trans ?_ (sendMap_keeps ..) | apply Keeps.ite
    | fail_if_no_progress refine Keeps.put rfl ?_ rfl rfl rfl rfl rfl | dsimp only)

theorem nextTreeSeq_keeps (s : State) : Keeps s (nextTreeSeq s).2 := by
  unfold nextTreeSeq
  repeat' (with_reducible first
    | apply Keeps.refl | fail_if_no_progress refine Keeps.put rfl ?_ rfl rfl rfl rfl rfl)

theorem setBarrier_keeps (s : State) (k : Nat) (f : Barrier → Barrier) : Keeps s (setBarrier s k f) := by
  unfold setBarrier
  repeat' (with_reducible first
    | apply Keeps.refl | fail_if_no_progress refine Keeps.put rfl ?_ rfl rfl rfl rfl rfl)

theorem releaseBarrier_keeps (k : Nat) (isPartial : Bool) (s : State) : Keeps s (releaseBarrier k isPartial s) := by
  unfold releaseBarrier
  repeat' (with_reducible first
    | apply Keeps.refl | apply Keeps.trans ?_ (replyTo_keeps ..) | apply Keeps.ite | apply Keeps.of_snd (by assumption)
    | apply Keeps.of_fst (by assumption) | fail_if_no_progress refine Keeps.put rfl ?_ rfl rfl rfl rfl rfl | split
    | dsimp only)

theorem judgeBarrier_keeps (k : Nat) (s : State) : Keeps s (judgeBarrier k s) := by
  unfold judgeBarrier
  repeat' (with_reducible first
    | apply Keeps.refl | apply Keeps.trans ?_ (nextTreeSeq_keeps ..) | apply Keeps.trans ?_ (sendDown_keeps ..)
    | apply Keeps.trans ?_ (sendUp_keeps ..) | apply Keeps.trans ?_ (release_keeps ..)
    | apply Keeps.trans ?_ (setBarrier_keeps ..) | apply Keeps.trans ?_ (releaseBarrier_keeps ..) | apply Keeps.ite
    | apply Keeps.of_snd (by assumption) | apply Keeps.of_fst (by assumption)
    | fail_if_no_progress refine Keeps.put rfl ?_ rfl rfl rfl rfl rfl | intro _ | split | dsimp only)

theorem rejudgeBarriers_keeps (s : State) : Keeps s (rejudgeBarriers s) := by
  unfold rejudgeBarriers
  repeat' (with_reducible first
    | apply Keeps.refl | apply Keeps.foldl | apply Keeps.foldl_fst | apply Keeps.foldl_snd
    | apply Keeps.trans ?_ (judgeBarrier_keeps ..) | intro _)

theorem failTreeRequests_keeps (s : State) : Keeps s (failTreeRequests s) := by
  unfold failTreeRequests
  repeat' (with_reducible first
    | apply Keeps.refl | apply Keeps.foldl | apply Keeps.foldl_fst | apply Keeps.foldl_snd
    | apply Keeps.trans ?_ (replyTo_keeps ..) | fail_if_no_progress refine Keeps.put rfl ?_ rfl rfl rfl rfl rfl
    | intro _ | dsimp only)

theorem leaveTree_keeps (s : State) : Keeps s (leaveTree s) := by
  unfold leaveTree
  repeat' (with_reducible first
    | apply Keeps.refl | apply Keeps.trans ?_ (sendDown_keeps ..) | apply Keeps.trans ?_ (failTreeRequests_keeps ..)
    | fail_if_no_progress refine Keeps.put rfl ?_ rfl rfl rfl rfl rfl)

theorem treeLink_keeps (k : Nat) (up : Bool) (s : State) : Keeps s (treeLink k up s) := by
  unfold treeLink
  repeat' (with_reducible first
    | apply Keeps.refl | apply Keeps.trans ?_ (announceTo_keeps ..) | apply Keeps.trans ?_ (sendMap_keeps ..)
    | apply Keeps.trans ?_ (judgeMaps_keeps ..) | apply Keeps.trans ?_ (rejudgeBarriers_keeps ..)
    | apply Keeps.trans ?_ (leaveTree_keeps ..) | apply Keeps.ite
    | fail_if_no_progress refine Keeps.put rfl ?_ rfl rfl rfl rfl rfl | dsimp only)

theorem failForward_keeps (s : State) (f : Fwd) : Keeps s (failForward s f) := by
  unfold failForward
  repeat' (with_reducible first
    | apply Keeps.refl | apply Keeps.trans ?_ (replyTo_keeps ..) | apply Keeps.trans ?_ (refuseItem_keeps ..)
    | apply Keeps.of_snd (by assumption) | apply Keeps.of_fst (by assumption)
    | fail_if_no_progress refine Keeps.put rfl ?_ rfl rfl rfl rfl rfl | split)

theorem failForwards_keeps (s : State) : Keeps s (failForwards s) := by
  unfold failForwards
  repeat' (with_reducible first
    | apply Keeps.refl | assumption | apply Keeps.foldl | apply Keeps.foldl_fst | apply Keeps.foldl_snd
    | apply Keeps.trans ?_ (failForward_keeps ..) | apply Keeps.ite | apply Keeps.of_snd (by assumption)
    | apply Keeps.of_fst (by assumption) | fail_if_no_progress refine Keeps.put rfl ?_ rfl rfl rfl rfl rfl | intro _
    | split | dsimp only)

theorem failSwap_keeps (s : State) : Keeps s (failSwap s) := by
  unfold failSwap
  repeat' (with_reducible first
    | apply Keeps.refl | apply Keeps.trans ?_ (replyTo_keeps ..) | apply Keeps.of_snd (by assumption)
    | apply Keeps.of_fst (by assumption) | fail_if_no_progress refine Keeps.put rfl ?_ rfl rfl rfl rfl rfl | split)

theorem dropVa_keeps (s : State) : Keeps s (dropVa s) := by
  unfold dropVa
  repeat' (with_reducible first
    | apply Keeps.refl | apply Keeps.trans ?_ (raise_keeps ..) | apply Keeps.trans ?_ (failForwards_keeps ..)
    | apply Keeps.trans ?_ (failSwap_keeps ..) | apply Keeps.ite
    | fail_if_no_progress refine Keeps.put rfl ?_ rfl rfl rfl rfl rfl | dsimp only)

theorem valsinLost_keeps (v : Nat) (s : State) : Keeps s (valsinLost v s) := by
  unfold valsinLost
  repeat' (with_reducible first
    | apply Keeps.refl | apply Keeps.trans ?_ (treeLink_keeps ..) | apply Keeps.trans ?_ (dropVa_keeps ..)
    | apply Keeps.ite)

theorem fenceValsin_keeps (v : Nat) (s : State) : Keeps s (fenceValsin v s) := by
  unfold fenceValsin
  repeat' (with_reducible first
    | apply Keeps.refl | apply Keeps.trans ?_ (valsinLost_keeps ..)
    | fail_if_no_progress refine Keeps.put rfl ?_ rfl rfl rfl rfl rfl | intro _)

theorem startTraining_keeps (v : Nat) (s : State) : Keeps s (startTraining v s) := by
  unfold startTraining
  repeat' (with_reducible first
    | apply Keeps.refl | apply Keeps.trans ?_ (raise_keeps ..) | apply Keeps.trans ?_ (valsinLost_keeps ..)
    | apply Keeps.ite | apply Keeps.of_snd (by assumption) | apply Keeps.of_fst (by assumption)
    | fail_if_no_progress refine Keeps.put rfl ?_ rfl rfl rfl rfl rfl | intro _ | split | dsimp only)

theorem useValsin_keeps (v : Nat) (s : State) : Keeps s (useValsin v s) := by
  unfold useValsin
  repeat' (with_reducible first
    | apply Keeps.refl | apply Keeps.trans ?_ (startTraining_keeps ..) | apply Keeps.ite
    | fail_if_no_progress refine Keeps.put rfl ?_ rfl rfl rfl rfl rfl | dsimp only)

theorem linksIdle_keeps (s : State) : Keeps s (linksIdle s) := by
  unfold linksIdle
  repeat' (with_reducible first
    | apply Keeps.refl | apply Keeps.foldl | apply Keeps.foldl_fst | apply Keeps.foldl_snd
    | apply Keeps.trans ?_ (ethDown_keeps ..) | apply Keeps.trans ?_ (treeLink_keeps ..) | apply Keeps.ite
    | fail_if_no_progress refine Keeps.put rfl ?_ rfl rfl rfl rfl rfl | intro _ | dsimp only)

theorem linksRestart_keeps (s : State) : Keeps s (linksRestart s) := by
  unfold linksRestart
  repeat' (with_reducible first
    | apply Keeps.refl | apply Keeps.foldl | apply Keeps.foldl_fst | apply Keeps.foldl_snd
    | apply Keeps.trans ?_ (bringUp_keeps ..) | apply Keeps.trans ?_ (startTraining_keeps ..) | intro _)

theorem fenceCvu_keeps (u : Nat) (s : State) : Keeps s (fenceCvu u s) := by
  unfold fenceCvu
  repeat' (with_reducible first
    | apply Keeps.refl | apply Keeps.ite | fail_if_no_progress refine Keeps.put rfl ?_ rfl rfl rfl rfl rfl | intro _
    | dsimp only)

theorem fenced_keeps (s : State) : Keeps s (fenced s).1 := by
  unfold fenced
  repeat' (with_reducible first
    | apply Keeps.refl)

theorem fencesNothing_keeps (s : State) : Keeps s (fencesNothing s).1 := by
  unfold fencesNothing
  repeat' (with_reducible first
    | apply Keeps.refl)

/-- A fenced state keeps what it kept. -/
theorem Keeps.fenced_fst {s x : State} (h : Keeps s x) : Keeps s (fenced x).1 := h

theorem fenceInstance_keeps (src inst : Nat) (s : State) : Keeps s (fenceInstance src inst s).1 := by
  unfold fenceInstance
  with_reducible
    refine Keeps.ite_fst (retireEngine_keeps ..) ?_
    repeat' refine Keeps.ite_fst (Keeps.fenced_fst ?_) ?_
  any_goals with_reducible apply retireAnalyser_keeps
  any_goals with_reducible apply disableChannel_keeps
  any_goals with_reducible apply retireDecoder_keeps
  any_goals with_reducible apply setEngine_keeps
  any_goals with_reducible apply disableDecode_keeps
  any_goals with_reducible apply fenceCompositor_keeps
  any_goals with_reducible apply fenceAesIn_keeps
  any_goals with_reducible apply fenceAesOut_keeps
  any_goals with_reducible apply fenceFlows_keeps
  any_goals with_reducible apply fenceCore_keeps
  any_goals with_reducible apply retirePc_keeps
  any_goals with_reducible apply fenceEth_keeps
  any_goals with_reducible apply fenceValsin_keeps
  any_goals with_reducible apply fenceCvu_keeps
  any_goals exact Keeps.put rfl (Keeps.refl _) rfl rfl rfl rfl rfl
  all_goals
    split
    all_goals with_reducible first
      | apply disableChannel_keeps
      | apply fenceAesIn_keeps
      | apply fenceAesOut_keeps
      | exact Keeps.refl _

theorem breakAnalysis_keeps (a : Nat) (s : State) : Keeps s (breakAnalysis a s) := by
  unfold breakAnalysis
  repeat' (with_reducible first
    | apply Keeps.refl | apply Keeps.ite | fail_if_no_progress refine Keeps.put rfl ?_ rfl rfl rfl rfl rfl | intro _)

theorem breakComposition_keeps (c : Nat) (s : State) : Keeps s (breakComposition c s) := by
  unfold breakComposition
  repeat' (with_reducible first
    | apply Keeps.refl | fail_if_no_progress refine Keeps.put rfl ?_ rfl rfl rfl rfl rfl | intro _)

theorem retryUnit_keeps (src : Nat) (inst : Nat) (s : State) : Keeps s (retryUnit src inst s) := by
  unfold retryUnit
  repeat' (with_reducible first
    | apply Keeps.refl | apply Keeps.trans ?_ (dropCoreItem_keeps ..) | apply Keeps.trans ?_ (floorRetry_keeps ..)
    | apply Keeps.trans ?_ (setEngine_keeps ..) | apply Keeps.trans ?_ (breakAnalysis_keeps ..)
    | apply Keeps.trans ?_ (breakComposition_keeps ..) | apply Keeps.ite
    | fail_if_no_progress refine Keeps.put rfl ?_ rfl rfl rfl rfl rfl | intro _)

end Sys2Proof.Machine
end

