-- ==== Sys2Proof/Laws/KeepsModes.lean ====
section
/-! SUPPORT. What the operations of Machine/Modes.lean keep (Laws/Keeps.lean). -/

set_option linter.unusedTactic false
set_option linter.unreachableTactic false

namespace Sys2Proof.Machine

open Sys2Proof.Safety

theorem settleMerge_keeps (s : State) : Keeps s (settleMerge s) := by
  unfold settleMerge
  repeat' (with_reducible first
    | apply Keeps.refl | fail_if_no_progress refine Keeps.put rfl ?_ rfl rfl rfl rfl rfl | intro _)

theorem adoptMerge_keeps (s : State) : Keeps s (adoptMerge s) := by
  unfold adoptMerge
  repeat' (with_reducible first
    | apply Keeps.refl | fail_if_no_progress refine Keeps.put rfl ?_ rfl rfl rfl rfl rfl | intro _)

/-- Taking a claim keeps everything but the absence of one. -/
theorem takeClaim_kept (raised bySwap : Bool) (s : State) : Kept s (takeClaim raised bySwap s) :=
  ⟨rfl, id, fusesKept_refl _⟩

theorem dropClaim_kept (s : State) : Kept s (dropClaim s) := by
  unfold dropClaim
  split
  · exact Kept.refl _
  · exact ⟨rfl, id, fusesKept_refl _⟩

theorem dropClaim_claim (s : State) : (dropClaim s).red.claim = 0 := by
  unfold dropClaim
  split
  · assumption
  · rfl

theorem dropClaim_mode (s : State) : (dropClaim s).mode = s.mode := by unfold dropClaim; split <;> rfl

theorem dropClaim_pins (s : State) : (dropClaim s).pins = s.pins := by unfold dropClaim; split <;> rfl

theorem dropClaim_keeps (s : State) : Keeps s (dropClaim s) :=
  ⟨dropClaim_kept s, fun h => by simpa [outputsSafe, dropClaim_mode, dropClaim_pins] using h,
    fun _ => by simp [claimFree, dropClaim_claim]⟩

theorem stopData_keeps (empty : Bool) (s : State) : Keeps s (stopData empty s) := by
  unfold stopData
  repeat' (with_reducible first
    | apply Keeps.refl | apply Keeps.ite | fail_if_no_progress refine Keeps.put rfl ?_ rfl rfl rfl rfl rfl | intro _)

theorem resumeCvu_keeps (s : State) : Keeps s (resumeCvu s) := by
  unfold resumeCvu
  repeat' (with_reducible first
    | apply Keeps.refl | fail_if_no_progress refine Keeps.put rfl ?_ rfl rfl rfl rfl rfl | intro _)

theorem restartCtxs_keeps (s : State) : Keeps s (restartCtxs s) := by
  unfold restartCtxs
  repeat' (with_reducible first
    | apply Keeps.refl | apply Keeps.ite | fail_if_no_progress refine Keeps.put rfl ?_ rfl rfl rfl rfl rfl | intro _)

theorem discardEncoding_keeps (s : State) : Keeps s (discardEncoding s) := by
  unfold discardEncoding
  repeat' (with_reducible first
    | apply Keeps.refl | fail_if_no_progress refine Keeps.put rfl ?_ rfl rfl rfl rfl rfl | intro _)

theorem abandonUpdate_keeps (s : State) : Keeps s (abandonUpdate s) := by
  unfold abandonUpdate
  repeat' (with_reducible first
    | apply Keeps.refl | apply Keeps.trans ?_ (raise_keeps ..) | apply Keeps.trans ?_ (replyTo_keeps ..)
    | apply Keeps.of_snd (by assumption) | apply Keeps.of_fst (by assumption)
    | fail_if_no_progress refine Keeps.put rfl ?_ rfl rfl rfl rfl rfl | split | dsimp only)

theorem overtakeHeld_keeps (s : State) : Keeps s (overtakeHeld s) := by
  unfold overtakeHeld
  repeat' (with_reducible first
    | apply Keeps.refl | apply Keeps.trans ?_ (replyTo_keeps ..) | apply Keeps.ite | apply Keeps.of_snd (by assumption)
    | apply Keeps.of_fst (by assumption) | fail_if_no_progress refine Keeps.put rfl ?_ rfl rfl rfl rfl rfl | split)

theorem startAntiRollback_keeps (s : State) : Keeps s (startAntiRollback s) := by
  unfold startAntiRollback
  repeat' (with_reducible first
    | apply Keeps.refl | apply Keeps.ite | fail_if_no_progress refine Keeps.put rfl ?_ rfl rfl rfl rfl rfl)

theorem enterHold_keeps (s : State) : Keeps s (enterHold s) :=
  ⟨⟨rfl, fun _ => rfl, fusesKept_refl _⟩, fun _ => rfl, fun _ => rfl⟩

theorem noteSafeHold_keeps (old : Mode) (s : State) : Keeps s (noteSafeHold old s) := by
  unfold noteSafeHold
  repeat' (with_reducible first
    | apply Keeps.refl | apply Keeps.foldl | apply Keeps.foldl_fst | apply Keeps.foldl_snd
    | apply Keeps.trans ?_ (replyTo_keeps ..) | apply Keeps.of_snd (by assumption) | apply Keeps.of_fst (by assumption)
    | fail_if_no_progress refine Keeps.put rfl ?_ rfl rfl rfl rfl rfl | intro _ | split | dsimp only)



theorem startResync_keeps (s : State) : Keeps s (startResync s) := by
  unfold startResync
  repeat' (with_reducible first
    | apply Keeps.refl | apply Keeps.trans ?_ (discardEncoding_keeps ..)
    | fail_if_no_progress refine Keeps.put rfl ?_ rfl rfl rfl rfl rfl)

theorem claimOnEntry_kept (m : Mode) (s : State) : Kept s (claimOnEntry m s) := by
  unfold claimOnEntry
  split <;> first | exact dropClaim_kept _ | exact Kept.refl _

theorem claimOnEntry_mode (m : Mode) (s : State) : (claimOnEntry m s).mode = s.mode := by
  unfold claimOnEntry
  split <;> first | exact dropClaim_mode _ | rfl

theorem claimOnEntry_pins (m : Mode) (s : State) : (claimOnEntry m s).pins = s.pins := by
  unfold claimOnEntry
  split <;> first | exact dropClaim_pins _ | rfl

theorem claimOnEntry_claim (m : Mode) (s : State) (h : holdsNoClaim m = true) : (claimOnEntry m s).red.claim = 0 := by
  cases m <;> first | exact dropClaim_claim _ | cases h

/-- The switch itself makes the outputs safe and drops the claim where the new mode asks for it. -/
theorem switchMode_kept (m : Mode) (s : State) : Kept s (switchMode m s) :=
  Kept.trans (b := { s with
    mode := { s.mode with mode := m, prev := s.mode.mode, changes := satAdd 32 s.mode.changes 1 }
    pins := { s.pins with forcedSafe := safeMode m || s.pins.tripped, ppsOut := s.pins.ppsOut && !safeMode m && !s.pins.tripped, xspiHiZ := m == .halt } })
    ⟨rfl, id, fusesKept_refl _⟩ (claimOnEntry_kept m _)

theorem switchMode_safe (m : Mode) (s : State) : outputsSafe (switchMode m s) = true := by
  cases h : safeMode m <;> simp [outputsSafe, switchMode, claimOnEntry_mode, claimOnEntry_pins, h]

theorem switchMode_claimFree (m : Mode) (s : State) : claimFree (switchMode m s) = true := by
  by_cases h : holdsNoClaim m = true
  · simp [claimFree, switchMode, claimOnEntry_claim m _ h]
  · simp [claimFree, switchMode, claimOnEntry_mode, h]

theorem stopOnEntry_keeps (m old : Mode) (s : State) : Keeps s (stopOnEntry m old s) := by
  unfold stopOnEntry
  extract_lets s1 s2 s3 s4
  have h1 : Keeps s s1 := Keeps.ite (abandonUpdate_keeps _) (Keeps.refl _)
  have h2 : Keeps s1 s2 := Keeps.ite (stopData_keeps _ _) (Keeps.refl _)
  have h3 : Keeps s2 s3 := Keeps.ite (noteSafeHold_keeps _ _) (Keeps.refl _)
  have h4 : Keeps s3 s4 := Keeps.ite (linksIdle_keeps _) (Keeps.ite (linksRestart_keeps _) (bringUp_keeps _))
  have h : Keeps s s4 := ((h1.trans h2).trans h3).trans h4
  clear_value s4
  exact Keeps.ite (Keeps.put rfl h rfl rfl rfl rfl rfl) h

theorem wakeAll_keeps (s : State) : Keeps s (wakeAll s) := by
  unfold wakeAll
  repeat' (with_reducible first
    | apply Keeps.refl | apply Keeps.foldl | apply Keeps.foldl_fst | apply Keeps.foldl_snd
    | apply Keeps.trans ?_ (beginExit_keeps ..) | apply Keeps.ite | intro _)

theorem resumePass_keeps (m : Mode) (old : Mode) (s : State) : Keeps s (resumePass m old s) := by
  unfold resumePass
  repeat' (with_reducible first
    | apply Keeps.refl | apply Keeps.trans ?_ (resumeCvu_keeps ..) | apply Keeps.trans ?_ (wakeAll_keeps ..)
    | apply Keeps.ite | dsimp only)

theorem resumeSolo_keeps (m : Mode) (old : Mode) (s : State) : Keeps s (resumeSolo m old s) := by
  unfold resumeSolo
  repeat' (with_reducible first
    | apply Keeps.refl | apply Keeps.trans ?_ (restartCtxs_keeps ..) | apply Keeps.ite)

theorem copyOnEntry_keeps (m : Mode) (old : Mode) (s : State) : Keeps s (copyOnEntry m old s) := by
  unfold copyOnEntry
  repeat' (with_reducible first
    | apply Keeps.refl | apply Keeps.trans ?_ (startResync_keeps ..) | apply Keeps.ite
    | fail_if_no_progress refine Keeps.put rfl ?_ rfl rfl rfl rfl rfl)

theorem noteConfigure_keeps (m : Mode) (s : State) : Keeps s (noteConfigure m s) := by
  unfold noteConfigure
  repeat' (with_reducible first
    | apply Keeps.refl | apply Keeps.ite | fail_if_no_progress refine Keeps.put rfl ?_ rfl rfl rfl rfl rfl)

theorem rollbackOnEntry_keeps (m : Mode) (s : State) : Keeps s (rollbackOnEntry m s) := by
  unfold rollbackOnEntry
  repeat' (with_reducible first
    | apply Keeps.refl | apply Keeps.trans ?_ (startAntiRollback_keeps ..) | apply Keeps.ite)

theorem degradeOnEntry_keeps (m : Mode) (s : State) : Keeps s (degradeOnEntry m s) := by
  unfold degradeOnEntry
  repeat' (with_reducible first
    | apply Keeps.refl | apply Keeps.ite | fail_if_no_progress refine Keeps.put rfl ?_ rfl rfl rfl rfl rfl)

theorem mergeOnEntry_keeps (m : Mode) (old : Mode) (s : State) : Keeps s (mergeOnEntry m old s) := by
  unfold mergeOnEntry
  repeat' (with_reducible first
    | apply Keeps.refl | apply Keeps.trans ?_ (settleMerge_keeps ..) | apply Keeps.trans ?_ (adoptMerge_keeps ..)
    | apply Keeps.ite)

theorem yieldOnEntry_keeps (m : Mode) (s : State) : Keeps s (yieldOnEntry m s) := by
  unfold yieldOnEntry
  repeat' (with_reducible first
    | apply Keeps.refl | fail_if_no_progress refine Keeps.put rfl ?_ rfl rfl rfl rfl rfl)

theorem startOnEntry_keeps (m : Mode) (old : Mode) (s : State) : Keeps s (startOnEntry m old s) := by
  unfold startOnEntry
  repeat' (with_reducible first
    | apply Keeps.refl | apply Keeps.trans ?_ (resumePass_keeps ..) | apply Keeps.trans ?_ (resumeSolo_keeps ..)
    | apply Keeps.trans ?_ (copyOnEntry_keeps ..) | apply Keeps.trans ?_ (noteConfigure_keeps ..)
    | apply Keeps.trans ?_ (rollbackOnEntry_keeps ..) | apply Keeps.trans ?_ (degradeOnEntry_keeps ..)
    | apply Keeps.trans ?_ (mergeOnEntry_keeps ..) | apply Keeps.trans ?_ (yieldOnEntry_keeps ..))

/-- Entry to a mode makes good what the mode asks for, whatever held before. -/
theorem enterMode_of_kept {s x : State} (m : Mode) (h : Kept s x) : Keeps s (enterMode m x) := by
  have k : Keeps (switchMode m x) (enterMode m x) :=
    (((stopOnEntry_keeps m x.mode.mode _).trans (startOnEntry_keeps m x.mode.mode _)).trans (overtakeHeld_keeps _)).trans
      (modeEvent_keeps ..)
  exact ⟨(h.trans (switchMode_kept m x)).trans k.toKept, fun _ => k.safe (switchMode_safe m x),
    fun _ => k.claim (switchMode_claimFree m x)⟩

theorem enterMode_keeps (m : Mode) (s : State) : Keeps s (enterMode m s) := enterMode_of_kept m (Kept.refl s)

/-- Entry to a mode after the claim is taken (R253). -/
theorem enterMode_takeClaim {s x : State} {m : Mode} {a b : Bool} (h : Keeps s x) : Keeps s (enterMode m (takeClaim a b x)) :=
  enterMode_of_kept m (h.toKept.trans (takeClaim_kept ..))

theorem enterBoot_keeps (s : State) : Keeps s (enterBoot s) := by
  unfold enterBoot
  repeat' (with_reducible first
    | apply Keeps.refl | apply Keeps.trans ?_ (enterMode_keeps ..)
    | fail_if_no_progress refine Keeps.put rfl ?_ rfl rfl rfl rfl rfl)

theorem setDegraded_keeps (s : State) : Keeps s (setDegraded s) := by
  unfold setDegraded
  repeat' (with_reducible first
    | apply Keeps.refl | apply Keeps.trans ?_ (modeEvent_keeps ..) | apply Keeps.ite
    | apply Keeps.of_snd (by assumption) | apply Keeps.of_fst (by assumption)
    | fail_if_no_progress refine Keeps.put rfl ?_ rfl rfl rfl rfl rfl | split)

end Sys2Proof.Machine
end

