-- ==== Sys2Proof/Laws/KeepsFaults.lean ====
section
/-! SUPPORT. What the operations of Machine/Faults.lean keep (Laws/Keeps.lean). -/

set_option linter.unusedTactic false
set_option linter.unreachableTactic false

namespace Sys2Proof.Machine

open Sys2Proof.Safety

theorem supervisorLog_keeps (e : LogEntry) (s : State) : Keeps s (supervisorLog e s) := by
  unfold supervisorLog
  repeat' (with_reducible first
    | apply Keeps.refl | fail_if_no_progress refine Keeps.put rfl ?_ rfl rfl rfl rfl rfl)

theorem supervisorEntry_keeps (d0 : Nat) (d1 : Nat) (s : State) : Keeps s (supervisorEntry d0 d1 s) := by
  unfold supervisorEntry
  repeat' (with_reducible first
    | apply Keeps.refl | apply Keeps.trans ?_ (supervisorLog_keeps ..))

theorem writeLog_keeps (r : Report) (sev : Nat) (flags : Nat) (hist : Nat) (s : State) : Keeps s (writeLog r sev flags hist s) := by
  unfold writeLog
  repeat' (with_reducible first
    | apply Keeps.refl | apply Keeps.trans ?_ (supervisorLog_keeps ..) | apply Keeps.ite
    | fail_if_no_progress refine Keeps.put rfl ?_ rfl rfl rfl rfl rfl | dsimp only)

theorem faultEvent_keeps (r : Report) (s : State) : Keeps s (faultEvent r s) := by
  unfold faultEvent
  repeat' (with_reducible first
    | apply Keeps.refl | apply Keeps.foldl | apply Keeps.foldl_fst | apply Keeps.foldl_snd
    | apply Keeps.trans ?_ (sendEvent_keeps ..) | apply Keeps.of_snd (by assumption)
    | apply Keeps.of_fst (by assumption) | fail_if_no_progress refine Keeps.put rfl ?_ rfl rfl rfl rfl rfl | intro _
    | split)

theorem countReport_keeps (src : Nat) (inst : Nat) (s : State) : Keeps s (countReport src inst s) := by
  unfold countReport
  repeat' (with_reducible first
    | apply Keeps.refl | apply Keeps.foldl | apply Keeps.foldl_fst | apply Keeps.foldl_snd
    | apply Keeps.trans ?_ (setPart_keeps ..) | fail_if_no_progress refine Keeps.put rfl ?_ rfl rfl rfl rfl rfl
    | intro _ | dsimp only)

theorem fenceReport_keeps (src : Nat) (inst : Nat) (s : State) : Keeps s (fenceReport src inst s) := by
  unfold fenceReport
  repeat' (with_reducible first
    | apply Keeps.refl | apply Keeps.trans ?_ (fenced_keeps ..) | apply Keeps.trans ?_ (fenceInstance_keeps ..)
    | apply Keeps.trans ?_ (settleMerge_keeps ..) | apply Keeps.trans ?_ (setDegraded_keeps ..) | apply Keeps.ite
    | apply Keeps.of_snd (by assumption) | apply Keeps.of_fst (by assumption)
    | fail_if_no_progress refine Keeps.put rfl ?_ rfl rfl rfl rfl rfl | split | dsimp only)

theorem startPulse_keeps (s : State) : Keeps s (startPulse s) := by
  unfold startPulse
  repeat' (with_reducible first
    | apply Keeps.refl | apply Keeps.of_snd (by assumption) | apply Keeps.of_fst (by assumption)
    | fail_if_no_progress refine Keeps.put rfl ?_ rfl rfl rfl rfl rfl | split)

theorem unitReaction_keeps (r : Report) (sev : Nat) (permanent : Bool) (merged : Bool) (s : State) : Keeps s (unitReaction r sev permanent merged s) := by
  unfold unitReaction
  repeat' (with_reducible first
    | apply Keeps.refl | apply Keeps.trans ?_ (retryUnit_keeps ..) | apply Keeps.trans ?_ (fenceReport_keeps ..)
    | apply Keeps.ite | fail_if_no_progress refine Keeps.put rfl ?_ rfl rfl rfl rfl rfl)

theorem collect_keeps (path : Bool) (r : Report) (s : State) : Keeps s (collect path r s).1 := by
  unfold collect
  repeat' (with_reducible first
    | apply Keeps.refl | apply Keeps.ite_fst | apply Keeps.trans ?_ (dropClaim_keeps ..)
    | apply Keeps.trans ?_ (writeLog_keeps ..) | apply Keeps.trans ?_ (faultEvent_keeps ..)
    | apply Keeps.trans ?_ (countReport_keeps ..) | apply Keeps.trans ?_ (startPulse_keeps ..)
    | apply Keeps.trans ?_ (unitReaction_keeps ..) | apply Keeps.ite
    | fail_if_no_progress refine Keeps.put rfl ?_ rfl rfl rfl rfl rfl | dsimp only)

theorem collectAll_keeps (l : List Report) (s : State) : Keeps s (collectAll l s).1 := by
  unfold collectAll
  repeat' (with_reducible first
    | apply Keeps.refl | apply Keeps.foldl | apply Keeps.foldl_fst | apply Keeps.foldl_snd
    | apply Keeps.trans ?_ (collect_keeps ..) | apply Keeps.of_snd (by assumption) | apply Keeps.of_fst (by assumption)
    | intro _ | split | dsimp only)

theorem modeReaction_keeps (v : Nat) (s : State) : Keeps s (modeReaction v s) := by
  unfold modeReaction
  repeat' (with_reducible first
    | apply Keeps.refl | apply Keeps.trans ?_ (enterMode_keeps ..) | apply Keeps.trans ?_ (setDegraded_keeps ..)
    | apply Keeps.ite)

theorem settleOnce_keeps (s : State) : Keeps s (settleOnce s) := by
  unfold settleOnce
  repeat' (with_reducible first
    | apply Keeps.refl | apply Keeps.trans ?_ (collectAll_keeps ..) | apply Keeps.trans ?_ (modeReaction_keeps ..)
    | apply Keeps.ite | apply Keeps.of_snd (by assumption) | apply Keeps.of_fst (by assumption)
    | fail_if_no_progress refine Keeps.put rfl ?_ rfl rfl rfl rfl rfl | split | dsimp only)

theorem settle_keeps (s : State) : Keeps s (settle s) := by
  unfold settle
  repeat' (with_reducible first
    | apply Keeps.refl | apply Keeps.trans ?_ (settleOnce_keeps ..) | apply Keeps.ite | dsimp only)

theorem done_keeps (s : State) : KeepsO s (done s) := by
  unfold done
  repeat' (with_reducible first
    | apply Keeps.refl | apply KeepsO.next | apply Keeps.trans ?_ (settle_keeps ..))

end Sys2Proof.Machine
end

