-- ==== Sys2Proof/Laws/KeepsClocks.lean ====
section
/-! SUPPORT. What the operations of Machine/Clocks.lean keep (Laws/Keeps.lean). -/

set_option linter.unusedTactic false
set_option linter.unreachableTactic false

namespace Sys2Proof.Machine

open Sys2Proof.Safety

theorem setSource_keeps (i : Nat) (f : SourceSt → SourceSt) (s : State) : Keeps s (setSource i f s) := by
  unfold setSource
  repeat' (with_reducible first
    | apply Keeps.refl | fail_if_no_progress refine Keeps.put rfl ?_ rfl rfl rfl rfl rfl)

theorem setSources_keeps (l : List Nat) (f : SourceSt → SourceSt) (s : State) : Keeps s (setSources l f s) := by
  unfold setSources
  repeat' (with_reducible first
    | apply Keeps.refl | apply Keeps.foldl | apply Keeps.foldl_fst | apply Keeps.foldl_snd
    | apply Keeps.trans ?_ (setSource_keeps ..) | intro _)

theorem beginSwitch_keeps (toFrc : Bool) (isForced : Bool) (s : State) : Keeps s (beginSwitch toFrc isForced s) := by
  unfold beginSwitch
  repeat' (with_reducible first
    | apply Keeps.refl | fail_if_no_progress refine Keeps.put rfl ?_ rfl rfl rfl rfl rfl)

theorem forceSafe_keeps (s : State) : Keeps s (forceSafe s) :=
  ⟨⟨rfl, id, fusesKept_refl _⟩, fun _ => by simp [outputsSafe, forceSafe], id⟩

theorem markLost_keeps (i : Nat) (s : State) : Keeps s (markLost i s) := by
  unfold markLost
  repeat' (with_reducible first
    | apply Keeps.refl | apply Keeps.trans ?_ (setSource_keeps ..)
    | fail_if_no_progress refine Keeps.put rfl ?_ rfl rfl rfl rfl rfl | intro _ | dsimp only)

theorem gateLoops_keeps (i : Nat) (s : State) : Keeps s (gateLoops i s) := by
  unfold gateLoops
  repeat' (with_reducible first
    | apply Keeps.refl | apply Keeps.trans ?_ (setSources_keeps ..)
    | fail_if_no_progress refine Keeps.put rfl ?_ rfl rfl rfl rfl rfl | intro _)

theorem tripSource_keeps (i : Nat) (stopped : Bool) (s : State) : Keeps s (tripSource i stopped s) := by
  unfold tripSource
  repeat' (with_reducible first
    | apply Keeps.refl | apply Keeps.trans ?_ (raise_keeps ..) | apply Keeps.trans ?_ (beginSwitch_keeps ..)
    | apply Keeps.trans ?_ (forceSafe_keeps ..) | apply Keeps.trans ?_ (markLost_keeps ..)
    | apply Keeps.trans ?_ (gateLoops_keeps ..) | apply Keeps.ite
    | fail_if_no_progress refine Keeps.put rfl ?_ rfl rfl rfl rfl rfl | dsimp only)

theorem execClockStopDetect_keeps (i : Nat) (s : State) : KeepsO s (execClockStopDetect i s) := by
  unfold execClockStopDetect
  repeat' (with_reducible first
    | apply Keeps.refl | apply KeepsO.next | apply KeepsO.ite | apply KeepsO.trans ?_ (done_keeps ..)
    | apply Keeps.trans ?_ (tripSource_keeps ..) | apply Keeps.ite)

theorem execLoopLossOfLock_keeps (i : Nat) (s : State) : KeepsO s (execLoopLossOfLock i s) := by
  unfold execLoopLossOfLock
  repeat' (with_reducible first
    | apply Keeps.refl | apply KeepsO.next | apply KeepsO.ite | apply KeepsO.trans ?_ (done_keeps ..)
    | apply Keeps.trans ?_ (tripSource_keeps ..) | apply Keeps.ite)

theorem execFrequencyMeasurement_keeps (i : Nat) (count : Nat) (s : State) : KeepsO s (execFrequencyMeasurement i count s) := by
  unfold execFrequencyMeasurement
  repeat' (with_reducible first
    | apply Keeps.refl | apply KeepsO.next | apply KeepsO.ite | apply KeepsO.trans ?_ (done_keeps ..)
    | apply Keeps.trans ?_ (setSource_keeps ..) | apply Keeps.trans ?_ (tripSource_keeps ..) | apply Keeps.ite
    | fail_if_no_progress refine Keeps.put rfl ?_ rfl rfl rfl rfl rfl | intro _ | dsimp only)

theorem execLoopLockReported_keeps (i : Nat) (s : State) : KeepsO s (execLoopLockReported i s) := by
  unfold execLoopLockReported
  repeat' (with_reducible first
    | apply Keeps.refl | apply KeepsO.next | apply KeepsO.ite | apply Keeps.trans ?_ (setSource_keeps ..)
    | apply Keeps.ite | fail_if_no_progress refine Keeps.put rfl ?_ rfl rfl rfl rfl rfl | intro _ | dsimp only)

theorem afterStable_keeps (i : Nat) (s : State) : Keeps s (afterStable i s) := by
  unfold afterStable
  repeat' (with_reducible first
    | apply Keeps.refl | apply Keeps.trans ?_ (bringUp_keeps ..) | apply Keeps.trans ?_ (setSource_keeps ..)
    | apply Keeps.trans ?_ (setSources_keeps ..) | apply Keeps.ite | apply Keeps.of_snd (by assumption)
    | apply Keeps.of_fst (by assumption) | fail_if_no_progress refine Keeps.put rfl ?_ rfl rfl rfl rfl rfl | intro _
    | split | dsimp only)

theorem tryBoot_keeps (s : State) : KeepsO s (tryBoot s) := by
  unfold tryBoot
  repeat' (with_reducible first
    | apply Keeps.refl | apply KeepsO.next | apply KeepsO.ite | apply Keeps.trans ?_ (enterBoot_keeps ..)
    | apply KeepsO.trans ?_ (done_keeps ..) | apply Keeps.ite)

theorem execSourceStable_keeps (i : Nat) (ratio : Nat) (s : State) : KeepsO s (execSourceStable i ratio s) := by
  unfold execSourceStable
  repeat' (with_reducible first
    | apply Keeps.refl | apply KeepsO.next | apply KeepsO.ite | apply Keeps.trans ?_ (setSource_keeps ..)
    | apply Keeps.trans ?_ (afterStable_keeps ..) | apply KeepsO.trans ?_ (tryBoot_keeps ..) | apply Keeps.ite
    | fail_if_no_progress refine Keeps.put rfl ?_ rfl rfl rfl rfl rfl | intro _ | dsimp only)

theorem stopPllR_keeps (s : State) : Keeps s (stopPllR s) := by
  unfold stopPllR
  repeat' (with_reducible first
    | apply Keeps.refl | apply Keeps.trans ?_ (setSource_keeps ..)
    | fail_if_no_progress refine Keeps.put rfl ?_ rfl rfl rfl rfl rfl | intro _)

theorem restartPllR_keeps (s : State) : Keeps s (restartPllR s) := by
  unfold restartPllR
  repeat' (with_reducible first
    | apply Keeps.refl | apply Keeps.trans ?_ (setSource_keeps ..) | apply Keeps.ite
    | fail_if_no_progress refine Keeps.put rfl ?_ rfl rfl rfl rfl rfl)

theorem moveRoot_keeps (toFrc : Bool) (s : State) : Keeps s (moveRoot toFrc s) := by
  unfold moveRoot
  repeat' (with_reducible first
    | apply Keeps.refl | apply Keeps.trans ?_ (parkStacks_keeps ..) | apply Keeps.ite
    | fail_if_no_progress refine Keeps.put rfl ?_ rfl rfl rfl rfl rfl | dsimp only)

theorem raiseLosses_keeps (l : List Nat) (s : State) : Keeps s (raiseLosses l s) := by
  unfold raiseLosses
  repeat' (with_reducible first
    | apply Keeps.refl | apply Keeps.foldl | apply Keeps.foldl_fst | apply Keeps.foldl_snd
    | apply Keeps.trans ?_ (raise_keeps ..) | apply Keeps.ite | intro _)

theorem execRootSwitchDone_keeps (s : State) : KeepsO s (execRootSwitchDone s) := by
  unfold execRootSwitchDone
  repeat' (with_reducible first
    | apply Keeps.refl | apply KeepsO.next | apply KeepsO.ite | apply Keeps.trans ?_ (replyTo_keeps ..)
    | apply Keeps.trans ?_ (wakeWaiting_keeps ..) | apply KeepsO.trans ?_ (done_keeps ..)
    | apply Keeps.trans ?_ (stopPllR_keeps ..) | apply Keeps.trans ?_ (moveRoot_keeps ..)
    | apply Keeps.trans ?_ (raiseLosses_keeps ..) | apply Keeps.ite | apply Keeps.of_snd (by assumption)
    | apply Keeps.of_fst (by assumption) | fail_if_no_progress refine Keeps.put rfl ?_ rfl rfl rfl rfl rfl | split
    | dsimp only)

theorem busy_keeps (p : Nat) (r : Req) (opcode : Nat) (s : State) : Keeps s (busy p r opcode s) := by
  unfold busy
  repeat' (with_reducible first
    | apply Keeps.refl | apply Keeps.trans ?_ (drawFree_keeps ..) | apply Keeps.trans ?_ (reply_keeps ..)
    | apply Keeps.of_snd (by assumption) | apply Keeps.of_fst (by assumption) | split | dsimp only)

theorem cmdClkSwitchToPllR_keeps (r : Req) (s : State) : Keeps s (cmdClkSwitchToPllR r s) := by
  unfold cmdClkSwitchToPllR
  repeat' (with_reducible first
    | apply Keeps.refl | apply Keeps.trans ?_ (reply_keeps ..)
    | apply Keeps.trans ?_ (takeRequest_keeps (hbody := ?_) ..) | apply Keeps.trans ?_ (beginSwitch_keeps ..)
    | apply Keeps.trans ?_ (busy_keeps ..) | apply Keeps.ite
    | fail_if_no_progress refine Keeps.put rfl ?_ rfl rfl rfl rfl rfl | intro _ | dsimp only)

theorem cmdClkSwitchToFrc_keeps (r : Req) (s : State) : Keeps s (cmdClkSwitchToFrc r s) := by
  unfold cmdClkSwitchToFrc
  repeat' (with_reducible first
    | apply Keeps.refl | apply Keeps.trans ?_ (reply_keeps ..)
    | apply Keeps.trans ?_ (takeRequest_keeps (hbody := ?_) ..) | apply Keeps.trans ?_ (beginSwitch_keeps ..)
    | apply Keeps.trans ?_ (stopPllR_keeps ..) | apply Keeps.trans ?_ (restartPllR_keeps ..)
    | apply Keeps.trans ?_ (busy_keeps ..) | apply Keeps.ite
    | fail_if_no_progress refine Keeps.put rfl ?_ rfl rfl rfl rfl rfl | intro _ | dsimp only)

theorem execClkSwitchToPllR_keeps (r : Req) (s : State) : KeepsO s (execClkSwitchToPllR r s) := by
  unfold execClkSwitchToPllR
  repeat' (with_reducible first
    | apply Keeps.refl | apply KeepsO.trans ?_ (done_keeps ..) | apply Keeps.trans ?_ (cmdClkSwitchToPllR_keeps ..))

theorem execClkSwitchToFrc_keeps (r : Req) (s : State) : KeepsO s (execClkSwitchToFrc r s) := by
  unfold execClkSwitchToFrc
  repeat' (with_reducible first
    | apply Keeps.refl | apply KeepsO.trans ?_ (done_keeps ..) | apply Keeps.trans ?_ (cmdClkSwitchToFrc_keeps ..))

theorem wakeStacks_keeps (s : State) : Keeps s (wakeStacks s) := by
  unfold wakeStacks
  repeat' (with_reducible first
    | apply Keeps.refl | apply Keeps.foldl | apply Keeps.foldl_fst | apply Keeps.foldl_snd
    | apply Keeps.trans ?_ (loadDelays_keeps ..) | fail_if_no_progress refine Keeps.put rfl ?_ rfl rfl rfl rfl rfl
    | intro _)

theorem enterRun_of_kept {s x : State} (h : Kept s x) : Keeps s (enterRun x) := by
  unfold enterRun
  split
  · exact enterMode_of_kept _ h
  · split
    · exact enterMode_of_kept _ (h.trans (takeClaim_kept ..))
    · exact enterMode_of_kept _ h

theorem enterRun_keeps (s : State) : Keeps s (enterRun s) := enterRun_of_kept (Kept.refl s)

theorem leaveMtb_keeps (sourceTime : Option Nat) (s : State) : Keeps s (leaveMtb sourceTime s) := by
  unfold leaveMtb
  repeat' (with_reducible first
    | apply Keeps.refl | apply Keeps.trans ?_ (drawFree_keeps ..) | apply Keeps.trans ?_ (stepMtb_keeps ..)
    | apply Keeps.ite | apply Keeps.of_snd (by assumption) | apply Keeps.of_fst (by assumption)
    | fail_if_no_progress refine Keeps.put rfl ?_ rfl rfl rfl rfl rfl | split | dsimp only)

theorem execSafeHoldExit_keeps (sourceTime : Option Nat) (s : State) : KeepsO s (execSafeHoldExit sourceTime s) := by
  unfold execSafeHoldExit
  apply KeepsO.ite
  · extract_lets s1 q2 q3 s3
    have h1 : Keeps s s1 := (moveRoot_keeps ..).trans (leaveMtb_keeps ..)
    have h3 : Kept s s3 := (h1.trans (wakeStacks_keeps s1)).toKept.trans ⟨rfl, id, fusesKept_refl _⟩
    clear_value s3
    split
    all_goals first
      | exact KeepsO.trans (enterRun_of_kept h3) (done_keeps _)
      | exact KeepsO.trans ⟨h3.trans (enterHold_keeps _).toKept, fun _ => rfl, fun _ => rfl⟩ (done_keeps _)
  · exact KeepsO.ite (KeepsO.next (restartPllR_keeps s)) (KeepsO.next (Keeps.refl _))

theorem execFrcStartFail_keeps (s : State) : KeepsO s (execFrcStartFail s) := by
  unfold execFrcStartFail
  repeat' (with_reducible first
    | apply Keeps.refl | apply KeepsO.next | apply KeepsO.ite | apply Keeps.trans ?_ (drawFree_keeps ..)
    | apply Keeps.trans ?_ (enterMode_keeps ..) | apply Keeps.trans ?_ (supervisorEntry_keeps ..)
    | apply KeepsO.trans ?_ (done_keeps ..) | apply Keeps.trans ?_ (setSource_keeps ..) | apply Keeps.ite
    | apply Keeps.of_snd (by assumption) | apply Keeps.of_fst (by assumption)
    | fail_if_no_progress refine Keeps.put rfl ?_ rfl rfl rfl rfl rfl | intro _ | split | dsimp only)

theorem execFrcRestart_keeps (s : State) : KeepsO s (execFrcRestart s) := by
  unfold execFrcRestart
  repeat' (with_reducible first
    | apply Keeps.refl | apply KeepsO.next | apply KeepsO.ite | apply Keeps.trans ?_ (setSource_keeps ..)
    | apply Keeps.ite | fail_if_no_progress refine Keeps.put rfl ?_ rfl rfl rfl rfl rfl | intro _)

theorem execPllSLockLoss_keeps (s : State) : KeepsO s (execPllSLockLoss s) := by
  unfold execPllSLockLoss
  repeat' (with_reducible first
    | apply Keeps.refl | apply KeepsO.next | apply KeepsO.ite | apply Keeps.trans ?_ (raise_keeps ..)
    | apply KeepsO.trans ?_ (done_keeps ..) | apply Keeps.trans ?_ (setSource_keeps ..) | apply Keeps.ite
    | fail_if_no_progress refine Keeps.put rfl ?_ rfl rfl rfl rfl rfl | intro _ | dsimp only)

theorem setSupply_keeps (i : Nat) (v : Bool) (s : State) : Keeps s (setSupply i v s) := by
  unfold setSupply
  repeat' (with_reducible first
    | apply Keeps.refl | fail_if_no_progress refine Keeps.put rfl ?_ rfl rfl rfl rfl rfl)

theorem startDebounce_keeps (s : State) : Keeps s (startDebounce s) := by
  unfold startDebounce
  repeat' (with_reducible first
    | apply Keeps.refl | apply Keeps.ite | fail_if_no_progress refine Keeps.put rfl ?_ rfl rfl rfl rfl rfl)

theorem execInputSupplyGood_keeps (i : Nat) (s : State) : KeepsO s (execInputSupplyGood i s) := by
  unfold execInputSupplyGood
  repeat' (with_reducible first
    | apply Keeps.refl | apply KeepsO.next | apply KeepsO.ite | apply KeepsO.trans ?_ (tryBoot_keeps ..)
    | apply Keeps.trans ?_ (setSupply_keeps ..) | apply Keeps.trans ?_ (startDebounce_keeps ..) | apply Keeps.ite)

theorem execInputSupplyBad_keeps (i : Nat) (s : State) : KeepsO s (execInputSupplyBad i s) := by
  unfold execInputSupplyBad
  repeat' (with_reducible first
    | apply Keeps.refl | apply KeepsO.next | apply KeepsO.ite | apply Keeps.trans ?_ (setSupply_keeps ..)
    | apply Keeps.ite | fail_if_no_progress refine Keeps.put rfl ?_ rfl rfl rfl rfl rfl | dsimp only)

theorem execSupplyDebounceDone_keeps (s : State) : KeepsO s (execSupplyDebounceDone s) := by
  unfold execSupplyDebounceDone
  repeat' (with_reducible first
    | apply Keeps.refl | apply KeepsO.next | apply KeepsO.ite | apply Keeps.ite
    | fail_if_no_progress refine Keeps.put rfl ?_ rfl rfl rfl rfl rfl)

theorem execRailWithinLimits_keeps (s : State) : KeepsO s (execRailWithinLimits s) := by
  unfold execRailWithinLimits
  repeat' (with_reducible first
    | apply Keeps.refl | apply KeepsO.next | apply KeepsO.ite | apply Keeps.ite
    | fail_if_no_progress refine Keeps.put rfl ?_ rfl rfl rfl rfl rfl | dsimp only)

theorem execRailSequenceFail_keeps (s : State) : KeepsO s (execRailSequenceFail s) := by
  unfold execRailSequenceFail
  repeat' (with_reducible first
    | apply Keeps.refl | apply KeepsO.next | apply KeepsO.ite | apply Keeps.trans ?_ (drawFree_keeps ..)
    | apply Keeps.trans ?_ (supervisorEntry_keeps ..) | apply Keeps.ite | apply Keeps.of_snd (by assumption)
    | apply Keeps.of_fst (by assumption) | fail_if_no_progress refine Keeps.put rfl ?_ rfl rfl rfl rfl rfl | split
    | dsimp only)

theorem execRailSequenceRetry_keeps (s : State) : KeepsO s (execRailSequenceRetry s) := by
  unfold execRailSequenceRetry
  repeat' (with_reducible first
    | apply Keeps.refl | apply KeepsO.next | apply KeepsO.ite | apply Keeps.ite
    | fail_if_no_progress refine Keeps.put rfl ?_ rfl rfl rfl rfl rfl)

theorem execPowerRemoved_keeps (s : State) : KeepsO s (execPowerRemoved s) := by
  unfold execPowerRemoved
  repeat' (with_reducible first
    | apply Keeps.refl | apply KeepsO.next | apply Keeps.trans ?_ (enterHold_keeps ..)
    | fail_if_no_progress refine Keeps.put rfl ?_ rfl rfl rfl rfl rfl | intro _ | dsimp only)

theorem execSupplyLoss_keeps (i : Nat) (s : State) : KeepsO s (execSupplyLoss i s) := by
  unfold execSupplyLoss
  repeat' (with_reducible first
    | apply Keeps.refl | apply KeepsO.next | apply KeepsO.ite | apply Keeps.trans ?_ (raise_keeps ..)
    | apply KeepsO.trans ?_ (done_keeps ..) | apply Keeps.trans ?_ (forceSafe_keeps ..)
    | apply Keeps.trans ?_ (setSupply_keeps ..) | apply Keeps.ite
    | fail_if_no_progress refine Keeps.put rfl ?_ rfl rfl rfl rfl rfl | dsimp only)

theorem execSupplyReturn_keeps (i : Nat) (s : State) : KeepsO s (execSupplyReturn i s) := by
  unfold execSupplyReturn
  repeat' (with_reducible first
    | apply Keeps.refl | apply KeepsO.next | apply KeepsO.ite | apply Keeps.trans ?_ (setSupply_keeps ..)
    | apply Keeps.ite | fail_if_no_progress refine Keeps.put rfl ?_ rfl rfl rfl rfl rfl | dsimp only)

theorem execOvercurrent_keeps (s : State) : KeepsO s (execOvercurrent s) := by
  unfold execOvercurrent
  repeat' (with_reducible first
    | apply Keeps.refl | apply KeepsO.next | apply KeepsO.ite | apply Keeps.trans ?_ (raise_keeps ..)
    | apply KeepsO.trans ?_ (done_keeps ..) | apply Keeps.trans ?_ (forceSafe_keeps ..) | apply Keeps.ite
    | fail_if_no_progress refine Keeps.put rfl ?_ rfl rfl rfl rfl rfl)

theorem execCoreRailLoss_keeps (rail : Nat) (s : State) : KeepsO s (execCoreRailLoss rail s) := by
  unfold execCoreRailLoss
  repeat' (with_reducible first
    | apply Keeps.refl | apply KeepsO.next | apply KeepsO.ite | apply Keeps.trans ?_ (raise_keeps ..)
    | apply KeepsO.trans ?_ (done_keeps ..) | apply Keeps.ite
    | fail_if_no_progress refine Keeps.put rfl ?_ rfl rfl rfl rfl rfl)

theorem loseHbm_keeps (s : State) : Keeps s (loseHbm s) := ⟨⟨rfl, fun _ => rfl, fusesKept_refl _⟩, id, id⟩

theorem execHbmRailLoss_keeps (stack : Nat) (s : State) : KeepsO s (execHbmRailLoss stack s) := by
  unfold execHbmRailLoss
  repeat' (with_reducible first
    | apply Keeps.refl | apply KeepsO.next | apply KeepsO.ite | apply Keeps.trans ?_ (drawFree_keeps ..)
    | apply Keeps.trans ?_ (raise_keeps ..) | apply KeepsO.trans ?_ (done_keeps ..)
    | apply Keeps.trans ?_ (loseHbm_keeps ..) | apply Keeps.ite | apply Keeps.of_snd (by assumption)
    | apply Keeps.of_fst (by assumption) | fail_if_no_progress refine Keeps.put rfl ?_ rfl rfl rfl rfl rfl | split
    | dsimp only)

theorem takeSample_keeps (env : PowerSample) (s : State) : Keeps s (takeSample env s) := by
  unfold takeSample
  repeat' (with_reducible first
    | apply Keeps.refl | apply Keeps.ite | fail_if_no_progress refine Keeps.put rfl ?_ rfl rfl rfl rfl rfl | intro _
    | dsimp only)

theorem atSample_keeps (s : State) : Keeps s (atSample s) := by
  unfold atSample
  repeat' (with_reducible first
    | apply Keeps.refl | apply Keeps.trans ?_ (noEarlier_keeps ..)
    | fail_if_no_progress refine Keeps.put rfl ?_ rfl rfl rfl rfl rfl | dsimp only)

theorem execTjSample_keeps (env : PowerSample) (s : State) : KeepsO s (execTjSample env s) := by
  unfold execTjSample
  repeat' (with_reducible first
    | apply Keeps.refl | apply KeepsO.ite | apply Keeps.trans ?_ (raise_keeps ..)
    | apply KeepsO.trans ?_ (done_keeps ..) | apply Keeps.trans ?_ (takeSample_keeps ..)
    | apply Keeps.trans ?_ (atSample_keeps ..) | apply Keeps.ite | dsimp only)

theorem execResetNFall_keeps (s : State) : KeepsO s (execResetNFall s) := by
  unfold execResetNFall
  repeat' (with_reducible first
    | apply Keeps.refl | apply KeepsO.next | fail_if_no_progress refine Keeps.put rfl ?_ rfl rfl rfl rfl rfl)

theorem execResetAccepted_keeps (s : State) : KeepsO s (execResetAccepted s) := by
  unfold execResetAccepted
  repeat' (with_reducible first
    | apply Keeps.refl | apply KeepsO.next | apply KeepsO.ite | apply Keeps.trans ?_ (enterHold_keeps ..)
    | apply Keeps.ite | fail_if_no_progress refine Keeps.put rfl ?_ rfl rfl rfl rfl rfl)

theorem execResetNRelease_keeps (svcEn : Bool) (s : State) : KeepsO s (execResetNRelease svcEn s) := by
  unfold execResetNRelease
  repeat' (with_reducible first
    | apply Keeps.refl | apply KeepsO.next | apply KeepsO.ite | apply Keeps.trans ?_ (startDebounce_keeps ..)
    | apply Keeps.ite | fail_if_no_progress refine Keeps.put rfl ?_ rfl rfl rfl rfl rfl | dsimp only)

theorem execPpsOutFall_keeps (s : State) : KeepsO s (execPpsOutFall s) := by
  unfold execPpsOutFall
  repeat' (with_reducible first
    | apply Keeps.refl | apply KeepsO.next | apply KeepsO.ite | apply Keeps.trans ?_ (noEarlier_keeps ..)
    | apply Keeps.ite | fail_if_no_progress refine Keeps.put rfl ?_ rfl rfl rfl rfl rfl | dsimp only)

theorem pmbusRead_keeps (code : Nat) (quantity : Nat) (s : State) : KeepsO s (pmbusRead code quantity s) := by
  unfold pmbusRead
  repeat' (with_reducible first
    | apply Keeps.refl | apply KeepsO.next | apply KeepsO.ite | apply Keeps.ite
    | fail_if_no_progress refine Keeps.put rfl ?_ rfl rfl rfl rfl rfl)

theorem execPmbusPage_keeps (page : Nat) (s : State) : KeepsO s (execPmbusPage page s) := by
  unfold execPmbusPage
  repeat' (with_reducible first
    | apply Keeps.refl | apply KeepsO.next | apply KeepsO.ite | apply Keeps.ite
    | fail_if_no_progress refine Keeps.put rfl ?_ rfl rfl rfl rfl rfl)

theorem execPmbusClearFaults_keeps (s : State) : KeepsO s (execPmbusClearFaults s) := by
  unfold execPmbusClearFaults
  repeat' (with_reducible first
    | apply Keeps.refl | apply KeepsO.next | apply KeepsO.ite | apply Keeps.ite
    | fail_if_no_progress refine Keeps.put rfl ?_ rfl rfl rfl rfl rfl)

theorem execPmbusStatusWord_keeps (s : State) : KeepsO s (execPmbusStatusWord s) := by
  unfold execPmbusStatusWord
  repeat' (with_reducible first
    | apply Keeps.refl | apply KeepsO.trans ?_ (pmbusRead_keeps ..))

theorem execPmbusStatusInput_keeps (s : State) : KeepsO s (execPmbusStatusInput s) := by
  unfold execPmbusStatusInput
  repeat' (with_reducible first
    | apply Keeps.refl | apply KeepsO.trans ?_ (pmbusRead_keeps ..))

theorem execPmbusStatusIout_keeps (s : State) : KeepsO s (execPmbusStatusIout s) := by
  unfold execPmbusStatusIout
  repeat' (with_reducible first
    | apply Keeps.refl | apply KeepsO.trans ?_ (pmbusRead_keeps ..))

theorem execPmbusStatusTemperature_keeps (s : State) : KeepsO s (execPmbusStatusTemperature s) := by
  unfold execPmbusStatusTemperature
  repeat' (with_reducible first
    | apply Keeps.refl | apply KeepsO.trans ?_ (pmbusRead_keeps ..))

theorem execPmbusReadVin_keeps (s : State) : KeepsO s (execPmbusReadVin s) := by
  unfold execPmbusReadVin
  repeat' (with_reducible first
    | apply Keeps.refl | apply KeepsO.trans ?_ (pmbusRead_keeps ..))

theorem execPmbusReadIin_keeps (s : State) : KeepsO s (execPmbusReadIin s) := by
  unfold execPmbusReadIin
  repeat' (with_reducible first
    | apply Keeps.refl | apply KeepsO.trans ?_ (pmbusRead_keeps ..))

theorem execPmbusReadVout_keeps (s : State) : KeepsO s (execPmbusReadVout s) := by
  unfold execPmbusReadVout
  repeat' (with_reducible first
    | apply Keeps.refl | apply KeepsO.trans ?_ (pmbusRead_keeps ..))

theorem execPmbusReadIout_keeps (s : State) : KeepsO s (execPmbusReadIout s) := by
  unfold execPmbusReadIout
  repeat' (with_reducible first
    | apply Keeps.refl | apply Keeps.trans ?_ (drawFree_keeps ..) | apply KeepsO.trans ?_ (pmbusRead_keeps ..)
    | apply Keeps.of_snd (by assumption) | apply Keeps.of_fst (by assumption) | split | dsimp only)

theorem execPmbusReadPin_keeps (s : State) : KeepsO s (execPmbusReadPin s) := by
  unfold execPmbusReadPin
  repeat' (with_reducible first
    | apply Keeps.refl | apply KeepsO.trans ?_ (pmbusRead_keeps ..))

theorem execPmbusReadTemperature1_keeps (s : State) : KeepsO s (execPmbusReadTemperature1 s) := by
  unfold execPmbusReadTemperature1
  repeat' (with_reducible first
    | apply Keeps.refl | apply KeepsO.trans ?_ (pmbusRead_keeps ..))

theorem execPmbusMfrFaultLogRead_keeps (s : State) : KeepsO s (execPmbusMfrFaultLogRead s) := by
  unfold execPmbusMfrFaultLogRead
  repeat' (with_reducible first
    | apply Keeps.refl | apply KeepsO.next | apply KeepsO.ite | apply Keeps.trans ?_ (drawBytes_keeps ..)
    | apply Keeps.ite | apply Keeps.of_snd (by assumption) | apply Keeps.of_fst (by assumption)
    | fail_if_no_progress refine Keeps.put rfl ?_ rfl rfl rfl rfl rfl | split | dsimp only)

theorem execPmbusOtherWrite_keeps (_command : Nat) (s : State) : KeepsO s (execPmbusOtherWrite _command s) := by
  unfold execPmbusOtherWrite
  repeat' (with_reducible first
    | apply Keeps.refl | apply KeepsO.next)

end Sys2Proof.Machine
end

