-- ==== Sys2Proof/Laws/KeepsMediaTime.lean ====
section
/-! SUPPORT. What the operations of Machine/MediaTime.lean keep (Laws/Keeps.lean). -/

set_option linter.unusedTactic false
set_option linter.unreachableTactic false

namespace Sys2Proof.Machine

open Sys2Proof.Safety

theorem selectSource_keeps (s : State) : Keeps s (selectSource s) := by
  unfold selectSource
  repeat' (with_reducible first
    | apply Keeps.refl | apply Keeps.ite | fail_if_no_progress refine Keeps.put rfl ?_ rfl rfl rfl rfl rfl | dsimp only)

theorem updateServo_keeps (s : State) : Keeps s (updateServo s) := by
  unfold updateServo
  repeat' (with_reducible first
    | apply Keeps.refl | apply Keeps.trans ?_ (drawFree_keeps ..) | apply Keeps.of_snd (by assumption)
    | apply Keeps.of_fst (by assumption) | fail_if_no_progress refine Keeps.put rfl ?_ rfl rfl rfl rfl rfl | split
    | dsimp only)

theorem measure_keeps (offset : Int) (s : State) : Keeps s (measure offset s) := by
  unfold measure
  repeat' (with_reducible first
    | apply Keeps.refl | apply Keeps.trans ?_ (stepMtb_keeps ..) | apply Keeps.trans ?_ (updateServo_keeps ..)
    | apply Keeps.ite | fail_if_no_progress refine Keeps.put rfl ?_ rfl rfl rfl rfl rfl | dsimp only)

theorem noteSeen_keeps (k : Nat) (s : State) : Keeps s (noteSeen k s) := by
  unfold noteSeen
  repeat' (with_reducible first
    | apply Keeps.refl | fail_if_no_progress refine Keeps.put rfl ?_ rfl rfl rfl rfl rfl)

theorem markPresent_keeps (k : Nat) (s : State) : Keeps s (markPresent k s) := by
  unfold markPresent
  repeat' (with_reducible first
    | apply Keeps.refl | fail_if_no_progress refine Keeps.put rfl ?_ rfl rfl rfl rfl rfl)

theorem dropPresent_keeps (k : Nat) (s : State) : Keeps s (dropPresent k s) := by
  unfold dropPresent
  repeat' (with_reducible first
    | apply Keeps.refl | fail_if_no_progress refine Keeps.put rfl ?_ rfl rfl rfl rfl rfl)

theorem sourceEvent_keeps (k : Nat) (offset : Int) (s : State) : Keeps s (sourceEvent k offset s) := by
  unfold sourceEvent
  repeat' (with_reducible first
    | apply Keeps.refl | apply Keeps.trans ?_ (selectSource_keeps ..) | apply Keeps.trans ?_ (measure_keeps ..)
    | apply Keeps.trans ?_ (markPresent_keeps ..) | apply Keeps.ite | dsimp only)

theorem answerPtp_keeps (port : Nat) (s : State) : Keeps s (answerPtp port s) := by
  unfold answerPtp
  repeat' (with_reducible first
    | apply Keeps.refl | apply Keeps.trans ?_ (queueOwn_keeps ..) | apply Keeps.ite)

theorem execPtpMessageReceive_keeps (port : Nat) (offset : Int) (s : State) : KeepsO s (execPtpMessageReceive port offset s) := by
  unfold execPtpMessageReceive
  repeat' (with_reducible first
    | apply Keeps.refl | apply KeepsO.next | apply KeepsO.ite | apply Keeps.trans ?_ (noteSeen_keeps ..)
    | apply Keeps.trans ?_ (sourceEvent_keeps ..) | apply Keeps.trans ?_ (answerPtp_keeps ..) | apply Keeps.ite)

theorem execFrameInEdge_keeps (offset : Int) (s : State) : KeepsO s (execFrameInEdge offset s) := by
  unfold execFrameInEdge
  repeat' (with_reducible first
    | apply Keeps.refl | apply KeepsO.next | apply Keeps.trans ?_ (noteSeen_keeps ..)
    | apply Keeps.trans ?_ (sourceEvent_keeps ..))

theorem execPpsInEdge_keeps (offset : Int) (s : State) : KeepsO s (execPpsInEdge offset s) := by
  unfold execPpsInEdge
  repeat' (with_reducible first
    | apply Keeps.refl | apply KeepsO.next | apply Keeps.trans ?_ (noteSeen_keeps ..)
    | apply Keeps.trans ?_ (sourceEvent_keeps ..))

theorem enterHoldover_keeps (s : State) : Keeps s (enterHoldover s) := by
  unfold enterHoldover
  repeat' (with_reducible first
    | apply Keeps.refl | apply Keeps.ite | fail_if_no_progress refine Keeps.put rfl ?_ rfl rfl rfl rfl rfl)

theorem loseSource_keeps (k : Nat) (s : State) : Keeps s (loseSource k s) := by
  unfold loseSource
  repeat' (with_reducible first
    | apply Keeps.refl | apply Keeps.trans ?_ (selectSource_keeps ..) | apply Keeps.trans ?_ (dropPresent_keeps ..)
    | apply Keeps.trans ?_ (enterHoldover_keeps ..) | apply Keeps.ite | dsimp only)

theorem execMtbSourceLost_keeps (k : Nat) (s : State) : KeepsO s (execMtbSourceLost k s) := by
  unfold execMtbSourceLost
  repeat' (with_reducible first
    | apply Keeps.refl | apply KeepsO.next | apply KeepsO.ite | apply Keeps.trans ?_ (passCycles_keeps ..)
    | apply Keeps.trans ?_ (loseSource_keeps ..) | apply Keeps.ite)

end Sys2Proof.Machine
end

