-- ==== Sys2Proof/Laws/KeepsRecords.lean ====
section
/-! SUPPORT. What the operations of Machine/Records.lean keep (Laws/Keeps.lean). -/

set_option linter.unusedTactic false
set_option linter.unreachableTactic false

namespace Sys2Proof.Machine

open Sys2Proof.Safety

theorem orphan_keeps (s : State) : Keeps s (orphan s) := by
  unfold orphan
  repeat' (with_reducible first
    | apply Keeps.refl | fail_if_no_progress refine Keeps.put rfl ?_ rfl rfl rfl rfl rfl)

theorem applied_keeps (s : State) : Keeps s (applied s) := by
  unfold applied
  repeat' (with_reducible first
    | apply Keeps.refl | fail_if_no_progress refine Keeps.put rfl ?_ rfl rfl rfl rfl rfl)

theorem shortRecord_keeps (s : State) : Keeps s (shortRecord s) := by
  unfold shortRecord
  repeat' (with_reducible first
    | apply Keeps.refl | apply Keeps.trans ?_ (raise_keeps ..)
    | fail_if_no_progress refine Keeps.put rfl ?_ rfl rfl rfl rfl rfl)

theorem unknownRecord_keeps (s : State) : Keeps s (unknownRecord s) := by
  unfold unknownRecord
  repeat' (with_reducible first
    | apply Keeps.refl | apply Keeps.trans ?_ (raise_keeps ..)
    | fail_if_no_progress refine Keeps.put rfl ?_ rfl rfl rfl rfl rfl)

theorem sized_keeps (n : Nat) (b : Bytes) (body : State → State) (s : State) (hbody : ∀ a0, Keeps a0 (body a0)) : Keeps s (sized n b body s) := by
  unfold sized
  repeat' (with_reducible first
    | apply Keeps.refl | apply Keeps.trans ?_ (shortRecord_keeps ..) | apply Keeps.trans ?_ (hbody ..) | apply Keeps.ite)

theorem recordCommand_keeps (type : Nat) (b : Bytes) (body : Bytes → State → State) (s : State) (hbody : ∀ a0 a1, Keeps a1 (body a0 a1)) : KeepsO s (recordCommand type b body s) := by
  unfold recordCommand
  repeat' (with_reducible first
    | apply Keeps.refl | apply KeepsO.next | apply KeepsO.ite | apply KeepsO.trans ?_ (done_keeps ..)
    | apply Keeps.trans ?_ (hbody ..) | apply Keeps.ite
    | fail_if_no_progress refine Keeps.put rfl ?_ rfl rfl rfl rfl rfl)

theorem recPadding_keeps (_b : Bytes) (s : State) : Keeps s (recPadding _b s) := by
  unfold recPadding
  repeat' (with_reducible first
    | apply Keeps.refl)

theorem execRecordPadding_keeps (b : Bytes) (s : State) : KeepsO s (execRecordPadding b s) := by
  unfold execRecordPadding
  repeat' (with_reducible first
    | apply Keeps.refl | assumption | apply KeepsO.next | exact KeepsO.fault | apply KeepsO.ite
    | apply KeepsO.trans ?_ (recordCommand_keeps (hbody := ?_) ..) | apply Keeps.trans ?_ (recPadding_keeps ..)
    | apply Keeps.ite | apply Keeps.of_snd (by assumption) | apply Keeps.of_fst (by assumption)
    | fail_if_no_progress refine Keeps.put rfl ?_ rfl rfl rfl rfl rfl | intro _ | split | dsimp only)

theorem execRecordUnknownType_keeps (type : Nat) (b : Bytes) (s : State) : KeepsO s (execRecordUnknownType type b s) := by
  unfold execRecordUnknownType
  repeat' (with_reducible first
    | apply Keeps.refl | apply Keeps.trans ?_ (unknownRecord_keeps ..)
    | apply KeepsO.trans ?_ (recordCommand_keeps (hbody := ?_) ..) | intro _)

theorem recGpio_keeps (b : Bytes) (s : State) : Keeps s (recGpio b s) := by
  unfold recGpio
  repeat' (with_reducible first
    | apply Keeps.refl | apply Keeps.trans ?_ (orphan_keeps ..) | apply Keeps.trans ?_ (applied_keeps ..)
    | apply Keeps.trans ?_ (sized_keeps (hbody := ?_) ..) | apply Keeps.ite
    | fail_if_no_progress refine Keeps.put rfl ?_ rfl rfl rfl rfl rfl | intro _)

theorem execGpioRecord_keeps (b : Bytes) (s : State) : KeepsO s (execGpioRecord b s) := by
  unfold execGpioRecord
  repeat' (with_reducible first
    | apply Keeps.refl | assumption | apply KeepsO.next | exact KeepsO.fault | apply KeepsO.ite
    | apply KeepsO.trans ?_ (recordCommand_keeps (hbody := ?_) ..) | apply Keeps.trans ?_ (recGpio_keeps ..)
    | apply Keeps.ite | apply Keeps.of_snd (by assumption) | apply Keeps.of_fst (by assumption)
    | fail_if_no_progress refine Keeps.put rfl ?_ rfl rfl rfl rfl rfl | intro _ | split | dsimp only)

theorem recSupply_keeps (b : Bytes) (s : State) : Keeps s (recSupply b s) := by
  unfold recSupply
  repeat' (with_reducible first
    | apply Keeps.refl | apply Keeps.trans ?_ (orphan_keeps ..) | apply Keeps.trans ?_ (applied_keeps ..)
    | apply Keeps.trans ?_ (sized_keeps (hbody := ?_) ..) | apply Keeps.ite
    | fail_if_no_progress refine Keeps.put rfl ?_ rfl rfl rfl rfl rfl | intro _)

theorem execSupplyRecord_keeps (b : Bytes) (s : State) : KeepsO s (execSupplyRecord b s) := by
  unfold execSupplyRecord
  repeat' (with_reducible first
    | apply Keeps.refl | assumption | apply KeepsO.next | exact KeepsO.fault | apply KeepsO.ite
    | apply KeepsO.trans ?_ (recordCommand_keeps (hbody := ?_) ..) | apply Keeps.trans ?_ (recSupply_keeps ..)
    | apply Keeps.ite | apply Keeps.of_snd (by assumption) | apply Keeps.of_fst (by assumption)
    | fail_if_no_progress refine Keeps.put rfl ?_ rfl rfl rfl rfl rfl | intro _ | split | dsimp only)

theorem recMtb_keeps (b : Bytes) (s : State) : Keeps s (recMtb b s) := by
  unfold recMtb
  repeat' (with_reducible first
    | apply Keeps.refl | apply Keeps.trans ?_ (orphan_keeps ..) | apply Keeps.trans ?_ (applied_keeps ..)
    | apply Keeps.trans ?_ (sized_keeps (hbody := ?_) ..) | apply Keeps.ite
    | fail_if_no_progress refine Keeps.put rfl ?_ rfl rfl rfl rfl rfl | intro _)

theorem execMtbDisciplineRecord_keeps (b : Bytes) (s : State) : KeepsO s (execMtbDisciplineRecord b s) := by
  unfold execMtbDisciplineRecord
  repeat' (with_reducible first
    | apply Keeps.refl | assumption | apply KeepsO.next | exact KeepsO.fault | apply KeepsO.ite
    | apply KeepsO.trans ?_ (recordCommand_keeps (hbody := ?_) ..) | apply Keeps.trans ?_ (recMtb_keeps ..)
    | apply Keeps.ite | apply Keeps.of_snd (by assumption) | apply Keeps.of_fst (by assumption)
    | fail_if_no_progress refine Keeps.put rfl ?_ rfl rfl rfl rfl rfl | intro _ | split | dsimp only)

theorem recSeverity_keeps (b : Bytes) (s : State) : Keeps s (recSeverity b s) := by
  unfold recSeverity
  repeat' (with_reducible first
    | apply Keeps.refl | apply Keeps.trans ?_ (orphan_keeps ..) | apply Keeps.trans ?_ (applied_keeps ..)
    | apply Keeps.trans ?_ (sized_keeps (hbody := ?_) ..) | apply Keeps.ite
    | fail_if_no_progress refine Keeps.put rfl ?_ rfl rfl rfl rfl rfl | intro _ | dsimp only)

theorem execSeverityRecord_keeps (b : Bytes) (s : State) : KeepsO s (execSeverityRecord b s) := by
  unfold execSeverityRecord
  repeat' (with_reducible first
    | apply Keeps.refl | assumption | apply KeepsO.next | exact KeepsO.fault | apply KeepsO.ite
    | apply KeepsO.trans ?_ (recordCommand_keeps (hbody := ?_) ..) | apply Keeps.trans ?_ (recSeverity_keeps ..)
    | apply Keeps.ite | apply Keeps.of_snd (by assumption) | apply Keeps.of_fst (by assumption)
    | fail_if_no_progress refine Keeps.put rfl ?_ rfl rfl rfl rfl rfl | intro _ | split | dsimp only)

theorem recGeneralFault_keeps (b : Bytes) (s : State) : Keeps s (recGeneralFault b s) := by
  unfold recGeneralFault
  repeat' (with_reducible first
    | apply Keeps.refl | apply Keeps.trans ?_ (orphan_keeps ..) | apply Keeps.trans ?_ (applied_keeps ..)
    | apply Keeps.trans ?_ (sized_keeps (hbody := ?_) ..) | apply Keeps.ite
    | fail_if_no_progress refine Keeps.put rfl ?_ rfl rfl rfl rfl rfl | intro _)

theorem execGeneralFaultRecord_keeps (b : Bytes) (s : State) : KeepsO s (execGeneralFaultRecord b s) := by
  unfold execGeneralFaultRecord
  repeat' (with_reducible first
    | apply Keeps.refl | assumption | apply KeepsO.next | exact KeepsO.fault | apply KeepsO.ite
    | apply KeepsO.trans ?_ (recordCommand_keeps (hbody := ?_) ..) | apply Keeps.trans ?_ (recGeneralFault_keeps ..)
    | apply Keeps.ite | apply Keeps.of_snd (by assumption) | apply Keeps.of_fst (by assumption)
    | fail_if_no_progress refine Keeps.put rfl ?_ rfl rfl rfl rfl rfl | intro _ | split | dsimp only)

theorem execFaultReport_keeps (src : Nat) (inst : Nat) (d0 : Nat) (d1 : Nat) (s : State) : KeepsO s (execFaultReport src inst d0 d1 s) := by
  unfold execFaultReport
  repeat' (with_reducible first
    | apply Keeps.refl | apply Keeps.trans ?_ (raiseWith_keeps ..) | apply KeepsO.trans ?_ (done_keeps ..))

theorem execErrPulseEnd_keeps (s : State) : KeepsO s (execErrPulseEnd s) := by
  unfold execErrPulseEnd
  repeat' (with_reducible first
    | apply Keeps.refl | apply KeepsO.next | apply KeepsO.ite | apply Keeps.trans ?_ (passCycles_keeps ..)
    | apply Keeps.ite | apply Keeps.of_snd (by assumption) | apply Keeps.of_fst (by assumption)
    | fail_if_no_progress refine Keeps.put rfl ?_ rfl rfl rfl rfl rfl | split | dsimp only)

theorem execUnitResume_keeps (src : Nat) (inst : Nat) (s : State) : KeepsO s (execUnitResume src inst s) := by
  unfold execUnitResume
  repeat' (with_reducible first
    | apply Keeps.refl | apply KeepsO.next | exact KeepsO.fault | apply KeepsO.ite | apply Keeps.ite
    | fail_if_no_progress refine Keeps.put rfl ?_ rfl rfl rfl rfl rfl)

theorem execFltPath_keeps (src : Nat) (s : State) : KeepsO s (execFltPath src s) := by
  unfold execFltPath
  repeat' (with_reducible first
    | apply Keeps.refl | apply KeepsO.next | apply KeepsO.ite | apply Keeps.trans ?_ (drawFree_keeps ..)
    | apply Keeps.trans ?_ (collect_keeps ..) | apply Keeps.trans ?_ (modeReaction_keeps ..)
    | apply KeepsO.trans ?_ (done_keeps ..) | apply Keeps.ite | apply Keeps.of_snd (by assumption)
    | apply Keeps.of_fst (by assumption) | fail_if_no_progress refine Keeps.put rfl ?_ rfl rfl rfl rfl rfl | split
    | dsimp only)

theorem execFaultPathRestore_keeps (src : Nat) (s : State) : KeepsO s (execFaultPathRestore src s) := by
  unfold execFaultPathRestore
  repeat' (with_reducible first
    | apply Keeps.refl | apply KeepsO.next | fail_if_no_progress refine Keeps.put rfl ?_ rfl rfl rfl rfl rfl)

end Sys2Proof.Machine
end

