-- ==== Sys2Proof/Laws/KeepsCheckValues.lean ====
section
/-! SUPPORT. What the operations of Machine/CheckValues.lean keep (Laws/Keeps.lean). -/

set_option linter.unusedTactic false
set_option linter.unreachableTactic false

namespace Sys2Proof.Machine

open Sys2Proof.Safety

theorem modUnit_keeps (s : State) (u : Nat) (f : CvUnit → CvUnit) : Keeps s (modUnit s u f) := by
  unfold modUnit
  repeat' (with_reducible first
    | apply Keeps.refl | fail_if_no_progress refine Keeps.put rfl ?_ rfl rfl rfl rfl rfl)

theorem tapSymbols_keeps (kind : Nat) (index : Nat) (l : List Nat) (spanEnd : List Nat) (s : State) : Keeps s (tapSymbols kind index l spanEnd s) := by
  unfold tapSymbols
  repeat' (with_reducible first
    | apply Keeps.refl | apply Keeps.ite | fail_if_no_progress refine Keeps.put rfl ?_ rfl rfl rfl rfl rfl | intro _
    | dsimp only)

theorem tapSecond_keeps (s : State) : Keeps s (tapSecond s) := by
  unfold tapSecond
  repeat' (with_reducible first
    | apply Keeps.refl | apply Keeps.ite | fail_if_no_progress refine Keeps.put rfl ?_ rfl rfl rfl rfl rfl | intro _)

theorem passUnchecked_keeps (u : Nat) (s : State) : Keeps s (passUnchecked u s) := by
  unfold passUnchecked
  repeat' (with_reducible first
    | apply Keeps.refl | apply Keeps.trans ?_ (modUnit_keeps ..)
    | fail_if_no_progress refine Keeps.put rfl ?_ rfl rfl rfl rfl rfl | intro _)

theorem stripMismatch_keeps (u : Nat) (x : CvUnit) (s : State) (rest : Bytes) : Keeps s (stripMismatch u x s rest).1 := by
  unfold stripMismatch
  repeat' (with_reducible first
    | apply Keeps.refl | apply Keeps.trans ?_ (raise_keeps ..) | apply Keeps.trans ?_ (modUnit_keeps ..)
    | fail_if_no_progress refine Keeps.put rfl ?_ rfl rfl rfl rfl rfl | intro _)

theorem stripCheck_keeps (u : Nat) (payload : Bytes) (s : State) : Keeps s (stripCheck u payload s).1 := by
  unfold stripCheck
  repeat' (with_reducible first
    | apply Keeps.refl | apply Keeps.ite_fst | apply Keeps.trans ?_ (stripMismatch_keeps ..)
    | apply Keeps.trans ?_ (modUnit_keeps ..) | apply Keeps.trans ?_ (passUnchecked_keeps ..) | apply Keeps.ite
    | intro _ | dsimp only)

theorem recGeneralUnit_keeps (b : Bytes) (s : State) : Keeps s (recGeneralUnit b s) := by
  unfold recGeneralUnit
  repeat' (with_reducible first
    | apply Keeps.refl | apply Keeps.trans ?_ (orphan_keeps ..) | apply Keeps.trans ?_ (applied_keeps ..)
    | apply Keeps.trans ?_ (sized_keeps (hbody := ?_) ..) | apply Keeps.ite
    | fail_if_no_progress refine Keeps.put rfl ?_ rfl rfl rfl rfl rfl | intro _ | dsimp only)

theorem execGeneralUnitRecord_keeps (b : Bytes) (s : State) : KeepsO s (execGeneralUnitRecord b s) := by
  unfold execGeneralUnitRecord
  repeat' (with_reducible first
    | apply Keeps.refl | assumption | apply KeepsO.next | exact KeepsO.fault | apply KeepsO.ite
    | apply KeepsO.trans ?_ (recordCommand_keeps (hbody := ?_) ..) | apply Keeps.trans ?_ (recGeneralUnit_keeps ..)
    | apply Keeps.ite | apply Keeps.of_snd (by assumption) | apply Keeps.of_fst (by assumption)
    | fail_if_no_progress refine Keeps.put rfl ?_ rfl rfl rfl rfl rfl | intro _ | split | dsimp only)

theorem execCvuSelftestDone_keeps (failing : List Nat) (s : State) : KeepsO s (execCvuSelftestDone failing s) := by
  unfold execCvuSelftestDone
  repeat' (with_reducible first
    | apply Keeps.refl | apply KeepsO.next | apply KeepsO.ite | apply Keeps.foldl | apply Keeps.foldl_fst
    | apply Keeps.foldl_snd | apply Keeps.trans ?_ (fenceCvu_keeps ..) | apply Keeps.ite | intro _)

theorem stageRun_keeps (transport : Nat) (u : Nat) (value : Nat) (s : State) : Keeps s (stageRun transport u value s) := by
  unfold stageRun
  repeat' (with_reducible first
    | apply Keeps.refl | apply Keeps.trans ?_ (setView_keeps ..) | apply Keeps.ite
    | fail_if_no_progress refine Keeps.put rfl ?_ rfl rfl rfl rfl rfl | intro _)

theorem loadRun_keeps (transport : Nat) (u : Nat) (value : Nat) (s : State) : Keeps s (loadRun transport u value s) := by
  unfold loadRun
  repeat' (with_reducible first
    | apply Keeps.refl | apply Keeps.trans ?_ (modUnit_keeps ..) | apply Keeps.ite
    | fail_if_no_progress refine Keeps.put rfl ?_ rfl rfl rfl rfl rfl | intro _ | dsimp only)

theorem execCvuRunLoWrite_keeps (transport : Nat) (u : Nat) (value : Nat) (s : State) : KeepsO s (execCvuRunLoWrite transport u value s) := by
  unfold execCvuRunLoWrite
  repeat' (with_reducible first
    | apply Keeps.refl | apply KeepsO.next | apply Keeps.trans ?_ (stageRun_keeps ..))

theorem execCvuRunHiWrite_keeps (transport : Nat) (u : Nat) (value : Nat) (s : State) : KeepsO s (execCvuRunHiWrite transport u value s) := by
  unfold execCvuRunHiWrite
  repeat' (with_reducible first
    | apply Keeps.refl | apply KeepsO.next | apply Keeps.trans ?_ (loadRun_keeps ..))

theorem execCvuRunLoRead_keeps (transport : Nat) (u : Nat) (s : State) : KeepsO s (execCvuRunLoRead transport u s) := by
  unfold execCvuRunLoRead
  repeat' (with_reducible first
    | apply Keeps.refl | apply KeepsO.next | apply KeepsO.ite | apply Keeps.trans ?_ (setView_keeps ..)
    | apply Keeps.ite | fail_if_no_progress refine Keeps.put rfl ?_ rfl rfl rfl rfl rfl | intro _ | dsimp only)

end Sys2Proof.Machine
end

