-- ==== Sys2Proof/Laws/KeepsHedgerow.lean ====
section
/-! SUPPORT. What the operations of Machine/Hedgerow.lean keep (Laws/Keeps.lean). -/

set_option linter.unusedTactic false
set_option linter.unreachableTactic false

namespace Sys2Proof.Machine

open Sys2Proof.Safety

theorem recHedgerow_keeps (b : Bytes) (s : State) : Keeps s (recHedgerow b s) := by
  unfold recHedgerow
  repeat' (with_reducible first
    | apply Keeps.refl | apply Keeps.foldl | apply Keeps.foldl_fst | apply Keeps.foldl_snd
    | apply Keeps.trans ?_ (useValsin_keeps ..) | apply Keeps.trans ?_ (orphan_keeps ..)
    | apply Keeps.trans ?_ (applied_keeps ..) | apply Keeps.trans ?_ (sized_keeps (hbody := ?_) ..) | apply Keeps.ite
    | fail_if_no_progress refine Keeps.put rfl ?_ rfl rfl rfl rfl rfl | intro _ | dsimp only)

theorem execHedgerowRecord_keeps (b : Bytes) (s : State) : KeepsO s (execHedgerowRecord b s) := by
  unfold execHedgerowRecord
  repeat' (with_reducible first
    | apply Keeps.refl | assumption | apply KeepsO.next | exact KeepsO.fault | apply KeepsO.ite
    | apply KeepsO.trans ?_ (recordCommand_keeps (hbody := ?_) ..) | apply Keeps.trans ?_ (recHedgerow_keeps ..)
    | apply Keeps.ite | apply Keeps.of_snd (by assumption) | apply Keeps.of_fst (by assumption)
    | fail_if_no_progress refine Keeps.put rfl ?_ rfl rfl rfl rfl rfl | intro _ | split | dsimp only)

theorem execHrwDiscovery_keeps (port : Nat) (up : Bool) (s : State) : KeepsO s (execHrwDiscovery port up s) := by
  unfold execHrwDiscovery
  repeat' (with_reducible first
    | apply Keeps.refl | apply KeepsO.next | apply KeepsO.ite | apply Keeps.trans ?_ (treeLink_keeps ..)
    | apply KeepsO.trans ?_ (done_keeps ..) | apply Keeps.ite)

theorem declineDepth_keeps (s : State) : Keeps s (declineDepth s) := by
  unfold declineDepth
  repeat' (with_reducible first
    | apply Keeps.refl | fail_if_no_progress refine Keeps.put rfl ?_ rfl rfl rfl rfl rfl)

theorem execHrwDepthAnnounce_keeps (a : DepthNote) (s : State) : KeepsO s (execHrwDepthAnnounce a s) := by
  unfold execHrwDepthAnnounce
  repeat' (with_reducible first
    | apply Keeps.refl | apply KeepsO.next | apply KeepsO.ite | apply Keeps.trans ?_ (raise_keeps ..)
    | apply Keeps.trans ?_ (announceDown_keeps ..) | apply Keeps.trans ?_ (leaveTree_keeps ..)
    | apply KeepsO.trans ?_ (done_keeps ..) | apply Keeps.trans ?_ (declineDepth_keeps ..) | apply Keeps.ite
    | fail_if_no_progress refine Keeps.put rfl ?_ rfl rfl rfl rfl rfl | dsimp only)

theorem execHrwMapReceive_keeps (port : Nat) (ids : List Nat) (depth : Nat) (s : State) : KeepsO s (execHrwMapReceive port ids depth s) := by
  unfold execHrwMapReceive
  repeat' (with_reducible first
    | apply Keeps.refl | apply KeepsO.next | apply KeepsO.ite | apply Keeps.trans ?_ (judgeMaps_keeps ..)
    | apply KeepsO.trans ?_ (done_keeps ..) | apply Keeps.ite
    | fail_if_no_progress refine Keeps.put rfl ?_ rfl rfl rfl rfl rfl | intro _ | dsimp only)

theorem execHrwNoRoot_keeps (s : State) : KeepsO s (execHrwNoRoot s) := by
  unfold execHrwNoRoot
  repeat' (with_reducible first
    | apply Keeps.refl | apply KeepsO.next | apply KeepsO.ite | apply Keeps.trans ?_ (noEarlier_keeps ..)
    | apply Keeps.trans ?_ (raise_keeps ..) | apply KeepsO.trans ?_ (done_keeps ..) | apply Keeps.ite
    | apply Keeps.of_snd (by assumption) | apply Keeps.of_fst (by assumption)
    | fail_if_no_progress refine Keeps.put rfl ?_ rfl rfl rfl rfl rfl | split | dsimp only)

theorem deliverBroadcast_keeps (origin : Nat) (seq : Nat) (data : Bytes) (s : State) : Keeps s (deliverBroadcast origin seq data s) := by
  unfold deliverBroadcast
  repeat' (with_reducible first
    | apply Keeps.refl | apply Keeps.trans ?_ (sendEvent_keeps ..)
    | fail_if_no_progress refine Keeps.put rfl ?_ rfl rfl rfl rfl rfl)

theorem broadcastDown_keeps (origin : Nat) (seq : Nat) (data : Bytes) (s : State) : Keeps s (broadcastDown origin seq data s) := by
  unfold broadcastDown
  repeat' (with_reducible first
    | apply Keeps.refl | apply Keeps.trans ?_ (sendDown_keeps ..) | apply Keeps.trans ?_ (deliverBroadcast_keeps ..))

theorem cmdHrwBroadcast_keeps (r : Req) (s : State) : Keeps s (cmdHrwBroadcast r s) := by
  unfold cmdHrwBroadcast
  repeat' (with_reducible first
    | apply Keeps.refl | apply Keeps.trans ?_ (nextTreeSeq_keeps ..) | apply Keeps.trans ?_ (sendUp_keeps ..)
    | apply Keeps.trans ?_ (reply_keeps ..) | apply Keeps.trans ?_ (takeRequest_keeps (hbody := ?_) ..)
    | apply Keeps.trans ?_ (broadcastDown_keeps ..) | apply Keeps.ite | apply Keeps.of_snd (by assumption)
    | apply Keeps.of_fst (by assumption) | fail_if_no_progress refine Keeps.put rfl ?_ rfl rfl rfl rfl rfl | intro _
    | split | dsimp only)

theorem execHrwBroadcast_keeps (r : Req) (s : State) : KeepsO s (execHrwBroadcast r s) := by
  unfold execHrwBroadcast
  repeat' (with_reducible first
    | apply Keeps.refl | apply KeepsO.trans ?_ (done_keeps ..) | apply Keeps.trans ?_ (cmdHrwBroadcast_keeps ..))

theorem execHrwBcastReceive_keeps (origin : Nat) (seq : Nat) (data : Bytes) (s : State) : KeepsO s (execHrwBcastReceive origin seq data s) := by
  unfold execHrwBcastReceive
  repeat' (with_reducible first
    | apply Keeps.refl | apply KeepsO.next | apply KeepsO.ite | apply Keeps.trans ?_ (replyTo_keeps ..)
    | apply KeepsO.trans ?_ (done_keeps ..) | apply Keeps.trans ?_ (broadcastDown_keeps ..) | apply Keeps.ite
    | apply Keeps.of_snd (by assumption) | apply Keeps.of_fst (by assumption)
    | fail_if_no_progress refine Keeps.put rfl ?_ rfl rfl rfl rfl rfl | split | dsimp only)

theorem takeSnapshot_keeps (copy : State → List (Nat × Nat)) (p : Pending) (late : Bool) (s : State) : Keeps s (takeSnapshot copy p late s) := by
  unfold takeSnapshot
  repeat' (with_reducible first
    | apply Keeps.refl | fail_if_no_progress refine Keeps.put rfl ?_ rfl rfl rfl rfl rfl | intro _ | dsimp only)

theorem actOn_keeps (copy : State → List (Nat × Nat)) (p : Pending) (late : Bool) (s : State) : Keeps s (actOn copy p late s) := by
  unfold actOn
  repeat' (with_reducible first
    | apply Keeps.refl | apply Keeps.trans ?_ (enterHold_keeps ..) | apply Keeps.trans ?_ (takeSnapshot_keeps ..)
    | apply Keeps.ite | fail_if_no_progress refine Keeps.put rfl ?_ rfl rfl rfl rfl rfl | intro _ | dsimp only)

theorem holdAction_keeps (copy : State → List (Nat × Nat)) (a : TreeAction) (s : State) : Keeps s (holdAction copy a s) := by
  unfold holdAction
  repeat' (with_reducible first
    | apply Keeps.refl | apply Keeps.trans ?_ (actOn_keeps ..) | apply Keeps.ite
    | fail_if_no_progress refine Keeps.put rfl ?_ rfl rfl rfl rfl rfl | dsimp only)

theorem scheduleDown_keeps (copy : State → List (Nat × Nat)) (a : TreeAction) (s : State) : Keeps s (scheduleDown copy a s) := by
  unfold scheduleDown
  repeat' (with_reducible first
    | apply Keeps.refl | apply Keeps.trans ?_ (sendDown_keeps ..) | apply Keeps.trans ?_ (holdAction_keeps ..))

theorem cmdHrwSchedule_keeps (copy : State → List (Nat × Nat)) (action : Nat) (r : Req) (s : State) : Keeps s (cmdHrwSchedule copy action r s) := by
  unfold cmdHrwSchedule
  repeat' (with_reducible first
    | apply Keeps.refl | apply Keeps.trans ?_ (nextTreeSeq_keeps ..) | apply Keeps.trans ?_ (sendUp_keeps ..)
    | apply Keeps.trans ?_ (reply_keeps ..) | apply Keeps.trans ?_ (takeRequest_keeps (hbody := ?_) ..)
    | apply Keeps.trans ?_ (busy_keeps ..) | apply Keeps.trans ?_ (scheduleDown_keeps ..) | apply Keeps.ite
    | apply Keeps.of_snd (by assumption) | apply Keeps.of_fst (by assumption)
    | fail_if_no_progress refine Keeps.put rfl ?_ rfl rfl rfl rfl rfl | intro _ | split | dsimp only)

theorem receiveSchedule_keeps (copy : State → List (Nat × Nat)) (a : TreeAction) (s : State) : Keeps s (receiveSchedule copy a s) := by
  unfold receiveSchedule
  repeat' (with_reducible first
    | apply Keeps.refl | apply Keeps.trans ?_ (replyTo_keeps ..) | apply Keeps.trans ?_ (scheduleDown_keeps ..)
    | apply Keeps.ite | apply Keeps.of_snd (by assumption) | apply Keeps.of_fst (by assumption)
    | fail_if_no_progress refine Keeps.put rfl ?_ rfl rfl rfl rfl rfl | split | dsimp only)

theorem takeBusy_keeps (origin : Nat) (hint : Nat) (s : State) : Keeps s (takeBusy origin hint s) := by
  unfold takeBusy
  repeat' (with_reducible first
    | apply Keeps.refl | apply Keeps.trans ?_ (sendDown_keeps ..) | apply Keeps.trans ?_ (replyTo_keeps ..)
    | apply Keeps.trans ?_ (busy_keeps ..) | apply Keeps.ite | apply Keeps.of_snd (by assumption)
    | apply Keeps.of_fst (by assumption) | fail_if_no_progress refine Keeps.put rfl ?_ rfl rfl rfl rfl rfl | split)

theorem actionDue_keeps (copy : State → List (Nat × Nat)) (seq : Nat) (s : State) : Keeps s (actionDue copy seq s) := by
  unfold actionDue
  repeat' (with_reducible first
    | apply Keeps.refl | apply Keeps.trans ?_ (actOn_keeps ..) | apply atTime_keeps _ _ _ (by assumption)
    | apply Keeps.of_snd (by assumption) | apply Keeps.of_fst (by assumption)
    | fail_if_no_progress refine Keeps.put rfl ?_ rfl rfl rfl rfl rfl | intro _ | split)

theorem requestAtRoot_keeps (copy : State → List (Nat × Nat)) (q : TreeRequest) (s : State) : Keeps s (requestAtRoot copy q s) := by
  unfold requestAtRoot
  repeat' (with_reducible first
    | apply Keeps.refl | apply Keeps.trans ?_ (nextTreeSeq_keeps ..) | apply Keeps.trans ?_ (sendDown_keeps ..)
    | apply Keeps.trans ?_ (sendUp_keeps ..) | apply Keeps.trans ?_ (busy_keeps ..)
    | apply Keeps.trans ?_ (broadcastDown_keeps ..) | apply Keeps.trans ?_ (scheduleDown_keeps ..) | apply Keeps.ite
    | apply Keeps.of_snd (by assumption) | apply Keeps.of_fst (by assumption)
    | fail_if_no_progress refine Keeps.put rfl ?_ rfl rfl rfl rfl rfl | split | dsimp only)

theorem cmdHrwSnapRead_keeps (r : Req) (s : State) : Keeps s (cmdHrwSnapRead r s) := by
  unfold cmdHrwSnapRead
  repeat' (with_reducible first
    | apply Keeps.refl | apply Keeps.trans ?_ (reply_keeps ..)
    | apply Keeps.trans ?_ (takeRequest_keeps (hbody := ?_) ..) | intro _ | dsimp only)

theorem execHrwSnapRead_keeps (r : Req) (s : State) : KeepsO s (execHrwSnapRead r s) := by
  unfold execHrwSnapRead
  repeat' (with_reducible first
    | apply Keeps.refl | apply KeepsO.trans ?_ (done_keeps ..) | apply Keeps.trans ?_ (cmdHrwSnapRead_keeps ..))

theorem cmdHrwBarrier_keeps (r : Req) (s : State) : Keeps s (cmdHrwBarrier r s) := by
  unfold cmdHrwBarrier
  repeat' (with_reducible first
    | apply Keeps.refl | apply Keeps.trans ?_ (reply_keeps ..)
    | apply Keeps.trans ?_ (takeRequest_keeps (hbody := ?_) ..) | apply Keeps.trans ?_ (setBarrier_keeps ..)
    | apply Keeps.trans ?_ (judgeBarrier_keeps ..) | apply Keeps.trans ?_ (busy_keeps ..) | apply Keeps.ite
    | fail_if_no_progress refine Keeps.put rfl ?_ rfl rfl rfl rfl rfl | intro _ | dsimp only)

theorem execHrwBarrier_keeps (r : Req) (s : State) : KeepsO s (execHrwBarrier r s) := by
  unfold execHrwBarrier
  repeat' (with_reducible first
    | apply Keeps.refl | apply KeepsO.trans ?_ (done_keeps ..) | apply Keeps.trans ?_ (cmdHrwBarrier_keeps ..))

theorem execHrwBarrierArrival_keeps (k : Nat) (port : Nat) (timeoutMs : Nat) (isPartial : Bool) (s : State) : KeepsO s (execHrwBarrierArrival k port timeoutMs isPartial s) := by
  unfold execHrwBarrierArrival
  repeat' (with_reducible first
    | apply Keeps.refl | apply KeepsO.next | apply KeepsO.ite | apply Keeps.trans ?_ (setBarrier_keeps ..)
    | apply Keeps.trans ?_ (judgeBarrier_keeps ..) | apply KeepsO.trans ?_ (done_keeps ..) | apply Keeps.ite
    | fail_if_no_progress refine Keeps.put rfl ?_ rfl rfl rfl rfl rfl | intro _ | dsimp only)

theorem execHrwBarrierRelease_keeps (k : Nat) (seq : Nat) (isPartial : Bool) (s : State) : KeepsO s (execHrwBarrierRelease k seq isPartial s) := by
  unfold execHrwBarrierRelease
  repeat' (with_reducible first
    | apply Keeps.refl | apply KeepsO.next | apply KeepsO.ite | apply Keeps.trans ?_ (sendDown_keeps ..)
    | apply Keeps.trans ?_ (release_keeps ..) | apply Keeps.trans ?_ (releaseBarrier_keeps ..)
    | apply KeepsO.trans ?_ (done_keeps ..) | apply Keeps.ite | dsimp only)

theorem execHrwBarrierTimeout_keeps (k : Nat) (s : State) : KeepsO s (execHrwBarrierTimeout k s) := by
  unfold execHrwBarrierTimeout
  repeat' (with_reducible first
    | apply Keeps.refl | apply KeepsO.next | apply KeepsO.ite | apply Keeps.trans ?_ (noEarlier_keeps ..)
    | apply Keeps.trans ?_ (raise_keeps ..) | apply Keeps.trans ?_ (sendDown_keeps ..)
    | apply Keeps.trans ?_ (replyTo_keeps ..) | apply KeepsO.trans ?_ (done_keeps ..) | apply Keeps.ite
    | apply Keeps.of_snd (by assumption) | apply Keeps.of_fst (by assumption)
    | fail_if_no_progress refine Keeps.put rfl ?_ rfl rfl rfl rfl rfl | split | dsimp only)

theorem sendAddressed_keeps (target : Nat) (sender : Nat) (claim : Nat) (epoch : Nat) (s : State) : Keeps s (sendAddressed target sender claim epoch s) := by
  unfold sendAddressed
  repeat' (with_reducible first
    | apply Keeps.refl | apply Keeps.trans ?_ (sendTree_keeps ..) | apply Keeps.ite
    | fail_if_no_progress refine Keeps.put rfl ?_ rfl rfl rfl rfl rfl)

theorem sendTreeHeartbeat_keeps (s : State) : Keeps s (sendTreeHeartbeat s) := by
  unfold sendTreeHeartbeat
  repeat' (with_reducible first
    | apply Keeps.refl | apply Keeps.trans ?_ (sendAddressed_keeps ..) | apply Keeps.ite)

end Sys2Proof.Machine
end

