-- ==== Sys2Proof/Laws/KeepsSecurity.lean ====
section
/-! SUPPORT. What the operations of Machine/Security.lean keep (Laws/Keeps.lean). -/

set_option linter.unusedTactic false
set_option linter.unreachableTactic false

namespace Sys2Proof.Machine

open Sys2Proof.Safety

theorem readSelector_keeps (l : List SelectorCopy) (s : State) : Keeps s (readSelector l s) := by
  unfold readSelector
  repeat' (with_reducible first
    | apply Keeps.refl | apply Keeps.foldl | apply Keeps.foldl_fst | apply Keeps.foldl_snd | apply Keeps.ite
    | apply Keeps.of_snd (by assumption) | apply Keeps.of_fst (by assumption)
    | fail_if_no_progress refine Keeps.put rfl ?_ rfl rfl rfl rfl rfl | intro _ | split | dsimp only)

theorem writeSelector_keeps (fw : Nat) (cfg : Nat) (s : State) : Keeps s (writeSelector fw cfg s) := by
  unfold writeSelector
  repeat' (with_reducible first
    | apply Keeps.refl | fail_if_no_progress refine Keeps.put rfl ?_ rfl rfl rfl rfl rfl)

theorem reportAtSeven_keeps (src : Nat) (s : State) : Keeps s (reportAtSeven src s) := by
  unfold reportAtSeven
  repeat' (with_reducible first
    | apply Keeps.refl | apply Keeps.trans ?_ (enterMode_keeps ..) | apply Keeps.trans ?_ (writeLog_keeps ..)
    | apply Keeps.trans ?_ (faultEvent_keeps ..) | apply Keeps.trans ?_ (countReport_keeps ..) | dsimp only)

theorem fuseUp_le (n v : Nat) : v ≤ fuseUp n v := by unfold fuseUp; split <;> omega

theorem openService_keeps (s : State) : Keeps s (openService s) := by
  unfold openService
  apply Keeps.trans ?_ (enterMode_keeps ..)
  exact Keeps.put_fuses ⟨rfl, id, fun _ => rfl, fuseUp_le .., fun _ => Nat.le_refl _⟩ rfl (Keeps.refl s) rfl rfl rfl rfl

theorem completeErasure_keeps (x : FwSlot) (s : State) : Keeps s (completeErasure x s) := by
  unfold completeErasure
  apply Keeps.ite
  · exact Keeps.refl _
  · refine Keeps.put_fuses ⟨rfl, id, fun _ => rfl, ?_, fun _ => Nat.le_refl _⟩ rfl (Keeps.refl s) rfl rfl rfl rfl
    dsimp only
    split
    · exact fuseUp_le ..
    · exact Nat.le_refl _

theorem enterConfigure_keeps (s : State) : Keeps s (enterConfigure s) := by
  unfold enterConfigure
  repeat' (with_reducible first
    | apply Keeps.refl | apply Keeps.trans ?_ (serveHellos_keeps ..) | apply Keeps.trans ?_ (enterMode_keeps ..)
    | apply Keeps.trans ?_ (setSources_keeps ..) | apply Keeps.ite | dsimp only)

theorem afterFirmware_keeps (x : FwSlot) (s : State) : Keeps s (afterFirmware x s) := by
  unfold afterFirmware
  repeat' (with_reducible first
    | apply Keeps.refl | apply Keeps.trans ?_ (raise_keeps ..) | apply Keeps.trans ?_ (reportAtSeven_keeps ..)
    | apply Keeps.trans ?_ (openService_keeps ..) | apply Keeps.trans ?_ (enterConfigure_keeps ..) | apply Keeps.ite
    | fail_if_no_progress refine Keeps.put rfl ?_ rfl rfl rfl rfl rfl | dsimp only)

theorem execFirmwareSlotVerify_keeps (x : FwSlot) (s : State) : KeepsO s (execFirmwareSlotVerify x s) := by
  unfold execFirmwareSlotVerify
  repeat' (with_reducible first
    | apply Keeps.refl | apply KeepsO.next | apply KeepsO.ite | apply Keeps.trans ?_ (raise_keeps ..)
    | apply Keeps.trans ?_ (enterMode_keeps ..) | apply Keeps.trans ?_ (settle_keeps ..)
    | apply KeepsO.trans ?_ (done_keeps ..) | apply Keeps.trans ?_ (readSelector_keeps ..)
    | apply Keeps.trans ?_ (completeErasure_keeps ..) | apply Keeps.trans ?_ (afterFirmware_keeps ..) | apply Keeps.ite
    | fail_if_no_progress refine Keeps.put rfl ?_ rfl rfl rfl rfl rfl | dsimp only)

theorem enrol_keeps (hash kwo : Bytes) (s : State) : Keeps s (enrol hash kwo s) :=
  Keeps.put_fuses ⟨rfl, fun _ => rfl, id, Nat.le_refl _, fun _ => Nat.le_refl _⟩ rfl (Keeps.refl s) rfl rfl rfl rfl

theorem takeConfig_keeps (x : CfgSlot) (s : State) : Keeps s (takeConfig x s) := by
  unfold takeConfig
  repeat' (with_reducible first
    | apply Keeps.refl | apply Keeps.trans ?_ (enrol_keeps ..) | apply Keeps.ite
    | fail_if_no_progress refine Keeps.put rfl ?_ rfl rfl rfl rfl rfl | intro _ | dsimp only)

theorem recKey_keeps (tagOk : Bool) (b : Bytes) (s : State) : Keeps s (recKey tagOk b s) := by
  unfold recKey
  repeat' (with_reducible first
    | apply Keeps.refl | apply Keeps.trans ?_ (raise_keeps ..) | apply Keeps.trans ?_ (orphan_keeps ..)
    | apply Keeps.trans ?_ (applied_keeps ..) | apply Keeps.trans ?_ (sized_keeps (hbody := ?_) ..) | apply Keeps.ite
    | fail_if_no_progress refine Keeps.put rfl ?_ rfl rfl rfl rfl rfl | intro _ | dsimp only)

theorem execKeyRecord_keeps (b : Bytes) (tagOk : Bool) (s : State) : KeepsO s (execKeyRecord b tagOk s) := by
  unfold execKeyRecord
  repeat' (with_reducible first
    | apply Keeps.refl | assumption | apply KeepsO.next | exact KeepsO.fault | apply KeepsO.ite
    | apply KeepsO.trans ?_ (recordCommand_keeps (hbody := ?_) ..) | apply Keeps.trans ?_ (recKey_keeps ..)
    | apply Keeps.ite | apply Keeps.of_snd (by assumption) | apply Keeps.of_fst (by assumption)
    | fail_if_no_progress refine Keeps.put rfl ?_ rfl rfl rfl rfl rfl | intro _ | split | dsimp only)

theorem execEnrolmentRecord_keeps (b : Bytes) (s : State) : KeepsO s (execEnrolmentRecord b s) := by
  unfold execEnrolmentRecord
  repeat' (with_reducible first
    | apply Keeps.refl | apply KeepsO.next | apply KeepsO.ite | apply Keeps.trans ?_ (applied_keeps ..)
    | apply Keeps.trans ?_ (unknownRecord_keeps ..) | apply KeepsO.trans ?_ (recordCommand_keeps (hbody := ?_) ..)
    | apply Keeps.trans ?_ (enrol_keeps ..) | apply Keeps.ite | intro _)

theorem execFuseBitProgram_keeps (ok : Bool) (s : State) : KeepsO s (execFuseBitProgram ok s) := by
  unfold execFuseBitProgram
  split
  · exact KeepsO.next (Keeps.refl _)
  · rename_i c rest h
    apply KeepsO.ite
    · extract_lets s0 q1 s1
      have h0 : Keeps s s0 := noEarlier_keeps ..
      have h1 : Keeps s s1 := Keeps.put rfl h0 rfl rfl rfl rfl rfl
      clear_value s1
      apply KeepsO.ite
      · refine KeepsO.next (Keeps.put_fuses ⟨rfl, id, id, Nat.le_refl _, fun k => ?_⟩ rfl h1 rfl rfl rfl rfl)
        rw [tgetD_tset]
        split
        · subst k; exact fuseUp_le ..
        · exact Nat.le_refl _
      · exact KeepsO.trans (h1.trans (raise_keeps ..)) (done_keeps _)
    · exact KeepsO.next (Keeps.refl _)

theorem cmdSecIdentity_keeps (r : Req) (s : State) : Keeps s (cmdSecIdentity r s) := by
  unfold cmdSecIdentity
  repeat' (with_reducible first
    | apply Keeps.refl | apply Keeps.trans ?_ (reply_keeps ..)
    | apply Keeps.trans ?_ (takeRequest_keeps (hbody := ?_) ..) | intro _)

theorem execSecIdentity_keeps (r : Req) (s : State) : KeepsO s (execSecIdentity r s) := by
  unfold execSecIdentity
  repeat' (with_reducible first
    | apply Keeps.refl | apply KeepsO.trans ?_ (done_keeps ..) | apply Keeps.trans ?_ (cmdSecIdentity_keeps ..))

theorem cmdSecAttest_keeps (r : Req) (s : State) : Keeps s (cmdSecAttest r s) := by
  unfold cmdSecAttest
  repeat' (with_reducible first
    | apply Keeps.refl | apply Keeps.trans ?_ (drawBytes_keeps ..) | apply Keeps.trans ?_ (setPart_keeps ..)
    | apply Keeps.trans ?_ (reply_keeps ..) | apply Keeps.trans ?_ (takeRequest_keeps (hbody := ?_) ..)
    | apply Keeps.of_snd (by assumption) | apply Keeps.of_fst (by assumption)
    | fail_if_no_progress refine Keeps.put rfl ?_ rfl rfl rfl rfl rfl | intro _ | split | dsimp only)

theorem execSecAttest_keeps (r : Req) (s : State) : KeepsO s (execSecAttest r s) := by
  unfold execSecAttest
  repeat' (with_reducible first
    | apply Keeps.refl | apply KeepsO.trans ?_ (done_keeps ..) | apply Keeps.trans ?_ (cmdSecAttest_keeps ..))

theorem cmdSecAttestRead_keeps (r : Req) (s : State) : Keeps s (cmdSecAttestRead r s) := by
  unfold cmdSecAttestRead
  repeat' (with_reducible first
    | apply Keeps.refl | apply Keeps.trans ?_ (reply_keeps ..)
    | apply Keeps.trans ?_ (takeRequest_keeps (hbody := ?_) ..) | apply Keeps.ite | intro _ | dsimp only)

theorem execSecAttestRead_keeps (r : Req) (s : State) : KeepsO s (execSecAttestRead r s) := by
  unfold execSecAttestRead
  repeat' (with_reducible first
    | apply Keeps.refl | apply KeepsO.trans ?_ (done_keeps ..) | apply Keeps.trans ?_ (cmdSecAttestRead_keeps ..))

theorem cmdSecUpdateBegin_keeps (r : Req) (s : State) : Keeps s (cmdSecUpdateBegin r s) := by
  unfold cmdSecUpdateBegin
  repeat' (with_reducible first
    | apply Keeps.refl | apply Keeps.trans ?_ (reply_keeps ..)
    | apply Keeps.trans ?_ (takeRequest_keeps (hbody := ?_) ..) | apply Keeps.trans ?_ (busy_keeps ..) | apply Keeps.ite
    | fail_if_no_progress refine Keeps.put rfl ?_ rfl rfl rfl rfl rfl | intro _ | dsimp only)

theorem execSecUpdateBegin_keeps (r : Req) (s : State) : KeepsO s (execSecUpdateBegin r s) := by
  unfold execSecUpdateBegin
  repeat' (with_reducible first
    | apply Keeps.refl | apply KeepsO.trans ?_ (done_keeps ..) | apply Keeps.trans ?_ (cmdSecUpdateBegin_keeps ..))

theorem beginUpdate_keeps (h : Held) (s : State) : Keeps s (beginUpdate h s) := by
  unfold beginUpdate
  repeat' (with_reducible first
    | apply Keeps.refl | apply Keeps.trans ?_ (enterMode_keeps ..)
    | fail_if_no_progress refine Keeps.put rfl ?_ rfl rfl rfl rfl rfl | dsimp only)

theorem execUpdateEraseDone_keeps (s : State) : KeepsO s (execUpdateEraseDone s) := by
  unfold execUpdateEraseDone
  repeat' (with_reducible first
    | apply Keeps.refl | apply KeepsO.next | apply KeepsO.ite | apply Keeps.trans ?_ (replyTo_keeps ..)
    | apply KeepsO.trans ?_ (done_keeps ..) | apply Keeps.ite | apply Keeps.of_snd (by assumption)
    | apply Keeps.of_fst (by assumption) | fail_if_no_progress refine Keeps.put rfl ?_ rfl rfl rfl rfl rfl | split
    | dsimp only)

theorem cmdSecUpdateData_keeps (r : Req) (s : State) : Keeps s (cmdSecUpdateData r s) := by
  unfold cmdSecUpdateData
  repeat' (with_reducible first
    | apply Keeps.refl | apply Keeps.trans ?_ (reply_keeps ..)
    | apply Keeps.trans ?_ (takeRequest_keeps (hbody := ?_) ..) | apply Keeps.ite | apply Keeps.of_snd (by assumption)
    | apply Keeps.of_fst (by assumption) | fail_if_no_progress refine Keeps.put rfl ?_ rfl rfl rfl rfl rfl | intro _
    | split | dsimp only)

theorem execSecUpdateData_keeps (r : Req) (s : State) : KeepsO s (execSecUpdateData r s) := by
  unfold execSecUpdateData
  repeat' (with_reducible first
    | apply Keeps.refl | apply KeepsO.trans ?_ (done_keeps ..) | apply Keeps.trans ?_ (cmdSecUpdateData_keeps ..))

theorem cmdSecUpdateEnd_keeps (r : Req) (s : State) : Keeps s (cmdSecUpdateEnd r s) := by
  unfold cmdSecUpdateEnd
  repeat' (with_reducible first
    | apply Keeps.refl | apply Keeps.trans ?_ (reply_keeps ..)
    | apply Keeps.trans ?_ (takeRequest_keeps (hbody := ?_) ..) | apply Keeps.ite | apply Keeps.of_snd (by assumption)
    | apply Keeps.of_fst (by assumption) | fail_if_no_progress refine Keeps.put rfl ?_ rfl rfl rfl rfl rfl | intro _
    | split)

theorem execSecUpdateEnd_keeps (r : Req) (s : State) : KeepsO s (execSecUpdateEnd r s) := by
  unfold execSecUpdateEnd
  repeat' (with_reducible first
    | apply Keeps.refl | apply KeepsO.trans ?_ (done_keeps ..) | apply Keeps.trans ?_ (cmdSecUpdateEnd_keeps ..))

theorem takeItem_keeps (u : Update) (s : State) : Keeps s (takeItem u s) := by
  unfold takeItem
  repeat' (with_reducible first
    | apply Keeps.refl | apply Keeps.trans ?_ (writeSelector_keeps ..) | apply Keeps.ite
    | fail_if_no_progress refine Keeps.put rfl ?_ rfl rfl rfl rfl rfl)

theorem leaveUpdate_keeps (s : State) : Keeps s (leaveUpdate s) := by
  unfold leaveUpdate
  repeat' (with_reducible first
    | apply Keeps.refl | apply Keeps.trans ?_ (enterMode_keeps ..)
    | fail_if_no_progress refine Keeps.put rfl ?_ rfl rfl rfl rfl rfl)

theorem execUpdateVerifyDone_keeps (item : FwSlot) (config : CfgSlot) (s : State) : KeepsO s (execUpdateVerifyDone item config s) := by
  unfold execUpdateVerifyDone
  repeat' (with_reducible first
    | apply Keeps.refl | apply KeepsO.next | apply KeepsO.ite | apply Keeps.trans ?_ (raise_keeps ..)
    | apply Keeps.trans ?_ (replyTo_keeps ..) | apply KeepsO.trans ?_ (done_keeps ..)
    | apply Keeps.trans ?_ (takeItem_keeps ..) | apply Keeps.trans ?_ (leaveUpdate_keeps ..) | apply Keeps.ite
    | apply Keeps.of_snd (by assumption) | apply Keeps.of_fst (by assumption)
    | fail_if_no_progress refine Keeps.put rfl ?_ rfl rfl rfl rfl rfl | split | dsimp only)

theorem execUpdateTimeout_keeps (s : State) : KeepsO s (execUpdateTimeout s) := by
  unfold execUpdateTimeout
  repeat' (with_reducible first
    | apply Keeps.refl | apply KeepsO.next | apply KeepsO.ite | apply Keeps.trans ?_ (abandonUpdate_keeps ..)
    | apply KeepsO.trans ?_ (done_keeps ..) | apply Keeps.trans ?_ (leaveUpdate_keeps ..)
    | apply atTime_keeps _ _ _ (by assumption) | apply Keeps.ite | apply Keeps.of_snd (by assumption)
    | apply Keeps.of_fst (by assumption) | fail_if_no_progress refine Keeps.put rfl ?_ rfl rfl rfl rfl rfl | split)

theorem cmdSecUpdateAbort_keeps (r : Req) (s : State) : Keeps s (cmdSecUpdateAbort r s) := by
  unfold cmdSecUpdateAbort
  repeat' (with_reducible first
    | apply Keeps.refl | apply Keeps.trans ?_ (reply_keeps ..)
    | apply Keeps.trans ?_ (takeRequest_keeps (hbody := ?_) ..) | apply Keeps.trans ?_ (abandonUpdate_keeps ..)
    | apply Keeps.trans ?_ (leaveUpdate_keeps ..) | apply Keeps.of_snd (by assumption)
    | apply Keeps.of_fst (by assumption) | fail_if_no_progress refine Keeps.put rfl ?_ rfl rfl rfl rfl rfl | intro _
    | split)

theorem execSecUpdateAbort_keeps (r : Req) (s : State) : KeepsO s (execSecUpdateAbort r s) := by
  unfold execSecUpdateAbort
  repeat' (with_reducible first
    | apply Keeps.refl | apply KeepsO.trans ?_ (done_keeps ..) | apply Keeps.trans ?_ (cmdSecUpdateAbort_keeps ..))

end Sys2Proof.Machine
end

