-- ==== Sys2Proof/Laws/KeepsEncode.lean ====
section
/-! SUPPORT. What the operations of Machine/Encode.lean keep (Laws/Keeps.lean). -/

set_option linter.unusedTactic false
set_option linter.unreachableTactic false

namespace Sys2Proof.Machine

open Sys2Proof.Safety

theorem recEncodeChannel_keeps (b : Bytes) (s : State) : Keeps s (recEncodeChannel b s) := by
  unfold recEncodeChannel
  repeat' (with_reducible first
    | apply Keeps.refl | apply Keeps.trans ?_ (applied_keeps ..) | apply Keeps.trans ?_ (sized_keeps (hbody := ?_) ..)
    | apply Keeps.ite | fail_if_no_progress refine Keeps.put rfl ?_ rfl rfl rfl rfl rfl | intro _ | dsimp only)

theorem execEncodeChannelRecord_keeps (b : Bytes) (s : State) : KeepsO s (execEncodeChannelRecord b s) := by
  unfold execEncodeChannelRecord
  repeat' (with_reducible first
    | apply Keeps.refl | assumption | apply KeepsO.next | exact KeepsO.fault | apply KeepsO.ite
    | apply KeepsO.trans ?_ (recordCommand_keeps (hbody := ?_) ..) | apply Keeps.trans ?_ (recEncodeChannel_keeps ..)
    | apply Keeps.ite | apply Keeps.of_snd (by assumption) | apply Keeps.of_fst (by assumption)
    | fail_if_no_progress refine Keeps.put rfl ?_ rfl rfl rfl rfl rfl | intro _ | split | dsimp only)

theorem recEncodeContext_keeps (b : Bytes) (s : State) : Keeps s (recEncodeContext b s) := by
  unfold recEncodeContext
  repeat' (with_reducible first
    | apply Keeps.refl | apply Keeps.trans ?_ (modChan_keeps ..) | apply Keeps.trans ?_ (orphan_keeps ..)
    | apply Keeps.trans ?_ (applied_keeps ..) | apply Keeps.trans ?_ (sized_keeps (hbody := ?_) ..) | apply Keeps.ite
    | fail_if_no_progress refine Keeps.put rfl ?_ rfl rfl rfl rfl rfl | intro _ | dsimp only)

theorem execEncodeContextRecord_keeps (b : Bytes) (s : State) : KeepsO s (execEncodeContextRecord b s) := by
  unfold execEncodeContextRecord
  repeat' (with_reducible first
    | apply Keeps.refl | assumption | apply KeepsO.next | exact KeepsO.fault | apply KeepsO.ite
    | apply KeepsO.trans ?_ (recordCommand_keeps (hbody := ?_) ..) | apply Keeps.trans ?_ (recEncodeContext_keeps ..)
    | apply Keeps.ite | apply Keeps.of_snd (by assumption) | apply Keeps.of_fst (by assumption)
    | fail_if_no_progress refine Keeps.put rfl ?_ rfl rfl rfl rfl rfl | intro _ | split | dsimp only)

theorem recContextCoding_keeps (b : Bytes) (s : State) : Keeps s (recContextCoding b s) := by
  unfold recContextCoding
  repeat' (with_reducible first
    | apply Keeps.refl | apply Keeps.trans ?_ (modCtx_keeps ..) | apply Keeps.trans ?_ (orphan_keeps ..)
    | apply Keeps.trans ?_ (applied_keeps ..) | apply Keeps.trans ?_ (sized_keeps (hbody := ?_) ..) | apply Keeps.ite
    | apply Keeps.of_snd (by assumption) | apply Keeps.of_fst (by assumption)
    | fail_if_no_progress refine Keeps.put rfl ?_ rfl rfl rfl rfl rfl | intro _ | split | dsimp only)

theorem execContextCodingRecord_keeps (b : Bytes) (s : State) : KeepsO s (execContextCodingRecord b s) := by
  unfold execContextCodingRecord
  repeat' (with_reducible first
    | apply Keeps.refl | assumption | apply KeepsO.next | exact KeepsO.fault | apply KeepsO.ite
    | apply KeepsO.trans ?_ (recordCommand_keeps (hbody := ?_) ..) | apply Keeps.trans ?_ (recContextCoding_keeps ..)
    | apply Keeps.ite | apply Keeps.of_snd (by assumption) | apply Keeps.of_fst (by assumption)
    | fail_if_no_progress refine Keeps.put rfl ?_ rfl rfl rfl rfl rfl | intro _ | split | dsimp only)

theorem recChannelColour_keeps (b : Bytes) (s : State) : Keeps s (recChannelColour b s) := by
  unfold recChannelColour
  repeat' (with_reducible first
    | apply Keeps.refl | apply Keeps.trans ?_ (modChan_keeps ..) | apply Keeps.trans ?_ (orphan_keeps ..)
    | apply Keeps.trans ?_ (applied_keeps ..) | apply Keeps.trans ?_ (sized_keeps (hbody := ?_) ..) | apply Keeps.ite
    | fail_if_no_progress refine Keeps.put rfl ?_ rfl rfl rfl rfl rfl | intro _ | dsimp only)

theorem execChannelColourRecord_keeps (b : Bytes) (s : State) : KeepsO s (execChannelColourRecord b s) := by
  unfold execChannelColourRecord
  repeat' (with_reducible first
    | apply Keeps.refl | assumption | apply KeepsO.next | exact KeepsO.fault | apply KeepsO.ite
    | apply KeepsO.trans ?_ (recordCommand_keeps (hbody := ?_) ..) | apply Keeps.trans ?_ (recChannelColour_keeps ..)
    | apply Keeps.ite | apply Keeps.of_snd (by assumption) | apply Keeps.of_fst (by assumption)
    | fail_if_no_progress refine Keeps.put rfl ?_ rfl rfl rfl rfl rfl | intro _ | split | dsimp only)

theorem recRateControl_keeps (b : Bytes) (s : State) : Keeps s (recRateControl b s) := by
  unfold recRateControl
  repeat' (with_reducible first
    | apply Keeps.refl | apply Keeps.trans ?_ (modCtx_keeps ..) | apply Keeps.trans ?_ (orphan_keeps ..)
    | apply Keeps.trans ?_ (applied_keeps ..) | apply Keeps.trans ?_ (sized_keeps (hbody := ?_) ..) | apply Keeps.ite
    | apply Keeps.of_snd (by assumption) | apply Keeps.of_fst (by assumption)
    | fail_if_no_progress refine Keeps.put rfl ?_ rfl rfl rfl rfl rfl | intro _ | split | dsimp only)

theorem execRateControlRecord_keeps (b : Bytes) (s : State) : KeepsO s (execRateControlRecord b s) := by
  unfold execRateControlRecord
  repeat' (with_reducible first
    | apply Keeps.refl | assumption | apply KeepsO.next | exact KeepsO.fault | apply KeepsO.ite
    | apply KeepsO.trans ?_ (recordCommand_keeps (hbody := ?_) ..) | apply Keeps.trans ?_ (recRateControl_keeps ..)
    | apply Keeps.ite | apply Keeps.of_snd (by assumption) | apply Keeps.of_fst (by assumption)
    | fail_if_no_progress refine Keeps.put rfl ?_ rfl rfl rfl rfl rfl | intro _ | split | dsimp only)

theorem setCp_keeps (s : State) (c : Nat) (f : CpChan → CpChan) : Keeps s (setCp s c f) := by
  unfold setCp
  repeat' (with_reducible first
    | apply Keeps.refl | fail_if_no_progress refine Keeps.put rfl ?_ rfl rfl rfl rfl rfl)

theorem recCoppice_keeps (b : Bytes) (s : State) : Keeps s (recCoppice b s) := by
  unfold recCoppice
  repeat' (with_reducible first
    | apply Keeps.refl | apply Keeps.trans ?_ (orphan_keeps ..) | apply Keeps.trans ?_ (applied_keeps ..)
    | apply Keeps.trans ?_ (sized_keeps (hbody := ?_) ..) | apply Keeps.trans ?_ (setCp_keeps ..) | apply Keeps.ite
    | fail_if_no_progress refine Keeps.put rfl ?_ rfl rfl rfl rfl rfl | intro _ | dsimp only)

theorem execCoppiceRecord_keeps (b : Bytes) (s : State) : KeepsO s (execCoppiceRecord b s) := by
  unfold execCoppiceRecord
  repeat' (with_reducible first
    | apply Keeps.refl | assumption | apply KeepsO.next | exact KeepsO.fault | apply KeepsO.ite
    | apply KeepsO.trans ?_ (recordCommand_keeps (hbody := ?_) ..) | apply Keeps.trans ?_ (recCoppice_keeps ..)
    | apply Keeps.ite | apply Keeps.of_snd (by assumption) | apply Keeps.of_fst (by assumption)
    | fail_if_no_progress refine Keeps.put rfl ?_ rfl rfl rfl rfl rfl | intro _ | split | dsimp only)

theorem execEngineSelftestDone_keeps (engines : List Nat) (analysers : List Nat) (decoders : List Nat) (s : State) : KeepsO s (execEngineSelftestDone engines analysers decoders s) := by
  unfold execEngineSelftestDone
  repeat' (with_reducible first
    | apply Keeps.refl | apply KeepsO.next | apply KeepsO.ite | apply Keeps.ite
    | fail_if_no_progress refine Keeps.put rfl ?_ rfl rfl rfl rfl rfl | intro _)

theorem takeEngines_keeps (n : Nat) (cols : List Nat) (group : Option Nat) (charge : Nat) (s : State) : Keeps s (takeEngines n cols group charge s) := by
  unfold takeEngines
  repeat' (with_reducible first
    | apply Keeps.refl | apply Keeps.foldl | apply Keeps.foldl_fst | apply Keeps.foldl_snd
    | apply Keeps.trans ?_ (modChan_keeps ..) | apply Keeps.trans ?_ (modCtx_keeps ..)
    | apply Keeps.trans ?_ (setEngine_keeps ..) | apply Keeps.ite | apply Keeps.of_snd (by assumption)
    | apply Keeps.of_fst (by assumption) | fail_if_no_progress refine Keeps.put rfl ?_ rfl rfl rfl rfl rfl | intro _
    | split | dsimp only)

theorem takeAnalysers_keeps (n : Nat) (s : State) : Keeps s (takeAnalysers n s) := by
  unfold takeAnalysers
  repeat' (with_reducible first
    | apply Keeps.refl | apply Keeps.trans ?_ (setCp_keeps ..) | apply Keeps.ite | apply Keeps.of_snd (by assumption)
    | apply Keeps.of_fst (by assumption) | fail_if_no_progress refine Keeps.put rfl ?_ rfl rfl rfl rfl rfl | intro _
    | split | dsimp only)

theorem applyBitrate_keeps (x : Nat) (kbps : Nat) (n : Nat) (s : State) : Keeps s (applyBitrate x kbps n s) := by
  unfold applyBitrate
  repeat' (with_reducible first
    | apply Keeps.refl | apply Keeps.trans ?_ (modCtx_keeps ..)
    | fail_if_no_progress refine Keeps.put rfl ?_ rfl rfl rfl rfl rfl | intro _)

theorem applyAcknowledge_keeps (x : Nat) (poc : Nat) (n : Nat) (s : State) : Keeps s (applyAcknowledge x poc n s) := by
  unfold applyAcknowledge
  repeat' (with_reducible first
    | apply Keeps.refl | apply Keeps.trans ?_ (modChan_keeps ..) | apply Keeps.trans ?_ (modCtx_keeps ..)
    | apply Keeps.ite | apply Keeps.of_snd (by assumption) | apply Keeps.of_fst (by assumption)
    | fail_if_no_progress refine Keeps.put rfl ?_ rfl rfl rfl rfl rfl | intro _ | split | dsimp only)

theorem applyLoss_keeps (x : Nat) (s : State) : Keeps s (applyLoss x s) := by
  unfold applyLoss
  repeat' (with_reducible first
    | apply Keeps.refl | apply Keeps.trans ?_ (modCtx_keeps ..)
    | fail_if_no_progress refine Keeps.put rfl ?_ rfl rfl rfl rfl rfl | intro _)

theorem applyCorrection_keeps (x : Nat) (g : Nat) (s : State) : Keeps s (applyCorrection x g s) := by
  unfold applyCorrection
  repeat' (with_reducible first
    | apply Keeps.refl | apply Keeps.trans ?_ (modCtx_keeps ..)
    | fail_if_no_progress refine Keeps.put rfl ?_ rfl rfl rfl rfl rfl | intro _)

theorem ctxFrameTick_keeps (n : Nat) (env : FrameEnv) (s : State) (x : Nat) : Keeps s (ctxFrameTick n env s x) := by
  unfold ctxFrameTick
  repeat' (with_reducible first
    | apply Keeps.refl | apply Keeps.trans ?_ (modChan_keeps ..) | apply Keeps.trans ?_ (modCtx_keeps ..)
    | apply Keeps.ite | apply Keeps.of_snd (by assumption) | apply Keeps.of_fst (by assumption)
    | fail_if_no_progress refine Keeps.put rfl ?_ rfl rfl rfl rfl rfl | intro _ | split | dsimp only)

theorem clearBroken_keeps (ch : Nat) (source : Bool) (s : State) : Keeps s (clearBroken ch source s) := by
  unfold clearBroken
  repeat' (with_reducible first
    | apply Keeps.refl | apply Keeps.trans ?_ (setCp_keeps ..) | apply Keeps.ite
    | fail_if_no_progress refine Keeps.put rfl ?_ rfl rfl rfl rfl rfl | intro _)

theorem analysisCloses_keeps (n : Nat) (row : Nat) (env : RowEnv) (x : Nat) (s : State) : Keeps s (analysisCloses n row env x s) := by
  unfold analysisCloses
  repeat' (with_reducible first
    | apply Keeps.refl | apply Keeps.trans ?_ (raise_keeps ..) | apply Keeps.trans ?_ (modPic_keeps ..)
    | apply Keeps.trans ?_ (setCp_keeps ..) | apply Keeps.ite | apply Keeps.of_snd (by assumption)
    | apply Keeps.of_fst (by assumption) | fail_if_no_progress refine Keeps.put rfl ?_ rfl rfl rfl rfl rfl | intro _
    | split | dsimp only)

theorem detectCut_keeps (ch : Nat) (n : Nat) (row : Nat) (rows : Nat) (first : Bool) (missed : Bool) (changed : Nat) (blocks : Nat) (s : State) : Keeps s (detectCut ch n row rows first missed changed blocks s) := by
  unfold detectCut
  repeat' (with_reducible first
    | apply Keeps.refl | apply Keeps.trans ?_ (setCp_keeps ..) | apply Keeps.ite
    | fail_if_no_progress refine Keeps.put rfl ?_ rfl rfl rfl rfl rfl | intro _ | dsimp only)

theorem sendTrain_keeps (t : Train) (s : State) : Keeps s (sendTrain t s) := by
  unfold sendTrain
  repeat' (with_reducible first
    | apply Keeps.refl | fail_if_no_progress refine Keeps.put rfl ?_ rfl rfl rfl rfl rfl | intro _)

theorem sendStrips_keeps (x : Nat) (row : Nat) (t : Nat) (floor : Bool) (kinds : List StripKind) (c : Ctx) (s : State) : Keeps s (sendStrips x row t floor kinds c s) := by
  unfold sendStrips
  repeat' (with_reducible first
    | apply Keeps.refl | apply Keeps.foldl | apply Keeps.foldl_fst | apply Keeps.foldl_snd
    | apply Keeps.trans ?_ (sendTrain_keeps ..) | intro _ | dsimp only)

theorem filterEdge_keeps (x : Nat) (row : Nat) (t : Nat) (u : Nat) (filters : List LoopFilter) (s : State) : Keeps s (filterEdge x row t u filters s) := by
  unfold filterEdge
  repeat' (with_reducible first
    | apply Keeps.refl | apply Keeps.trans ?_ (modPic_keeps ..) | apply Keeps.of_snd (by assumption)
    | apply Keeps.of_fst (by assumption) | fail_if_no_progress refine Keeps.put rfl ?_ rfl rfl rfl rfl rfl | intro _
    | split | dsimp only)

theorem useStrip_keeps (x : Nat) (row : Nat) (t : Nat) (u : Nat) (kind : StripKind) (c : Ctx) (s : State) : Keeps s (useStrip x row t u kind c s) := by
  unfold useStrip
  repeat' (with_reducible first
    | apply Keeps.refl | apply Keeps.trans ?_ (modPic_keeps ..) | apply Keeps.trans ?_ (sendStrips_keeps ..)
    | apply Keeps.trans ?_ (filterEdge_keeps ..) | apply Keeps.ite | apply Keeps.of_snd (by assumption)
    | apply Keeps.of_fst (by assumption) | fail_if_no_progress refine Keeps.put rfl ?_ rfl rfl rfl rfl rfl | intro _
    | split | dsimp only)

theorem enginesOpen_keeps (x : Nat) (row : Nat) (c : Ctx) (s : State) : Keeps s (enginesOpen x row c s) := by
  unfold enginesOpen
  repeat' (with_reducible first
    | apply Keeps.refl | apply Keeps.foldl | apply Keeps.foldl_fst | apply Keeps.foldl_snd
    | apply Keeps.trans ?_ (setEngine_keeps ..) | apply Keeps.trans ?_ (sendStrips_keeps ..) | apply Keeps.ite
    | fail_if_no_progress refine Keeps.put rfl ?_ rfl rfl rfl rfl rfl | intro _ | dsimp only)

theorem awaitFloor_keeps (x : Nat) (row : Nat) (t : Nat) (c : Ctx) (s : State) : Keeps s (awaitFloor x row t c s) := by
  unfold awaitFloor
  repeat' (with_reducible first
    | apply Keeps.refl | apply Keeps.foldl | apply Keeps.foldl_fst | apply Keeps.foldl_snd
    | apply Keeps.trans ?_ (setEngine_keeps ..) | apply Keeps.ite
    | fail_if_no_progress refine Keeps.put rfl ?_ rfl rfl rfl rfl rfl | intro _ | dsimp only)

theorem sendVerdict_keeps (x : Nat) (row : Nat) (t : Nat) (bits : Nat) (replaced : Bool) (c : Ctx) (s : State) : Keeps s (sendVerdict x row t bits replaced c s) := by
  unfold sendVerdict
  repeat' (with_reducible first
    | apply Keeps.refl | apply Keeps.trans ?_ (sendStrips_keeps ..) | apply Keeps.trans ?_ (awaitFloor_keeps ..)
    | apply Keeps.ite | dsimp only)

theorem keepCtu_keeps (c : Ctx) (s : State) : Keeps s (keepCtu c s) := by
  unfold keepCtu
  repeat' (with_reducible first
    | apply Keeps.refl | apply Keeps.foldl | apply Keeps.foldl_fst | apply Keeps.foldl_snd
    | apply Keeps.trans ?_ (setEngine_keeps ..) | fail_if_no_progress refine Keeps.put rfl ?_ rfl rfl rfl rfl rfl
    | intro _ | dsimp only)

theorem codingOpensRow_keeps (n : Nat) (row : Nat) (x : Nat) (s : State) : Keeps s (codingOpensRow n row x s) := by
  unfold codingOpensRow
  repeat' (with_reducible first
    | apply Keeps.refl | apply Keeps.trans ?_ (modChan_keeps ..) | apply Keeps.trans ?_ (modPic_keeps ..)
    | apply Keeps.trans ?_ (enginesOpen_keeps ..) | apply Keeps.trans ?_ (keepCtu_keeps ..) | apply Keeps.ite
    | apply Keeps.of_snd (by assumption) | apply Keeps.of_fst (by assumption)
    | fail_if_no_progress refine Keeps.put rfl ?_ rfl rfl rfl rfl rfl | intro _ | split | dsimp only)

theorem countSweep_keeps (x : Nat) (n : Nat) (before : Pic) (s : State) : Keeps s (countSweep x n before s) := by
  unfold countSweep
  repeat' (with_reducible first
    | apply Keeps.refl | apply Keeps.trans ?_ (modChan_keeps ..) | apply Keeps.ite | apply Keeps.of_snd (by assumption)
    | apply Keeps.of_fst (by assumption) | fail_if_no_progress refine Keeps.put rfl ?_ rfl rfl rfl rfl rfl | intro _
    | split)

theorem settleRow_keeps (x : Nat) (n : Nat) (row : Nat) (s : State) : Keeps s (settleRow x n row s) := by
  unfold settleRow
  repeat' (with_reducible first
    | apply Keeps.refl | apply Keeps.trans ?_ (sendVa_keeps ..) | apply Keeps.trans ?_ (modPic_keeps ..)
    | apply Keeps.trans ?_ (countSweep_keeps ..) | apply Keeps.ite | apply Keeps.of_snd (by assumption)
    | apply Keeps.of_fst (by assumption) | fail_if_no_progress refine Keeps.put rfl ?_ rfl rfl rfl rfl rfl | intro _
    | split | dsimp only)

theorem takeVerdict_keeps (x : Nat) (row : Nat) (bits : Nat) (s : State) : Keeps s (takeVerdict x row bits s) := by
  unfold takeVerdict
  repeat' (with_reducible first
    | apply Keeps.refl | apply Keeps.trans ?_ (modCtx_keeps ..) | apply Keeps.ite
    | fail_if_no_progress refine Keeps.put rfl ?_ rfl rfl rfl rfl rfl | intro _ | dsimp only)

theorem takeFloor_keeps (x : Nat) (n : Nat) (key : Nat) (s : State) : Keeps s (takeFloor x n key s) := by
  unfold takeFloor
  repeat' (with_reducible first
    | apply Keeps.refl | apply Keeps.trans ?_ (modPic_keeps ..) | apply Keeps.trans ?_ (countFloor_keeps ..)
    | apply Keeps.trans ?_ (replaceSlice_keeps ..) | apply Keeps.trans ?_ (sendStrips_keeps ..)
    | apply Keeps.trans ?_ (sendVerdict_keeps ..) | apply Keeps.ite | apply Keeps.of_snd (by assumption)
    | apply Keeps.of_fst (by assumption) | fail_if_no_progress refine Keeps.put rfl ?_ rfl rfl rfl rfl rfl | intro _
    | split | dsimp only)

theorem closeSlice_keeps (n : Nat) (row : Nat) (x : Nat) (missed : List Overrun) (s : State) (t : Nat) : Keeps s (closeSlice n row x missed s t) := by
  unfold closeSlice
  repeat' (with_reducible first
    | apply Keeps.refl | apply Keeps.trans ?_ (raise_keeps ..) | apply Keeps.trans ?_ (modChan_keeps ..)
    | apply Keeps.trans ?_ (takeFloor_keeps ..) | apply Keeps.ite | apply Keeps.of_snd (by assumption)
    | apply Keeps.of_fst (by assumption) | fail_if_no_progress refine Keeps.put rfl ?_ rfl rfl rfl rfl rfl | intro _
    | split | dsimp only)

theorem filterRow_keeps (x : Nat) (n : Nat) (row : Nat) (s : State) : Keeps s (filterRow x n row s) := by
  unfold filterRow
  repeat' (with_reducible first
    | apply Keeps.refl | apply Keeps.foldl | apply Keeps.foldl_fst | apply Keeps.foldl_snd
    | apply Keeps.trans ?_ (modPic_keeps ..) | apply Keeps.ite
    | fail_if_no_progress refine Keeps.put rfl ?_ rfl rfl rfl rfl rfl | intro _)

theorem sendStatistics_keeps (x : Nat) (row : Nat) (c : Ctx) (s : State) : Keeps s (sendStatistics x row c s) := by
  unfold sendStatistics
  repeat' (with_reducible first
    | apply Keeps.refl | apply Keeps.foldl | apply Keeps.foldl_fst | apply Keeps.foldl_snd
    | apply Keeps.trans ?_ (sendTrain_keeps ..) | apply Keeps.ite | intro _)

theorem clearTrains_keeps (x : Nat) (row : Nat) (s : State) : Keeps s (clearTrains x row s) := by
  unfold clearTrains
  repeat' (with_reducible first
    | apply Keeps.refl | fail_if_no_progress refine Keeps.put rfl ?_ rfl rfl rfl rfl rfl | intro _)

theorem codingCloses_keeps (n : Nat) (row : Nat) (env : RowEnv) (x : Nat) (s : State) : Keeps s (codingCloses n row env x s) := by
  unfold codingCloses
  repeat' (with_reducible first
    | apply Keeps.refl | apply Keeps.foldl | apply Keeps.foldl_fst | apply Keeps.foldl_snd
    | apply Keeps.trans ?_ (setEngine_keeps ..) | apply Keeps.trans ?_ (settleRow_keeps ..)
    | apply Keeps.trans ?_ (closeSlice_keeps ..) | apply Keeps.trans ?_ (filterRow_keeps ..)
    | apply Keeps.trans ?_ (sendStatistics_keeps ..) | apply Keeps.trans ?_ (clearTrains_keeps ..)
    | apply Keeps.of_snd (by assumption) | apply Keeps.of_fst (by assumption)
    | fail_if_no_progress refine Keeps.put rfl ?_ rfl rfl rfl rfl rfl | intro _ | split | dsimp only)

theorem entropyCloses_keeps (n : Nat) (row : Nat) (env : RowEnv) (x : Nat) (s : State) : Keeps s (entropyCloses n row env x s) := by
  unfold entropyCloses
  repeat' (with_reducible first
    | apply Keeps.refl | apply Keeps.foldl | apply Keeps.foldl_fst | apply Keeps.foldl_snd
    | apply Keeps.trans ?_ (raise_keeps ..) | apply Keeps.trans ?_ (modChan_keeps ..)
    | apply Keeps.trans ?_ (modPic_keeps ..) | apply Keeps.trans ?_ (takeFloor_keeps ..) | apply Keeps.ite
    | apply Keeps.of_snd (by assumption) | apply Keeps.of_fst (by assumption)
    | fail_if_no_progress refine Keeps.put rfl ?_ rfl rfl rfl rfl rfl | intro _ | split | dsimp only)

theorem execPleachStripArrival_keeps (e : Nat) (strip : Strip) (s : State) : KeepsO s (execPleachStripArrival e strip s) := by
  unfold execPleachStripArrival
  repeat' (with_reducible first
    | apply Keeps.refl | apply KeepsO.next | apply KeepsO.ite | apply Keeps.foldl | apply Keeps.foldl_fst
    | apply Keeps.foldl_snd | apply Keeps.trans ?_ (setEngine_keeps ..) | apply Keeps.trans ?_ (useStrip_keeps ..)
    | apply Keeps.ite | apply Keeps.of_snd (by assumption) | apply Keeps.of_fst (by assumption)
    | fail_if_no_progress refine Keeps.put rfl ?_ rfl rfl rfl rfl rfl | intro _ | split | dsimp only)

theorem execSliceVerdict_keeps (v : SliceResult) (s : State) : KeepsO s (execSliceVerdict v s) := by
  unfold execSliceVerdict
  repeat' (with_reducible first
    | apply Keeps.refl | apply KeepsO.next | apply KeepsO.ite | apply Keeps.trans ?_ (modChan_keeps ..)
    | apply Keeps.trans ?_ (modPic_keeps ..) | apply Keeps.trans ?_ (countFloor_keeps ..)
    | apply Keeps.trans ?_ (setEngine_keeps ..) | apply KeepsO.trans ?_ (done_keeps ..)
    | apply Keeps.trans ?_ (sendVerdict_keeps ..) | apply Keeps.trans ?_ (settleRow_keeps ..) | apply Keeps.ite
    | apply Keeps.of_snd (by assumption) | apply Keeps.of_fst (by assumption)
    | fail_if_no_progress refine Keeps.put rfl ?_ rfl rfl rfl rfl rfl | intro _ | split | dsimp only)

theorem execAlfDerivation_keeps (x : Nat) (frame : Nat) (s : State) : KeepsO s (execAlfDerivation x frame s) := by
  unfold execAlfDerivation
  repeat' (with_reducible first
    | apply Keeps.refl | apply KeepsO.next | apply KeepsO.ite | apply Keeps.trans ?_ (modCtx_keeps ..) | apply Keeps.ite
    | apply Keeps.of_snd (by assumption) | apply Keeps.of_fst (by assumption)
    | fail_if_no_progress refine Keeps.put rfl ?_ rfl rfl rfl rfl rfl | intro _ | split | dsimp only)

theorem atNextFrame_keeps (c : Nat) (s : State) : Keeps s (atNextFrame c s) := by
  unfold atNextFrame
  repeat' (with_reducible first
    | apply Keeps.refl | apply Keeps.trans ?_ (noEarlier_keeps ..) | apply Keeps.ite | dsimp only)

theorem execRingSegmentReroute_keeps (c : Nat) (seg : Nat) (s : State) : KeepsO s (execRingSegmentReroute c seg s) := by
  unfold execRingSegmentReroute
  repeat' (with_reducible first
    | apply Keeps.refl | apply KeepsO.next | apply KeepsO.ite | apply Keeps.trans ?_ (atNextFrame_keeps ..)
    | apply Keeps.ite | fail_if_no_progress refine Keeps.put rfl ?_ rfl rfl rfl rfl rfl | intro _ | dsimp only)

theorem execSpareTakeover_keeps (e : Nat) (c : Nat) (frame : Nat) (s : State) : KeepsO s (execSpareTakeover e c frame s) := by
  unfold execSpareTakeover
  repeat' (with_reducible first
    | apply Keeps.refl | apply KeepsO.next | apply KeepsO.ite | apply Keeps.trans ?_ (noEarlier_keeps ..)
    | apply Keeps.trans ?_ (takeOver_keeps ..) | apply Keeps.ite)

theorem execGRecompute_keeps (x : Nat) (frame : Nat) (s : State) : KeepsO s (execGRecompute x frame s) := by
  unfold execGRecompute
  repeat' (with_reducible first
    | apply Keeps.refl | apply KeepsO.next | apply KeepsO.ite | apply Keeps.trans ?_ (commitBoth_keeps ..)
    | apply Keeps.ite | apply Keeps.of_snd (by assumption) | apply Keeps.of_fst (by assumption)
    | fail_if_no_progress refine Keeps.put rfl ?_ rfl rfl rfl rfl rfl | split | dsimp only)

theorem execSliceEmission_keeps (x : Nat) (frame : Nat) (row : Nat) (s : State) : KeepsO s (execSliceEmission x frame row s) := by
  unfold execSliceEmission
  repeat' (with_reducible first
    | apply Keeps.refl | apply KeepsO.next | apply KeepsO.ite | apply Keeps.trans ?_ (modCtx_keeps ..)
    | apply atTime_keeps _ _ _ (by assumption) | apply Keeps.ite | apply Keeps.of_snd (by assumption)
    | apply Keeps.of_fst (by assumption) | fail_if_no_progress refine Keeps.put rfl ?_ rfl rfl rfl rfl rfl | intro _
    | split | dsimp only)

theorem cmdEncChannelInfo_keeps (r : Req) (s : State) : Keeps s (cmdEncChannelInfo r s) := by
  unfold cmdEncChannelInfo
  repeat' (with_reducible first
    | apply Keeps.refl | apply Keeps.trans ?_ (reply_keeps ..)
    | apply Keeps.trans ?_ (takeRequest_keeps (hbody := ?_) ..) | apply Keeps.ite | intro _ | dsimp only)

theorem execEncChannelInfo_keeps (r : Req) (s : State) : KeepsO s (execEncChannelInfo r s) := by
  unfold execEncChannelInfo
  repeat' (with_reducible first
    | apply Keeps.refl | apply KeepsO.trans ?_ (done_keeps ..) | apply Keeps.trans ?_ (cmdEncChannelInfo_keeps ..))

theorem cmdEncPoolInfo_keeps (r : Req) (s : State) : Keeps s (cmdEncPoolInfo r s) := by
  unfold cmdEncPoolInfo
  repeat' (with_reducible first
    | apply Keeps.refl | apply Keeps.trans ?_ (reply_keeps ..)
    | apply Keeps.trans ?_ (takeRequest_keeps (hbody := ?_) ..) | intro _)

theorem execEncPoolInfo_keeps (r : Req) (s : State) : KeepsO s (execEncPoolInfo r s) := by
  unfold execEncPoolInfo
  repeat' (with_reducible first
    | apply Keeps.refl | apply KeepsO.trans ?_ (done_keeps ..) | apply Keeps.trans ?_ (cmdEncPoolInfo_keeps ..))

theorem cmdEncRefInfo_keeps (r : Req) (s : State) : Keeps s (cmdEncRefInfo r s) := by
  unfold cmdEncRefInfo
  repeat' (with_reducible first
    | apply Keeps.refl | apply Keeps.trans ?_ (reply_keeps ..)
    | apply Keeps.trans ?_ (takeRequest_keeps (hbody := ?_) ..) | apply Keeps.ite | intro _ | dsimp only)

theorem execEncRefInfo_keeps (r : Req) (s : State) : KeepsO s (execEncRefInfo r s) := by
  unfold execEncRefInfo
  repeat' (with_reducible first
    | apply Keeps.refl | apply KeepsO.trans ?_ (done_keeps ..) | apply Keeps.trans ?_ (cmdEncRefInfo_keeps ..))

theorem cmdEncRcInfo_keeps (r : Req) (s : State) : Keeps s (cmdEncRcInfo r s) := by
  unfold cmdEncRcInfo
  repeat' (with_reducible first
    | apply Keeps.refl | apply Keeps.trans ?_ (reply_keeps ..)
    | apply Keeps.trans ?_ (takeRequest_keeps (hbody := ?_) ..) | apply Keeps.ite | apply Keeps.of_snd (by assumption)
    | apply Keeps.of_fst (by assumption) | fail_if_no_progress refine Keeps.put rfl ?_ rfl rfl rfl rfl rfl | intro _
    | split | dsimp only)

theorem execEncRcInfo_keeps (r : Req) (s : State) : KeepsO s (execEncRcInfo r s) := by
  unfold execEncRcInfo
  repeat' (with_reducible first
    | apply Keeps.refl | apply KeepsO.trans ?_ (done_keeps ..) | apply Keeps.trans ?_ (cmdEncRcInfo_keeps ..))

theorem cmdEncSetBitrate_keeps (r : Req) (s : State) : Keeps s (cmdEncSetBitrate r s) := by
  unfold cmdEncSetBitrate
  repeat' (with_reducible first
    | apply Keeps.refl | apply Keeps.trans ?_ (reply_keeps ..)
    | apply Keeps.trans ?_ (takeRequest_keeps (hbody := ?_) ..) | apply Keeps.trans ?_ (changeFor_keeps ..)
    | apply Keeps.ite | apply Keeps.of_snd (by assumption) | apply Keeps.of_fst (by assumption)
    | fail_if_no_progress refine Keeps.put rfl ?_ rfl rfl rfl rfl rfl | intro _ | split | dsimp only)

theorem execEncSetBitrate_keeps (r : Req) (s : State) : KeepsO s (execEncSetBitrate r s) := by
  unfold execEncSetBitrate
  repeat' (with_reducible first
    | apply Keeps.refl | apply KeepsO.trans ?_ (done_keeps ..) | apply Keeps.trans ?_ (cmdEncSetBitrate_keeps ..))

end Sys2Proof.Machine
end

