-- ==== Sys2Proof/Laws/KeepsDecode.lean ====
section
/-! SUPPORT. What the operations of Machine/Decode.lean keep (Laws/Keeps.lean). -/

set_option linter.unusedTactic false
set_option linter.unreachableTactic false

namespace Sys2Proof.Machine

open Sys2Proof.Safety

theorem modDec_keeps (s : State) (d : Nat) (f : DecCtx → DecCtx) : Keeps s (modDec s d f) := by
  unfold modDec
  repeat' (with_reducible first
    | apply Keeps.refl | fail_if_no_progress refine Keeps.put rfl ?_ rfl rfl rfl rfl rfl)

theorem recDecodeContext_keeps (b : Bytes) (s : State) : Keeps s (recDecodeContext b s) := by
  unfold recDecodeContext
  repeat' (with_reducible first
    | apply Keeps.refl | apply Keeps.trans ?_ (applied_keeps ..) | apply Keeps.trans ?_ (sized_keeps (hbody := ?_) ..)
    | apply Keeps.ite | apply Keeps.of_snd (by assumption) | apply Keeps.of_fst (by assumption)
    | fail_if_no_progress refine Keeps.put rfl ?_ rfl rfl rfl rfl rfl | intro _ | split | dsimp only)

theorem execDecodeContextRecord_keeps (b : Bytes) (s : State) : KeepsO s (execDecodeContextRecord b s) := by
  unfold execDecodeContextRecord
  repeat' (with_reducible first
    | apply Keeps.refl | assumption | apply KeepsO.next | exact KeepsO.fault | apply KeepsO.ite
    | apply KeepsO.trans ?_ (recordCommand_keeps (hbody := ?_) ..) | apply Keeps.trans ?_ (recDecodeContext_keeps ..)
    | apply Keeps.ite | apply Keeps.of_snd (by assumption) | apply Keeps.of_fst (by assumption)
    | fail_if_no_progress refine Keeps.put rfl ?_ rfl rfl rfl rfl rfl | intro _ | split | dsimp only)

theorem admitDecode_keeps (limit : Nat) (a : State × List Nat) (d : Nat) : Keeps a.1 (admitDecode limit a d).1 := by
  unfold admitDecode
  repeat' (with_reducible first
    | apply Keeps.refl | apply Keeps.ite_fst | apply Keeps.foldl | apply Keeps.foldl_fst | apply Keeps.foldl_snd
    | apply Keeps.trans ?_ (modDec_keeps ..) | apply Keeps.ite | apply Keeps.of_snd (by assumption)
    | apply Keeps.of_fst (by assumption) | fail_if_no_progress refine Keeps.put rfl ?_ rfl rfl rfl rfl rfl | intro _
    | split | dsimp only)

theorem settleSdiOuts_keeps (s : State) : Keeps s (settleSdiOuts s) := by
  unfold settleSdiOuts
  repeat' (with_reducible first
    | apply Keeps.refl | fail_if_no_progress refine Keeps.put rfl ?_ rfl rfl rfl rfl rfl | intro _)

theorem settlePllS_keeps (s : State) : Keeps s (settlePllS s) := by
  unfold settlePllS
  repeat' (with_reducible first
    | apply Keeps.refl | apply Keeps.of_snd (by assumption) | apply Keeps.of_fst (by assumption)
    | fail_if_no_progress refine Keeps.put rfl ?_ rfl rfl rfl rfl rfl | intro _ | split | dsimp only)

theorem receiveNal_keeps (d : Nat) (nal : NalIn) (s : State) : Keeps s (receiveNal d nal s) := by
  unfold receiveNal
  repeat' (with_reducible first
    | apply Keeps.refl | apply Keeps.trans ?_ (raise_keeps ..) | apply Keeps.trans ?_ (modDec_keeps ..)
    | apply Keeps.ite | apply Keeps.of_snd (by assumption) | apply Keeps.of_fst (by assumption)
    | fail_if_no_progress refine Keeps.put rfl ?_ rfl rfl rfl rfl rfl | intro _ | split | dsimp only)

theorem receivePart_keeps (d : Nat) (seq : Nat) (s : State) : Keeps s (receivePart d seq s) := by
  unfold receivePart
  repeat' (with_reducible first
    | apply Keeps.refl | apply Keeps.trans ?_ (raise_keeps ..) | apply Keeps.trans ?_ (modDec_keeps ..)
    | apply Keeps.ite | apply Keeps.of_snd (by assumption) | apply Keeps.of_fst (by assumption)
    | fail_if_no_progress refine Keeps.put rfl ?_ rfl rfl rfl rfl rfl | intro _ | split | dsimp only)

theorem execDecodeNalReceive_keeps (d : Nat) (nal : NalIn) (s : State) : KeepsO s (execDecodeNalReceive d nal s) := by
  unfold execDecodeNalReceive
  repeat' (with_reducible first
    | apply Keeps.refl | apply KeepsO.trans ?_ (done_keeps ..) | apply Keeps.trans ?_ (receiveNal_keeps ..))

theorem execDecodeCloseTimeout_keeps (d : Nat) (s : State) : KeepsO s (execDecodeCloseTimeout d s) := by
  unfold execDecodeCloseTimeout
  repeat' (with_reducible first
    | apply Keeps.refl | apply KeepsO.next | apply KeepsO.ite | apply Keeps.trans ?_ (noEarlier_keeps ..)
    | apply Keeps.trans ?_ (modDec_keeps ..) | apply Keeps.ite | apply Keeps.of_snd (by assumption)
    | apply Keeps.of_fst (by assumption) | fail_if_no_progress refine Keeps.put rfl ?_ rfl rfl rfl rfl rfl | split
    | dsimp only)

theorem tapLines_keeps (kind index : Nat) (l : List Bytes) (s : State) : Keeps s (tapLines kind index l s) := by
  induction l generalizing s with
  | nil => exact Keeps.refl _
  | cons a t ih =>
    cases t with
    | nil => exact tapSymbols_keeps ..
    | cons m t => exact (tapSymbols_keeps ..).trans (ih _)

theorem execDecodePictureDone_keeps (d : Nat) (pic : DecodedPicture) (s : State) : KeepsO s (execDecodePictureDone d pic s) := by
  unfold execDecodePictureDone
  repeat' (with_reducible first
    | apply Keeps.refl | apply KeepsO.next | apply KeepsO.ite | apply Keeps.foldl | apply Keeps.foldl_fst
    | apply Keeps.foldl_snd | apply Keeps.trans ?_ (modDec_keeps ..) | apply Keeps.trans ?_ (tapLines_keeps ..)
    | apply Keeps.ite | apply Keeps.of_snd (by assumption) | apply Keeps.of_fst (by assumption)
    | fail_if_no_progress refine Keeps.put rfl ?_ rfl rfl rfl rfl rfl | intro _ | split | dsimp only)

theorem confidenceRow_keeps (x : Nat) (frame : Nat) (s : State) : Keeps s (confidenceRow x frame s) := by
  unfold confidenceRow
  repeat' (with_reducible first
    | apply Keeps.refl | apply Keeps.ite | apply Keeps.of_snd (by assumption) | apply Keeps.of_fst (by assumption)
    | fail_if_no_progress refine Keeps.put rfl ?_ rfl rfl rfl rfl rfl | intro _ | split)

theorem confidenceTick_keeps (ch : Nat) (n : Nat) (s : State) : Keeps s (confidenceTick ch n s) := by
  unfold confidenceTick
  repeat' (with_reducible first
    | apply Keeps.refl | apply Keeps.ite | fail_if_no_progress refine Keeps.put rfl ?_ rfl rfl rfl rfl rfl | intro _)

theorem cmdDecCtxInfo_keeps (r : Req) (s : State) : Keeps s (cmdDecCtxInfo r s) := by
  unfold cmdDecCtxInfo
  repeat' (with_reducible first
    | apply Keeps.refl | apply Keeps.trans ?_ (reply_keeps ..)
    | apply Keeps.trans ?_ (takeRequest_keeps (hbody := ?_) ..) | apply Keeps.ite | intro _ | dsimp only)

theorem execDecCtxInfo_keeps (r : Req) (s : State) : KeepsO s (execDecCtxInfo r s) := by
  unfold execDecCtxInfo
  repeat' (with_reducible first
    | apply Keeps.refl | apply KeepsO.trans ?_ (done_keeps ..) | apply Keeps.trans ?_ (cmdDecCtxInfo_keeps ..))

end Sys2Proof.Machine
end

