-- ==== Sys2Proof/Laws/KeepsCompose.lean ====
section
/-! SUPPORT. What the operations of Machine/Compose.lean keep (Laws/Keeps.lean). -/

set_option linter.unusedTactic false
set_option linter.unreachableTactic false

namespace Sys2Proof.Machine

open Sys2Proof.Safety

theorem setCmp_keeps (s : State) (c : Nat) (f : Cmp → Cmp) : Keeps s (setCmp s c f) := by
  unfold setCmp
  repeat' (with_reducible first
    | apply Keeps.refl | fail_if_no_progress refine Keeps.put rfl ?_ rfl rfl rfl rfl rfl)

theorem cmpRecord_keeps (n : Nat) (b : Bytes) (body : Nat → State → State) (s : State) (hbody : ∀ a0 a1, Keeps a1 (body a0 a1)) : Keeps s (cmpRecord n b body s) := by
  unfold cmpRecord
  repeat' (with_reducible first
    | apply Keeps.refl | apply Keeps.trans ?_ (orphan_keeps ..) | apply Keeps.trans ?_ (sized_keeps (hbody := ?_) ..)
    | apply Keeps.trans ?_ (hbody ..) | apply Keeps.ite | intro _ | dsimp only)

theorem recCompositor_keeps (b : Bytes) (s : State) : Keeps s (recCompositor b s) := by
  unfold recCompositor
  repeat' (with_reducible first
    | apply Keeps.refl | apply Keeps.trans ?_ (orphan_keeps ..) | apply Keeps.trans ?_ (applied_keeps ..)
    | apply Keeps.trans ?_ (setCmp_keeps ..) | apply Keeps.trans ?_ (cmpRecord_keeps (hbody := ?_) ..) | apply Keeps.ite
    | fail_if_no_progress refine Keeps.put rfl ?_ rfl rfl rfl rfl rfl | intro _ | dsimp only)

theorem execCompositorRecord_keeps (b : Bytes) (s : State) : KeepsO s (execCompositorRecord b s) := by
  unfold execCompositorRecord
  repeat' (with_reducible first
    | apply Keeps.refl | assumption | apply KeepsO.next | exact KeepsO.fault | apply KeepsO.ite
    | apply KeepsO.trans ?_ (recordCommand_keeps (hbody := ?_) ..) | apply Keeps.trans ?_ (recCompositor_keeps ..)
    | apply Keeps.ite | apply Keeps.of_snd (by assumption) | apply Keeps.of_fst (by assumption)
    | fail_if_no_progress refine Keeps.put rfl ?_ rfl rfl rfl rfl rfl | intro _ | split | dsimp only)

theorem dropLayer_keeps (c : Nat) (s : State) : Keeps s (dropLayer c s) := by
  unfold dropLayer
  repeat' (with_reducible first
    | apply Keeps.refl | apply Keeps.trans ?_ (orphan_keeps ..) | apply Keeps.trans ?_ (setCmp_keeps ..)
    | fail_if_no_progress refine Keeps.put rfl ?_ rfl rfl rfl rfl rfl | intro _)

theorem recVideoLayer_keeps (b : Bytes) (s : State) : Keeps s (recVideoLayer b s) := by
  unfold recVideoLayer
  repeat' (with_reducible first
    | apply Keeps.refl | apply Keeps.trans ?_ (applied_keeps ..) | apply Keeps.trans ?_ (setCmp_keeps ..)
    | apply Keeps.trans ?_ (cmpRecord_keeps (hbody := ?_) ..) | apply Keeps.trans ?_ (dropLayer_keeps ..)
    | apply Keeps.trans ?_ (fallback_keeps ..) | apply Keeps.ite
    | fail_if_no_progress refine Keeps.put rfl ?_ rfl rfl rfl rfl rfl | intro _ | dsimp only)

theorem execVideoLayerRecord_keeps (b : Bytes) (s : State) : KeepsO s (execVideoLayerRecord b s) := by
  unfold execVideoLayerRecord
  repeat' (with_reducible first
    | apply Keeps.refl | assumption | apply KeepsO.next | exact KeepsO.fault | apply KeepsO.ite
    | apply KeepsO.trans ?_ (recordCommand_keeps (hbody := ?_) ..) | apply Keeps.trans ?_ (recVideoLayer_keeps ..)
    | apply Keeps.ite | apply Keeps.of_snd (by assumption) | apply Keeps.of_fst (by assumption)
    | fail_if_no_progress refine Keeps.put rfl ?_ rfl rfl rfl rfl rfl | intro _ | split | dsimp only)

theorem recGraphicsLayer_keeps (b : Bytes) (s : State) : Keeps s (recGraphicsLayer b s) := by
  unfold recGraphicsLayer
  repeat' (with_reducible first
    | apply Keeps.refl | apply Keeps.trans ?_ (drawFree_keeps ..) | apply Keeps.trans ?_ (applied_keeps ..)
    | apply Keeps.trans ?_ (setCmp_keeps ..) | apply Keeps.trans ?_ (cmpRecord_keeps (hbody := ?_) ..)
    | apply Keeps.trans ?_ (dropLayer_keeps ..) | apply Keeps.ite | apply Keeps.of_snd (by assumption)
    | apply Keeps.of_fst (by assumption) | fail_if_no_progress refine Keeps.put rfl ?_ rfl rfl rfl rfl rfl | intro _
    | split | dsimp only)

theorem execGraphicsLayerRecord_keeps (b : Bytes) (s : State) : KeepsO s (execGraphicsLayerRecord b s) := by
  unfold execGraphicsLayerRecord
  repeat' (with_reducible first
    | apply Keeps.refl | assumption | apply KeepsO.next | exact KeepsO.fault | apply KeepsO.ite
    | apply KeepsO.trans ?_ (recordCommand_keeps (hbody := ?_) ..) | apply Keeps.trans ?_ (recGraphicsLayer_keeps ..)
    | apply Keeps.ite | apply Keeps.of_snd (by assumption) | apply Keeps.of_fst (by assumption)
    | fail_if_no_progress refine Keeps.put rfl ?_ rfl rfl rfl rfl rfl | intro _ | split | dsimp only)

theorem recSlateData_keeps (b : Bytes) (s : State) : Keeps s (recSlateData b s) := by
  unfold recSlateData
  repeat' (with_reducible first
    | apply Keeps.refl | apply Keeps.trans ?_ (applied_keeps ..) | apply Keeps.trans ?_ (setCmp_keeps ..)
    | apply Keeps.trans ?_ (cmpRecord_keeps (hbody := ?_) ..)
    | fail_if_no_progress refine Keeps.put rfl ?_ rfl rfl rfl rfl rfl | intro _ | dsimp only)

theorem execSlateDataRecord_keeps (b : Bytes) (s : State) : KeepsO s (execSlateDataRecord b s) := by
  unfold execSlateDataRecord
  repeat' (with_reducible first
    | apply Keeps.refl | assumption | apply KeepsO.next | exact KeepsO.fault | apply KeepsO.ite
    | apply KeepsO.trans ?_ (recordCommand_keeps (hbody := ?_) ..) | apply Keeps.trans ?_ (recSlateData_keeps ..)
    | apply Keeps.ite | apply Keeps.of_snd (by assumption) | apply Keeps.of_fst (by assumption)
    | fail_if_no_progress refine Keeps.put rfl ?_ rfl rfl rfl rfl rfl | intro _ | split | dsimp only)

theorem holdTopUnits_keeps (s : State) : Keeps s (holdTopUnits s) := by
  unfold holdTopUnits
  repeat' (with_reducible first
    | apply Keeps.refl | apply Keeps.foldl | apply Keeps.foldl_fst | apply Keeps.foldl_snd | apply Keeps.ite
    | fail_if_no_progress refine Keeps.put rfl ?_ rfl rfl rfl rfl rfl | intro _)

theorem recTopiaryRegion_keeps (b : Bytes) (s : State) : Keeps s (recTopiaryRegion b s) := by
  unfold recTopiaryRegion
  repeat' (with_reducible first
    | apply Keeps.refl | apply Keeps.trans ?_ (orphan_keeps ..) | apply Keeps.trans ?_ (applied_keeps ..)
    | apply Keeps.trans ?_ (setCmp_keeps ..) | apply Keeps.trans ?_ (cmpRecord_keeps (hbody := ?_) ..)
    | apply Keeps.trans ?_ (holdTopUnits_keeps ..) | apply Keeps.ite
    | fail_if_no_progress refine Keeps.put rfl ?_ rfl rfl rfl rfl rfl | intro _ | dsimp only)

theorem execTopiaryRegionRecord_keeps (b : Bytes) (s : State) : KeepsO s (execTopiaryRegionRecord b s) := by
  unfold execTopiaryRegionRecord
  repeat' (with_reducible first
    | apply Keeps.refl | assumption | apply KeepsO.next | exact KeepsO.fault | apply KeepsO.ite
    | apply KeepsO.trans ?_ (recordCommand_keeps (hbody := ?_) ..) | apply Keeps.trans ?_ (recTopiaryRegion_keeps ..)
    | apply Keeps.ite | apply Keeps.of_snd (by assumption) | apply Keeps.of_fst (by assumption)
    | fail_if_no_progress refine Keeps.put rfl ?_ rfl rfl rfl rfl rfl | intro _ | split | dsimp only)

theorem settleLayers_keeps (s : State) : Keeps s (settleLayers s) := by
  unfold settleLayers
  repeat' (with_reducible first
    | apply Keeps.refl | apply Keeps.trans ?_ (fallback_keeps ..) | apply Keeps.ite
    | fail_if_no_progress refine Keeps.put rfl ?_ rfl rfl rfl rfl rfl | intro _ | dsimp only)

theorem applyLayer_keeps (c : Nat) (l : Nat) (srcType : Nat) (src : Nat) (opacity : Nat) (visible : Bool) (s : State) : Keeps s (applyLayer c l srcType src opacity visible s) := by
  unfold applyLayer
  repeat' (with_reducible first
    | apply Keeps.refl | apply Keeps.trans ?_ (setCmp_keeps ..) | apply Keeps.ite
    | fail_if_no_progress refine Keeps.put rfl ?_ rfl rfl rfl rfl rfl | intro _ | dsimp only)

theorem applyGraphics_keeps (c : Nat) (l : Nat) (n : Nat) (visible : Bool) (pos : Option Nat) (slot : Option Nat) (s : State) : Keeps s (applyGraphics c l n visible pos slot s) := by
  unfold applyGraphics
  repeat' (with_reducible first
    | apply Keeps.refl | apply Keeps.trans ?_ (setCmp_keeps ..) | apply Keeps.ite | apply Keeps.of_snd (by assumption)
    | apply Keeps.of_fst (by assumption) | fail_if_no_progress refine Keeps.put rfl ?_ rfl rfl rfl rfl rfl | intro _
    | split | dsimp only)

theorem applyExpected_keeps (c : Nat) (k : Nat) (v : Nat) (s : State) : Keeps s (applyExpected c k v s) := by
  unfold applyExpected
  repeat' (with_reducible first
    | apply Keeps.refl | apply Keeps.trans ?_ (setCmp_keeps ..)
    | fail_if_no_progress refine Keeps.put rfl ?_ rfl rfl rfl rfl rfl | intro _)

theorem composeTick_keeps (c : Nat) (n : Nat) (s : State) : Keeps s (composeTick c n s) := by
  unfold composeTick
  repeat' (with_reducible first
    | apply Keeps.refl | apply Keeps.trans ?_ (setCmp_keeps ..) | apply Keeps.trans ?_ (fallback_keeps ..)
    | apply Keeps.ite | fail_if_no_progress refine Keeps.put rfl ?_ rfl rfl rfl rfl rfl | intro _ | dsimp only)

theorem expectedOf_keeps (x : Cmp) (k : Nat) (r : Region) (s : State) : Keeps s (expectedOf x k r s).2 := by
  unfold expectedOf
  repeat' (with_reducible first
    | apply Keeps.refl | apply Keeps.ite_snd | apply Keeps.trans ?_ (hbmRead_keeps ..) | apply Keeps.ite
    | apply Keeps.of_snd (by assumption) | apply Keeps.of_fst (by assumption)
    | fail_if_no_progress refine Keeps.put rfl ?_ rfl rfl rfl rfl rfl | split | dsimp only)

theorem startRegions_keeps (c : Nat) (s : State) : Keeps s (startRegions c s) := by
  unfold startRegions
  repeat' (with_reducible first
    | apply Keeps.refl | apply Keeps.foldl | apply Keeps.foldl_fst | apply Keeps.foldl_snd
    | apply Keeps.trans ?_ (expectedOf_keeps ..) | apply Keeps.trans ?_ (setCmp_keeps ..)
    | apply Keeps.of_snd (by assumption) | apply Keeps.of_fst (by assumption)
    | fail_if_no_progress refine Keeps.put rfl ?_ rfl rfl rfl rfl rfl | intro _ | split | dsimp only)

theorem feedSegment_keeps (c : Nat) (k : Nat) (unit : Nat) (first : Bool) (s : State) (bytes : Bytes) : Keeps s (feedSegment c k unit first s bytes) := by
  unfold feedSegment
  repeat' (with_reducible first
    | apply Keeps.refl | apply Keeps.trans ?_ (modUnit_keeps ..) | apply Keeps.trans ?_ (setCmp_keeps ..)
    | apply Keeps.ite | fail_if_no_progress refine Keeps.put rfl ?_ rfl rfl rfl rfl rfl | intro _ | dsimp only)

theorem closeRegion_keeps (c : Nat) (k : Nat) (s : State) : Keeps s (closeRegion c k s) := by
  unfold closeRegion
  repeat' (with_reducible first
    | apply Keeps.refl | apply Keeps.trans ?_ (fenced_keeps ..) | apply Keeps.trans ?_ (raise_keeps ..)
    | apply Keeps.trans ?_ (setCmp_keeps ..) | apply Keeps.ite | apply Keeps.of_snd (by assumption)
    | apply Keeps.of_fst (by assumption) | fail_if_no_progress refine Keeps.put rfl ?_ rfl rfl rfl rfl rfl | intro _
    | split | dsimp only)

theorem feedRegion_keeps (c : Nat) (row : Nat) (chroma : Nat) (place : Nat) (lines : List (Nat × PlaneLine)) (k : Nat) (s : State) : Keeps s (feedRegion c row chroma place lines k s) := by
  unfold feedRegion
  repeat' (with_reducible first
    | apply Keeps.refl | apply Keeps.foldl | apply Keeps.foldl_fst | apply Keeps.foldl_snd
    | apply Keeps.trans ?_ (feedSegment_keeps ..) | apply Keeps.trans ?_ (closeRegion_keeps ..) | apply Keeps.ite
    | apply Keeps.of_snd (by assumption) | apply Keeps.of_fst (by assumption)
    | fail_if_no_progress refine Keeps.put rfl ?_ rfl rfl rfl rfl rfl | intro _ | split | dsimp only)

theorem slotContents_keeps (p : FramePlan) (s : State) : Keeps s (slotContents p s).2 := by
  unfold slotContents
  repeat' (with_reducible first
    | apply Keeps.refl | apply Keeps.foldl | apply Keeps.foldl_fst | apply Keeps.foldl_snd
    | apply Keeps.trans ?_ (hbmRead_keeps ..) | apply Keeps.of_snd (by assumption) | apply Keeps.of_fst (by assumption)
    | fail_if_no_progress refine Keeps.put rfl ?_ rfl rfl rfl rfl rfl | intro _ | split | dsimp only)

theorem composeCloses_keeps (c : Nat) (n : Nat) (row : Nat) (env : RowEnv) (s : State) : Keeps s (composeCloses c n row env s) := by
  unfold composeCloses
  repeat' (with_reducible first
    | apply Keeps.refl | apply Keeps.foldl | apply Keeps.foldl_fst | apply Keeps.foldl_snd
    | apply Keeps.trans ?_ (fenced_keeps ..) | apply Keeps.trans ?_ (slotContents_keeps ..)
    | apply Keeps.trans ?_ (raise_keeps ..) | apply Keeps.trans ?_ (reportPoison_keeps ..)
    | apply Keeps.trans ?_ (setCmp_keeps ..) | apply Keeps.trans ?_ (startRegions_keeps ..)
    | apply Keeps.trans ?_ (feedRegion_keeps ..) | apply Keeps.ite | apply Keeps.of_snd (by assumption)
    | apply Keeps.of_fst (by assumption) | fail_if_no_progress refine Keeps.put rfl ?_ rfl rfl rfl rfl rfl | intro _
    | split | dsimp only)

theorem cmdCmpChInfo_keeps (r : Req) (s : State) : Keeps s (cmdCmpChInfo r s) := by
  unfold cmdCmpChInfo
  repeat' (with_reducible first
    | apply Keeps.refl | apply Keeps.trans ?_ (reply_keeps ..)
    | apply Keeps.trans ?_ (takeRequest_keeps (hbody := ?_) ..) | apply Keeps.ite | intro _ | dsimp only)

theorem execCmpChInfo_keeps (r : Req) (s : State) : KeepsO s (execCmpChInfo r s) := by
  unfold execCmpChInfo
  repeat' (with_reducible first
    | apply Keeps.refl | apply KeepsO.trans ?_ (done_keeps ..) | apply Keeps.trans ?_ (cmdCmpChInfo_keeps ..))

theorem cmdCmpSetLayer_keeps (r : Req) (s : State) : Keeps s (cmdCmpSetLayer r s) := by
  unfold cmdCmpSetLayer
  repeat' (with_reducible first
    | apply Keeps.refl | apply Keeps.trans ?_ (reply_keeps ..)
    | apply Keeps.trans ?_ (takeRequest_keeps (hbody := ?_) ..) | apply Keeps.trans ?_ (changeFor_keeps ..)
    | apply Keeps.ite | intro _ | dsimp only)

theorem execCmpSetLayer_keeps (r : Req) (s : State) : KeepsO s (execCmpSetLayer r s) := by
  unfold execCmpSetLayer
  repeat' (with_reducible first
    | apply Keeps.refl | apply KeepsO.trans ?_ (done_keeps ..) | apply Keeps.trans ?_ (cmdCmpSetLayer_keeps ..))

end Sys2Proof.Machine
end

