-- ==== Sys2Proof/Laws/KeepsIngest.lean ====
section
/-! SUPPORT. What the operations of Machine/Ingest.lean keep (Laws/Keeps.lean). -/

set_option linter.unusedTactic false
set_option linter.unreachableTactic false

namespace Sys2Proof.Machine

open Sys2Proof.Safety

theorem modGroup_keeps (s : State) (c : Nat) (f : Group → Group) : Keeps s (modGroup s c f) := by
  unfold modGroup
  repeat' (with_reducible first
    | apply Keeps.refl | fail_if_no_progress refine Keeps.put rfl ?_ rfl rfl rfl rfl rfl)

theorem modMember_keeps (s : State) (c : Nat) (k : Nat) (f : Member → Member) : Keeps s (modMember s c k f) := by
  unfold modMember
  repeat' (with_reducible first
    | apply Keeps.refl | apply Keeps.trans ?_ (modGroup_keeps ..)
    | fail_if_no_progress refine Keeps.put rfl ?_ rfl rfl rfl rfl rfl | intro _)

theorem modFlow_keeps (s : State) (i : Nat) (f : InFlow → InFlow) : Keeps s (modFlow s i f) := by
  unfold modFlow
  repeat' (with_reducible first
    | apply Keeps.refl | fail_if_no_progress refine Keeps.put rfl ?_ rfl rfl rfl rfl rfl)

theorem recIngressFlow_keeps (b : Bytes) (s : State) : Keeps s (recIngressFlow b s) := by
  unfold recIngressFlow
  repeat' (with_reducible first
    | apply Keeps.refl | apply Keeps.trans ?_ (orphan_keeps ..) | apply Keeps.trans ?_ (applied_keeps ..)
    | apply Keeps.trans ?_ (sized_keeps (hbody := ?_) ..) | apply Keeps.ite
    | fail_if_no_progress refine Keeps.put rfl ?_ rfl rfl rfl rfl rfl | intro _ | dsimp only)

theorem execIngressFlowRecord_keeps (b : Bytes) (s : State) : KeepsO s (execIngressFlowRecord b s) := by
  unfold execIngressFlowRecord
  repeat' (with_reducible first
    | apply Keeps.refl | assumption | apply KeepsO.next | exact KeepsO.fault | apply KeepsO.ite
    | apply KeepsO.trans ?_ (recordCommand_keeps (hbody := ?_) ..) | apply Keeps.trans ?_ (recIngressFlow_keeps ..)
    | apply Keeps.ite | apply Keeps.of_snd (by assumption) | apply Keeps.of_fst (by assumption)
    | fail_if_no_progress refine Keeps.put rfl ?_ rfl rfl rfl rfl rfl | intro _ | split | dsimp only)

theorem recAlignmentGroup_keeps (b : Bytes) (s : State) : Keeps s (recAlignmentGroup b s) := by
  unfold recAlignmentGroup
  repeat' (with_reducible first
    | apply Keeps.refl | apply Keeps.trans ?_ (orphan_keeps ..) | apply Keeps.trans ?_ (applied_keeps ..)
    | apply Keeps.trans ?_ (sized_keeps (hbody := ?_) ..) | apply Keeps.ite
    | fail_if_no_progress refine Keeps.put rfl ?_ rfl rfl rfl rfl rfl | intro _ | dsimp only)

theorem execAlignmentGroupRecord_keeps (b : Bytes) (s : State) : KeepsO s (execAlignmentGroupRecord b s) := by
  unfold execAlignmentGroupRecord
  repeat' (with_reducible first
    | apply Keeps.refl | assumption | apply KeepsO.next | exact KeepsO.fault | apply KeepsO.ite
    | apply KeepsO.trans ?_ (recordCommand_keeps (hbody := ?_) ..) | apply Keeps.trans ?_ (recAlignmentGroup_keeps ..)
    | apply Keeps.ite | apply Keeps.of_snd (by assumption) | apply Keeps.of_fst (by assumption)
    | fail_if_no_progress refine Keeps.put rfl ?_ rfl rfl rfl rfl rfl | intro _ | split | dsimp only)

theorem recGroupMember_keeps (b : Bytes) (s : State) : Keeps s (recGroupMember b s) := by
  unfold recGroupMember
  repeat' (with_reducible first
    | apply Keeps.refl | apply Keeps.trans ?_ (orphan_keeps ..) | apply Keeps.trans ?_ (applied_keeps ..)
    | apply Keeps.trans ?_ (sized_keeps (hbody := ?_) ..) | apply Keeps.trans ?_ (modGroup_keeps ..) | apply Keeps.ite
    | fail_if_no_progress refine Keeps.put rfl ?_ rfl rfl rfl rfl rfl | intro _ | dsimp only)

theorem execGroupMemberRecord_keeps (b : Bytes) (s : State) : KeepsO s (execGroupMemberRecord b s) := by
  unfold execGroupMemberRecord
  repeat' (with_reducible first
    | apply Keeps.refl | assumption | apply KeepsO.next | exact KeepsO.fault | apply KeepsO.ite
    | apply KeepsO.trans ?_ (recordCommand_keeps (hbody := ?_) ..) | apply Keeps.trans ?_ (recGroupMember_keeps ..)
    | apply Keeps.ite | apply Keeps.of_snd (by assumption) | apply Keeps.of_fst (by assumption)
    | fail_if_no_progress refine Keeps.put rfl ?_ rfl rfl rfl rfl rfl | intro _ | split | dsimp only)

theorem onMembers_keeps (srcType : Nat) (src : Nat) (f : Chan → Group → Member → Member) (s : State) : Keeps s (onMembers srcType src f s) := by
  unfold onMembers
  repeat' (with_reducible first
    | apply Keeps.refl | apply Keeps.ite | fail_if_no_progress refine Keeps.put rfl ?_ rfl rfl rfl rfl rfl | intro _)

theorem linkSeen_keeps (l : SdiLine) (s : State) : Keeps s (linkSeen l s) := by
  unfold linkSeen
  repeat' (with_reducible first
    | apply Keeps.refl | fail_if_no_progress refine Keeps.put rfl ?_ rfl rfl rfl rfl rfl)

theorem execSdiLineReceive_keeps (l : SdiLine) (s : State) : KeepsO s (execSdiLineReceive l s) := by
  unfold execSdiLineReceive
  repeat' (with_reducible first
    | apply Keeps.refl | apply KeepsO.next | apply KeepsO.ite | apply Keeps.trans ?_ (tapSymbols_keeps ..)
    | apply Keeps.trans ?_ (onMembers_keeps ..) | apply Keeps.trans ?_ (linkSeen_keeps ..) | apply Keeps.ite | intro _
    | dsimp only)

theorem police_keeps (flow : Nat) (dscp : Nat) (length : Nat) (now : Nat) (s : State) : Keeps s (police flow dscp length now s).1 := by
  unfold police
  repeat' (with_reducible first
    | apply Keeps.refl | apply Keeps.ite_fst | apply Keeps.ite | apply Keeps.of_snd (by assumption)
    | apply Keeps.of_fst (by assumption) | fail_if_no_progress refine Keeps.put rfl ?_ rfl rfl rfl rfl rfl | split
    | dsimp only)

theorem recIngressPolicer_keeps (b : Bytes) (s : State) : Keeps s (recIngressPolicer b s) := by
  unfold recIngressPolicer
  repeat' (with_reducible first
    | apply Keeps.refl | apply Keeps.trans ?_ (orphan_keeps ..) | apply Keeps.trans ?_ (applied_keeps ..)
    | apply Keeps.trans ?_ (sized_keeps (hbody := ?_) ..) | apply Keeps.ite
    | fail_if_no_progress refine Keeps.put rfl ?_ rfl rfl rfl rfl rfl | intro _ | dsimp only)

theorem execIngressPolicerRecord_keeps (b : Bytes) (s : State) : KeepsO s (execIngressPolicerRecord b s) := by
  unfold execIngressPolicerRecord
  repeat' (with_reducible first
    | apply Keeps.refl | assumption | apply KeepsO.next | exact KeepsO.fault | apply KeepsO.ite
    | apply KeepsO.trans ?_ (recordCommand_keeps (hbody := ?_) ..) | apply Keeps.trans ?_ (recIngressPolicer_keeps ..)
    | apply Keeps.ite | apply Keeps.of_snd (by assumption) | apply Keeps.of_fst (by assumption)
    | fail_if_no_progress refine Keeps.put rfl ?_ rfl rfl rfl rfl rfl | intro _ | split | dsimp only)

theorem takePacket_keeps (p : MediaPacket) (f : InFlow) (s : State) : Keeps s (takePacket p f s) := by
  unfold takePacket
  repeat' (with_reducible first
    | apply Keeps.refl | apply Keeps.foldl | apply Keeps.foldl_fst | apply Keeps.foldl_snd
    | apply Keeps.trans ?_ (receiveNal_keeps ..) | apply Keeps.trans ?_ (receivePart_keeps ..)
    | apply Keeps.trans ?_ (onMembers_keeps ..) | apply Keeps.ite | apply Keeps.of_snd (by assumption)
    | apply Keeps.of_fst (by assumption) | fail_if_no_progress refine Keeps.put rfl ?_ rfl rfl rfl rfl rfl | intro _
    | split | dsimp only)

theorem hearFlow_keeps (flow : Nat) (s : State) : Keeps s (hearFlow flow s) := by
  unfold hearFlow
  repeat' (with_reducible first
    | apply Keeps.refl | apply Keeps.trans ?_ (onMembers_keeps ..)
    | fail_if_no_progress refine Keeps.put rfl ?_ rfl rfl rfl rfl rfl | intro _)

theorem discardPacket_keeps (p : MediaPacket) (s : State) : Keeps s (discardPacket p s) := by
  unfold discardPacket
  repeat' (with_reducible first
    | apply Keeps.refl | apply Keeps.trans ?_ (onMembers_keeps ..)
    | fail_if_no_progress refine Keeps.put rfl ?_ rfl rfl rfl rfl rfl | intro _)

theorem selectPacket_keeps (p : MediaPacket) (f : InFlow) (s : State) : Keeps s (selectPacket p f s).1 := by
  unfold selectPacket
  repeat' (with_reducible first
    | apply Keeps.refl | apply Keeps.ite_fst | apply Keeps.trans ?_ (modFlow_keeps ..)
    | apply Keeps.trans ?_ (takePacket_keeps ..) | apply Keeps.trans ?_ (hearFlow_keeps ..)
    | apply Keeps.trans ?_ (discardPacket_keeps ..) | apply Keeps.ite | apply Keeps.of_snd (by assumption)
    | apply Keeps.of_fst (by assumption) | fail_if_no_progress refine Keeps.put rfl ?_ rfl rfl rfl rfl rfl | split)

theorem receivePacket_keeps (p : MediaPacket) (s : State) : Keeps s (receivePacket p s).1 := by
  unfold receivePacket
  repeat' (with_reducible first
    | apply Keeps.refl | apply Keeps.ite_fst | apply Keeps.trans ?_ (stripCheck_keeps ..)
    | apply Keeps.trans ?_ (police_keeps ..) | apply Keeps.trans ?_ (selectPacket_keeps ..)
    | apply Keeps.trans ?_ (tapSymbols_keeps ..) | apply Keeps.ite | apply Keeps.of_snd (by assumption)
    | apply Keeps.of_fst (by assumption) | fail_if_no_progress refine Keeps.put rfl ?_ rfl rfl rfl rfl rfl | split
    | dsimp only)

theorem setMemberGain_keeps (c : Nat) (k : Nat) (joined : Bool) (m : Member) (s : State) : Keeps s (setMemberGain c k joined m s) := by
  unfold setMemberGain
  repeat' (with_reducible first
    | apply Keeps.refl | apply Keeps.ite | fail_if_no_progress refine Keeps.put rfl ?_ rfl rfl rfl rfl rfl | dsimp only)

theorem followPhase_keeps (old : Group) (g : Group) (c : Nat) (k : Nat) (s : State) : Keeps s (followPhase old g c k s) := by
  unfold followPhase
  repeat' (with_reducible first
    | apply Keeps.refl | apply Keeps.trans ?_ (modMember_keeps ..) | apply Keeps.ite
    | apply Keeps.of_snd (by assumption) | apply Keeps.of_fst (by assumption)
    | fail_if_no_progress refine Keeps.put rfl ?_ rfl rfl rfl rfl rfl | intro _ | split | dsimp only)

theorem afterJudging_keeps (old : Group) (lost : List Nat) (c : Nat) (s : State) : Keeps s (afterJudging old lost c s) := by
  unfold afterJudging
  repeat' (with_reducible first
    | apply Keeps.refl | apply Keeps.foldl | apply Keeps.foldl_fst | apply Keeps.foldl_snd
    | apply Keeps.trans ?_ (raise_keeps ..) | apply Keeps.trans ?_ (setMemberGain_keeps ..)
    | apply Keeps.trans ?_ (followPhase_keeps ..) | apply Keeps.ite | apply Keeps.of_snd (by assumption)
    | apply Keeps.of_fst (by assumption) | fail_if_no_progress refine Keeps.put rfl ?_ rfl rfl rfl rfl rfl | intro _
    | split | dsimp only)

theorem judgeInput_keeps (c : Nat) (n : Nat) (s : State) : Keeps s (judgeInput c n s) := by
  unfold judgeInput
  repeat' (with_reducible first
    | apply Keeps.refl | apply Keeps.trans ?_ (raise_keeps ..) | apply Keeps.trans ?_ (modGroup_keeps ..)
    | apply Keeps.ite | fail_if_no_progress refine Keeps.put rfl ?_ rfl rfl rfl rfl rfl | intro _ | dsimp only)

theorem ingestTick_keeps (c : Nat) (n : Nat) (ended : Option Nat) (s : State) : Keeps s (ingestTick c n ended s) := by
  unfold ingestTick
  repeat' (with_reducible first
    | apply Keeps.refl | apply Keeps.trans ?_ (afterJudging_keeps ..) | apply Keeps.trans ?_ (judgeInput_keeps ..)
    | apply Keeps.of_snd (by assumption) | apply Keeps.of_fst (by assumption)
    | fail_if_no_progress refine Keeps.put rfl ?_ rfl rfl rfl rfl rfl | intro _ | split | dsimp only)

theorem ingestRow_keeps (c : Nat) (n : Nat) (row : Nat) (s : State) : Keeps s (ingestRow c n row s) := by
  unfold ingestRow
  repeat' (with_reducible first
    | apply Keeps.refl | apply Keeps.trans ?_ (modGroup_keeps ..)
    | fail_if_no_progress refine Keeps.put rfl ?_ rfl rfl rfl rfl rfl | intro _ | dsimp only)

theorem slackSecond_keeps (s : State) : Keeps s (slackSecond s) := by
  unfold slackSecond
  repeat' (with_reducible first
    | apply Keeps.refl | fail_if_no_progress refine Keeps.put rfl ?_ rfl rfl rfl rfl rfl | intro _)

theorem cmdIngGroupInfo_keeps (r : Req) (s : State) : Keeps s (cmdIngGroupInfo r s) := by
  unfold cmdIngGroupInfo
  repeat' (with_reducible first
    | apply Keeps.refl | apply Keeps.trans ?_ (reply_keeps ..)
    | apply Keeps.trans ?_ (takeRequest_keeps (hbody := ?_) ..) | apply Keeps.ite | intro _ | dsimp only)

theorem execIngGroupInfo_keeps (r : Req) (s : State) : KeepsO s (execIngGroupInfo r s) := by
  unfold execIngGroupInfo
  repeat' (with_reducible first
    | apply Keeps.refl | apply KeepsO.trans ?_ (done_keeps ..) | apply Keeps.trans ?_ (cmdIngGroupInfo_keeps ..))

end Sys2Proof.Machine
end

