-- ==== Sys2Proof/Laws/KeepsAudio.lean ====
section
/-! SUPPORT. What the operations of Machine/Audio.lean keep (Laws/Keeps.lean). -/

set_option linter.unusedTactic false
set_option linter.unreachableTactic false

namespace Sys2Proof.Machine

open Sys2Proof.Safety

theorem modIn_keeps (s : State) (i : Nat) (f : AudIn → AudIn) : Keeps s (modIn s i f) := by
  unfold modIn
  repeat' (with_reducible first
    | apply Keeps.refl | fail_if_no_progress refine Keeps.put rfl ?_ rfl rfl rfl rfl rfl)

theorem modOut_keeps (s : State) (o : Nat) (f : AudOut → AudOut) : Keeps s (modOut s o f) := by
  unfold modOut
  repeat' (with_reducible first
    | apply Keeps.refl | fail_if_no_progress refine Keeps.put rfl ?_ rfl rfl rfl rfl rfl)

theorem recAesIn_keeps (b : Bytes) (s : State) : Keeps s (recAesIn b s) := by
  unfold recAesIn
  repeat' (with_reducible first
    | apply Keeps.refl | apply Keeps.trans ?_ (orphan_keeps ..) | apply Keeps.trans ?_ (applied_keeps ..)
    | apply Keeps.trans ?_ (sized_keeps (hbody := ?_) ..) | apply Keeps.ite
    | fail_if_no_progress refine Keeps.put rfl ?_ rfl rfl rfl rfl rfl | intro _ | dsimp only)

theorem execAes3InputRecord_keeps (b : Bytes) (s : State) : KeepsO s (execAes3InputRecord b s) := by
  unfold execAes3InputRecord
  repeat' (with_reducible first
    | apply Keeps.refl | assumption | apply KeepsO.next | exact KeepsO.fault | apply KeepsO.ite
    | apply KeepsO.trans ?_ (recordCommand_keeps (hbody := ?_) ..) | apply Keeps.trans ?_ (recAesIn_keeps ..)
    | apply Keeps.ite | apply Keeps.of_snd (by assumption) | apply Keeps.of_fst (by assumption)
    | fail_if_no_progress refine Keeps.put rfl ?_ rfl rfl rfl rfl rfl | intro _ | split | dsimp only)

theorem recAesOut_keeps (b : Bytes) (s : State) : Keeps s (recAesOut b s) := by
  unfold recAesOut
  repeat' (with_reducible first
    | apply Keeps.refl | apply Keeps.trans ?_ (orphan_keeps ..) | apply Keeps.trans ?_ (applied_keeps ..)
    | apply Keeps.trans ?_ (sized_keeps (hbody := ?_) ..) | apply Keeps.ite
    | fail_if_no_progress refine Keeps.put rfl ?_ rfl rfl rfl rfl rfl | intro _ | dsimp only)

theorem execAes3OutputRecord_keeps (b : Bytes) (s : State) : KeepsO s (execAes3OutputRecord b s) := by
  unfold execAes3OutputRecord
  repeat' (with_reducible first
    | apply Keeps.refl | assumption | apply KeepsO.next | exact KeepsO.fault | apply KeepsO.ite
    | apply KeepsO.trans ?_ (recordCommand_keeps (hbody := ?_) ..) | apply Keeps.trans ?_ (recAesOut_keeps ..)
    | apply Keeps.ite | apply Keeps.of_snd (by assumption) | apply Keeps.of_fst (by assumption)
    | fail_if_no_progress refine Keeps.put rfl ?_ rfl rfl rfl rfl rfl | intro _ | split | dsimp only)

theorem recProgramme_keeps (b : Bytes) (s : State) : Keeps s (recProgramme b s) := by
  unfold recProgramme
  repeat' (with_reducible first
    | apply Keeps.refl | apply Keeps.trans ?_ (orphan_keeps ..) | apply Keeps.trans ?_ (applied_keeps ..)
    | apply Keeps.trans ?_ (sized_keeps (hbody := ?_) ..) | apply Keeps.ite
    | fail_if_no_progress refine Keeps.put rfl ?_ rfl rfl rfl rfl rfl | intro _ | dsimp only)

theorem execAudioProgrammeRecord_keeps (b : Bytes) (s : State) : KeepsO s (execAudioProgrammeRecord b s) := by
  unfold execAudioProgrammeRecord
  repeat' (with_reducible first
    | apply Keeps.refl | assumption | apply KeepsO.next | exact KeepsO.fault | apply KeepsO.ite
    | apply KeepsO.trans ?_ (recordCommand_keeps (hbody := ?_) ..) | apply Keeps.trans ?_ (recProgramme_keeps ..)
    | apply Keeps.ite | apply Keeps.of_snd (by assumption) | apply Keeps.of_fst (by assumption)
    | fail_if_no_progress refine Keeps.put rfl ?_ rfl rfl rfl rfl rfl | intro _ | split | dsimp only)

theorem settleOutputs_keeps (s : State) : Keeps s (settleOutputs s) := by
  unfold settleOutputs
  repeat' (with_reducible first
    | apply Keeps.refl | apply Keeps.ite | fail_if_no_progress refine Keeps.put rfl ?_ rfl rfl rfl rfl rfl | intro _)

theorem takePartnerRatio_keeps (i : Nat) (ratio : Nat) (s : State) : Keeps s (takePartnerRatio i ratio s) := by
  unfold takePartnerRatio
  repeat' (with_reducible first
    | apply Keeps.refl | apply Keeps.trans ?_ (modIn_keeps ..) | apply Keeps.ite
    | fail_if_no_progress refine Keeps.put rfl ?_ rfl rfl rfl rfl rfl | intro _)

theorem execTrackerBlock_keeps (i : Nat) (count : Nat) (s : State) : KeepsO s (execTrackerBlock i count s) := by
  unfold execTrackerBlock
  repeat' (with_reducible first
    | apply Keeps.refl | apply KeepsO.next | apply KeepsO.ite | apply Keeps.trans ?_ (drawFree_keeps ..)
    | apply Keeps.trans ?_ (raise_keeps ..) | apply Keeps.trans ?_ (sendVa_keeps ..)
    | apply KeepsO.trans ?_ (done_keeps ..) | apply Keeps.trans ?_ (modIn_keeps ..) | apply Keeps.ite
    | apply Keeps.of_snd (by assumption) | apply Keeps.of_fst (by assumption)
    | fail_if_no_progress refine Keeps.put rfl ?_ rfl rfl rfl rfl rfl | intro _ | split | dsimp only)

theorem execAes3Stop_keeps (i : Nat) (s : State) : KeepsO s (execAes3Stop i s) := by
  unfold execAes3Stop
  repeat' (with_reducible first
    | apply Keeps.refl | apply KeepsO.next | apply KeepsO.ite | apply Keeps.trans ?_ (raise_keeps ..)
    | apply KeepsO.trans ?_ (done_keeps ..) | apply Keeps.trans ?_ (modIn_keeps ..) | apply Keeps.ite
    | fail_if_no_progress refine Keeps.put rfl ?_ rfl rfl rfl rfl rfl | intro _)

theorem burstSign_keeps (path : Nat) (pair : Nat) (tick : Nat) (start : Nat) (s : State) : Keeps s (burstSign path pair tick start s) := by
  unfold burstSign
  repeat' (with_reducible first
    | apply Keeps.refl | apply Keeps.ite | fail_if_no_progress refine Keeps.put rfl ?_ rfl rfl rfl rfl rfl | intro _
    | dsimp only)

theorem detectSync_keeps (path : Nat) (tick : Nat) (words : List Nat) (s : State) : Keeps s (detectSync path tick words s) := by
  unfold detectSync
  repeat' (with_reducible first
    | apply Keeps.refl | apply Keeps.foldl | apply Keeps.foldl_fst | apply Keeps.foldl_snd
    | apply Keeps.trans ?_ (burstSign_keeps ..) | apply Keeps.of_snd (by assumption)
    | apply Keeps.of_fst (by assumption) | fail_if_no_progress refine Keeps.put rfl ?_ rfl rfl rfl rfl rfl | intro _
    | split | dsimp only)

theorem execPayloadMuteRelease_keeps (path : Nat) (pair : Nat) (s : State) : KeepsO s (execPayloadMuteRelease path pair s) := by
  unfold execPayloadMuteRelease
  repeat' (with_reducible first
    | apply Keeps.refl | apply KeepsO.next | apply KeepsO.ite | apply Keeps.ite
    | fail_if_no_progress refine Keeps.put rfl ?_ rfl rfl rfl rfl rfl | intro _ | dsimp only)

theorem detectFrame_keeps (i : Nat) (f : AesFrame) (tick : Nat) (s : State) : Keeps s (detectFrame i f tick s) := by
  unfold detectFrame
  repeat' (with_reducible first
    | apply Keeps.refl | apply Keeps.trans ?_ (burstSign_keeps ..) | apply Keeps.trans ?_ (detectSync_keeps ..)
    | apply Keeps.ite | dsimp only)

theorem execAes3FrameReceive_keeps (i : Nat) (f : AesFrame) (s : State) : KeepsO s (execAes3FrameReceive i f s) := by
  unfold execAes3FrameReceive
  repeat' (with_reducible first
    | apply Keeps.refl | apply KeepsO.next | apply KeepsO.ite | apply Keeps.trans ?_ (tapSymbols_keeps ..)
    | apply Keeps.trans ?_ (onMembers_keeps ..) | apply Keeps.trans ?_ (modIn_keeps ..)
    | apply Keeps.trans ?_ (detectFrame_keeps ..) | apply Keeps.ite
    | fail_if_no_progress refine Keeps.put rfl ?_ rfl rfl rfl rfl rfl | intro _ | dsimp only)

theorem detectFlow_keeps (p : MediaPacket) (hz : Nat) (depth : Nat) (samples : List (List Nat)) (s : State) : Keeps s (detectFlow p hz depth samples s) := by
  unfold detectFlow
  repeat' (with_reducible first
    | apply Keeps.refl | apply Keeps.foldl | apply Keeps.foldl_fst | apply Keeps.foldl_snd
    | apply Keeps.trans ?_ (detectSync_keeps ..) | apply Keeps.ite | intro _ | dsimp only)

theorem execSt2110PacketReceive_keeps (p : MediaPacket) (s : State) : KeepsO s (execSt2110PacketReceive p s) := by
  unfold execSt2110PacketReceive
  repeat' (with_reducible first
    | apply Keeps.refl | apply Keeps.trans ?_ (receivePacket_keeps ..) | apply KeepsO.trans ?_ (done_keeps ..)
    | apply Keeps.trans ?_ (detectFlow_keeps ..) | apply Keeps.of_snd (by assumption)
    | apply Keeps.of_fst (by assumption) | fail_if_no_progress refine Keeps.put rfl ?_ rfl rfl rfl rfl rfl | split
    | dsimp only)

theorem execAes3BlockStartCheck_keeps (port : Nat) (paired : Bool) (s : State) : KeepsO s (execAes3BlockStartCheck port paired s) := by
  unfold execAes3BlockStartCheck
  repeat' (with_reducible first
    | apply Keeps.refl | apply KeepsO.next | apply KeepsO.ite | apply Keeps.trans ?_ (raise_keeps ..)
    | apply KeepsO.trans ?_ (done_keeps ..) | apply Keeps.trans ?_ (modIn_keeps ..)
    | apply Keeps.trans ?_ (modOut_keeps ..) | apply Keeps.ite | apply Keeps.of_snd (by assumption)
    | apply Keeps.of_fst (by assumption) | fail_if_no_progress refine Keeps.put rfl ?_ rfl rfl rfl rfl rfl | intro _
    | split | dsimp only)

theorem restartPort_keeps (port : Nat) (s : State) : Keeps s (restartPort port s) := by
  unfold restartPort
  repeat' (with_reducible first
    | apply Keeps.refl | apply Keeps.trans ?_ (modIn_keeps ..) | apply Keeps.trans ?_ (modOut_keeps ..)
    | apply Keeps.ite | fail_if_no_progress refine Keeps.put rfl ?_ rfl rfl rfl rfl rfl | intro _)

theorem restartsAtTick_keeps (c : Nat) (s : State) : Keeps s (restartsAtTick c s) := by
  unfold restartsAtTick
  repeat' (with_reducible first
    | apply Keeps.refl | apply Keeps.foldl | apply Keeps.foldl_fst | apply Keeps.foldl_snd
    | apply Keeps.trans ?_ (restartPort_keeps ..) | intro _)

theorem restartsAtSecond_keeps (s : State) : Keeps s (restartsAtSecond s) := by
  unfold restartsAtSecond
  repeat' (with_reducible first
    | apply Keeps.refl | apply Keeps.foldl | apply Keeps.foldl_fst | apply Keeps.foldl_snd
    | apply Keeps.trans ?_ (restartPort_keeps ..) | intro _)

theorem execAudioPortRestartApply_keeps (port : Nat) (frame : Nat) (s : State) : KeepsO s (execAudioPortRestartApply port frame s) := by
  unfold execAudioPortRestartApply
  repeat' (with_reducible first
    | apply Keeps.refl | apply KeepsO.next | apply KeepsO.ite | apply Keeps.foldl | apply Keeps.foldl_fst
    | apply Keeps.foldl_snd | apply Keeps.trans ?_ (modChan_keeps ..) | apply Keeps.trans ?_ (restartPort_keeps ..)
    | apply Keeps.ite | fail_if_no_progress refine Keeps.put rfl ?_ rfl rfl rfl rfl rfl | intro _ | dsimp only)

theorem restartLater_keeps (port : Nat) (s : State) : Keeps s (restartLater port s) := by
  unfold restartLater
  repeat' (with_reducible first
    | apply Keeps.refl | apply Keeps.trans ?_ (modIn_keeps ..) | apply Keeps.trans ?_ (modOut_keeps ..)
    | apply Keeps.ite | fail_if_no_progress refine Keeps.put rfl ?_ rfl rfl rfl rfl rfl | intro _)

theorem cmdAudPortRestart_keeps (r : Req) (s : State) : Keeps s (cmdAudPortRestart r s) := by
  unfold cmdAudPortRestart
  repeat' (with_reducible first
    | apply Keeps.refl | apply Keeps.trans ?_ (drawFree_keeps ..) | apply Keeps.trans ?_ (sendVa_keeps ..)
    | apply Keeps.trans ?_ (reply_keeps ..) | apply Keeps.trans ?_ (takeRequest_keeps (hbody := ?_) ..)
    | apply Keeps.trans ?_ (changeFor_keeps ..) | apply Keeps.trans ?_ (restartLater_keeps ..) | apply Keeps.ite
    | apply Keeps.of_snd (by assumption) | apply Keeps.of_fst (by assumption)
    | fail_if_no_progress refine Keeps.put rfl ?_ rfl rfl rfl rfl rfl | intro _ | split | dsimp only)

theorem execAudPortRestart_keeps (r : Req) (s : State) : KeepsO s (execAudPortRestart r s) := by
  unfold execAudPortRestart
  repeat' (with_reducible first
    | apply Keeps.refl | apply KeepsO.trans ?_ (done_keeps ..) | apply Keeps.trans ?_ (cmdAudPortRestart_keeps ..))

theorem aesTick_keeps (n : Nat) (s : State) : Keeps s (aesTick n s) := by
  unfold aesTick
  repeat' (with_reducible first
    | apply Keeps.refl | apply Keeps.foldl | apply Keeps.foldl_fst | apply Keeps.foldl_snd
    | apply Keeps.trans ?_ (onMembers_keeps ..) | apply Keeps.trans ?_ (modIn_keeps ..) | apply Keeps.ite | intro _
    | dsimp only)

theorem audioTick_keeps (n : Nat) (underruns : List Nat) (s : State) : Keeps s (audioTick n underruns s) := by
  unfold audioTick
  repeat' (with_reducible first
    | apply Keeps.refl | apply Keeps.trans ?_ (aesTick_keeps ..) | apply Keeps.ite
    | fail_if_no_progress refine Keeps.put rfl ?_ rfl rfl rfl rfl rfl | intro _ | dsimp only)

theorem audioSecond_keeps (s : State) : Keeps s (audioSecond s) := by
  unfold audioSecond
  repeat' (with_reducible first
    | apply Keeps.refl | fail_if_no_progress refine Keeps.put rfl ?_ rfl rfl rfl rfl rfl | intro _)

end Sys2Proof.Machine
end

