-- ==== Sys2Proof/Laws/KeepsEgress.lean ====
section
/-! SUPPORT. What the operations of Machine/Egress.lean keep (Laws/Keeps.lean). -/

set_option linter.unusedTactic false
set_option linter.unreachableTactic false

namespace Sys2Proof.Machine

open Sys2Proof.Safety

theorem modLeg_keeps (s : State) (k : Nat) (f : Leg → Leg) : Keeps s (modLeg s k f) := by
  unfold modLeg
  repeat' (with_reducible first
    | apply Keeps.refl | fail_if_no_progress refine Keeps.put rfl ?_ rfl rfl rfl rfl rfl)

theorem takeEgress_keeps (c : Nat) (s : State) : Keeps s (takeEgress c s) := by
  unfold takeEgress
  repeat' (with_reducible first
    | apply Keeps.refl | apply Keeps.foldl | apply Keeps.foldl_fst | apply Keeps.foldl_snd
    | apply Keeps.trans ?_ (setEgrPort_keeps ..) | apply Keeps.trans ?_ (modLeg_keeps ..)
    | fail_if_no_progress refine Keeps.put rfl ?_ rfl rfl rfl rfl rfl | intro _ | dsimp only)

theorem refuseEgress_keeps (c : Nat) (s : State) : Keeps s (refuseEgress c s) := by
  unfold refuseEgress
  repeat' (with_reducible first
    | apply Keeps.refl | apply Keeps.ite | fail_if_no_progress refine Keeps.put rfl ?_ rfl rfl rfl rfl rfl | intro _)

theorem badFlow_keeps (c : Nat) (s : State) : Keeps s (badFlow c s) := by
  unfold badFlow
  repeat' (with_reducible first
    | apply Keeps.refl | fail_if_no_progress refine Keeps.put rfl ?_ rfl rfl rfl rfl rfl)

theorem recEgressFlow_keeps (b : Bytes) (s : State) : Keeps s (recEgressFlow b s) := by
  unfold recEgressFlow
  repeat' (with_reducible first
    | apply Keeps.refl | apply Keeps.foldl | apply Keeps.foldl_fst | apply Keeps.foldl_snd
    | apply Keeps.trans ?_ (orphan_keeps ..) | apply Keeps.trans ?_ (applied_keeps ..)
    | apply Keeps.trans ?_ (sized_keeps (hbody := ?_) ..) | apply Keeps.trans ?_ (badFlow_keeps ..) | apply Keeps.ite
    | apply Keeps.of_snd (by assumption) | apply Keeps.of_fst (by assumption)
    | fail_if_no_progress refine Keeps.put rfl ?_ rfl rfl rfl rfl rfl | intro _ | split | dsimp only)

theorem execEgressFlowRecord_keeps (b : Bytes) (s : State) : KeepsO s (execEgressFlowRecord b s) := by
  unfold execEgressFlowRecord
  repeat' (with_reducible first
    | apply Keeps.refl | assumption | apply KeepsO.next | exact KeepsO.fault | apply KeepsO.ite
    | apply KeepsO.trans ?_ (recordCommand_keeps (hbody := ?_) ..) | apply Keeps.trans ?_ (recEgressFlow_keeps ..)
    | apply Keeps.ite | apply Keeps.of_snd (by assumption) | apply Keeps.of_fst (by assumption)
    | fail_if_no_progress refine Keeps.put rfl ?_ rfl rfl rfl rfl rfl | intro _ | split | dsimp only)

theorem recFlowGroup_keeps (b : Bytes) (s : State) : Keeps s (recFlowGroup b s) := by
  unfold recFlowGroup
  repeat' (with_reducible first
    | apply Keeps.refl | apply Keeps.trans ?_ (orphan_keeps ..) | apply Keeps.trans ?_ (applied_keeps ..)
    | apply Keeps.trans ?_ (sized_keeps (hbody := ?_) ..) | apply Keeps.ite
    | fail_if_no_progress refine Keeps.put rfl ?_ rfl rfl rfl rfl rfl | intro _ | dsimp only)

theorem execFlowGroupRecord_keeps (b : Bytes) (s : State) : KeepsO s (execFlowGroupRecord b s) := by
  unfold execFlowGroupRecord
  repeat' (with_reducible first
    | apply Keeps.refl | assumption | apply KeepsO.next | exact KeepsO.fault | apply KeepsO.ite
    | apply KeepsO.trans ?_ (recordCommand_keeps (hbody := ?_) ..) | apply Keeps.trans ?_ (recFlowGroup_keeps ..)
    | apply Keeps.ite | apply Keeps.of_snd (by assumption) | apply Keeps.of_fst (by assumption)
    | fail_if_no_progress refine Keeps.put rfl ?_ rfl rfl rfl rfl rfl | intro _ | split | dsimp only)

theorem recPortClass_keeps (b : Bytes) (s : State) : Keeps s (recPortClass b s) := by
  unfold recPortClass
  repeat' (with_reducible first
    | apply Keeps.refl | apply Keeps.trans ?_ (setEgrPort_keeps ..) | apply Keeps.trans ?_ (orphan_keeps ..)
    | apply Keeps.trans ?_ (applied_keeps ..) | apply Keeps.trans ?_ (sized_keeps (hbody := ?_) ..) | apply Keeps.ite
    | fail_if_no_progress refine Keeps.put rfl ?_ rfl rfl rfl rfl rfl | intro _ | dsimp only)

theorem execPortClassRecord_keeps (b : Bytes) (s : State) : KeepsO s (execPortClassRecord b s) := by
  unfold execPortClassRecord
  repeat' (with_reducible first
    | apply Keeps.refl | assumption | apply KeepsO.next | exact KeepsO.fault | apply KeepsO.ite
    | apply KeepsO.trans ?_ (recordCommand_keeps (hbody := ?_) ..) | apply Keeps.trans ?_ (recPortClass_keeps ..)
    | apply Keeps.ite | apply Keeps.of_snd (by assumption) | apply Keeps.of_fst (by assumption)
    | fail_if_no_progress refine Keeps.put rfl ?_ rfl rfl rfl rfl rfl | intro _ | split | dsimp only)

theorem acceptGates_keeps (p : Nat) (g : GateList) (s : State) : Keeps s (acceptGates p g s) := by
  unfold acceptGates
  repeat' (with_reducible first
    | apply Keeps.refl | apply Keeps.trans ?_ (setEgrPort_keeps ..)
    | fail_if_no_progress refine Keeps.put rfl ?_ rfl rfl rfl rfl rfl | intro _)

theorem recGateList_keeps (b : Bytes) (s : State) : Keeps s (recGateList b s) := by
  unfold recGateList
  repeat' (with_reducible first
    | apply Keeps.refl | apply Keeps.trans ?_ (orphan_keeps ..) | apply Keeps.trans ?_ (applied_keeps ..)
    | apply Keeps.trans ?_ (shortRecord_keeps ..) | apply Keeps.trans ?_ (sized_keeps (hbody := ?_) ..)
    | apply Keeps.trans ?_ (acceptGates_keeps ..) | apply Keeps.ite | intro _ | dsimp only)

theorem execGateListRecord_keeps (b : Bytes) (s : State) : KeepsO s (execGateListRecord b s) := by
  unfold execGateListRecord
  repeat' (with_reducible first
    | apply Keeps.refl | assumption | apply KeepsO.next | exact KeepsO.fault | apply KeepsO.ite
    | apply KeepsO.trans ?_ (recordCommand_keeps (hbody := ?_) ..) | apply Keeps.trans ?_ (recGateList_keeps ..)
    | apply Keeps.ite | apply Keeps.of_snd (by assumption) | apply Keeps.of_fst (by assumption)
    | fail_if_no_progress refine Keeps.put rfl ?_ rfl rfl rfl rfl rfl | intro _ | split | dsimp only)

theorem execGateListStart_keeps (p : Nat) (s : State) : KeepsO s (execGateListStart p s) := by
  unfold execGateListStart
  repeat' (with_reducible first
    | apply Keeps.refl | apply KeepsO.next | apply KeepsO.ite | apply Keeps.trans ?_ (setEgrPort_keeps ..)
    | apply atTime_keeps _ _ _ (by assumption) | apply Keeps.ite | apply Keeps.of_snd (by assumption)
    | apply Keeps.of_fst (by assumption) | fail_if_no_progress refine Keeps.put rfl ?_ rfl rfl rfl rfl rfl | intro _
    | split)

theorem execGateEntryChange_keeps (p : Nat) (s : State) : KeepsO s (execGateEntryChange p s) := by
  unfold execGateEntryChange
  repeat' (with_reducible first
    | apply Keeps.refl | apply KeepsO.next | apply KeepsO.ite | apply Keeps.trans ?_ (setEgrPort_keeps ..)
    | apply atTime_keeps _ _ _ (by assumption) | apply Keeps.ite | apply Keeps.of_snd (by assumption)
    | apply Keeps.of_fst (by assumption) | fail_if_no_progress refine Keeps.put rfl ?_ rfl rfl rfl rfl rfl | intro _
    | split | dsimp only)

theorem packetiseRow_keeps (x : Nat) (frame : Nat) (row : Nat) (units : List Nat) (filler : Nat) (s : State) : Keeps s (packetiseRow x frame row units filler s) := by
  unfold packetiseRow
  repeat' (with_reducible first
    | apply Keeps.refl | apply Keeps.foldl | apply Keeps.foldl_fst | apply Keeps.foldl_snd | apply Keeps.ite
    | apply Keeps.of_snd (by assumption) | apply Keeps.of_fst (by assumption)
    | fail_if_no_progress refine Keeps.put rfl ?_ rfl rfl rfl rfl rfl | intro _ | split | dsimp only)

theorem sendProduced_keeps (s : State) : Keeps s (sendProduced s) := by
  unfold sendProduced
  repeat' (with_reducible first
    | apply Keeps.refl | apply Keeps.foldl | apply Keeps.foldl_fst | apply Keeps.foldl_snd
    | apply Keeps.trans ?_ (sendVa_keeps ..) | apply Keeps.trans ?_ (modLeg_keeps ..) | apply Keeps.ite
    | fail_if_no_progress refine Keeps.put rfl ?_ rfl rfl rfl rfl rfl | intro _)

theorem execPsiInsertion_keeps (flow : Nat) (frame : Nat) (s : State) : KeepsO s (execPsiInsertion flow frame s) := by
  unfold execPsiInsertion
  repeat' (with_reducible first
    | apply Keeps.refl | apply KeepsO.next | apply KeepsO.ite | apply Keeps.trans ?_ (modLeg_keeps ..)
    | apply Keeps.trans ?_ (sendProduced_keeps ..) | apply Keeps.ite | apply Keeps.of_snd (by assumption)
    | apply Keeps.of_fst (by assumption) | fail_if_no_progress refine Keeps.put rfl ?_ rfl rfl rfl rfl rfl | split)

theorem execPcrInsertion_keeps (flow : Nat) (videoDatagram : Bool) (s : State) : KeepsO s (execPcrInsertion flow videoDatagram s) := by
  unfold execPcrInsertion
  repeat' (with_reducible first
    | apply Keeps.refl | apply KeepsO.next | apply KeepsO.ite | apply Keeps.foldl | apply Keeps.foldl_fst
    | apply Keeps.foldl_snd | apply Keeps.trans ?_ (modLeg_keeps ..) | apply Keeps.trans ?_ (sendProduced_keeps ..)
    | apply Keeps.ite | apply Keeps.of_snd (by assumption) | apply Keeps.of_fst (by assumption)
    | fail_if_no_progress refine Keeps.put rfl ?_ rfl rfl rfl rfl rfl | intro _ | split)

theorem execShaperRateApply_keeps (leg : Nat) (tick : Nat) (s : State) : KeepsO s (execShaperRateApply leg tick s) := by
  unfold execShaperRateApply
  repeat' (with_reducible first
    | apply Keeps.refl | apply KeepsO.next | apply Keeps.trans ?_ (noEarlier_keeps ..)
    | apply Keeps.trans ?_ (modLeg_keeps ..) | apply Keeps.of_snd (by assumption) | apply Keeps.of_fst (by assumption)
    | fail_if_no_progress refine Keeps.put rfl ?_ rfl rfl rfl rfl rfl | split | dsimp only)

theorem stampLegs_keeps (p : Nat) (s : State) : Keeps s (stampLegs p s) := by
  unfold stampLegs
  repeat' (with_reducible first
    | apply Keeps.refl | apply Keeps.ite | apply Keeps.of_snd (by assumption) | apply Keeps.of_fst (by assumption)
    | fail_if_no_progress refine Keeps.put rfl ?_ rfl rfl rfl rfl rfl | intro _ | split)

theorem setClass_keeps (s : State) (p : Nat) (c : Nat) (f : PortClass → PortClass) : Keeps s (setClass s p c f) := by
  unfold setClass
  repeat' (with_reducible first
    | apply Keeps.refl | apply Keeps.trans ?_ (setEgrPort_keeps ..)
    | fail_if_no_progress refine Keeps.put rfl ?_ rfl rfl rfl rfl rfl | intro _)

theorem stampGroups_keeps (p : Nat) (c : Nat) (s : State) : Keeps s (stampGroups p c s) := by
  unfold stampGroups
  repeat' (with_reducible first
    | apply Keeps.refl | apply Keeps.ite | apply Keeps.of_snd (by assumption) | apply Keeps.of_fst (by assumption)
    | fail_if_no_progress refine Keeps.put rfl ?_ rfl rfl rfl rfl rfl | intro _ | split | dsimp only)

theorem stampPort_keeps (p : Nat) (ptp : Bool) (s : State) : Keeps s (stampPort p ptp s) := by
  unfold stampPort
  repeat' (with_reducible first
    | apply Keeps.refl | apply Keeps.ite | fail_if_no_progress refine Keeps.put rfl ?_ rfl rfl rfl rfl rfl | intro _
    | dsimp only)

theorem tapSent_keeps (key : Nat) (s : State) : Keeps s (tapSent key s) := by
  unfold tapSent
  repeat' (with_reducible first
    | apply Keeps.refl | apply Keeps.trans ?_ (drawFree_keeps ..) | apply Keeps.ite | apply Keeps.of_snd (by assumption)
    | apply Keeps.of_fst (by assumption) | fail_if_no_progress refine Keeps.put rfl ?_ rfl rfl rfl rfl rfl | intro _
    | split | dsimp only)

theorem sendPacket_keeps (p : Nat) (cls : Nat) (key : Nat) (l : Leg) (q : QPkt) (s : State) : Keeps s (sendPacket p cls key l q s) := by
  unfold sendPacket
  repeat' (with_reducible first
    | apply Keeps.refl | apply Keeps.trans ?_ (raise_keeps ..) | apply Keeps.trans ?_ (modLeg_keeps ..)
    | apply Keeps.trans ?_ (setClass_keeps ..) | apply Keeps.trans ?_ (stampPort_keeps ..)
    | apply Keeps.trans ?_ (tapSent_keeps ..) | apply Keeps.ite
    | fail_if_no_progress refine Keeps.put rfl ?_ rfl rfl rfl rfl rfl | intro _ | dsimp only)

theorem dropOnDown_keeps (p : Nat) (s : State) : Keeps s (dropOnDown p s) := by
  unfold dropOnDown
  repeat' (with_reducible first
    | apply Keeps.refl | fail_if_no_progress refine Keeps.put rfl ?_ rfl rfl rfl rfl rfl | intro _)

theorem dropPacket_keeps (p : Nat) (cls : Nat) (key : Nat) (l : Leg) (q : QPkt) (s : State) : Keeps s (dropPacket p cls key l q s) := by
  unfold dropPacket
  repeat' (with_reducible first
    | apply Keeps.refl | apply Keeps.trans ?_ (modLeg_keeps ..) | apply Keeps.trans ?_ (setClass_keeps ..)
    | apply Keeps.trans ?_ (dropOnDown_keeps ..) | apply Keeps.ite
    | fail_if_no_progress refine Keeps.put rfl ?_ rfl rfl rfl rfl rfl | intro _ | dsimp only)

theorem turnPacket_keeps (p : Nat) (cls : Nat) (key : Nat) (l : Leg) (q : QPkt) (s : State) : Keeps s (turnPacket p cls key l q s) := by
  unfold turnPacket
  repeat' (with_reducible first
    | apply Keeps.refl | apply Keeps.trans ?_ (sendPacket_keeps ..) | apply Keeps.trans ?_ (dropPacket_keeps ..)
    | apply Keeps.ite)

theorem turnOwn_keeps (p : Nat) (f : OwnFrame) (s : State) : Keeps s (turnOwn p f s) := by
  unfold turnOwn
  repeat' (with_reducible first
    | apply Keeps.refl | apply Keeps.trans ?_ (setEgrPort_keeps ..) | apply Keeps.trans ?_ (setClass_keeps ..)
    | apply Keeps.trans ?_ (stampPort_keeps ..) | apply Keeps.trans ?_ (dropOnDown_keeps ..) | apply Keeps.ite
    | fail_if_no_progress refine Keeps.put rfl ?_ rfl rfl rfl rfl rfl | intro _ | dsimp only)

theorem turnForwarded_keeps (p : Nat) (cls : Nat) (key : Nat) (l : Leg) (q : PairPacket) (s : State) : Keeps s (turnForwarded p cls key l q s) := by
  unfold turnForwarded
  repeat' (with_reducible first
    | apply Keeps.refl | apply Keeps.trans ?_ (modLeg_keeps ..) | apply Keeps.trans ?_ (setClass_keeps ..)
    | apply Keeps.trans ?_ (stampPort_keeps ..) | apply Keeps.trans ?_ (dropOnDown_keeps ..) | apply Keeps.ite
    | fail_if_no_progress refine Keeps.put rfl ?_ rfl rfl rfl rfl rfl | intro _ | dsimp only)

theorem refreshPort_keeps (p : Nat) (s : State) : Keeps s (refreshPort p s) := by
  unfold refreshPort
  repeat' (with_reducible first
    | apply Keeps.refl | apply Keeps.foldl | apply Keeps.foldl_fst | apply Keeps.foldl_snd
    | apply Keeps.trans ?_ (stampLegs_keeps ..) | apply Keeps.trans ?_ (stampGroups_keeps ..) | apply Keeps.ite
    | fail_if_no_progress refine Keeps.put rfl ?_ rfl rfl rfl rfl rfl | intro _ | dsimp only)

theorem takeTurn_keeps (p : Nat) (s : State) : Keeps s (takeTurn p s) := by
  unfold takeTurn
  repeat' (with_reducible first
    | apply Keeps.refl | apply Keeps.trans ?_ (turnPacket_keeps ..) | apply Keeps.trans ?_ (turnOwn_keeps ..)
    | apply Keeps.trans ?_ (turnForwarded_keeps ..) | apply Keeps.ite | apply Keeps.of_snd (by assumption)
    | apply Keeps.of_fst (by assumption) | fail_if_no_progress refine Keeps.put rfl ?_ rfl rfl rfl rfl rfl | split)

theorem execPacketTransmit_keeps (p : Nat) (s : State) : KeepsO s (execPacketTransmit p s) := by
  unfold execPacketTransmit
  repeat' (with_reducible first
    | apply Keeps.refl | apply KeepsO.next | apply KeepsO.ite | apply KeepsO.trans ?_ (done_keeps ..)
    | apply Keeps.trans ?_ (sendProduced_keeps ..) | apply Keeps.trans ?_ (refreshPort_keeps ..)
    | apply Keeps.trans ?_ (takeTurn_keeps ..) | apply Keeps.ite)

theorem execAddressResolved_keeps (leg : Nat) (mac : Nat) (s : State) : KeepsO s (execAddressResolved leg mac s) := by
  unfold execAddressResolved
  repeat' (with_reducible first
    | apply Keeps.refl | apply KeepsO.next | apply KeepsO.ite | apply Keeps.trans ?_ (modLeg_keeps ..) | apply Keeps.ite
    | fail_if_no_progress refine Keeps.put rfl ?_ rfl rfl rfl rfl rfl | intro _)

theorem ignoreRtcp_keeps (leg : Nat) (s : State) : Keeps s (ignoreRtcp leg s) := by
  unfold ignoreRtcp
  repeat' (with_reducible first
    | apply Keeps.refl | apply Keeps.trans ?_ (modLeg_keeps ..)
    | fail_if_no_progress refine Keeps.put rfl ?_ rfl rfl rfl rfl rfl | intro _)

theorem lossReport_keeps (leg : Nat) (ssrc : Nat) (bit : Nat) (l : Leg) (s : State) : Keeps s (lossReport leg ssrc bit l s) := by
  unfold lossReport
  repeat' (with_reducible first
    | apply Keeps.refl | apply Keeps.trans ?_ (changeOf_keeps ..) | apply Keeps.trans ?_ (ignoreRtcp_keeps ..)
    | apply Keeps.ite | apply Keeps.of_snd (by assumption) | apply Keeps.of_fst (by assumption)
    | fail_if_no_progress refine Keeps.put rfl ?_ rfl rfl rfl rfl rfl | split)

theorem execRtcpReceive_keeps (leg : Nat) (m : Rtcp) (s : State) : KeepsO s (execRtcpReceive leg m s) := by
  unfold execRtcpReceive
  repeat' (with_reducible first
    | apply Keeps.refl | apply KeepsO.next | apply KeepsO.ite | apply Keeps.trans ?_ (changeOf_keeps ..)
    | apply Keeps.trans ?_ (ignoreRtcp_keeps ..) | apply Keeps.trans ?_ (lossReport_keeps ..) | apply Keeps.ite
    | apply Keeps.of_snd (by assumption) | apply Keeps.of_fst (by assumption)
    | fail_if_no_progress refine Keeps.put rfl ?_ rfl rfl rfl rfl rfl | split)

theorem applySplice_keeps (flow : Nat) (n : Nat) (writePts : Bool) (b : Bytes) (s : State) : Keeps s (applySplice flow n writePts b s) := by
  unfold applySplice
  repeat' (with_reducible first
    | apply Keeps.refl | apply Keeps.foldl | apply Keeps.foldl_fst | apply Keeps.foldl_snd
    | apply Keeps.trans ?_ (modLeg_keeps ..) | apply Keeps.of_snd (by assumption) | apply Keeps.of_fst (by assumption)
    | fail_if_no_progress refine Keeps.put rfl ?_ rfl rfl rfl rfl rfl | intro _ | split | dsimp only)

theorem sampleGroups_keeps (s : State) : Keeps s (sampleGroups s) := by
  unfold sampleGroups
  repeat' (with_reducible first
    | apply Keeps.refl | apply Keeps.foldl | apply Keeps.foldl_fst | apply Keeps.foldl_snd
    | fail_if_no_progress refine Keeps.put rfl ?_ rfl rfl rfl rfl rfl | intro _ | dsimp only)

theorem execQueueSampleTimer_keeps (s : State) : KeepsO s (execQueueSampleTimer s) := by
  unfold execQueueSampleTimer
  repeat' (with_reducible first
    | apply Keeps.refl | apply KeepsO.next | apply KeepsO.ite | apply Keeps.trans ?_ (noEarlier_keeps ..)
    | apply Keeps.trans ?_ (sampleGroups_keeps ..) | apply Keeps.ite)

theorem egressTick_keeps (c : Nat) (n : Nat) (s : State) : Keeps s (egressTick c n s) := by
  unfold egressTick
  repeat' (with_reducible first
    | apply Keeps.refl | apply Keeps.foldl | apply Keeps.foldl_fst | apply Keeps.foldl_snd
    | apply Keeps.trans ?_ (sendProduced_keeps ..) | apply Keeps.trans ?_ (sampleGroups_keeps ..) | apply Keeps.ite
    | fail_if_no_progress refine Keeps.put rfl ?_ rfl rfl rfl rfl rfl | intro _ | dsimp only)

theorem ratesAtTick_keeps (n : Nat) (s : State) : Keeps s (ratesAtTick n s) := by
  unfold ratesAtTick
  repeat' (with_reducible first
    | apply Keeps.refl | fail_if_no_progress refine Keeps.put rfl ?_ rfl rfl rfl rfl rfl | intro _)

theorem egressSample_keeps (n : Nat) (s : State) : Keeps s (egressSample n s) := by
  unfold egressSample
  repeat' (with_reducible first
    | apply Keeps.refl | apply Keeps.trans ?_ (sendProduced_keeps ..) | apply Keeps.ite
    | fail_if_no_progress refine Keeps.put rfl ?_ rfl rfl rfl rfl rfl | intro _ | dsimp only)

theorem egressSecond_keeps (sec : Nat) (s : State) : Keeps s (egressSecond sec s) := by
  unfold egressSecond
  repeat' (with_reducible first
    | apply Keeps.refl | apply Keeps.trans ?_ (sendProduced_keeps ..) | apply Keeps.ite
    | fail_if_no_progress refine Keeps.put rfl ?_ rfl rfl rfl rfl rfl | intro _ | dsimp only)

theorem clearStats_keeps (p : Nat) (type : Nat) (index : Nat) (s : State) : Keeps s (clearStats p type index s) := by
  unfold clearStats
  repeat' (with_reducible first
    | apply Keeps.refl | apply Keeps.trans ?_ (setEgrPort_keeps ..) | apply Keeps.trans ?_ (modLeg_keeps ..)
    | apply Keeps.ite | fail_if_no_progress refine Keeps.put rfl ?_ rfl rfl rfl rfl rfl | intro _ | dsimp only)

theorem toStandby_keeps (m : LinkMsg) (s : State) : Keeps s (toStandby m s) := by
  unfold toStandby
  repeat' (with_reducible first
    | apply Keeps.refl | apply Keeps.trans ?_ (sendVa_keeps ..) | apply Keeps.ite)

theorem cmdEgrSetRate_keeps (r : Req) (s : State) : Keeps s (cmdEgrSetRate r s) := by
  unfold cmdEgrSetRate
  repeat' (with_reducible first
    | apply Keeps.refl | apply Keeps.trans ?_ (reply_keeps ..)
    | apply Keeps.trans ?_ (takeRequest_keeps (hbody := ?_) ..) | apply Keeps.trans ?_ (modLeg_keeps ..)
    | apply Keeps.trans ?_ (toStandby_keeps ..) | apply Keeps.ite | apply Keeps.of_snd (by assumption)
    | apply Keeps.of_fst (by assumption) | fail_if_no_progress refine Keeps.put rfl ?_ rfl rfl rfl rfl rfl | intro _
    | split | dsimp only)

theorem execEgrSetRate_keeps (r : Req) (s : State) : KeepsO s (execEgrSetRate r s) := by
  unfold execEgrSetRate
  repeat' (with_reducible first
    | apply Keeps.refl | apply KeepsO.trans ?_ (done_keeps ..) | apply Keeps.trans ?_ (cmdEgrSetRate_keeps ..))

theorem cmdEgrSetGates_keeps (r : Req) (s : State) : Keeps s (cmdEgrSetGates r s) := by
  unfold cmdEgrSetGates
  repeat' (with_reducible first
    | apply Keeps.refl | apply Keeps.trans ?_ (reply_keeps ..)
    | apply Keeps.trans ?_ (takeRequest_keeps (hbody := ?_) ..) | apply Keeps.trans ?_ (acceptGates_keeps ..)
    | apply Keeps.trans ?_ (toStandby_keeps ..) | intro _ | dsimp only)

theorem execEgrSetGates_keeps (r : Req) (s : State) : KeepsO s (execEgrSetGates r s) := by
  unfold execEgrSetGates
  repeat' (with_reducible first
    | apply Keeps.refl | apply KeepsO.trans ?_ (done_keeps ..) | apply Keeps.trans ?_ (cmdEgrSetGates_keeps ..))

end Sys2Proof.Machine
end

