-- ==== Sys2Proof/Laws/KeepsPair.lean ====
section
/-! SUPPORT. What the operations of Machine/Pair.lean keep (Laws/Keeps.lean). -/

set_option linter.unusedTactic false
set_option linter.unreachableTactic false

namespace Sys2Proof.Machine

open Sys2Proof.Safety

theorem recPair_keeps (b : Bytes) (s : State) : Keeps s (recPair b s) := by
  unfold recPair
  repeat' (with_reducible first
    | apply Keeps.refl | apply Keeps.trans ?_ (useValsin_keeps ..) | apply Keeps.trans ?_ (orphan_keeps ..)
    | apply Keeps.trans ?_ (applied_keeps ..) | apply Keeps.trans ?_ (sized_keeps (hbody := ?_) ..) | apply Keeps.ite
    | fail_if_no_progress refine Keeps.put rfl ?_ rfl rfl rfl rfl rfl | intro _)

theorem execPairRecord_keeps (b : Bytes) (s : State) : KeepsO s (execPairRecord b s) := by
  unfold execPairRecord
  repeat' (with_reducible first
    | apply Keeps.refl | assumption | apply KeepsO.next | exact KeepsO.fault | apply KeepsO.ite
    | apply KeepsO.trans ?_ (recordCommand_keeps (hbody := ?_) ..) | apply Keeps.trans ?_ (recPair_keeps ..)
    | apply Keeps.ite | apply Keeps.of_snd (by assumption) | apply Keeps.of_fst (by assumption)
    | fail_if_no_progress refine Keeps.put rfl ?_ rfl rfl rfl rfl rfl | intro _ | split | dsimp only)

theorem leaveConfigure_keeps (s : State) : Keeps s (leaveConfigure s) := by
  unfold leaveConfigure
  repeat' (with_reducible first
    | apply Keeps.refl | apply enterMode_takeClaim | apply Keeps.trans ?_ (enterMode_keeps ..) | apply Keeps.ite
    | dsimp only)

theorem enterClash_keeps (s : State) : Keeps s (enterClash s) := by
  unfold enterClash
  repeat' (with_reducible first
    | apply Keeps.refl | apply Keeps.trans ?_ (raise_keeps ..) | apply Keeps.trans ?_ (settleMerge_keeps ..)
    | fail_if_no_progress refine Keeps.put rfl ?_ rfl rfl rfl rfl rfl)

theorem sendDigest_keeps (s : State) : Keeps s (sendDigest s) := by
  unfold sendDigest
  repeat' (with_reducible first
    | apply Keeps.refl | apply Keeps.trans ?_ (sendVa_keeps ..) | apply Keeps.ite
    | fail_if_no_progress refine Keeps.put rfl ?_ rfl rfl rfl rfl rfl)

theorem compareDigest_keeps (s : State) : Keeps s (compareDigest s) := by
  unfold compareDigest
  repeat' (with_reducible first
    | apply Keeps.refl | apply Keeps.trans ?_ (leaveConfigure_keeps ..) | apply Keeps.trans ?_ (enterClash_keeps ..)
    | apply Keeps.trans ?_ (sendDigest_keeps ..) | apply Keeps.ite | apply Keeps.of_snd (by assumption)
    | apply Keeps.of_fst (by assumption) | fail_if_no_progress refine Keeps.put rfl ?_ rfl rfl rfl rfl rfl | split
    | dsimp only)

theorem execPairDigestReceive_keeps (digest : Bytes) (ident : Nat) (wants : Nat) (s : State) : KeepsO s (execPairDigestReceive digest ident wants s) := by
  unfold execPairDigestReceive
  repeat' (with_reducible first
    | apply Keeps.refl | apply KeepsO.next | apply KeepsO.ite | apply KeepsO.trans ?_ (done_keeps ..)
    | apply Keeps.trans ?_ (compareDigest_keeps ..) | apply Keeps.ite
    | fail_if_no_progress refine Keeps.put rfl ?_ rfl rfl rfl rfl rfl)

theorem stopLocalFlows_keeps (s : State) : Keeps s (stopLocalFlows s) := by
  unfold stopLocalFlows
  repeat' (with_reducible first
    | apply Keeps.refl | apply Keeps.trans ?_ (settleMerge_keeps ..) | apply Keeps.ite
    | fail_if_no_progress refine Keeps.put rfl ?_ rfl rfl rfl rfl rfl | intro _ | dsimp only)

theorem pairVaUp_keeps (s : State) : Keeps s (pairVaUp s) := by
  unfold pairVaUp
  repeat' (with_reducible first
    | apply Keeps.refl | apply Keeps.trans ?_ (settleMerge_keeps ..) | apply Keeps.trans ?_ (sendDigest_keeps ..)
    | apply Keeps.trans ?_ (stopLocalFlows_keeps ..) | apply Keeps.ite
    | fail_if_no_progress refine Keeps.put rfl ?_ rfl rfl rfl rfl rfl | dsimp only)

theorem pairVaDown_keeps (s : State) : Keeps s (pairVaDown s) := by
  unfold pairVaDown
  repeat' (with_reducible first
    | apply Keeps.refl | apply Keeps.trans ?_ (dropVa_keeps ..) | apply Keeps.trans ?_ (settleMerge_keeps ..))

theorem execVaDown_keeps (s : State) : KeepsO s (execVaDown s) := by
  unfold execVaDown
  repeat' (with_reducible first
    | apply Keeps.refl | apply KeepsO.next | apply KeepsO.ite | apply Keeps.trans ?_ (noEarlier_keeps ..)
    | apply KeepsO.trans ?_ (done_keeps ..) | apply Keeps.trans ?_ (pairVaDown_keeps ..) | apply Keeps.ite)

theorem skipTransport_keeps (s : State) : Keeps s (skipTransport s) := by
  unfold skipTransport
  repeat' (with_reducible first
    | apply Keeps.refl | apply Keeps.ite | fail_if_no_progress refine Keeps.put rfl ?_ rfl rfl rfl rfl rfl | intro _)

theorem actOnSilence_keeps (s : State) : Keeps s (actOnSilence s) := by
  unfold actOnSilence
  repeat' (with_reducible first
    | apply Keeps.refl | apply enterMode_takeClaim | apply Keeps.trans ?_ (enterMode_keeps ..)
    | apply Keeps.trans ?_ (leaveConfigure_keeps ..) | apply Keeps.trans ?_ (skipTransport_keeps ..) | apply Keeps.ite
    | apply Keeps.of_snd (by assumption) | apply Keeps.of_fst (by assumption)
    | fail_if_no_progress refine Keeps.put rfl ?_ rfl rfl rfl rfl rfl | split)

theorem vaFallsSilent_keeps (s : State) : Keeps s (vaFallsSilent s) := by
  unfold vaFallsSilent
  repeat' (with_reducible first
    | apply Keeps.refl | apply Keeps.trans ?_ (actOnSilence_keeps ..)
    | fail_if_no_progress refine Keeps.put rfl ?_ rfl rfl rfl rfl rfl)

theorem execVaSilent_keeps (s : State) : KeepsO s (execVaSilent s) := by
  unfold execVaSilent
  repeat' (with_reducible first
    | apply Keeps.refl | apply KeepsO.next | apply KeepsO.ite | apply Keeps.trans ?_ (noEarlier_keeps ..)
    | apply KeepsO.trans ?_ (done_keeps ..) | apply Keeps.trans ?_ (vaFallsSilent_keeps ..) | apply Keeps.ite)

theorem hbFallsSilent_keeps (s : State) : Keeps s (hbFallsSilent s) := by
  unfold hbFallsSilent
  repeat' (with_reducible first
    | apply Keeps.refl | apply Keeps.trans ?_ (raise_keeps ..) | apply Keeps.trans ?_ (actOnSilence_keeps ..)
    | apply Keeps.ite | fail_if_no_progress refine Keeps.put rfl ?_ rfl rfl rfl rfl rfl | dsimp only)

theorem execHeartbeatSilent_keeps (s : State) : KeepsO s (execHeartbeatSilent s) := by
  unfold execHeartbeatSilent
  repeat' (with_reducible first
    | apply Keeps.refl | apply KeepsO.next | apply KeepsO.ite | apply Keeps.trans ?_ (noEarlier_keeps ..)
    | apply KeepsO.trans ?_ (done_keeps ..) | apply Keeps.trans ?_ (hbFallsSilent_keeps ..) | apply Keeps.ite)

theorem silencesDue_keeps (s : State) : Keeps s (silencesDue s) := by
  unfold silencesDue
  repeat' (with_reducible first
    | apply Keeps.refl | apply Keeps.trans ?_ (vaFallsSilent_keeps ..) | apply Keeps.trans ?_ (hbFallsSilent_keeps ..)
    | apply Keeps.ite | dsimp only)

theorem setSplit_keeps (s : State) : Keeps s (setSplit s) := by
  unfold setSplit
  repeat' (with_reducible first
    | apply Keeps.refl | apply Keeps.trans ?_ (raise_keeps ..) | apply Keeps.ite
    | fail_if_no_progress refine Keeps.put rfl ?_ rfl rfl rfl rfl rfl)

theorem execPairHbInEdge_keeps (level : Bool) (s : State) : KeepsO s (execPairHbInEdge level s) := by
  unfold execPairHbInEdge
  repeat' (with_reducible first
    | apply Keeps.refl | apply KeepsO.next | apply KeepsO.ite | apply KeepsO.trans ?_ (done_keeps ..)
    | apply Keeps.trans ?_ (setSplit_keeps ..) | apply Keeps.ite
    | fail_if_no_progress refine Keeps.put rfl ?_ rfl rfl rfl rfl rfl | dsimp only)

theorem execHrwHeartbeatReceive_keeps (p : TreePath) (claim : Nat) (epoch : Nat) (s : State) : KeepsO s (execHrwHeartbeatReceive p claim epoch s) := by
  unfold execHrwHeartbeatReceive
  repeat' (with_reducible first
    | apply Keeps.refl | apply KeepsO.next | apply KeepsO.ite | apply KeepsO.trans ?_ (done_keeps ..)
    | apply Keeps.trans ?_ (sendAddressed_keeps ..) | apply Keeps.trans ?_ (setSplit_keeps ..) | apply Keeps.ite
    | fail_if_no_progress refine Keeps.put rfl ?_ rfl rfl rfl rfl rfl | dsimp only)

theorem driveHeartbeat_keeps (m : Nat) (s : State) : Keeps s (driveHeartbeat m s) := by
  unfold driveHeartbeat
  repeat' (with_reducible first
    | apply Keeps.refl | apply Keeps.ite | fail_if_no_progress refine Keeps.put rfl ?_ rfl rfl rfl rfl rfl)

theorem execClaimReleaseFlowsStop_keeps (s : State) : KeepsO s (execClaimReleaseFlowsStop s) := by
  unfold execClaimReleaseFlowsStop
  repeat' (with_reducible first
    | apply Keeps.refl | apply KeepsO.next | apply KeepsO.ite | apply Keeps.trans ?_ (noEarlier_keeps ..)
    | apply Keeps.trans ?_ (stopLocalFlows_keeps ..) | apply Keeps.ite | apply Keeps.of_snd (by assumption)
    | apply Keeps.of_fst (by assumption) | fail_if_no_progress refine Keeps.put rfl ?_ rfl rfl rfl rfl rfl | split)

theorem execClaimBeaconSend_keeps (s : State) : KeepsO s (execClaimBeaconSend s) := by
  unfold execClaimBeaconSend
  repeat' (with_reducible first
    | apply Keeps.refl | apply KeepsO.next | apply KeepsO.ite | apply Keeps.trans ?_ (sendVa_keeps ..) | apply Keeps.ite
    | fail_if_no_progress refine Keeps.put rfl ?_ rfl rfl rfl rfl rfl | dsimp only)

theorem onPartner_keeps (s : State) : Keeps s (onPartner s) := by
  unfold onPartner
  repeat' (with_reducible first
    | apply Keeps.refl | apply enterMode_takeClaim | apply Keeps.trans ?_ (enterMode_keeps ..)
    | apply Keeps.trans ?_ (leaveConfigure_keeps ..) | apply Keeps.ite | apply Keeps.of_snd (by assumption)
    | apply Keeps.of_fst (by assumption) | fail_if_no_progress refine Keeps.put rfl ?_ rfl rfl rfl rfl rfl | split)

theorem execClaimBeaconReceive_keeps (claim : Nat) (epoch : Nat) (mode : Nat) (degraded : Bool) (count : Nat) (s : State) : KeepsO s (execClaimBeaconReceive claim epoch mode degraded count s) := by
  unfold execClaimBeaconReceive
  repeat' (with_reducible first
    | apply Keeps.refl | apply KeepsO.next | apply KeepsO.ite | apply Keeps.trans ?_ (settleMerge_keeps ..)
    | apply KeepsO.trans ?_ (done_keeps ..) | apply Keeps.trans ?_ (onPartner_keeps ..) | apply Keeps.ite
    | fail_if_no_progress refine Keeps.put rfl ?_ rfl rfl rfl rfl rfl | dsimp only)

theorem setHealth_keeps (s : State) (f : Health → Health) : Keeps s (setHealth s f) := by
  unfold setHealth
  repeat' (with_reducible first
    | apply Keeps.refl | fail_if_no_progress refine Keeps.put rfl ?_ rfl rfl rfl rfl rfl)

theorem judgeStatus_keeps (c : Nat) (mine : Bool) (theirs : Bool) (s : State) : Keeps s (judgeStatus c mine theirs s) := by
  unfold judgeStatus
  repeat' (with_reducible first
    | apply Keeps.refl | apply Keeps.trans ?_ (raise_keeps ..) | apply Keeps.ite
    | fail_if_no_progress refine Keeps.put rfl ?_ rfl rfl rfl rfl rfl | dsimp only)

theorem judgePrint_keeps (mine : Fingerprint) (theirs : Fingerprint) (s : State) : Keeps s (judgePrint mine theirs s) := by
  unfold judgePrint
  repeat' (with_reducible first
    | apply Keeps.refl | apply Keeps.trans ?_ (raise_keeps ..) | apply Keeps.trans ?_ (setHealth_keeps ..)
    | apply Keeps.trans ?_ (judgeStatus_keeps ..) | apply Keeps.ite | apply Keeps.of_snd (by assumption)
    | apply Keeps.of_fst (by assumption) | fail_if_no_progress refine Keeps.put rfl ?_ rfl rfl rfl rfl rfl | intro _
    | split | dsimp only)

theorem localPrint_keeps (f : Fingerprint) (s : State) : Keeps s (localPrint f s) := by
  unfold localPrint
  repeat' (with_reducible first
    | apply Keeps.refl | apply Keeps.trans ?_ (sendVa_keeps ..) | apply Keeps.trans ?_ (judgePrint_keeps ..)
    | apply Keeps.ite | apply Keeps.of_snd (by assumption) | apply Keeps.of_fst (by assumption)
    | fail_if_no_progress refine Keeps.put rfl ?_ rfl rfl rfl rfl rfl | split | dsimp only)

theorem execFingerprintReceive_keeps (f : Fingerprint) (s : State) : KeepsO s (execFingerprintReceive f s) := by
  unfold execFingerprintReceive
  repeat' (with_reducible first
    | apply Keeps.refl | apply KeepsO.next | apply KeepsO.ite | apply KeepsO.trans ?_ (done_keeps ..)
    | apply Keeps.trans ?_ (judgePrint_keeps ..) | apply Keeps.ite | apply Keeps.of_snd (by assumption)
    | apply Keeps.of_fst (by assumption) | fail_if_no_progress refine Keeps.put rfl ?_ rfl rfl rfl rfl rfl | split)

theorem execFingerprintMissing_keeps (x : FpStream) (s : State) : KeepsO s (execFingerprintMissing x s) := by
  unfold execFingerprintMissing
  repeat' (with_reducible first
    | apply Keeps.refl | apply KeepsO.next | apply KeepsO.ite | apply Keeps.trans ?_ (noEarlier_keeps ..)
    | apply Keeps.trans ?_ (setHealth_keeps ..) | apply Keeps.ite | apply Keeps.of_snd (by assumption)
    | apply Keeps.of_fst (by assumption) | fail_if_no_progress refine Keeps.put rfl ?_ rfl rfl rfl rfl rfl | intro _
    | split | dsimp only)

theorem judgeFrame_keeps (s : State) : Keeps s (judgeFrame s) := by
  unfold judgeFrame
  repeat' (with_reducible first
    | apply Keeps.refl | apply Keeps.ite | fail_if_no_progress refine Keeps.put rfl ?_ rfl rfl rfl rfl rfl | dsimp only)

theorem atBoundary_keeps (last : Option Nat) (s : State) : Keeps s (atBoundary last s).1 := by
  unfold atBoundary
  repeat' (with_reducible first
    | apply Keeps.refl | apply Keeps.ite_fst | apply Keeps.trans ?_ (noEarlier_keeps ..) | apply Keeps.ite
    | apply Keeps.of_snd (by assumption) | apply Keeps.of_fst (by assumption) | split | dsimp only)

theorem atPairEnd_keeps (s : State) : Keeps s (atPairEnd s) := by
  unfold atPairEnd
  repeat' (with_reducible first
    | apply Keeps.refl | apply Keeps.trans ?_ (atBoundary_keeps ..) | apply Keeps.of_snd (by assumption)
    | apply Keeps.of_fst (by assumption) | fail_if_no_progress refine Keeps.put rfl ?_ rfl rfl rfl rfl rfl | split
    | dsimp only)

theorem endPairFrame_keeps (s : State) : Keeps s (endPairFrame s) := by
  unfold endPairFrame
  repeat' (with_reducible first
    | apply Keeps.refl | apply Keeps.trans ?_ (startResync_keeps ..) | apply Keeps.trans ?_ (enterMode_keeps ..)
    | apply Keeps.trans ?_ (judgeFrame_keeps ..) | apply Keeps.ite | apply Keeps.of_snd (by assumption)
    | apply Keeps.of_fst (by assumption) | fail_if_no_progress refine Keeps.put rfl ?_ rfl rfl rfl rfl rfl | split
    | dsimp only)

theorem judgeAhead_keeps (s : State) : Keeps s (judgeAhead s) := by
  unfold judgeAhead
  repeat' (with_reducible first
    | apply Keeps.refl | apply Keeps.trans ?_ (endPairFrame_keeps ..) | apply Keeps.ite
    | apply Keeps.of_snd (by assumption) | apply Keeps.of_fst (by assumption)
    | fail_if_no_progress refine Keeps.put rfl ?_ rfl rfl rfl rfl rfl | split)

theorem execPairFrameEnd_keeps (s : State) : KeepsO s (execPairFrameEnd s) := by
  unfold execPairFrameEnd
  repeat' (with_reducible first
    | apply Keeps.refl | apply KeepsO.next | apply KeepsO.ite | apply KeepsO.trans ?_ (done_keeps ..)
    | apply Keeps.trans ?_ (atPairEnd_keeps ..) | apply Keeps.trans ?_ (endPairFrame_keeps ..) | apply Keeps.ite
    | fail_if_no_progress refine Keeps.put rfl ?_ rfl rfl rfl rfl rfl)

theorem slotsInForce_keeps (c : Nat) (s : State) : Keeps s (slotsInForce c s).2 := by
  unfold slotsInForce
  repeat' (with_reducible first
    | apply Keeps.refl | apply Keeps.foldl | apply Keeps.foldl_fst | apply Keeps.foldl_snd
    | apply Keeps.trans ?_ (slotData_keeps ..) | apply Keeps.of_snd (by assumption) | apply Keeps.of_fst (by assumption)
    | fail_if_no_progress refine Keeps.put rfl ?_ rfl rfl rfl rfl rfl | intro _ | split | dsimp only)

theorem bulkOf_keeps (c : Nat) (s : State) : Keeps s (bulkOf c s).2 := by
  unfold bulkOf
  repeat' (with_reducible first
    | apply Keeps.refl | apply Keeps.trans ?_ (slotsInForce_keeps ..) | apply Keeps.of_snd (by assumption)
    | apply Keeps.of_fst (by assumption) | intro _ | split | dsimp only)

theorem execResyncBulkDone_keeps (c : Nat) (frame : Nat) (bytes : Nat) (s : State) : KeepsO s (execResyncBulkDone c frame bytes s) := by
  unfold execResyncBulkDone
  repeat' (with_reducible first
    | apply Keeps.refl | apply KeepsO.next | apply KeepsO.ite | apply Keeps.trans ?_ (bulkOf_keeps ..)
    | apply Keeps.trans ?_ (sendVa_keeps ..) | apply Keeps.ite | apply Keeps.of_snd (by assumption)
    | apply Keeps.of_fst (by assumption) | fail_if_no_progress refine Keeps.put rfl ?_ rfl rfl rfl rfl rfl | intro _
    | split | dsimp only)

theorem joinChannel_keeps (c : Nat) (x : SmallState) (s : State) : Keeps s (joinChannel c x s) := by
  unfold joinChannel
  repeat' (with_reducible first
    | apply Keeps.refl | apply Keeps.foldl | apply Keeps.foldl_fst | apply Keeps.foldl_snd
    | apply Keeps.trans ?_ (modCtx_keeps ..) | apply Keeps.ite
    | fail_if_no_progress refine Keeps.put rfl ?_ rfl rfl rfl rfl rfl | intro _ | dsimp only)

theorem takeBulk_keeps (b : BulkState) (s : State) : Keeps s (takeBulk b s) := by
  unfold takeBulk
  repeat' (with_reducible first
    | apply Keeps.refl | apply Keeps.foldl | apply Keeps.foldl_fst | apply Keeps.foldl_snd
    | apply Keeps.trans ?_ (modCtx_keeps ..) | apply Keeps.trans ?_ (installSlot_keeps ..) | apply Keeps.ite
    | fail_if_no_progress refine Keeps.put rfl ?_ rfl rfl rfl rfl rfl | intro _ | dsimp only)

theorem execResyncSmallState_keeps (c : Nat) (bytes : Nat) (x : SmallState) (s : State) : KeepsO s (execResyncSmallState c bytes x s) := by
  unfold execResyncSmallState
  repeat' (with_reducible first
    | apply Keeps.refl | apply KeepsO.next | apply KeepsO.ite | apply Keeps.trans ?_ (sendVa_keeps ..)
    | apply Keeps.trans ?_ (joinChannel_keeps ..) | apply Keeps.ite
    | fail_if_no_progress refine Keeps.put rfl ?_ rfl rfl rfl rfl rfl | intro _ | dsimp only)

theorem skipSwap_keeps (s : State) : Keeps s (skipSwap s) := by
  unfold skipSwap
  repeat' (with_reducible first
    | apply Keeps.refl | apply Keeps.ite | fail_if_no_progress refine Keeps.put rfl ?_ rfl rfl rfl rfl rfl)

theorem execRoleSwapDue_keeps (frame : Nat) (s : State) : KeepsO s (execRoleSwapDue frame s) := by
  unfold execRoleSwapDue
  repeat' (with_reducible first
    | apply Keeps.refl | apply KeepsO.next | apply KeepsO.ite | apply Keeps.trans ?_ (noEarlier_keeps ..)
    | apply Keeps.trans ?_ (sendVa_keeps ..) | apply Keeps.trans ?_ (skipSwap_keeps ..) | apply Keeps.ite
    | apply Keeps.of_snd (by assumption) | apply Keeps.of_fst (by assumption)
    | fail_if_no_progress refine Keeps.put rfl ?_ rfl rfl rfl rfl rfl | split | dsimp only)

theorem countSwap_keeps (s : State) : Keeps s (countSwap s) := by
  unfold countSwap
  repeat' (with_reducible first
    | apply Keeps.refl | fail_if_no_progress refine Keeps.put rfl ?_ rfl rfl rfl rfl rfl)

theorem swapAt_keeps (frame : Nat) (s : State) : Keeps s (swapAt frame s) := by
  unfold swapAt
  repeat' (with_reducible first
    | apply Keeps.refl | apply enterMode_takeClaim | apply Keeps.trans ?_ (enterMode_keeps ..)
    | apply Keeps.trans ?_ (skipSwap_keeps ..) | apply Keeps.trans ?_ (countSwap_keeps ..) | apply Keeps.ite
    | fail_if_no_progress refine Keeps.put rfl ?_ rfl rfl rfl rfl rfl | dsimp only)

theorem swapInTurn_keeps (frame : Nat) (s : State) : Keeps s (swapInTurn frame s) := by
  unfold swapInTurn
  repeat' (with_reducible first
    | apply Keeps.refl | apply Keeps.trans ?_ (judgeAhead_keeps ..) | apply Keeps.trans ?_ (swapAt_keeps ..)
    | apply Keeps.ite | fail_if_no_progress refine Keeps.put rfl ?_ rfl rfl rfl rfl rfl | dsimp only)

theorem execRoleSwap_keeps (frame : Nat) (s : State) : KeepsO s (execRoleSwap frame s) := by
  unfold execRoleSwap
  repeat' (with_reducible first
    | apply Keeps.refl | apply KeepsO.next | apply KeepsO.ite | apply Keeps.trans ?_ (noEarlier_keeps ..)
    | apply KeepsO.trans ?_ (done_keeps ..) | apply Keeps.trans ?_ (swapInTurn_keeps ..) | apply Keeps.ite
    | apply Keeps.of_snd (by assumption) | apply Keeps.of_fst (by assumption)
    | fail_if_no_progress refine Keeps.put rfl ?_ rfl rfl rfl rfl rfl | split | dsimp only)

theorem swapIfDue_keeps (s : State) : Keeps s (swapIfDue s) := by
  unfold swapIfDue
  repeat' (with_reducible first
    | apply Keeps.refl | apply Keeps.trans ?_ (swapInTurn_keeps ..) | apply Keeps.ite
    | apply Keeps.of_snd (by assumption) | apply Keeps.of_fst (by assumption)
    | fail_if_no_progress refine Keeps.put rfl ?_ rfl rfl rfl rfl rfl | split)

theorem earlierTriggers_keeps (s : State) : Keeps s (earlierTriggers s) := by
  unfold earlierTriggers
  repeat' (with_reducible first
    | apply Keeps.refl | apply Keeps.trans ?_ (silencesDue_keeps ..) | apply Keeps.trans ?_ (judgeAhead_keeps ..)
    | apply Keeps.trans ?_ (swapIfDue_keeps ..))

theorem cmdRedSwapNow_keeps (r : Req) (s : State) : Keeps s (cmdRedSwapNow r s) := by
  unfold cmdRedSwapNow
  repeat' (with_reducible first
    | apply Keeps.refl | apply Keeps.trans ?_ (takeRequest_keeps (hbody := ?_) ..)
    | apply Keeps.trans ?_ (busy_keeps ..) | apply Keeps.ite
    | fail_if_no_progress refine Keeps.put rfl ?_ rfl rfl rfl rfl rfl | intro _)

theorem execRedSwapNow_keeps (r : Req) (s : State) : KeepsO s (execRedSwapNow r s) := by
  unfold execRedSwapNow
  repeat' (with_reducible first
    | apply Keeps.refl | apply KeepsO.trans ?_ (done_keeps ..) | apply Keeps.trans ?_ (cmdRedSwapNow_keeps ..))

theorem nameFrame_keeps (c : Nat) (s : State) : Keeps s (nameFrame c s).2 := by
  unfold nameFrame
  repeat' (with_reducible first
    | apply Keeps.refl | apply Keeps.trans ?_ (sendVa_keeps ..)
    | fail_if_no_progress refine Keeps.put rfl ?_ rfl rfl rfl rfl rfl | dsimp only)

theorem nameSwap_keeps (h : Held) (s : State) : Keeps s (nameSwap h s) := by
  unfold nameSwap
  repeat' (with_reducible first
    | apply Keeps.refl | apply Keeps.trans ?_ (nameFrame_keeps ..) | apply Keeps.trans ?_ (sendVa_keeps ..)
    | apply Keeps.trans ?_ (replyTo_keeps ..) | apply Keeps.ite | apply Keeps.of_snd (by assumption)
    | apply Keeps.of_fst (by assumption) | fail_if_no_progress refine Keeps.put rfl ?_ rfl rfl rfl rfl rfl | split
    | dsimp only)

theorem answerSwap_keeps (frame : Option Nat) (s : State) : Keeps s (answerSwap frame s) := by
  unfold answerSwap
  repeat' (with_reducible first
    | apply Keeps.refl | apply Keeps.trans ?_ (replyTo_keeps ..) | apply Keeps.of_snd (by assumption)
    | apply Keeps.of_fst (by assumption) | fail_if_no_progress refine Keeps.put rfl ?_ rfl rfl rfl rfl rfl | split
    | dsimp only)

theorem takeSwapFrame_keeps (n : Nat) (s : State) : Keeps s (takeSwapFrame n s) := by
  unfold takeSwapFrame
  repeat' (with_reducible first
    | apply Keeps.refl | apply Keeps.trans ?_ (answerSwap_keeps ..) | apply Keeps.ite
    | fail_if_no_progress refine Keeps.put rfl ?_ rfl rfl rfl rfl rfl)

theorem takeSwapAsk_keeps (s : State) : Keeps s (takeSwapAsk s) := by
  unfold takeSwapAsk
  repeat' (with_reducible first
    | apply Keeps.refl | apply Keeps.trans ?_ (nameFrame_keeps ..) | apply Keeps.trans ?_ (sendVa_keeps ..)
    | apply Keeps.ite | apply Keeps.of_snd (by assumption) | apply Keeps.of_fst (by assumption)
    | fail_if_no_progress refine Keeps.put rfl ?_ rfl rfl rfl rfl rfl | split)

theorem execMergeSwitch_keeps (k : Nat) (time : Nat) (unit : Nat) (s : State) : KeepsO s (execMergeSwitch k time unit s) := by
  unfold execMergeSwitch
  repeat' (with_reducible first
    | apply Keeps.refl | apply KeepsO.next | apply KeepsO.ite | apply Keeps.trans ?_ (modLeg_keeps ..) | apply Keeps.ite
    | apply Keeps.of_snd (by assumption) | apply Keeps.of_fst (by assumption)
    | fail_if_no_progress refine Keeps.put rfl ?_ rfl rfl rfl rfl rfl | intro _ | split)

theorem passAtOnce_keeps (k : Nat) (q : PairPacket) (s : State) : Keeps s (passAtOnce k q s) := by
  unfold passAtOnce
  repeat' (with_reducible first
    | apply Keeps.refl | apply Keeps.trans ?_ (turnForwarded_keeps ..) | apply Keeps.ite
    | apply Keeps.of_snd (by assumption) | apply Keeps.of_fst (by assumption)
    | fail_if_no_progress refine Keeps.put rfl ?_ rfl rfl rfl rfl rfl | split | dsimp only)

theorem execPartnerPacketReceive_keeps (k : Nat) (q : PairPacket) (s : State) : KeepsO s (execPartnerPacketReceive k q s) := by
  unfold execPartnerPacketReceive
  repeat' (with_reducible first
    | apply Keeps.refl | apply KeepsO.next | apply KeepsO.ite | apply Keeps.trans ?_ (raise_keeps ..)
    | apply KeepsO.trans ?_ (done_keeps ..) | apply Keeps.trans ?_ (modLeg_keeps ..)
    | apply Keeps.trans ?_ (setHealth_keeps ..) | apply Keeps.trans ?_ (passAtOnce_keeps ..) | apply Keeps.ite
    | apply Keeps.of_snd (by assumption) | apply Keeps.of_fst (by assumption)
    | fail_if_no_progress refine Keeps.put rfl ?_ rfl rfl rfl rfl rfl | intro _ | split | dsimp only)

theorem answerForward_keeps (f : Option Fwd) (frame : Nat) (s : State) : Keeps s (answerForward f frame s) := by
  unfold answerForward
  repeat' (with_reducible first
    | apply Keeps.refl | apply Keeps.trans ?_ (replyTo_keeps ..) | apply Keeps.trans ?_ (itemDecided_keeps ..)
    | apply Keeps.of_snd (by assumption) | apply Keeps.of_fst (by assumption)
    | fail_if_no_progress refine Keeps.put rfl ?_ rfl rfl rfl rfl rfl | split)

theorem decideForwarded_keeps (c : Nat) (target : Nat) (ch : Chan) (change : ShadowChange) (s : State) : Keeps s (decideForwarded c target ch change s) := by
  unfold decideForwarded
  repeat' (with_reducible first
    | apply Keeps.refl | apply Keeps.trans ?_ (commitBoth_keeps ..) | apply Keeps.trans ?_ (startCopy_keeps ..)
    | apply Keeps.of_snd (by assumption) | apply Keeps.of_fst (by assumption)
    | fail_if_no_progress refine Keeps.put rfl ?_ rfl rfl rfl rfl rfl | split | dsimp only)

theorem takeRate_keeps (k : Nat) (rate : Nat) (depth : Nat) (s : State) : Keeps s (takeRate k rate depth s) := by
  unfold takeRate
  repeat' (with_reducible first
    | apply Keeps.refl | apply Keeps.trans ?_ (modLeg_keeps ..) | apply Keeps.ite
    | fail_if_no_progress refine Keeps.put rfl ?_ rfl rfl rfl rfl rfl | intro _)

theorem takeGates_keeps (p : Nat) (cycle : Nat) (base : Nat) (start : Nat) (entries : List (Nat × Nat)) (s : State) : Keeps s (takeGates p cycle base start entries s) := by
  unfold takeGates
  repeat' (with_reducible first
    | apply Keeps.refl | apply Keeps.trans ?_ (setEgrPort_keeps ..) | apply Keeps.ite
    | fail_if_no_progress refine Keeps.put rfl ?_ rfl rfl rfl rfl rfl | intro _)

theorem receiveChange_keeps (c : Nat) (target : Nat) (change : ShadowChange) (s : State) : KeepsO s (receiveChange c target change s) := by
  unfold receiveChange
  repeat' (with_reducible first
    | apply Keeps.refl | apply KeepsO.next | apply KeepsO.ite | apply Keeps.trans ?_ (commitAt_keeps ..)
    | apply KeepsO.trans ?_ (done_keeps ..) | apply Keeps.trans ?_ (answerForward_keeps ..)
    | apply Keeps.trans ?_ (decideForwarded_keeps ..) | apply Keeps.ite | apply Keeps.of_snd (by assumption)
    | apply Keeps.of_fst (by assumption) | fail_if_no_progress refine Keeps.put rfl ?_ rfl rfl rfl rfl rfl | intro _
    | split | dsimp only)

theorem execForwardedChangeReceive_keeps (c : Nat) (target : Nat) (change : ShadowChange) (s : State) : KeepsO s (execForwardedChangeReceive c target change s) := by
  unfold execForwardedChangeReceive
  repeat' (with_reducible first
    | apply Keeps.refl | apply KeepsO.next | apply KeepsO.ite | apply Keeps.trans ?_ (takeRate_keeps ..)
    | apply Keeps.trans ?_ (takeGates_keeps ..) | apply KeepsO.trans ?_ (receiveChange_keeps ..) | apply Keeps.ite
    | apply Keeps.of_snd (by assumption) | apply Keeps.of_fst (by assumption)
    | fail_if_no_progress refine Keeps.put rfl ?_ rfl rfl rfl rfl rfl | split)

theorem healthSecond_keeps (s : State) : Keeps s (healthSecond s) := by
  unfold healthSecond
  repeat' (with_reducible first
    | apply Keeps.refl | apply Keeps.trans ?_ (sendVa_keeps ..) | apply Keeps.trans ?_ (sendEvent_keeps ..)
    | apply Keeps.ite | fail_if_no_progress refine Keeps.put rfl ?_ rfl rfl rfl rfl rfl | dsimp only)

theorem cmdRedPairInfo_keeps (r : Req) (s : State) : Keeps s (cmdRedPairInfo r s) := by
  unfold cmdRedPairInfo
  repeat' (with_reducible first
    | apply Keeps.refl | apply Keeps.foldl | apply Keeps.foldl_fst | apply Keeps.foldl_snd
    | apply Keeps.trans ?_ (reply_keeps ..) | apply Keeps.trans ?_ (takeRequest_keeps (hbody := ?_) ..) | intro _)

theorem execRedPairInfo_keeps (r : Req) (s : State) : KeepsO s (execRedPairInfo r s) := by
  unfold execRedPairInfo
  repeat' (with_reducible first
    | apply Keeps.refl | apply KeepsO.trans ?_ (done_keeps ..) | apply Keeps.trans ?_ (cmdRedPairInfo_keeps ..))

end Sys2Proof.Machine
end

