-- ==== Sys2Proof/Laws/KeepsDispatcher.lean ====
section
/-! SUPPORT. What the operations of Machine/Dispatcher.lean keep (Laws/Keeps.lean). -/

set_option linter.unusedTactic false
set_option linter.unreachableTactic false

namespace Sys2Proof.Machine

open Sys2Proof.Safety

theorem execBoxCoreSelftestDone_keeps (passing : List Nat) (s : State) : KeepsO s (execBoxCoreSelftestDone passing s) := by
  unfold execBoxCoreSelftestDone
  repeat' (with_reducible first
    | apply Keeps.refl | apply KeepsO.next | apply KeepsO.ite | apply Keeps.trans ?_ (raise_keeps ..)
    | apply Keeps.trans ?_ (setPvd_keeps ..) | apply KeepsO.trans ?_ (done_keeps ..) | apply Keeps.ite
    | fail_if_no_progress refine Keeps.put rfl ?_ rfl rfl rfl rfl rfl | intro _ | dsimp only)

theorem takeDispatcher_keeps (c : Nat) (s : State) : Keeps s (takeDispatcher c s) := by
  unfold takeDispatcher
  repeat' (with_reducible first
    | apply Keeps.refl | apply Keeps.trans ?_ (setPvd_keeps ..)
    | fail_if_no_progress refine Keeps.put rfl ?_ rfl rfl rfl rfl rfl | intro _)

theorem enterItem_keeps (w : WorkItem) (s : State) : Keeps s (enterItem w s) := by
  unfold enterItem
  repeat' (with_reducible first
    | apply Keeps.refl | apply Keeps.trans ?_ (submit_keeps ..) | intro _)

theorem holdPost_keeps (w : WorkItem) (q : Nat) (fresh : Bool) (s : State) : Keeps s (holdPost w q fresh s) := by
  unfold holdPost
  repeat' (with_reducible first
    | apply Keeps.refl | apply Keeps.trans ?_ (raise_keeps ..) | apply Keeps.trans ?_ (setPvd_keeps ..)
    | apply Keeps.ite | fail_if_no_progress refine Keeps.put rfl ?_ rfl rfl rfl rfl rfl | intro _ | dsimp only)

theorem execWorkItemPost_keeps (w : WorkItem) (s : State) : KeepsO s (execWorkItemPost w s) := by
  unfold execWorkItemPost
  repeat' (with_reducible first
    | apply Keeps.refl | apply KeepsO.next | apply KeepsO.ite | apply KeepsO.trans ?_ (done_keeps ..)
    | apply Keeps.trans ?_ (enterItem_keeps ..) | apply Keeps.trans ?_ (holdPost_keeps ..) | apply Keeps.ite
    | apply Keeps.of_snd (by assumption) | apply Keeps.of_fst (by assumption)
    | fail_if_no_progress refine Keeps.put rfl ?_ rfl rfl rfl rfl rfl | intro _ | split | dsimp only)

theorem releasePosts_keeps (l : List WorkItem) (s : State) : Keeps s (releasePosts l s) := by
  induction l generalizing s with
  | nil => exact Keeps.refl _
  | cons w l ih =>
    unfold releasePosts
    split
    · exact (enterItem_keeps ..).trans (ih _)
    · exact (holdPost_keeps ..).trans (ih _)
    · exact (setPvd_keeps ..).trans (ih _)

theorem execProducerStallRelease_keeps (q : Nat) (s : State) : KeepsO s (execProducerStallRelease q s) := by
  unfold execProducerStallRelease
  repeat' (with_reducible first
    | apply Keeps.refl | apply KeepsO.next | apply KeepsO.ite | apply Keeps.trans ?_ (setPvd_keeps ..)
    | apply KeepsO.trans ?_ (done_keeps ..) | apply Keeps.trans ?_ (releasePosts_keeps ..) | apply Keeps.ite
    | fail_if_no_progress refine Keeps.put rfl ?_ rfl rfl rfl rfl rfl | intro _)

theorem execCounterArm_keeps (k : Nat) (value : Nat) (s : State) : KeepsO s (execCounterArm k value s) := by
  unfold execCounterArm
  repeat' (with_reducible first
    | apply Keeps.refl | apply KeepsO.next | apply KeepsO.ite | apply Keeps.trans ?_ (setPvd_keeps ..)
    | apply Keeps.trans ?_ (counterFault_keeps ..) | apply KeepsO.trans ?_ (done_keeps ..) | apply Keeps.ite
    | fail_if_no_progress refine Keeps.put rfl ?_ rfl rfl rfl rfl rfl | intro _ | dsimp only)

theorem execParkedItemWake_keeps (flow : Nat) (seq : Nat) (s : State) : KeepsO s (execParkedItemWake flow seq s) := by
  unfold execParkedItemWake
  repeat' (with_reducible first
    | apply Keeps.refl | apply KeepsO.next | apply KeepsO.ite | apply Keeps.trans ?_ (noEarlier_keeps ..)
    | apply Keeps.trans ?_ (setItem_keeps ..) | apply Keeps.trans ?_ (promote_keeps ..)
    | apply KeepsO.trans ?_ (done_keeps ..) | apply Keeps.ite | apply Keeps.of_snd (by assumption)
    | apply Keeps.of_fst (by assumption) | fail_if_no_progress refine Keeps.put rfl ?_ rfl rfl rfl rfl rfl | intro _
    | split | dsimp only)

theorem execCoreTakeItem_keeps (k : Nat) (s : State) : KeepsO s (execCoreTakeItem k s) := by
  unfold execCoreTakeItem
  repeat' (with_reducible first
    | apply Keeps.refl | apply KeepsO.next | apply KeepsO.ite | apply Keeps.trans ?_ (setItem_keeps ..)
    | apply Keeps.trans ?_ (promote_keeps ..) | apply Keeps.trans ?_ (setCore_keeps ..)
    | apply Keeps.trans ?_ (busy_keeps ..) | apply Keeps.ite | apply Keeps.of_snd (by assumption)
    | apply Keeps.of_fst (by assumption) | fail_if_no_progress refine Keeps.put rfl ?_ rfl rfl rfl rfl rfl | intro _
    | split | dsimp only)

theorem execWorkItemComplete_keeps (k : Nat) (retry : Bool) (s : State) : KeepsO s (execWorkItemComplete k retry s) := by
  unfold execWorkItemComplete
  repeat' (with_reducible first
    | apply Keeps.refl | apply KeepsO.next | apply KeepsO.ite | apply Keeps.trans ?_ (setItem_keeps ..)
    | apply Keeps.trans ?_ (release_keeps ..) | apply Keeps.trans ?_ (retryItem_keeps ..)
    | apply Keeps.trans ?_ (freeCore_keeps ..) | apply KeepsO.trans ?_ (done_keeps ..) | apply Keeps.ite
    | apply Keeps.of_snd (by assumption) | apply Keeps.of_fst (by assumption)
    | fail_if_no_progress refine Keeps.put rfl ?_ rfl rfl rfl rfl rfl | intro _ | split | dsimp only)

theorem execRetryBackoffExpiry_keeps (flow : Nat) (seq : Nat) (s : State) : KeepsO s (execRetryBackoffExpiry flow seq s) := by
  unfold execRetryBackoffExpiry
  repeat' (with_reducible first
    | apply Keeps.refl | apply KeepsO.next | apply KeepsO.ite | apply Keeps.trans ?_ (noEarlier_keeps ..)
    | apply Keeps.trans ?_ (setItem_keeps ..) | apply Keeps.trans ?_ (promote_keeps ..) | apply Keeps.ite
    | apply Keeps.of_snd (by assumption) | apply Keeps.of_fst (by assumption)
    | fail_if_no_progress refine Keeps.put rfl ?_ rfl rfl rfl rfl rfl | intro _ | split)

theorem execItemWatchdog_keeps (k : Nat) (s : State) : KeepsO s (execItemWatchdog k s) := by
  unfold execItemWatchdog
  repeat' (with_reducible first
    | apply Keeps.refl | apply KeepsO.next | apply KeepsO.ite | apply Keeps.trans ?_ (noEarlier_keeps ..)
    | apply Keeps.trans ?_ (raise_keeps ..) | apply Keeps.trans ?_ (setPvd_keeps ..)
    | apply Keeps.trans ?_ (dropCoreItem_keeps ..) | apply KeepsO.trans ?_ (done_keeps ..) | apply Keeps.ite
    | apply Keeps.of_snd (by assumption) | apply Keeps.of_fst (by assumption)
    | fail_if_no_progress refine Keeps.put rfl ?_ rfl rfl rfl rfl rfl | intro _ | split | dsimp only)

theorem execWorkItemDeadline_keeps (flow : Nat) (seq : Nat) (s : State) : KeepsO s (execWorkItemDeadline flow seq s) := by
  unfold execWorkItemDeadline
  repeat' (with_reducible first
    | apply Keeps.refl | apply KeepsO.next | apply KeepsO.ite | apply Keeps.trans ?_ (noEarlier_keeps ..)
    | apply Keeps.trans ?_ (setPvd_keeps ..) | apply Keeps.trans ?_ (emptyItem_keeps ..)
    | apply KeepsO.trans ?_ (done_keeps ..) | apply Keeps.ite | apply Keeps.of_snd (by assumption)
    | apply Keeps.of_fst (by assumption) | fail_if_no_progress refine Keeps.put rfl ?_ rfl rfl rfl rfl rfl | intro _
    | split | dsimp only)

theorem utilSecond_keeps (s : State) : Keeps s (utilSecond s) := by
  unfold utilSecond
  repeat' (with_reducible first
    | apply Keeps.refl | apply Keeps.foldl | apply Keeps.foldl_fst | apply Keeps.foldl_snd
    | apply Keeps.trans ?_ (setPvd_keeps ..) | apply Keeps.trans ?_ (noteBusy_keeps ..)
    | fail_if_no_progress refine Keeps.put rfl ?_ rfl rfl rfl rfl rfl | intro _ | dsimp only)

theorem execRateQuotaPeriod_keeps (s : State) : KeepsO s (execRateQuotaPeriod s) := by
  unfold execRateQuotaPeriod
  repeat' (with_reducible first
    | apply Keeps.refl | apply KeepsO.next | apply KeepsO.ite | apply Keeps.trans ?_ (atBoundary_keeps ..)
    | apply Keeps.trans ?_ (setPvd_keeps ..) | apply Keeps.ite | apply Keeps.of_snd (by assumption)
    | apply Keeps.of_fst (by assumption) | fail_if_no_progress refine Keeps.put rfl ?_ rfl rfl rfl rfl rfl | intro _
    | split | dsimp only)

theorem recPartitionQuota_keeps (b : Bytes) (s : State) : Keeps s (recPartitionQuota b s) := by
  unfold recPartitionQuota
  repeat' (with_reducible first
    | apply Keeps.refl | apply Keeps.trans ?_ (setQuota_keeps ..) | apply Keeps.trans ?_ (orphan_keeps ..)
    | apply Keeps.trans ?_ (applied_keeps ..) | apply Keeps.trans ?_ (sized_keeps (hbody := ?_) ..) | apply Keeps.ite
    | fail_if_no_progress refine Keeps.put rfl ?_ rfl rfl rfl rfl rfl | intro _ | dsimp only)

theorem execPartitionQuotaRecord_keeps (b : Bytes) (s : State) : KeepsO s (execPartitionQuotaRecord b s) := by
  unfold execPartitionQuotaRecord
  repeat' (with_reducible first
    | apply Keeps.refl | assumption | apply KeepsO.next | exact KeepsO.fault | apply KeepsO.ite
    | apply KeepsO.trans ?_ (recordCommand_keeps (hbody := ?_) ..) | apply Keeps.trans ?_ (recPartitionQuota_keeps ..)
    | apply Keeps.ite | apply Keeps.of_snd (by assumption) | apply Keeps.of_fst (by assumption)
    | fail_if_no_progress refine Keeps.put rfl ?_ rfl rfl rfl rfl rfl | intro _ | split | dsimp only)

theorem submitHost_keeps (p : Nat) (cls : Nat) (r : Req) (c : Nat) (named : Nat) (change : ShadowChange) (clamped : Bool) (s : State) : Keeps s (submitHost p cls r c named change clamped s) := by
  unfold submitHost
  repeat' (with_reducible first
    | apply Keeps.refl | apply Keeps.trans ?_ (setQuota_keeps ..) | apply Keeps.trans ?_ (reply_keeps ..)
    | apply Keeps.trans ?_ (submit_keeps ..) | apply Keeps.trans ?_ (busy_keeps ..) | apply Keeps.ite
    | apply Keeps.of_snd (by assumption) | apply Keeps.of_fst (by assumption)
    | fail_if_no_progress refine Keeps.put rfl ?_ rfl rfl rfl rfl rfl | intro _ | split | dsimp only)

theorem cmdReferenceAction_keeps (loss : Bool) (r : Req) (s : State) : Keeps s (cmdReferenceAction loss r s) := by
  unfold cmdReferenceAction
  repeat' (with_reducible first
    | apply Keeps.refl | apply Keeps.trans ?_ (reply_keeps ..)
    | apply Keeps.trans ?_ (takeRequest_keeps (hbody := ?_) ..) | apply Keeps.trans ?_ (submitHost_keeps ..)
    | apply Keeps.ite | apply Keeps.of_snd (by assumption) | apply Keeps.of_fst (by assumption)
    | fail_if_no_progress refine Keeps.put rfl ?_ rfl rfl rfl rfl rfl | intro _ | split | dsimp only)

theorem execReferenceActionAck_keeps (r : Req) (s : State) : KeepsO s (execReferenceActionAck r s) := by
  unfold execReferenceActionAck
  repeat' (with_reducible first
    | apply Keeps.refl | apply KeepsO.trans ?_ (done_keeps ..) | apply Keeps.trans ?_ (cmdReferenceAction_keeps ..))

theorem execReferenceActionLoss_keeps (r : Req) (s : State) : KeepsO s (execReferenceActionLoss r s) := by
  unfold execReferenceActionLoss
  repeat' (with_reducible first
    | apply Keeps.refl | apply KeepsO.trans ?_ (done_keeps ..) | apply Keeps.trans ?_ (cmdReferenceAction_keeps ..))

theorem cmdOverlayUpdate_keeps (graphics : Bool) (r : Req) (s : State) : Keeps s (cmdOverlayUpdate graphics r s) := by
  unfold cmdOverlayUpdate
  repeat' (with_reducible first
    | apply Keeps.refl | apply Keeps.trans ?_ (reply_keeps ..)
    | apply Keeps.trans ?_ (takeRequest_keeps (hbody := ?_) ..) | apply Keeps.trans ?_ (submitHost_keeps ..)
    | apply Keeps.ite | intro _ | dsimp only)

theorem execOverlayUpdateGraphics_keeps (r : Req) (s : State) : KeepsO s (execOverlayUpdateGraphics r s) := by
  unfold execOverlayUpdateGraphics
  repeat' (with_reducible first
    | apply Keeps.refl | apply KeepsO.trans ?_ (done_keeps ..) | apply Keeps.trans ?_ (cmdOverlayUpdate_keeps ..))

theorem execOverlayUpdateExpected_keeps (r : Req) (s : State) : KeepsO s (execOverlayUpdateExpected r s) := by
  unfold execOverlayUpdateExpected
  repeat' (with_reducible first
    | apply Keeps.refl | apply KeepsO.trans ?_ (done_keeps ..) | apply Keeps.trans ?_ (cmdOverlayUpdate_keeps ..))

theorem cmdSpliceInsertion_keeps (r : Req) (s : State) : Keeps s (cmdSpliceInsertion r s) := by
  unfold cmdSpliceInsertion
  repeat' (with_reducible first
    | apply Keeps.refl | apply Keeps.trans ?_ (reply_keeps ..)
    | apply Keeps.trans ?_ (takeRequest_keeps (hbody := ?_) ..) | apply Keeps.trans ?_ (submitHost_keeps ..)
    | apply Keeps.ite | apply Keeps.of_snd (by assumption) | apply Keeps.of_fst (by assumption)
    | fail_if_no_progress refine Keeps.put rfl ?_ rfl rfl rfl rfl rfl | intro _ | split | dsimp only)

theorem execSpliceInsertion_keeps (r : Req) (s : State) : KeepsO s (execSpliceInsertion r s) := by
  unfold execSpliceInsertion
  repeat' (with_reducible first
    | apply Keeps.refl | apply KeepsO.trans ?_ (done_keeps ..) | apply Keeps.trans ?_ (cmdSpliceInsertion_keeps ..))

theorem cmdSeiInsertion_keeps (r : Req) (s : State) : Keeps s (cmdSeiInsertion r s) := by
  unfold cmdSeiInsertion
  repeat' (with_reducible first
    | apply Keeps.refl | apply Keeps.trans ?_ (reply_keeps ..)
    | apply Keeps.trans ?_ (takeRequest_keeps (hbody := ?_) ..) | apply Keeps.trans ?_ (submitHost_keeps ..)
    | apply Keeps.ite | apply Keeps.of_snd (by assumption) | apply Keeps.of_fst (by assumption)
    | fail_if_no_progress refine Keeps.put rfl ?_ rfl rfl rfl rfl rfl | intro _ | split | dsimp only)

theorem execSeiInsertion_keeps (r : Req) (s : State) : KeepsO s (execSeiInsertion r s) := by
  unfold execSeiInsertion
  repeat' (with_reducible first
    | apply Keeps.refl | apply KeepsO.trans ?_ (done_keeps ..) | apply Keeps.trans ?_ (cmdSeiInsertion_keeps ..))

theorem cmdPvdSubmitUnknownClass_keeps (r : Req) (s : State) : Keeps s (cmdPvdSubmitUnknownClass r s) := by
  unfold cmdPvdSubmitUnknownClass
  repeat' (with_reducible first
    | apply Keeps.refl | apply Keeps.trans ?_ (reply_keeps ..)
    | apply Keeps.trans ?_ (takeRequest_keeps (hbody := ?_) ..) | intro _)

theorem execPvdSubmitUnknownClass_keeps (r : Req) (s : State) : KeepsO s (execPvdSubmitUnknownClass r s) := by
  unfold execPvdSubmitUnknownClass
  repeat' (with_reducible first
    | apply Keeps.refl | apply KeepsO.trans ?_ (done_keeps ..)
    | apply Keeps.trans ?_ (cmdPvdSubmitUnknownClass_keeps ..))

theorem execGraphicsSlotRelease_keeps (c : Nat) (l : Nat) (s : State) : KeepsO s (execGraphicsSlotRelease c l s) := by
  unfold execGraphicsSlotRelease
  repeat' (with_reducible first
    | apply Keeps.refl | apply KeepsO.next | apply KeepsO.ite | apply Keeps.trans ?_ (noEarlier_keeps ..)
    | apply Keeps.trans ?_ (finishItem_keeps ..) | apply KeepsO.trans ?_ (done_keeps ..)
    | apply Keeps.trans ?_ (setCmp_keeps ..) | apply Keeps.ite | apply Keeps.of_snd (by assumption)
    | apply Keeps.of_fst (by assumption) | fail_if_no_progress refine Keeps.put rfl ?_ rfl rfl rfl rfl rfl | intro _
    | split | dsimp only)

theorem decideCopied_keeps (c : Nat) (d : SlotCopy) (ch : Chan) (s : State) : Keeps s (decideCopied c d ch s) := by
  unfold decideCopied
  repeat' (with_reducible first
    | apply Keeps.refl | apply Keeps.trans ?_ (commitItem_keeps ..) | apply Keeps.trans ?_ (commitBoth_keeps ..)
    | apply Keeps.trans ?_ (refuseItem_keeps ..) | apply Keeps.ite | apply Keeps.of_snd (by assumption)
    | apply Keeps.of_fst (by assumption) | fail_if_no_progress refine Keeps.put rfl ?_ rfl rfl rfl rfl rfl | intro _
    | split | dsimp only)

theorem execGraphicsSlotCopyDone_keeps (c : Nat) (l : Nat) (s : State) : KeepsO s (execGraphicsSlotCopyDone c l s) := by
  unfold execGraphicsSlotCopyDone
  repeat' (with_reducible first
    | apply Keeps.refl | apply KeepsO.next | apply KeepsO.trans ?_ (done_keeps ..)
    | apply Keeps.trans ?_ (decideCopied_keeps ..) | apply Keeps.of_snd (by assumption)
    | apply Keeps.of_fst (by assumption) | fail_if_no_progress refine Keeps.put rfl ?_ rfl rfl rfl rfl rfl | intro _
    | split | dsimp only)

end Sys2Proof.Machine
end

