-- ==== Sys2Proof/Laws/KeepsMemory.lean ====
section
/-! SUPPORT. What the operations of Machine/Memory.lean keep (Laws/Keeps.lean). -/

set_option linter.unusedTactic false
set_option linter.unreachableTactic false

namespace Sys2Proof.Machine

open Sys2Proof.Safety

theorem setPc_keeps (s : State) (p : Nat) (f : Pc → Pc) : Keeps s (setPc s p f) := by
  unfold setPc
  repeat' (with_reducible first
    | apply Keeps.refl | fail_if_no_progress refine Keeps.put rfl ?_ rfl rfl rfl rfl rfl)

theorem countLevel3_keeps (q : Nat) (s : State) : Keeps s (countLevel3 q s) := by
  unfold countLevel3
  repeat' (with_reducible first
    | apply Keeps.refl | fail_if_no_progress refine Keeps.put rfl ?_ rfl rfl rfl rfl rfl | intro _)

theorem noteLate_keeps (p : Nat) (l : List HbmWait) (s : State) : Keeps s (noteLate p l s) := by
  unfold noteLate
  repeat' (with_reducible first
    | apply Keeps.refl | apply Keeps.foldl | apply Keeps.foldl_fst | apply Keeps.foldl_snd
    | apply Keeps.trans ?_ (setPc_keeps ..) | apply Keeps.trans ?_ (countLevel3_keeps ..)
    | fail_if_no_progress refine Keeps.put rfl ?_ rfl rfl rfl rfl rfl | intro _ | dsimp only)

theorem leaveOpen_keeps (w : HbmRequest) (s : State) : Keeps s (leaveOpen w s) := by
  unfold leaveOpen
  repeat' (with_reducible first
    | apply Keeps.refl | apply Keeps.trans ?_ (setPc_keeps ..)
    | fail_if_no_progress refine Keeps.put rfl ?_ rfl rfl rfl rfl rfl | intro _ | dsimp only)

theorem issueAll_keeps (n : Nat) (l : List HbmRequest) (s : State) : Keeps s (issueAll n l s) := by
  induction n generalizing l s with
  | zero => exact Keeps.refl _
  | succ n ih =>
    unfold issueAll
    split
    · exact Keeps.refl _
    · exact ((Keeps.ite (countLevel3_keeps ..) (Keeps.refl s)).trans (leaveOpen_keeps ..)).trans (ih _ _)

theorem refresh_keeps (p : Nat) (s : State) : Keeps s (refresh p s) := by
  unfold refresh
  repeat' (with_reducible first
    | apply Keeps.refl | apply Keeps.trans ?_ (setPc_keeps ..) | apply Keeps.ite
    | fail_if_no_progress refine Keeps.put rfl ?_ rfl rfl rfl rfl rfl | intro _)

theorem atRefresh_keeps (p : Nat) (s : State) : Keeps s (atRefresh p s) := by
  unfold atRefresh
  repeat' (with_reducible first
    | apply Keeps.refl | apply Keeps.trans ?_ (noEarlier_keeps ..) | apply Keeps.trans ?_ (setPc_keeps ..)
    | fail_if_no_progress refine Keeps.put rfl ?_ rfl rfl rfl rfl rfl | intro _ | dsimp only)

theorem execRefreshDue_keeps (p : Nat) (requests : List HbmWait) (s : State) : KeepsO s (execRefreshDue p requests s) := by
  unfold execRefreshDue
  repeat' (with_reducible first
    | apply Keeps.refl | apply KeepsO.next | apply KeepsO.ite | apply Keeps.trans ?_ (raise_keeps ..)
    | apply KeepsO.trans ?_ (done_keeps ..) | apply Keeps.trans ?_ (setPc_keeps ..)
    | apply Keeps.trans ?_ (noteLate_keeps ..) | apply Keeps.trans ?_ (refresh_keeps ..)
    | apply Keeps.trans ?_ (atRefresh_keeps ..) | apply Keeps.ite
    | fail_if_no_progress refine Keeps.put rfl ?_ rfl rfl rfl rfl rfl | intro _ | dsimp only)

theorem execPostponedRefreshIssue_keeps (p : Nat) (s : State) : KeepsO s (execPostponedRefreshIssue p s) := by
  unfold execPostponedRefreshIssue
  repeat' (with_reducible first
    | apply Keeps.refl | apply KeepsO.next | apply KeepsO.ite | apply Keeps.trans ?_ (refresh_keeps ..)
    | apply Keeps.ite)

theorem atReading_keeps (k : Nat) (s : State) : Keeps s (atReading k s) := by
  unfold atReading
  repeat' (with_reducible first
    | apply Keeps.refl | apply Keeps.trans ?_ (noEarlier_keeps ..) | apply Keeps.trans ?_ (setStack_keeps ..)
    | apply Keeps.trans ?_ (readAt_keeps ..) | fail_if_no_progress refine Keeps.put rfl ?_ rfl rfl rfl rfl rfl | intro _
    | dsimp only)

theorem execStackTemperatureRead_keeps (k : Nat) (c : Int) (s : State) : KeepsO s (execStackTemperatureRead k c s) := by
  unfold execStackTemperatureRead
  repeat' (with_reducible first
    | apply Keeps.refl | apply KeepsO.next | apply KeepsO.ite | apply Keeps.foldl | apply Keeps.foldl_fst
    | apply Keeps.foldl_snd | apply Keeps.trans ?_ (setStack_keeps ..) | apply Keeps.trans ?_ (atReading_keeps ..)
    | apply Keeps.ite | fail_if_no_progress refine Keeps.put rfl ?_ rfl rfl rfl rfl rfl | intro _ | dsimp only)

theorem execSelfRefreshEntry_keeps (k : Nat) (s : State) : KeepsO s (execSelfRefreshEntry k s) := by
  unfold execSelfRefreshEntry
  repeat' (with_reducible first
    | apply Keeps.refl | apply KeepsO.next | apply KeepsO.ite | apply Keeps.trans ?_ (noEarlier_keeps ..)
    | apply Keeps.trans ?_ (setStack_keeps ..) | apply Keeps.ite | apply Keeps.of_snd (by assumption)
    | apply Keeps.of_fst (by assumption) | fail_if_no_progress refine Keeps.put rfl ?_ rfl rfl rfl rfl rfl | intro _
    | split)

theorem execSelfRefreshEntryDone_keeps (k : Nat) (s : State) : KeepsO s (execSelfRefreshEntryDone k s) := by
  unfold execSelfRefreshEntryDone
  repeat' (with_reducible first
    | apply Keeps.refl | apply KeepsO.next | apply KeepsO.ite | apply Keeps.trans ?_ (setStack_keeps ..)
    | apply Keeps.trans ?_ (beginExit_keeps ..) | apply Keeps.ite
    | fail_if_no_progress refine Keeps.put rfl ?_ rfl rfl rfl rfl rfl | intro _)

theorem requestOn_keeps (q : Nat) (a : Nat) (s : State) : Keeps s (requestOn q a s) := by
  unfold requestOn
  repeat' (with_reducible first
    | apply Keeps.refl | apply Keeps.trans ?_ (setStack_keeps ..) | apply Keeps.trans ?_ (beginExit_keeps ..)
    | apply Keeps.trans ?_ (leaveOpen_keeps ..) | apply Keeps.of_snd (by assumption)
    | apply Keeps.of_fst (by assumption) | fail_if_no_progress refine Keeps.put rfl ?_ rfl rfl rfl rfl rfl | intro _
    | split | dsimp only)

theorem execHbmRequestWake_keeps (a : Nat) (c : HbmClient) (s : State) : KeepsO s (execHbmRequestWake a c s) := by
  unfold execHbmRequestWake
  repeat' (with_reducible first
    | apply Keeps.refl | apply KeepsO.next | apply KeepsO.ite | apply Keeps.trans ?_ (requestOn_keeps ..)
    | apply Keeps.ite | apply Keeps.of_snd (by assumption) | apply Keeps.of_fst (by assumption)
    | fail_if_no_progress refine Keeps.put rfl ?_ rfl rfl rfl rfl rfl | split)

theorem finishWrite_keeps (w : HeldWrite) (s : State) : Keeps s (finishWrite w s) := by
  unfold finishWrite
  repeat' (with_reducible first
    | apply Keeps.refl | apply Keeps.trans ?_ (hbmWrite_keeps ..) | apply Keeps.trans ?_ (replyTo_keeps ..)
    | apply Keeps.ite)

theorem writeBuffer_keeps (w : HeldWrite) (s : State) : Keeps s (writeBuffer w s) := by
  unfold writeBuffer
  repeat' (with_reducible first
    | apply Keeps.refl | apply Keeps.foldl | apply Keeps.foldl_fst | apply Keeps.foldl_snd
    | apply Keeps.trans ?_ (requestOn_keeps ..) | apply Keeps.trans ?_ (finishWrite_keeps ..) | apply Keeps.ite
    | fail_if_no_progress refine Keeps.put rfl ?_ rfl rfl rfl rfl rfl | intro _ | dsimp only)

theorem flushWrites_keeps (s : State) : Keeps s (flushWrites s) := by
  unfold flushWrites
  repeat' (with_reducible first
    | apply Keeps.refl | apply Keeps.foldl | apply Keeps.foldl_fst | apply Keeps.foldl_snd
    | apply Keeps.trans ?_ (finishWrite_keeps ..) | apply Keeps.ite
    | fail_if_no_progress refine Keeps.put rfl ?_ rfl rfl rfl rfl rfl | intro _)

theorem execSelfRefreshExitDone_keeps (k : Nat) (s : State) : KeepsO s (execSelfRefreshExitDone k s) := by
  unfold execSelfRefreshExitDone
  repeat' (with_reducible first
    | apply Keeps.refl | apply KeepsO.next | apply KeepsO.ite | apply Keeps.trans ?_ (noEarlier_keeps ..)
    | apply Keeps.trans ?_ (setStack_keeps ..) | apply Keeps.trans ?_ (loadDelays_keeps ..)
    | apply Keeps.trans ?_ (issueAll_keeps ..) | apply Keeps.trans ?_ (flushWrites_keeps ..) | apply Keeps.ite
    | fail_if_no_progress refine Keeps.put rfl ?_ rfl rfl rfl rfl rfl | intro _ | dsimp only)

theorem poisonStage_keeps (c : HbmClient) (s : State) : Keeps s (poisonStage c s) := by
  unfold poisonStage
  repeat' (with_reducible first
    | apply Keeps.refl | apply Keeps.trans ?_ (dropCoreItem_keeps ..) | apply Keeps.trans ?_ (setEngine_keeps ..)
    | apply Keeps.trans ?_ (breakAnalysis_keeps ..) | apply Keeps.trans ?_ (breakComposition_keeps ..) | apply Keeps.ite
    | apply Keeps.of_snd (by assumption) | apply Keeps.of_fst (by assumption)
    | fail_if_no_progress refine Keeps.put rfl ?_ rfl rfl rfl rfl rfl | intro _ | split)

theorem execPoisonedRead_keeps (a : Nat) (c : HbmClient) (s : State) : KeepsO s (execPoisonedRead a c s) := by
  unfold execPoisonedRead
  repeat' (with_reducible first
    | apply Keeps.refl | apply KeepsO.next | exact KeepsO.fault | apply KeepsO.ite
    | apply Keeps.trans ?_ (raise_keeps ..) | apply KeepsO.trans ?_ (done_keeps ..)
    | apply Keeps.trans ?_ (poisonStage_keeps ..) | apply Keeps.ite
    | fail_if_no_progress refine Keeps.put rfl ?_ rfl rfl rfl rfl rfl)

theorem patrolOne_keeps (s : State) : Keeps s (patrolOne s) := by
  unfold patrolOne
  repeat' (with_reducible first
    | apply Keeps.refl | apply Keeps.ite | fail_if_no_progress refine Keeps.put rfl ?_ rfl rfl rfl rfl rfl | dsimp only)

theorem correctOne_keeps (p : Nat) (s : State) : Keeps s (correctOne p s) := by
  unfold correctOne
  repeat' (with_reducible first
    | apply Keeps.refl | apply Keeps.trans ?_ (raise_keeps ..) | apply Keeps.trans ?_ (setPc_keeps ..) | apply Keeps.ite
    | fail_if_no_progress refine Keeps.put rfl ?_ rfl rfl rfl rfl rfl | intro _ | dsimp only)

theorem atPatrol_keeps (s : State) : Keeps s (atPatrol s) := by
  unfold atPatrol
  repeat' (with_reducible first
    | apply Keeps.refl | apply Keeps.trans ?_ (noEarlier_keeps ..)
    | fail_if_no_progress refine Keeps.put rfl ?_ rfl rfl rfl rfl rfl | dsimp only)

theorem execScrubAccess_keeps (p : Nat) (corrected : Bool) (s : State) : KeepsO s (execScrubAccess p corrected s) := by
  unfold execScrubAccess
  repeat' (with_reducible first
    | apply Keeps.refl | apply KeepsO.next | apply KeepsO.ite | apply KeepsO.trans ?_ (done_keeps ..)
    | apply Keeps.trans ?_ (patrolOne_keeps ..) | apply Keeps.trans ?_ (correctOne_keeps ..)
    | apply Keeps.trans ?_ (atPatrol_keeps ..) | apply Keeps.ite | dsimp only)

theorem memorySecond_keeps (s : State) : Keeps s (memorySecond s) := by
  unfold memorySecond
  repeat' (with_reducible first
    | apply Keeps.refl | fail_if_no_progress refine Keeps.put rfl ?_ rfl rfl rfl rfl rfl | intro _)

theorem execRemapCopyDone_keeps (s : State) : KeepsO s (execRemapCopyDone s) := by
  unfold execRemapCopyDone
  repeat' (with_reducible first
    | apply Keeps.refl | apply KeepsO.next | apply KeepsO.ite | apply Keeps.ite
    | fail_if_no_progress refine Keeps.put rfl ?_ rfl rfl rfl rfl rfl)

theorem execMemoryCheckDone_keeps (failing : List Nat) (s : State) : KeepsO s (execMemoryCheckDone failing s) := by
  unfold execMemoryCheckDone
  repeat' (with_reducible first
    | apply Keeps.refl | apply KeepsO.next | apply KeepsO.ite | apply Keeps.foldl | apply Keeps.foldl_fst
    | apply Keeps.foldl_snd | apply Keeps.trans ?_ (retirePc_keeps ..) | apply KeepsO.trans ?_ (done_keeps ..)
    | apply Keeps.ite | intro _)

theorem takeHbm_keeps (c : Nat) (s : State) : Keeps s (takeHbm c s) := by
  unfold takeHbm
  repeat' (with_reducible first
    | apply Keeps.refl | fail_if_no_progress refine Keeps.put rfl ?_ rfl rfl rfl rfl rfl)

theorem recMemory_keeps (b : Bytes) (s : State) : Keeps s (recMemory b s) := by
  unfold recMemory
  repeat' (with_reducible first
    | apply Keeps.refl | apply Keeps.trans ?_ (orphan_keeps ..) | apply Keeps.trans ?_ (applied_keeps ..)
    | apply Keeps.trans ?_ (sized_keeps (hbody := ?_) ..) | apply Keeps.ite
    | fail_if_no_progress refine Keeps.put rfl ?_ rfl rfl rfl rfl rfl | intro _)

theorem execMemoryRecord_keeps (b : Bytes) (s : State) : KeepsO s (execMemoryRecord b s) := by
  unfold execMemoryRecord
  repeat' (with_reducible first
    | apply Keeps.refl | assumption | apply KeepsO.next | exact KeepsO.fault | apply KeepsO.ite
    | apply KeepsO.trans ?_ (recordCommand_keeps (hbody := ?_) ..) | apply Keeps.trans ?_ (recMemory_keeps ..)
    | apply Keeps.ite | apply Keeps.of_snd (by assumption) | apply Keeps.of_fst (by assumption)
    | fail_if_no_progress refine Keeps.put rfl ?_ rfl rfl rfl rfl rfl | intro _ | split | dsimp only)

theorem recQosPort_keeps (b : Bytes) (s : State) : Keeps s (recQosPort b s) := by
  unfold recQosPort
  repeat' (with_reducible first
    | apply Keeps.refl | apply Keeps.trans ?_ (orphan_keeps ..) | apply Keeps.trans ?_ (applied_keeps ..)
    | apply Keeps.trans ?_ (sized_keeps (hbody := ?_) ..) | apply Keeps.ite
    | fail_if_no_progress refine Keeps.put rfl ?_ rfl rfl rfl rfl rfl | intro _ | dsimp only)

theorem execQosPortRecord_keeps (b : Bytes) (s : State) : KeepsO s (execQosPortRecord b s) := by
  unfold execQosPortRecord
  repeat' (with_reducible first
    | apply Keeps.refl | assumption | apply KeepsO.next | exact KeepsO.fault | apply KeepsO.ite
    | apply KeepsO.trans ?_ (recordCommand_keeps (hbody := ?_) ..) | apply Keeps.trans ?_ (recQosPort_keeps ..)
    | apply Keeps.ite | apply Keeps.of_snd (by assumption) | apply Keeps.of_fst (by assumption)
    | fail_if_no_progress refine Keeps.put rfl ?_ rfl rfl rfl rfl rfl | intro _ | split | dsimp only)

theorem memoryReadClear_keeps (off : Nat) (s : State) : Keeps s (memoryReadClear off s) := by
  unfold memoryReadClear
  repeat' (with_reducible first
    | apply Keeps.refl | apply Keeps.ite | fail_if_no_progress refine Keeps.put rfl ?_ rfl rfl rfl rfl rfl | intro _)

end Sys2Proof.Machine
end

