-- ==== Sys2Proof/Laws/KeepsLinks.lean ====
section
/-! SUPPORT. What the operations of Machine/Links.lean keep (Laws/Keeps.lean). -/

set_option linter.unusedTactic false
set_option linter.unreachableTactic false

namespace Sys2Proof.Machine

open Sys2Proof.Safety

theorem recEthPort_keeps (b : Bytes) (s : State) : Keeps s (recEthPort b s) := by
  unfold recEthPort
  repeat' (with_reducible first
    | apply Keeps.refl | apply Keeps.trans ?_ (bringUp_keeps ..) | apply Keeps.trans ?_ (orphan_keeps ..)
    | apply Keeps.trans ?_ (applied_keeps ..) | apply Keeps.trans ?_ (sized_keeps (hbody := ?_) ..) | apply Keeps.ite
    | fail_if_no_progress refine Keeps.put rfl ?_ rfl rfl rfl rfl rfl | intro _ | dsimp only)

theorem execEthernetPortRecord_keeps (b : Bytes) (s : State) : KeepsO s (execEthernetPortRecord b s) := by
  unfold execEthernetPortRecord
  repeat' (with_reducible first
    | apply Keeps.refl | assumption | apply KeepsO.next | exact KeepsO.fault | apply KeepsO.ite
    | apply KeepsO.trans ?_ (recordCommand_keeps (hbody := ?_) ..) | apply Keeps.trans ?_ (recEthPort_keeps ..)
    | apply Keeps.ite | apply Keeps.of_snd (by assumption) | apply Keeps.of_fst (by assumption)
    | fail_if_no_progress refine Keeps.put rfl ?_ rfl rfl rfl rfl rfl | intro _ | split | dsimp only)

theorem setEth_keeps (s : State) (p : Nat) (f : EthPort → EthPort) : Keeps s (setEth s p f) := by
  unfold setEth
  repeat' (with_reducible first
    | apply Keeps.refl | fail_if_no_progress refine Keeps.put rfl ?_ rfl rfl rfl rfl rfl)

theorem answerRetrain_keeps (l : List Req) (st : Status) (s : State) : Keeps s (answerRetrain l st s) := by
  unfold answerRetrain
  repeat' (with_reducible first
    | apply Keeps.refl | apply Keeps.foldl | apply Keeps.foldl_fst | apply Keeps.foldl_snd
    | apply Keeps.trans ?_ (replyTo_keeps ..) | apply Keeps.ite | intro _)

theorem equalise_keeps (p : Nat) (x : EthPort) (s : State) : Keeps s (equalise p x s) := by
  unfold equalise
  repeat' (with_reducible first
    | apply Keeps.refl | apply Keeps.trans ?_ (drawFree_keeps ..) | apply Keeps.trans ?_ (setEth_keeps ..)
    | apply Keeps.ite | apply Keeps.of_snd (by assumption) | apply Keeps.of_fst (by assumption)
    | fail_if_no_progress refine Keeps.put rfl ?_ rfl rfl rfl rfl rfl | intro _ | split | dsimp only)

theorem execEthPortUp_keeps (p : Nat) (s : State) : KeepsO s (execEthPortUp p s) := by
  unfold execEthPortUp
  repeat' (with_reducible first
    | apply Keeps.refl | apply KeepsO.next | apply KeepsO.ite | apply Keeps.foldl | apply Keeps.foldl_fst
    | apply Keeps.foldl_snd | apply Keeps.trans ?_ (queueOwn_keeps ..) | apply KeepsO.trans ?_ (done_keeps ..)
    | apply Keeps.trans ?_ (setEth_keeps ..) | apply Keeps.trans ?_ (answerRetrain_keeps ..)
    | apply Keeps.trans ?_ (equalise_keeps ..) | apply Keeps.trans ?_ (retrain_keeps ..) | apply Keeps.ite
    | apply Keeps.of_snd (by assumption) | apply Keeps.of_fst (by assumption)
    | fail_if_no_progress refine Keeps.put rfl ?_ rfl rfl rfl rfl rfl | intro _ | split | dsimp only)

theorem execLnkEthDown_keeps (p : Nat) (s : State) : KeepsO s (execLnkEthDown p s) := by
  unfold execLnkEthDown
  repeat' (with_reducible first
    | apply Keeps.refl | apply Keeps.trans ?_ (bringUp_keeps ..) | apply Keeps.trans ?_ (ethDown_keeps ..)
    | apply KeepsO.trans ?_ (done_keeps ..))

theorem takeEthFrame_keeps (p : Nat) (f : EthFrame) (s : State) : Keeps s (takeEthFrame p f s) := by
  unfold takeEthFrame
  repeat' (with_reducible first
    | apply Keeps.refl | apply Keeps.trans ?_ (setEth_keeps ..) | apply Keeps.ite | apply Keeps.of_snd (by assumption)
    | apply Keeps.of_fst (by assumption) | fail_if_no_progress refine Keeps.put rfl ?_ rfl rfl rfl rfl rfl | intro _
    | split | dsimp only)

theorem execEthFrameReceive_keeps (p : Nat) (f : EthFrame) (s : State) : KeepsO s (execEthFrameReceive p f s) := by
  unfold execEthFrameReceive
  repeat' (with_reducible first
    | apply Keeps.refl | apply KeepsO.next | apply KeepsO.ite | apply Keeps.foldl | apply Keeps.foldl_fst
    | apply Keeps.foldl_snd | apply Keeps.trans ?_ (raise_keeps ..) | apply KeepsO.trans ?_ (done_keeps ..)
    | apply Keeps.trans ?_ (setEth_keeps ..) | apply Keeps.trans ?_ (takeEthFrame_keeps ..) | apply Keeps.ite
    | apply Keeps.of_snd (by assumption) | apply Keeps.of_fst (by assumption)
    | fail_if_no_progress refine Keeps.put rfl ?_ rfl rfl rfl rfl rfl | intro _ | split | dsimp only)

theorem execPauseExpiry_keeps (p : Nat) (s : State) : KeepsO s (execPauseExpiry p s) := by
  unfold execPauseExpiry
  repeat' (with_reducible first
    | apply Keeps.refl | apply KeepsO.next | apply Keeps.trans ?_ (noEarlier_keeps ..)
    | apply Keeps.trans ?_ (setEth_keeps ..) | apply Keeps.of_snd (by assumption) | apply Keeps.of_fst (by assumption)
    | fail_if_no_progress refine Keeps.put rfl ?_ rfl rfl rfl rfl rfl | split | dsimp only)

theorem execLnkPauseLong_keeps (p : Nat) (s : State) : KeepsO s (execLnkPauseLong p s) := by
  unfold execLnkPauseLong
  repeat' (with_reducible first
    | apply Keeps.refl | apply KeepsO.next | apply KeepsO.ite | apply Keeps.trans ?_ (noEarlier_keeps ..)
    | apply Keeps.trans ?_ (raise_keeps ..) | apply KeepsO.trans ?_ (done_keeps ..)
    | apply Keeps.trans ?_ (setEth_keeps ..) | apply Keeps.ite | apply Keeps.of_snd (by assumption)
    | apply Keeps.of_fst (by assumption) | fail_if_no_progress refine Keeps.put rfl ?_ rfl rfl rfl rfl rfl | intro _
    | split | dsimp only)

theorem setVal_keeps (s : State) (v : Nat) (f : ValPort → ValPort) : Keeps s (setVal s v f) := by
  unfold setVal
  repeat' (with_reducible first
    | apply Keeps.refl | fail_if_no_progress refine Keeps.put rfl ?_ rfl rfl rfl rfl rfl)

theorem recValsin_keeps (b : Bytes) (s : State) : Keeps s (recValsin b s) := by
  unfold recValsin
  repeat' (with_reducible first
    | apply Keeps.refl | apply Keeps.trans ?_ (orphan_keeps ..) | apply Keeps.trans ?_ (applied_keeps ..)
    | apply Keeps.trans ?_ (sized_keeps (hbody := ?_) ..) | apply Keeps.ite
    | fail_if_no_progress refine Keeps.put rfl ?_ rfl rfl rfl rfl rfl | intro _ | dsimp only)

theorem execValsinPortRecord_keeps (b : Bytes) (s : State) : KeepsO s (execValsinPortRecord b s) := by
  unfold execValsinPortRecord
  repeat' (with_reducible first
    | apply Keeps.refl | assumption | apply KeepsO.next | exact KeepsO.fault | apply KeepsO.ite
    | apply KeepsO.trans ?_ (recordCommand_keeps (hbody := ?_) ..) | apply Keeps.trans ?_ (recValsin_keeps ..)
    | apply Keeps.ite | apply Keeps.of_snd (by assumption) | apply Keeps.of_fst (by assumption)
    | fail_if_no_progress refine Keeps.put rfl ?_ rfl rfl rfl rfl rfl | intro _ | split | dsimp only)

theorem takeVaMsg_keeps (m : VaMsg) (s : State) : Keeps s (takeVaMsg m s) := by
  unfold takeVaMsg
  repeat' (with_reducible first
    | apply Keeps.refl | apply Keeps.trans ?_ (writeSlot_keeps ..) | apply Keeps.trans ?_ (takeVerdict_keeps ..)
    | apply Keeps.trans ?_ (takePartnerRatio_keeps ..) | apply Keeps.trans ?_ (restartLater_keeps ..)
    | apply Keeps.trans ?_ (takeBulk_keeps ..) | apply Keeps.trans ?_ (answerSwap_keeps ..)
    | apply Keeps.trans ?_ (takeSwapFrame_keeps ..) | apply Keeps.trans ?_ (takeSwapAsk_keeps ..) | apply Keeps.ite
    | apply Keeps.of_snd (by assumption) | apply Keeps.of_fst (by assumption)
    | fail_if_no_progress refine Keeps.put rfl ?_ rfl rfl rfl rfl rfl | split)

theorem deliver_keeps (v : Nat) (s : State) (f : LinkFrame) : Keeps s (deliver v s f) := by
  unfold deliver
  repeat' (with_reducible first
    | apply Keeps.refl | apply Keeps.trans ?_ (takeBusy_keeps ..) | apply Keeps.trans ?_ (takeVaMsg_keeps ..)
    | apply Keeps.ite | apply Keeps.of_snd (by assumption) | apply Keeps.of_fst (by assumption)
    | fail_if_no_progress refine Keeps.put rfl ?_ rfl rfl rfl rfl rfl | split)

theorem portComesUp_keeps (v : Nat) (s : State) : Keeps s (portComesUp v s) := by
  unfold portComesUp
  repeat' (with_reducible first
    | apply Keeps.refl | apply Keeps.trans ?_ (treeLink_keeps ..) | apply Keeps.trans ?_ (pairVaUp_keeps ..)
    | apply Keeps.trans ?_ (answerRetrain_keeps ..) | apply Keeps.trans ?_ (setVal_keeps ..)
    | apply Keeps.trans ?_ (retrain_keeps ..) | apply Keeps.ite
    | fail_if_no_progress refine Keeps.put rfl ?_ rfl rfl rfl rfl rfl | intro _ | dsimp only)

theorem vaReturns_keeps (v : Nat) (f : LinkFrame) (s : State) : Keeps s (vaReturns v f s) := by
  unfold vaReturns
  repeat' (with_reducible first
    | apply Keeps.refl | apply Keeps.trans ?_ (pairVaUp_keeps ..) | apply Keeps.ite)

theorem takeLinkFrame_keeps (v : Nat) (f : LinkFrame) (s : State) : Keeps s (takeLinkFrame v f s) := by
  unfold takeLinkFrame
  repeat' (with_reducible first
    | apply Keeps.refl | apply Keeps.foldl | apply Keeps.foldl_fst | apply Keeps.foldl_snd
    | apply Keeps.trans ?_ (setHealth_keeps ..) | apply Keeps.trans ?_ (setVal_keeps ..)
    | apply Keeps.trans ?_ (deliver_keeps ..) | apply Keeps.trans ?_ (portComesUp_keeps ..)
    | apply Keeps.trans ?_ (vaReturns_keeps ..) | apply Keeps.ite
    | fail_if_no_progress refine Keeps.put rfl ?_ rfl rfl rfl rfl rfl | intro _ | dsimp only)

theorem execValsinFrameReceive_keeps (v : Nat) (f : LinkFrame) (s : State) : KeepsO s (execValsinFrameReceive v f s) := by
  unfold execValsinFrameReceive
  repeat' (with_reducible first
    | apply Keeps.refl | apply KeepsO.next | apply KeepsO.ite | apply Keeps.trans ?_ (startTraining_keeps ..)
    | apply Keeps.trans ?_ (settleMerge_keeps ..) | apply KeepsO.trans ?_ (done_keeps ..)
    | apply Keeps.trans ?_ (setVal_keeps ..) | apply Keeps.trans ?_ (takeLinkFrame_keeps ..) | apply Keeps.ite
    | dsimp only)

theorem execValsinAckTimer_keeps (v : Nat) (s : State) : KeepsO s (execValsinAckTimer v s) := by
  unfold execValsinAckTimer
  repeat' (with_reducible first
    | apply Keeps.refl | apply KeepsO.next | apply KeepsO.ite | apply Keeps.trans ?_ (setVal_keeps ..) | apply Keeps.ite
    | fail_if_no_progress refine Keeps.put rfl ?_ rfl rfl rfl rfl rfl | intro _)

theorem retrain_keeps (v : Nat) (s : State) : Keeps s (retrain v s) := by
  unfold retrain
  repeat' (with_reducible first
    | apply Keeps.refl | apply Keeps.trans ?_ (startTraining_keeps ..) | apply Keeps.trans ?_ (settleMerge_keeps ..))

theorem execValsinRetryTimeout_keeps (v : Nat) (s : State) : KeepsO s (execValsinRetryTimeout v s) := by
  unfold execValsinRetryTimeout
  repeat' (with_reducible first
    | apply Keeps.refl | apply KeepsO.next | apply KeepsO.ite | apply Keeps.trans ?_ (noEarlier_keeps ..)
    | apply KeepsO.trans ?_ (done_keeps ..) | apply Keeps.trans ?_ (retrain_keeps ..) | apply Keeps.ite | dsimp only)

theorem settleStep_keeps (v : Nat) (s : State) : Keeps s (settleStep v s) := by
  unfold settleStep
  repeat' (with_reducible first
    | apply Keeps.refl | apply Keeps.trans ?_ (raise_keeps ..) | apply Keeps.trans ?_ (setVal_keeps ..)
    | apply Keeps.ite | fail_if_no_progress refine Keeps.put rfl ?_ rfl rfl rfl rfl rfl | intro _ | dsimp only)

theorem execValsinTrainingReceive_keeps (v : Nat) (t : TrainingSet) (s : State) : KeepsO s (execValsinTrainingReceive v t s) := by
  unfold execValsinTrainingReceive
  repeat' (with_reducible first
    | apply Keeps.refl | apply KeepsO.next | apply KeepsO.ite | apply Keeps.trans ?_ (raise_keeps ..)
    | apply KeepsO.trans ?_ (done_keeps ..) | apply Keeps.trans ?_ (setVal_keeps ..)
    | apply Keeps.trans ?_ (settleStep_keeps ..) | apply Keeps.ite
    | fail_if_no_progress refine Keeps.put rfl ?_ rfl rfl rfl rfl rfl | intro _ | dsimp only)

theorem execValsinStepSwitch_keeps (v : Nat) (s : State) : KeepsO s (execValsinStepSwitch v s) := by
  unfold execValsinStepSwitch
  repeat' (with_reducible first
    | apply Keeps.refl | apply KeepsO.next | apply KeepsO.ite | apply Keeps.trans ?_ (setVal_keeps ..) | apply Keeps.ite
    | apply Keeps.of_snd (by assumption) | apply Keeps.of_fst (by assumption)
    | fail_if_no_progress refine Keeps.put rfl ?_ rfl rfl rfl rfl rfl | intro _ | split)

theorem fallback_keeps (v : Nat) (s : State) : Keeps s (fallback v s) := by
  unfold fallback
  repeat' (with_reducible first
    | apply Keeps.refl | apply Keeps.trans ?_ (raise_keeps ..) | apply Keeps.trans ?_ (setVal_keeps ..)
    | apply Keeps.ite | apply Keeps.of_snd (by assumption) | apply Keeps.of_fst (by assumption)
    | fail_if_no_progress refine Keeps.put rfl ?_ rfl rfl rfl rfl rfl | intro _ | split | dsimp only)

theorem execValsinStepTimeout_keeps (v : Nat) (s : State) : KeepsO s (execValsinStepTimeout v s) := by
  unfold execValsinStepTimeout
  repeat' (with_reducible first
    | apply Keeps.refl | apply KeepsO.next | apply KeepsO.ite | apply Keeps.trans ?_ (noEarlier_keeps ..)
    | apply KeepsO.trans ?_ (done_keeps ..) | apply Keeps.trans ?_ (setVal_keeps ..)
    | apply Keeps.trans ?_ (settleStep_keeps ..) | apply Keeps.trans ?_ (fallback_keeps ..) | apply Keeps.ite
    | fail_if_no_progress refine Keeps.put rfl ?_ rfl rfl rfl rfl rfl | intro _ | dsimp only)

theorem execValsinRetrainTimer_keeps (v : Nat) (s : State) : KeepsO s (execValsinRetrainTimer v s) := by
  unfold execValsinRetrainTimer
  repeat' (with_reducible first
    | apply Keeps.refl | apply KeepsO.next | apply KeepsO.ite | apply Keeps.trans ?_ (noEarlier_keeps ..)
    | apply KeepsO.trans ?_ (done_keeps ..) | apply Keeps.trans ?_ (retrain_keeps ..) | apply Keeps.ite | dsimp only)

theorem execCommaLoss_keeps (v : Nat) (lane : Nat) (s : State) : KeepsO s (execCommaLoss v lane s) := by
  unfold execCommaLoss
  repeat' (with_reducible first
    | apply Keeps.refl | apply KeepsO.next | apply KeepsO.ite | apply KeepsO.trans ?_ (done_keeps ..)
    | apply Keeps.trans ?_ (retrain_keeps ..) | apply Keeps.ite | dsimp only)

theorem execValsinSleepEntry_keeps (v : Nat) (s : State) : KeepsO s (execValsinSleepEntry v s) := by
  unfold execValsinSleepEntry
  repeat' (with_reducible first
    | apply Keeps.refl | apply KeepsO.next | apply KeepsO.ite | apply Keeps.trans ?_ (noEarlier_keeps ..)
    | apply Keeps.trans ?_ (setVal_keeps ..) | apply Keeps.ite
    | fail_if_no_progress refine Keeps.put rfl ?_ rfl rfl rfl rfl rfl | intro _ | dsimp only)

theorem execValsinWake_keeps (v : Nat) (s : State) : KeepsO s (execValsinWake v s) := by
  unfold execValsinWake
  repeat' (with_reducible first
    | apply Keeps.refl | apply KeepsO.next | apply KeepsO.ite | apply Keeps.trans ?_ (setVal_keeps ..) | apply Keeps.ite
    | intro _)

theorem execValsinWakeFail_keeps (v : Nat) (s : State) : KeepsO s (execValsinWakeFail v s) := by
  unfold execValsinWakeFail
  repeat' (with_reducible first
    | apply Keeps.refl | apply KeepsO.next | apply KeepsO.ite | apply Keeps.trans ?_ (noEarlier_keeps ..)
    | apply KeepsO.trans ?_ (done_keeps ..) | apply Keeps.trans ?_ (retrain_keeps ..) | apply Keeps.ite)

theorem linksReadClear_keeps (off : Nat) (s : State) : Keeps s (linksReadClear off s) := by
  unfold linksReadClear
  repeat' (with_reducible first
    | apply Keeps.refl | apply Keeps.trans ?_ (setEth_keeps ..) | apply Keeps.trans ?_ (setVal_keeps ..)
    | apply Keeps.ite | fail_if_no_progress refine Keeps.put rfl ?_ rfl rfl rfl rfl rfl | intro _ | dsimp only)

theorem cmdLnkPortInfo_keeps (r : Req) (s : State) : Keeps s (cmdLnkPortInfo r s) := by
  unfold cmdLnkPortInfo
  repeat' (with_reducible first
    | apply Keeps.refl | apply Keeps.trans ?_ (reply_keeps ..)
    | apply Keeps.trans ?_ (takeRequest_keeps (hbody := ?_) ..) | apply Keeps.ite | intro _ | dsimp only)

theorem execLnkPortInfo_keeps (r : Req) (s : State) : KeepsO s (execLnkPortInfo r s) := by
  unfold execLnkPortInfo
  repeat' (with_reducible first
    | apply Keeps.refl | apply KeepsO.trans ?_ (done_keeps ..) | apply Keeps.trans ?_ (cmdLnkPortInfo_keeps ..))

theorem cmdLnkRetrain_keeps (r : Req) (s : State) : Keeps s (cmdLnkRetrain r s) := by
  unfold cmdLnkRetrain
  repeat' (with_reducible first
    | apply Keeps.refl | apply Keeps.trans ?_ (reply_keeps ..)
    | apply Keeps.trans ?_ (takeRequest_keeps (hbody := ?_) ..) | apply Keeps.trans ?_ (bringUp_keeps ..)
    | apply Keeps.trans ?_ (ethDown_keeps ..) | apply Keeps.trans ?_ (setEth_keeps ..)
    | apply Keeps.trans ?_ (setVal_keeps ..) | apply Keeps.trans ?_ (retrain_keeps ..) | apply Keeps.ite
    | fail_if_no_progress refine Keeps.put rfl ?_ rfl rfl rfl rfl rfl | intro _ | dsimp only)

theorem execLnkRetrain_keeps (r : Req) (s : State) : KeepsO s (execLnkRetrain r s) := by
  unfold execLnkRetrain
  repeat' (with_reducible first
    | apply Keeps.refl | apply KeepsO.trans ?_ (done_keeps ..) | apply Keeps.trans ?_ (cmdLnkRetrain_keeps ..))

theorem execLnkRetrainTimeout_keeps (kind : Nat) (p : Nat) (s : State) : KeepsO s (execLnkRetrainTimeout kind p s) := by
  unfold execLnkRetrainTimeout
  repeat' (with_reducible first
    | apply Keeps.refl | apply KeepsO.next | apply KeepsO.ite | apply Keeps.trans ?_ (noEarlier_keeps ..)
    | apply KeepsO.trans ?_ (done_keeps ..) | apply Keeps.trans ?_ (setEth_keeps ..)
    | apply Keeps.trans ?_ (answerRetrain_keeps ..) | apply Keeps.trans ?_ (setVal_keeps ..)
    | apply Keeps.trans ?_ (retrain_keeps ..) | apply Keeps.ite
    | fail_if_no_progress refine Keeps.put rfl ?_ rfl rfl rfl rfl rfl | intro _ | dsimp only)

end Sys2Proof.Machine
end

