-- ==== Sys2Proof/Laws/KeepsHost.lean ====
section
/-! SUPPORT. What the operations of Machine/Host.lean keep (Laws/Keeps.lean). -/

set_option linter.unusedTactic false
set_option linter.unreachableTactic false

namespace Sys2Proof.Machine

open Sys2Proof.Safety

theorem recBinding_keeps (b : Bytes) (s : State) : Keeps s (recBinding b s) := by
  unfold recBinding
  repeat' (with_reducible first
    | apply Keeps.refl | apply Keeps.trans ?_ (setPart_keeps ..) | apply Keeps.trans ?_ (orphan_keeps ..)
    | apply Keeps.trans ?_ (applied_keeps ..) | apply Keeps.trans ?_ (sized_keeps (hbody := ?_) ..) | apply Keeps.ite
    | fail_if_no_progress refine Keeps.put rfl ?_ rfl rfl rfl rfl rfl | intro _ | dsimp only)

theorem execBindingRecord_keeps (b : Bytes) (s : State) : KeepsO s (execBindingRecord b s) := by
  unfold execBindingRecord
  repeat' (with_reducible first
    | apply Keeps.refl | assumption | apply KeepsO.next | exact KeepsO.fault | apply KeepsO.ite
    | apply KeepsO.trans ?_ (recordCommand_keeps (hbody := ?_) ..) | apply Keeps.trans ?_ (recBinding_keeps ..)
    | apply Keeps.ite | apply Keeps.of_snd (by assumption) | apply Keeps.of_fst (by assumption)
    | fail_if_no_progress refine Keeps.put rfl ?_ rfl rfl rfl rfl rfl | intro _ | split | dsimp only)

theorem recPartitionKey_keeps (b : Bytes) (s : State) : Keeps s (recPartitionKey b s) := by
  unfold recPartitionKey
  repeat' (with_reducible first
    | apply Keeps.refl | apply Keeps.trans ?_ (setPart_keeps ..) | apply Keeps.trans ?_ (orphan_keeps ..)
    | apply Keeps.trans ?_ (applied_keeps ..) | apply Keeps.trans ?_ (sized_keeps (hbody := ?_) ..) | apply Keeps.ite
    | fail_if_no_progress refine Keeps.put rfl ?_ rfl rfl rfl rfl rfl | intro _ | dsimp only)

theorem execPartitionKeyRecord_keeps (b : Bytes) (s : State) : KeepsO s (execPartitionKeyRecord b s) := by
  unfold execPartitionKeyRecord
  repeat' (with_reducible first
    | apply Keeps.refl | assumption | apply KeepsO.next | exact KeepsO.fault | apply KeepsO.ite
    | apply KeepsO.trans ?_ (recordCommand_keeps (hbody := ?_) ..) | apply Keeps.trans ?_ (recPartitionKey_keeps ..)
    | apply Keeps.ite | apply Keeps.of_snd (by assumption) | apply Keeps.of_fst (by assumption)
    | fail_if_no_progress refine Keeps.put rfl ?_ rfl rfl rfl rfl rfl | intro _ | split | dsimp only)

theorem recMgPort_keeps (b : Bytes) (s : State) : Keeps s (recMgPort b s) := by
  unfold recMgPort
  repeat' (with_reducible first
    | apply Keeps.refl | apply Keeps.trans ?_ (orphan_keeps ..) | apply Keeps.trans ?_ (applied_keeps ..)
    | apply Keeps.trans ?_ (sized_keeps (hbody := ?_) ..) | apply Keeps.ite
    | fail_if_no_progress refine Keeps.put rfl ?_ rfl rfl rfl rfl rfl | intro _ | dsimp only)

theorem execManagementPortRecord_keeps (b : Bytes) (s : State) : KeepsO s (execManagementPortRecord b s) := by
  unfold execManagementPortRecord
  repeat' (with_reducible first
    | apply Keeps.refl | assumption | apply KeepsO.next | exact KeepsO.fault | apply KeepsO.ite
    | apply KeepsO.trans ?_ (recordCommand_keeps (hbody := ?_) ..) | apply Keeps.trans ?_ (recMgPort_keeps ..)
    | apply Keeps.ite | apply Keeps.of_snd (by assumption) | apply Keeps.of_fst (by assumption)
    | fail_if_no_progress refine Keeps.put rfl ?_ rfl rfl rfl rfl rfl | intro _ | split | dsimp only)

theorem recPartitionChannel_keeps (b : Bytes) (s : State) : Keeps s (recPartitionChannel b s) := by
  unfold recPartitionChannel
  repeat' (with_reducible first
    | apply Keeps.refl | apply Keeps.trans ?_ (setPart_keeps ..) | apply Keeps.trans ?_ (orphan_keeps ..)
    | apply Keeps.trans ?_ (applied_keeps ..) | apply Keeps.trans ?_ (sized_keeps (hbody := ?_) ..) | apply Keeps.ite
    | fail_if_no_progress refine Keeps.put rfl ?_ rfl rfl rfl rfl rfl | intro _ | dsimp only)

theorem execPartitionChannelRecord_keeps (b : Bytes) (s : State) : KeepsO s (execPartitionChannelRecord b s) := by
  unfold execPartitionChannelRecord
  repeat' (with_reducible first
    | apply Keeps.refl | assumption | apply KeepsO.next | exact KeepsO.fault | apply KeepsO.ite
    | apply KeepsO.trans ?_ (recordCommand_keeps (hbody := ?_) ..) | apply Keeps.trans ?_ (recPartitionChannel_keeps ..)
    | apply Keeps.ite | apply Keeps.of_snd (by assumption) | apply Keeps.of_fst (by assumption)
    | fail_if_no_progress refine Keeps.put rfl ?_ rfl rfl rfl rfl rfl | intro _ | split | dsimp only)

theorem badFrame_keeps (p : Nat) (s : State) : Keeps s (badFrame p s) := by
  unfold badFrame
  repeat' (with_reducible first
    | apply Keeps.refl | apply Keeps.trans ?_ (raise_keeps ..) | apply Keeps.trans ?_ (setPart_keeps ..)
    | fail_if_no_progress refine Keeps.put rfl ?_ rfl rfl rfl rfl rfl | intro _)

theorem ringError_keeps (f : Nat) (p : Nat) (s : State) : Keeps s (ringError f p s) := by
  unfold ringError
  repeat' (with_reducible first
    | apply Keeps.refl | apply Keeps.trans ?_ (raise_keeps ..) | apply Keeps.trans ?_ (setRing_keeps ..)
    | fail_if_no_progress refine Keeps.put rfl ?_ rfl rfl rfl rfl rfl | intro _)

theorem resetRing_keeps (f : Nat) (s : State) : Keeps s (resetRing f s) := by
  unfold resetRing
  repeat' (with_reducible first
    | apply Keeps.refl | apply Keeps.trans ?_ (setRing_keeps ..)
    | fail_if_no_progress refine Keeps.put rfl ?_ rfl rfl rfl rfl rfl | intro _)

theorem execHstRingReset_keeps (f : Nat) (s : State) : KeepsO s (execHstRingReset f s) := by
  unfold execHstRingReset
  repeat' (with_reducible first
    | apply Keeps.refl | apply KeepsO.next | apply Keeps.trans ?_ (resetRing_keeps ..)
    | apply Keeps.of_snd (by assumption) | apply Keeps.of_fst (by assumption)
    | fail_if_no_progress refine Keeps.put rfl ?_ rfl rfl rfl rfl rfl | split)

theorem writeRplHead_keeps (f : Nat) (head : Nat) (s : State) : Keeps s (writeRplHead f head s) := by
  unfold writeRplHead
  repeat' (with_reducible first
    | apply Keeps.refl | apply Keeps.trans ?_ (setRing_keeps ..) | apply Keeps.trans ?_ (releaseAnswered_keeps ..)
    | fail_if_no_progress refine Keeps.put rfl ?_ rfl rfl rfl rfl rfl | intro _ | dsimp only)

theorem execHstRplHeadWrite_keeps (f : Nat) (head : Nat) (s : State) : KeepsO s (execHstRplHeadWrite f head s) := by
  unfold execHstRplHeadWrite
  repeat' (with_reducible first
    | apply Keeps.refl | apply KeepsO.next | apply Keeps.trans ?_ (writeRplHead_keeps ..)
    | apply Keeps.of_snd (by assumption) | apply Keeps.of_fst (by assumption)
    | fail_if_no_progress refine Keeps.put rfl ?_ rfl rfl rfl rfl rfl | split)

theorem dropTransport_keeps (transport : Nat) (s : State) : Keeps s (dropTransport transport s) := by
  unfold dropTransport
  repeat' (with_reducible first
    | apply Keeps.refl | apply Keeps.foldl | apply Keeps.foldl_fst | apply Keeps.foldl_snd
    | apply Keeps.trans ?_ (setPart_keeps ..) | apply Keeps.trans ?_ (releaseReplies_keeps ..) | apply Keeps.ite
    | fail_if_no_progress refine Keeps.put rfl ?_ rfl rfl rfl rfl rfl | intro _ | dsimp only)

theorem execFunctionLevelReset_keeps (f : Nat) (s : State) : KeepsO s (execFunctionLevelReset f s) := by
  unfold execFunctionLevelReset
  repeat' (with_reducible first
    | apply Keeps.refl | apply KeepsO.next | apply KeepsO.ite | apply Keeps.trans ?_ (setRing_keeps ..)
    | apply Keeps.trans ?_ (releaseAnswered_keeps ..) | apply Keeps.trans ?_ (dropTransport_keeps ..) | apply Keeps.ite
    | fail_if_no_progress refine Keeps.put rfl ?_ rfl rfl rfl rfl rfl | intro _)

theorem execInterruptModerationExpiry_keeps (f : Nat) (s : State) : KeepsO s (execInterruptModerationExpiry f s) := by
  unfold execInterruptModerationExpiry
  repeat' (with_reducible first
    | apply Keeps.refl | apply KeepsO.next | apply KeepsO.ite | apply Keeps.trans ?_ (setRing_keeps ..)
    | apply Keeps.ite)

theorem execHstIntCauseClear_keeps (f : Nat) (mask : Nat) (s : State) : KeepsO s (execHstIntCauseClear f mask s) := by
  unfold execHstIntCauseClear
  repeat' (with_reducible first
    | apply Keeps.refl | apply KeepsO.next | apply Keeps.trans ?_ (setRing_keeps ..)
    | apply Keeps.of_snd (by assumption) | apply Keeps.of_fst (by assumption)
    | fail_if_no_progress refine Keeps.put rfl ?_ rfl rfl rfl rfl rfl | intro _ | split)

theorem execSessionHello_keeps (port : Nat) (p : Nat) (peer : Nat) (s : State) : KeepsO s (execSessionHello port p peer s) := by
  unfold execSessionHello
  repeat' (with_reducible first
    | apply Keeps.refl | apply KeepsO.next | apply KeepsO.ite | apply Keeps.trans ?_ (answerHello_keeps ..)
    | apply Keeps.ite | fail_if_no_progress refine Keeps.put rfl ?_ rfl rfl rfl rfl rfl)

theorem endSession_keeps (i : Nat) (s : State) : Keeps s (endSession i s) := by
  unfold endSession
  repeat' (with_reducible first
    | apply Keeps.refl | apply Keeps.trans ?_ (dropTransport_keeps ..)
    | fail_if_no_progress refine Keeps.put rfl ?_ rfl rfl rfl rfl rfl)

theorem execSessionIdleTimeout_keeps (i : Nat) (s : State) : KeepsO s (execSessionIdleTimeout i s) := by
  unfold execSessionIdleTimeout
  repeat' (with_reducible first
    | apply Keeps.refl | apply KeepsO.next | apply Keeps.trans ?_ (afterUptime_keeps ..)
    | apply Keeps.trans ?_ (endSession_keeps ..) | apply Keeps.of_snd (by assumption)
    | apply Keeps.of_fst (by assumption) | fail_if_no_progress refine Keeps.put rfl ?_ rfl rfl rfl rfl rfl | split)

theorem failAuth_keeps (p : Nat) (s : State) : Keeps s (failAuth p s) := by
  unfold failAuth
  repeat' (with_reducible first
    | apply Keeps.refl | apply Keeps.trans ?_ (raise_keeps ..) | apply Keeps.trans ?_ (setPart_keeps ..)
    | apply Keeps.ite | fail_if_no_progress refine Keeps.put rfl ?_ rfl rfl rfl rfl rfl | intro _ | dsimp only)

theorem execAuthLockoutExpiry_keeps (p : Nat) (s : State) : KeepsO s (execAuthLockoutExpiry p s) := by
  unfold execAuthLockoutExpiry
  repeat' (with_reducible first
    | apply Keeps.refl | apply KeepsO.next | apply KeepsO.ite | apply Keeps.trans ?_ (afterUptime_keeps ..)
    | apply Keeps.trans ?_ (setPart_keeps ..) | apply Keeps.ite
    | fail_if_no_progress refine Keeps.put rfl ?_ rfl rfl rfl rfl rfl | intro _)

theorem cmdMailboxUnknownOpcode_keeps (opcode : Nat) (r : Req) (s : State) : Keeps s (cmdMailboxUnknownOpcode opcode r s) := by
  unfold cmdMailboxUnknownOpcode
  repeat' (with_reducible first
    | apply Keeps.refl | apply Keeps.trans ?_ (reply_keeps ..)
    | apply Keeps.trans ?_ (takeRequest_keeps (hbody := ?_) ..) | intro _)

theorem execMailboxUnknownOpcode_keeps (opcode : Nat) (r : Req) (s : State) : KeepsO s (execMailboxUnknownOpcode opcode r s) := by
  unfold execMailboxUnknownOpcode
  repeat' (with_reducible first
    | apply Keeps.refl | apply KeepsO.trans ?_ (done_keeps ..) | apply Keeps.trans ?_ (cmdMailboxUnknownOpcode_keeps ..))

theorem cmdHstNop_keeps (r : Req) (s : State) : Keeps s (cmdHstNop r s) := by
  unfold cmdHstNop
  repeat' (with_reducible first
    | apply Keeps.refl | apply Keeps.trans ?_ (reply_keeps ..)
    | apply Keeps.trans ?_ (takeRequest_keeps (hbody := ?_) ..) | intro _)

theorem execHstNop_keeps (r : Req) (s : State) : KeepsO s (execHstNop r s) := by
  unfold execHstNop
  repeat' (with_reducible first
    | apply Keeps.refl | apply KeepsO.trans ?_ (done_keeps ..) | apply Keeps.trans ?_ (cmdHstNop_keeps ..))

theorem cmdHstBufWriteInline_keeps (r : Req) (s : State) : Keeps s (cmdHstBufWriteInline r s) := by
  unfold cmdHstBufWriteInline
  repeat' (with_reducible first
    | apply Keeps.refl | apply Keeps.trans ?_ (reply_keeps ..)
    | apply Keeps.trans ?_ (takeRequest_keeps (hbody := ?_) ..) | apply Keeps.trans ?_ (writeBuffer_keeps ..)
    | apply Keeps.ite | intro _ | dsimp only)

theorem execHstBufWriteInline_keeps (r : Req) (s : State) : KeepsO s (execHstBufWriteInline r s) := by
  unfold execHstBufWriteInline
  repeat' (with_reducible first
    | apply Keeps.refl | apply KeepsO.trans ?_ (done_keeps ..) | apply Keeps.trans ?_ (cmdHstBufWriteInline_keeps ..))

theorem cmdHstBufWritePull_keeps (r : Req) (s : State) : Keeps s (cmdHstBufWritePull r s) := by
  unfold cmdHstBufWritePull
  repeat' (with_reducible first
    | apply Keeps.refl | apply Keeps.trans ?_ (reply_keeps ..)
    | apply Keeps.trans ?_ (takeRequest_keeps (hbody := ?_) ..) | apply Keeps.trans ?_ (busy_keeps ..) | apply Keeps.ite
    | fail_if_no_progress refine Keeps.put rfl ?_ rfl rfl rfl rfl rfl | intro _ | dsimp only)

theorem execHstBufWritePull_keeps (r : Req) (s : State) : KeepsO s (execHstBufWritePull r s) := by
  unfold execHstBufWritePull
  repeat' (with_reducible first
    | apply Keeps.refl | apply KeepsO.trans ?_ (done_keeps ..) | apply Keeps.trans ?_ (cmdHstBufWritePull_keeps ..))

theorem execHostDmaPullDone_keeps (f : Nat) (data : Bytes) (s : State) : KeepsO s (execHostDmaPullDone f data s) := by
  unfold execHostDmaPullDone
  repeat' (with_reducible first
    | apply Keeps.refl | apply KeepsO.next | apply KeepsO.ite | apply Keeps.trans ?_ (replyTo_keeps ..)
    | apply KeepsO.trans ?_ (done_keeps ..) | apply Keeps.trans ?_ (writeBuffer_keeps ..) | apply Keeps.ite
    | apply Keeps.of_snd (by assumption) | apply Keeps.of_fst (by assumption)
    | fail_if_no_progress refine Keeps.put rfl ?_ rfl rfl rfl rfl rfl | split | dsimp only)

theorem cmdHstModeReq_keeps (k : HeldKind) (r : Req) (s : State) : Keeps s (cmdHstModeReq k r s) := by
  unfold cmdHstModeReq
  repeat' (with_reducible first
    | apply Keeps.refl | apply Keeps.trans ?_ (reply_keeps ..)
    | apply Keeps.trans ?_ (takeRequest_keeps (hbody := ?_) ..) | apply Keeps.trans ?_ (busy_keeps ..) | apply Keeps.ite
    | fail_if_no_progress refine Keeps.put rfl ?_ rfl rfl rfl rfl rfl | intro _ | dsimp only)

theorem execHstModeReqQuiescent_keeps (r : Req) (s : State) : KeepsO s (execHstModeReqQuiescent r s) := by
  unfold execHstModeReqQuiescent
  repeat' (with_reducible first
    | apply Keeps.refl | apply KeepsO.trans ?_ (done_keeps ..) | apply Keeps.trans ?_ (cmdHstModeReq_keeps ..))

theorem execHstModeReqRun_keeps (r : Req) (s : State) : KeepsO s (execHstModeReqRun r s) := by
  unfold execHstModeReqRun
  repeat' (with_reducible first
    | apply Keeps.refl | apply KeepsO.trans ?_ (done_keeps ..) | apply Keeps.trans ?_ (cmdHstModeReq_keeps ..))

end Sys2Proof.Machine
end

