-- ==== Sys2Proof/Laws/KeepsTicks.lean ====
section
/-! SUPPORT. What the operations of Machine/Ticks.lean keep (Laws/Keeps.lean). -/

set_option linter.unusedTactic false
set_option linter.unreachableTactic false

namespace Sys2Proof.Machine

open Sys2Proof.Safety

theorem applyChange_keeps (c : Nat) (n : Nat) (change : ShadowChange) (s : State) : Keeps s (applyChange c n change s) := by
  unfold applyChange
  repeat' (with_reducible first
    | apply Keeps.refl | apply Keeps.trans ?_ (applyBitrate_keeps ..) | apply Keeps.trans ?_ (applyAcknowledge_keeps ..)
    | apply Keeps.trans ?_ (applyLoss_keeps ..) | apply Keeps.trans ?_ (applyCorrection_keeps ..)
    | apply Keeps.trans ?_ (applyLayer_keeps ..) | apply Keeps.trans ?_ (applyGraphics_keeps ..)
    | apply Keeps.trans ?_ (applyExpected_keeps ..) | apply Keeps.trans ?_ (restartPort_keeps ..)
    | apply Keeps.trans ?_ (applySplice_keeps ..) | apply Keeps.of_snd (by assumption)
    | apply Keeps.of_fst (by assumption) | fail_if_no_progress refine Keeps.put rfl ?_ rfl rfl rfl rfl rfl | split)

theorem applyShadow_keeps (c : Nat) (n : Nat) (s : State) : Keeps s (applyShadow c n s) := by
  unfold applyShadow
  repeat' (with_reducible first
    | apply Keeps.refl | apply Keeps.foldl | apply Keeps.foldl_fst | apply Keeps.foldl_snd
    | apply Keeps.trans ?_ (modChan_keeps ..) | apply Keeps.trans ?_ (applyChange_keeps ..)
    | fail_if_no_progress refine Keeps.put rfl ?_ rfl rfl rfl rfl rfl | intro _ | dsimp only)

theorem execShadowCommit_keeps (c : Nat) (target : Nat) (change : ShadowChange) (s : State) : KeepsO s (execShadowCommit c target change s) := by
  unfold execShadowCommit
  repeat' (with_reducible first
    | apply Keeps.refl | apply KeepsO.next | apply KeepsO.ite | apply Keeps.trans ?_ (changeOf_keeps ..)
    | apply KeepsO.trans ?_ (done_keeps ..) | apply Keeps.ite)

theorem execShadowApply_keeps (c : Nat) (frame : Nat) (s : State) : KeepsO s (execShadowApply c frame s) := by
  unfold execShadowApply
  repeat' (with_reducible first
    | apply Keeps.refl | apply KeepsO.next | apply KeepsO.ite | apply KeepsO.trans ?_ (done_keeps ..)
    | apply Keeps.trans ?_ (applyShadow_keeps ..) | apply atTime_keeps _ _ _ (by assumption) | apply Keeps.ite
    | apply Keeps.of_snd (by assumption) | apply Keeps.of_fst (by assumption)
    | fail_if_no_progress refine Keeps.put rfl ?_ rfl rfl rfl rfl rfl | split)

theorem feedAudio_keeps (t : Nat) (s : State) (p : Nat) : Keeps s (feedAudio t s p) := by
  unfold feedAudio
  repeat' (with_reducible first
    | apply Keeps.refl | apply Keeps.ite | apply Keeps.of_snd (by assumption) | apply Keeps.of_fst (by assumption)
    | fail_if_no_progress refine Keeps.put rfl ?_ rfl rfl rfl rfl rfl | intro _ | split | dsimp only)

theorem feedSample_keeps (n : Nat) (s : State) : Keeps s (feedSample n s) := by
  unfold feedSample
  repeat' (with_reducible first
    | apply Keeps.refl | apply Keeps.foldl | apply Keeps.foldl_fst | apply Keeps.foldl_snd
    | apply Keeps.trans ?_ (egressSample_keeps ..) | apply Keeps.trans ?_ (feedAudio_keeps ..) | intro _ | dsimp only)

theorem execSampleTick_keeps (n : Nat) (env : SampleEnv) (s : State) : KeepsO s (execSampleTick n env s) := by
  unfold execSampleTick
  repeat' (with_reducible first
    | apply Keeps.refl | assumption | apply KeepsO.next | exact KeepsO.fault | apply KeepsO.ite
    | apply Keeps.trans ?_ (dropHeldLive_keeps ..) | apply KeepsO.trans ?_ (done_keeps ..)
    | apply Keeps.trans ?_ (audioTick_keeps ..) | apply Keeps.trans ?_ (ratesAtTick_keeps ..)
    | apply Keeps.trans ?_ (feedSample_keeps ..) | apply atTime_keeps _ _ _ (by assumption) | apply Keeps.ite
    | apply Keeps.of_snd (by assumption) | apply Keeps.of_fst (by assumption)
    | fail_if_no_progress refine Keeps.put rfl ?_ rfl rfl rfl rfl rfl | intro _ | split | dsimp only)

theorem finishAudio_keeps (c : Nat) (ended : Nat) (s : State) : Keeps s (finishAudio c ended s) := by
  unfold finishAudio
  repeat' (with_reducible first
    | apply Keeps.refl | apply Keeps.foldl | apply Keeps.foldl_fst | apply Keeps.foldl_snd
    | apply Keeps.trans ?_ (localPrint_keeps ..) | apply Keeps.of_snd (by assumption)
    | apply Keeps.of_fst (by assumption) | fail_if_no_progress refine Keeps.put rfl ?_ rfl rfl rfl rfl rfl | intro _
    | split | dsimp only)

theorem takeOvers_keeps (c : Nat) (n : Nat) (s : State) : Keeps s (takeOvers c n s) := by
  unfold takeOvers
  repeat' (with_reducible first
    | apply Keeps.refl | apply Keeps.foldl | apply Keeps.foldl_fst | apply Keeps.foldl_snd
    | apply Keeps.trans ?_ (takeOver_keeps ..) | apply Keeps.ite | intro _)

theorem channelTick_keeps (c : Nat) (n : Nat) (env : FrameEnv) (s : State) : Keeps s (channelTick c n env s) := by
  unfold channelTick
  repeat' (with_reducible first
    | apply Keeps.refl | apply Keeps.foldl | apply Keeps.foldl_fst | apply Keeps.foldl_snd
    | apply Keeps.trans ?_ (modChan_keeps ..) | apply Keeps.trans ?_ (completeApplied_keeps ..)
    | apply Keeps.trans ?_ (ctxFrameTick_keeps ..) | apply Keeps.trans ?_ (confidenceTick_keeps ..)
    | apply Keeps.trans ?_ (composeTick_keeps ..) | apply Keeps.trans ?_ (ingestTick_keeps ..)
    | apply Keeps.trans ?_ (restartsAtTick_keeps ..) | apply Keeps.trans ?_ (egressTick_keeps ..)
    | apply Keeps.trans ?_ (applyShadow_keeps ..) | apply Keeps.trans ?_ (finishAudio_keeps ..)
    | apply Keeps.trans ?_ (takeOvers_keeps ..) | apply Keeps.ite | apply Keeps.of_snd (by assumption)
    | apply Keeps.of_fst (by assumption) | fail_if_no_progress refine Keeps.put rfl ?_ rfl rfl rfl rfl rfl | intro _
    | split | dsimp only)

theorem execFrameTick_keeps (c : Nat) (n : Nat) (env : FrameEnv) (s : State) : KeepsO s (execFrameTick c n env s) := by
  unfold execFrameTick
  repeat' (with_reducible first
    | apply Keeps.refl | apply KeepsO.next | apply KeepsO.ite | apply Keeps.trans ?_ (dropHeldLive_keeps ..)
    | apply KeepsO.trans ?_ (done_keeps ..) | apply Keeps.trans ?_ (channelTick_keeps ..)
    | apply atTime_keeps _ _ _ (by assumption) | apply Keeps.ite | apply Keeps.of_snd (by assumption)
    | apply Keeps.of_fst (by assumption) | fail_if_no_progress refine Keeps.put rfl ?_ rfl rfl rfl rfl rfl | split
    | dsimp only)

theorem tapRow_keeps (c : Nat) (lines : List Bytes) (last : Bool) (s : State) : Keeps s (tapRow c lines last s) := by
  unfold tapRow
  repeat' (with_reducible first
    | apply Keeps.refl | apply Keeps.foldl | apply Keeps.foldl_fst | apply Keeps.foldl_snd
    | apply Keeps.trans ?_ (tapSymbols_keeps ..) | apply Keeps.trans ?_ (tapLines_keeps ..) | apply Keeps.ite | intro _)

theorem rowArrives_keeps (c : Nat) (n : Nat) (row : Nat) (s : State) : Keeps s (rowArrives c n row s) := by
  unfold rowArrives
  repeat' (with_reducible first
    | apply Keeps.refl | apply Keeps.trans ?_ (ingestRow_keeps ..) | apply Keeps.trans ?_ (localPrint_keeps ..)
    | apply Keeps.trans ?_ (tapRow_keeps ..) | dsimp only)

theorem rowAnalysed_keeps (c : Nat) (n : Nat) (x : Nat) (row : Nat) (env : RowEnv) (s : State) : Keeps s (rowAnalysed c n x row env s) := by
  unfold rowAnalysed
  repeat' (with_reducible first
    | apply Keeps.refl | apply Keeps.trans ?_ (modPic_keeps ..) | apply Keeps.trans ?_ (analysisCloses_keeps ..)
    | apply Keeps.trans ?_ (detectCut_keeps ..) | apply Keeps.ite | apply Keeps.of_snd (by assumption)
    | apply Keeps.of_fst (by assumption) | fail_if_no_progress refine Keeps.put rfl ?_ rfl rfl rfl rfl rfl | intro _
    | split | dsimp only)

theorem rowFinished_keeps (n : Nat) (x : Nat) (row : Nat) (env : RowEnv) (s : State) : Keeps s (rowFinished n x row env s) := by
  unfold rowFinished
  repeat' (with_reducible first
    | apply Keeps.refl | apply Keeps.trans ?_ (entropyCloses_keeps ..) | apply Keeps.trans ?_ (packetiseRow_keeps ..)
    | apply Keeps.trans ?_ (sendProduced_keeps ..) | apply Keeps.trans ?_ (localPrint_keeps ..) | apply Keeps.ite
    | apply Keeps.of_snd (by assumption) | apply Keeps.of_fst (by assumption)
    | fail_if_no_progress refine Keeps.put rfl ?_ rfl rfl rfl rfl rfl | intro _ | split | dsimp only)

theorem onRows_keeps (c : Nat) (lattice : Nat) (m : Nat) (d : Nat) (f : Nat → Nat → State → State) (s : State) (hf : ∀ a0 a1 a2, Keeps a2 (f a0 a1 a2)) : Keeps s (onRows c lattice m d f s) := by
  unfold onRows
  repeat' (with_reducible first
    | apply Keeps.refl | apply Keeps.foldl | apply Keeps.foldl_fst | apply Keeps.foldl_snd
    | apply Keeps.trans ?_ (hf ..) | intro _)

theorem rowTick_keeps (c : Nat) (n : Nat) (m : Nat) (env : RowEnv) (s : State) : Keeps s (rowTick c n m env s) := by
  unfold rowTick
  repeat' (with_reducible first
    | apply Keeps.refl | apply Keeps.foldl | apply Keeps.foldl_fst | apply Keeps.foldl_snd
    | apply Keeps.trans ?_ (modChan_keeps ..) | apply Keeps.trans ?_ (clearBroken_keeps ..)
    | apply Keeps.trans ?_ (codingOpensRow_keeps ..) | apply Keeps.trans ?_ (codingCloses_keeps ..)
    | apply Keeps.trans ?_ (confidenceRow_keeps ..) | apply Keeps.trans ?_ (composeCloses_keeps ..)
    | apply Keeps.trans ?_ (rowArrives_keeps ..) | apply Keeps.trans ?_ (rowAnalysed_keeps ..)
    | apply Keeps.trans ?_ (rowFinished_keeps ..) | apply Keeps.trans ?_ (onRows_keeps (hf := ?_) ..) | apply Keeps.ite
    | fail_if_no_progress refine Keeps.put rfl ?_ rfl rfl rfl rfl rfl | intro _ | dsimp only)

theorem execRowTick_keeps (c : Nat) (n : Nat) (m : Nat) (env : RowEnv) (s : State) : KeepsO s (execRowTick c n m env s) := by
  unfold execRowTick
  repeat' (with_reducible first
    | apply Keeps.refl | apply KeepsO.next | apply KeepsO.ite | apply Keeps.trans ?_ (dropHeldLive_keeps ..)
    | apply KeepsO.trans ?_ (done_keeps ..) | apply Keeps.trans ?_ (rowTick_keeps ..)
    | apply atTime_keeps _ _ _ (by assumption) | apply Keeps.ite | apply Keeps.of_snd (by assumption)
    | apply Keeps.of_fst (by assumption) | fail_if_no_progress refine Keeps.put rfl ?_ rfl rfl rfl rfl rfl | split
    | dsimp only)

theorem execMtbMillisecond_keeps (m : Nat) (s : State) : KeepsO s (execMtbMillisecond m s) := by
  unfold execMtbMillisecond
  repeat' (with_reducible first
    | apply Keeps.refl | apply KeepsO.next | apply KeepsO.trans ?_ (done_keeps ..)
    | apply Keeps.trans ?_ (sendTreeHeartbeat_keeps ..) | apply Keeps.trans ?_ (driveHeartbeat_keeps ..)
    | apply atTime_keeps _ _ _ (by assumption) | apply Keeps.of_snd (by assumption) | apply Keeps.of_fst (by assumption)
    | fail_if_no_progress refine Keeps.put rfl ?_ rfl rfl rfl rfl rfl | split)

theorem secondTick_keeps (sec : Nat) (s : State) : Keeps s (secondTick sec s) := by
  unfold secondTick
  repeat' (with_reducible first
    | apply Keeps.refl | apply Keeps.trans ?_ (tapSecond_keeps ..) | apply Keeps.trans ?_ (slackSecond_keeps ..)
    | apply Keeps.trans ?_ (restartsAtSecond_keeps ..) | apply Keeps.trans ?_ (audioSecond_keeps ..)
    | apply Keeps.trans ?_ (egressSecond_keeps ..) | apply Keeps.trans ?_ (healthSecond_keeps ..)
    | apply Keeps.trans ?_ (utilSecond_keeps ..) | apply Keeps.trans ?_ (memorySecond_keeps ..)
    | fail_if_no_progress refine Keeps.put rfl ?_ rfl rfl rfl rfl rfl | dsimp only)

theorem execMtbWholeSecond_keeps (sec : Nat) (s : State) : KeepsO s (execMtbWholeSecond sec s) := by
  unfold execMtbWholeSecond
  repeat' (with_reducible first
    | apply Keeps.refl | apply KeepsO.next | apply KeepsO.trans ?_ (done_keeps ..)
    | apply Keeps.trans ?_ (secondTick_keeps ..) | apply atTime_keeps _ _ _ (by assumption)
    | apply Keeps.of_snd (by assumption) | apply Keeps.of_fst (by assumption)
    | fail_if_no_progress refine Keeps.put rfl ?_ rfl rfl rfl rfl rfl | split)

end Sys2Proof.Machine
end

