-- ==== Sys2Proof/Laws/KeepsRegs.lean ====
section
/-! SUPPORT. What the operations of Machine/Regs.lean keep (Laws/Keeps.lean). -/

set_option linter.unusedTactic false
set_option linter.unreachableTactic false

namespace Sys2Proof.Machine

open Sys2Proof.Safety

theorem setLatch_keeps (transport : Nat) (off : Nat) (v : Nat) (s : State) : Keeps s (setLatch transport off v s) := by
  unfold setLatch
  repeat' (with_reducible first
    | apply Keeps.refl | apply Keeps.trans ?_ (setView_keeps ..)
    | fail_if_no_progress refine Keeps.put rfl ?_ rfl rfl rfl rfl rfl | intro _)

theorem setLatches_keeps (transport off : Nat) (l : List Nat) (s : State) : Keeps s (setLatches transport off l s) := by
  induction l generalizing off s with
  | nil => exact Keeps.refl _
  | cons v l ih => exact (setLatch_keeps ..).trans (ih ..)

theorem selectLog_keeps (transport : Nat) (p : Nat) (value : Nat) (s : State) : Keeps s (selectLog transport p value s) := by
  unfold selectLog
  repeat' (with_reducible first
    | apply Keeps.refl | apply Keeps.trans ?_ (setLatch_keeps ..) | apply Keeps.trans ?_ (setLatches_keeps ..)
    | apply Keeps.of_snd (by assumption) | apply Keeps.of_fst (by assumption) | split | dsimp only)

theorem selectFaultSource_keeps (transport : Nat) (p : Nat) (value : Nat) (s : State) : Keeps s (selectFaultSource transport p value s) := by
  unfold selectFaultSource
  repeat' (with_reducible first
    | apply Keeps.refl | apply Keeps.trans ?_ (setLatch_keeps ..) | apply Keeps.trans ?_ (setLatches_keeps ..)
    | dsimp only)

theorem clearSourceCount_keeps (transport : Nat) (p : Nat) (s : State) : Keeps s (clearSourceCount transport p s) := by
  unfold clearSourceCount
  repeat' (with_reducible first
    | apply Keeps.refl | apply Keeps.trans ?_ (setLatch_keeps ..) | apply Keeps.ite
    | fail_if_no_progress refine Keeps.put rfl ?_ rfl rfl rfl rfl rfl | dsimp only)

theorem releaseErr_keeps (p : Nat) (s : State) : Keeps s (releaseErr p s) := by
  unfold releaseErr
  repeat' (with_reducible first
    | apply Keeps.refl | apply Keeps.ite | fail_if_no_progress refine Keeps.put rfl ?_ rfl rfl rfl rfl rfl)

theorem channelReadClear_keeps (c : Nat) (off : Nat) (s : State) : Keeps s (channelReadClear c off s) := by
  unfold channelReadClear
  repeat' (with_reducible first
    | apply Keeps.refl | apply Keeps.trans ?_ (modChan_keeps ..) | apply Keeps.trans ?_ (modGroup_keeps ..)
    | apply Keeps.of_snd (by assumption) | apply Keeps.of_fst (by assumption)
    | fail_if_no_progress refine Keeps.put rfl ?_ rfl rfl rfl rfl rfl | intro _ | split)

theorem clockReadClear_keeps (off : Nat) (s : State) : Keeps s (clockReadClear off s) := by
  unfold clockReadClear
  repeat' (with_reducible first
    | apply Keeps.refl | apply Keeps.of_snd (by assumption) | apply Keeps.of_fst (by assumption)
    | fail_if_no_progress refine Keeps.put rfl ?_ rfl rfl rfl rfl rfl | split)

theorem clearLost_keeps (value : Nat) (s : State) : Keeps s (clearLost value s) := by
  unfold clearLost
  repeat' (with_reducible first
    | apply Keeps.refl | apply Keeps.foldl | apply Keeps.foldl_fst | apply Keeps.foldl_snd
    | apply Keeps.trans ?_ (setSource_keeps ..) | apply Keeps.ite
    | fail_if_no_progress refine Keeps.put rfl ?_ rfl rfl rfl rfl rfl | intro _)

theorem selectMonitor_keeps (transport : Nat) (value : Nat) (s : State) : Keeps s (selectMonitor transport value s) := by
  unfold selectMonitor
  repeat' (with_reducible first
    | apply Keeps.refl | apply Keeps.trans ?_ (setLatch_keeps ..) | apply Keeps.ite | dsimp only)

theorem dispatcherReadClear_keeps (p : Nat) (off : Nat) (s : State) : Keeps s (dispatcherReadClear p off s) := by
  unfold dispatcherReadClear
  repeat' (with_reducible first
    | apply Keeps.refl | apply Keeps.trans ?_ (setQuota_keeps ..) | apply Keeps.trans ?_ (busy_keeps ..)
    | apply Keeps.ite | apply Keeps.of_snd (by assumption) | apply Keeps.of_fst (by assumption)
    | fail_if_no_progress refine Keeps.put rfl ?_ rfl rfl rfl rfl rfl | intro _ | split)

theorem pairReadClear_keeps (off : Nat) (s : State) : Keeps s (pairReadClear off s) := by
  unfold pairReadClear
  repeat' (with_reducible first
    | apply Keeps.refl | apply Keeps.of_snd (by assumption) | apply Keeps.of_fst (by assumption)
    | fail_if_no_progress refine Keeps.put rfl ?_ rfl rfl rfl rfl rfl | split)

theorem audioReadClear_keeps (p : Nat) (off : Nat) (s : State) : Keeps s (audioReadClear p off s) := by
  unfold audioReadClear
  repeat' (with_reducible first
    | apply Keeps.refl | apply Keeps.trans ?_ (modIn_keeps ..) | apply Keeps.trans ?_ (modOut_keeps ..)
    | apply Keeps.ite | dsimp only)

theorem selectStats_keeps (transport : Nat) (p : Nat) (value : Nat) (s : State) : Keeps s (selectStats transport p value s) := by
  unfold selectStats
  repeat' (with_reducible first
    | apply Keeps.refl | apply Keeps.trans ?_ (clearStats_keeps ..) | apply Keeps.trans ?_ (setLatch_keeps ..)
    | apply Keeps.trans ?_ (setLatches_keeps ..) | apply Keeps.ite | dsimp only)

theorem selectDelay_keeps (transport : Nat) (value : Nat) (s : State) : Keeps s (selectDelay transport value s) := by
  unfold selectDelay
  repeat' (with_reducible first
    | apply Keeps.refl | apply Keeps.trans ?_ (setLatch_keeps ..) | dsimp only)

theorem readClear_keeps (transport : Nat) (p : Nat) (off : Nat) (s : State) : Keeps s (readClear transport p off s) := by
  unfold readClear
  repeat' (with_reducible first
    | apply Keeps.refl | apply Keeps.trans ?_ (setPart_keeps ..) | apply Keeps.trans ?_ (modUnit_keeps ..)
    | apply Keeps.trans ?_ (setCmp_keeps ..) | apply Keeps.trans ?_ (memoryReadClear_keeps ..)
    | apply Keeps.trans ?_ (linksReadClear_keeps ..) | apply Keeps.trans ?_ (clearSourceCount_keeps ..)
    | apply Keeps.trans ?_ (channelReadClear_keeps ..) | apply Keeps.trans ?_ (clockReadClear_keeps ..)
    | apply Keeps.trans ?_ (dispatcherReadClear_keeps ..) | apply Keeps.trans ?_ (pairReadClear_keeps ..)
    | apply Keeps.trans ?_ (audioReadClear_keeps ..) | apply Keeps.ite | apply Keeps.of_snd (by assumption)
    | apply Keeps.of_fst (by assumption) | fail_if_no_progress refine Keeps.put rfl ?_ rfl rfl rfl rfl rfl | intro _
    | split | dsimp only)

theorem readLatch_keeps (transport : Nat) (p : Nat) (off : Nat) (s : State) : Keeps s (readLatch transport p off s) := by
  unfold readLatch
  repeat' (with_reducible first
    | apply Keeps.refl | apply Keeps.trans ?_ (setLatches_keeps ..) | apply Keeps.ite
    | apply Keeps.of_snd (by assumption) | apply Keeps.of_fst (by assumption)
    | fail_if_no_progress refine Keeps.put rfl ?_ rfl rfl rfl rfl rfl | split)

theorem readReg_keeps (transport : Nat) (p : Nat) (off : Nat) (s : State) : Keeps s (readReg transport p off s).2 := by
  unfold readReg
  repeat' (with_reducible first
    | apply Keeps.refl | apply Keeps.trans ?_ (readClear_keeps ..) | apply Keeps.trans ?_ (readLatch_keeps ..))

theorem readRegs_keeps (transport p n off : Nat) (s : State) : Keeps s (readRegs transport p n off s).2 := by
  induction n generalizing off s with
  | zero => exact Keeps.refl _
  | succ n ih =>
    unfold readRegs
    by_cases h : off < 65536
    · simp only [h, if_true]
      exact (readReg_keeps ..).trans (ih ..)
    · simp only [h, if_false]
      exact ih ..

theorem writeRing_keeps (f : Nat) (p : Nat) (off : Nat) (value : Nat) (s : State) : Keeps s (writeRing f p off value s) := by
  unfold writeRing
  repeat' (with_reducible first
    | apply Keeps.refl | apply Keeps.foldl | apply Keeps.foldl_fst | apply Keeps.foldl_snd
    | apply Keeps.trans ?_ (setRing_keeps ..) | apply Keeps.trans ?_ (flushHeld_keeps ..)
    | apply Keeps.trans ?_ (releaseAnswered_keeps ..) | apply Keeps.trans ?_ (resetRing_keeps ..)
    | apply Keeps.trans ?_ (writeRplHead_keeps ..) | apply Keeps.ite | apply Keeps.of_snd (by assumption)
    | apply Keeps.of_fst (by assumption) | fail_if_no_progress refine Keeps.put rfl ?_ rfl rfl rfl rfl rfl | intro _
    | split | dsimp only)

theorem writeTail_keeps (f : Nat) (p : Nat) (tail : Nat) (s : State) : Keeps s (writeTail f p tail s).1 := by
  unfold writeTail
  repeat' (with_reducible first
    | apply Keeps.refl | apply Keeps.ite_fst | apply Keeps.trans ?_ (setRing_keeps ..)
    | apply Keeps.trans ?_ (ringError_keeps ..) | apply Keeps.ite
    | fail_if_no_progress refine Keeps.put rfl ?_ rfl rfl rfl rfl rfl | intro _ | dsimp only)

theorem writeReg_keeps (transport : Nat) (p : Nat) (off : Nat) (value : Nat) (s : State) : Keeps s (writeReg transport p off value s) := by
  unfold writeReg
  repeat' (with_reducible first
    | apply Keeps.refl | apply Keeps.trans ?_ (writeTail_keeps ..) | apply Keeps.trans ?_ (stageRun_keeps ..)
    | apply Keeps.trans ?_ (loadRun_keeps ..) | apply Keeps.trans ?_ (selectLog_keeps ..)
    | apply Keeps.trans ?_ (selectFaultSource_keeps ..) | apply Keeps.trans ?_ (releaseErr_keeps ..)
    | apply Keeps.trans ?_ (clearLost_keeps ..) | apply Keeps.trans ?_ (selectMonitor_keeps ..)
    | apply Keeps.trans ?_ (selectStats_keeps ..) | apply Keeps.trans ?_ (selectDelay_keeps ..)
    | apply Keeps.trans ?_ (writeRing_keeps ..) | apply Keeps.ite
    | fail_if_no_progress refine Keeps.put rfl ?_ rfl rfl rfl rfl rfl | dsimp only)

theorem readAt_keeps (transport : Nat) (off : Nat) (s : State) : Keeps s (readAt transport off s) := by
  unfold readAt
  repeat' (with_reducible first
    | apply Keeps.refl | apply Keeps.trans ?_ (readReg_keeps ..) | apply Keeps.trans ?_ (setView_keeps ..)
    | apply Keeps.ite | apply Keeps.of_snd (by assumption) | apply Keeps.of_fst (by assumption)
    | fail_if_no_progress refine Keeps.put rfl ?_ rfl rfl rfl rfl rfl | intro _ | split | dsimp only)

theorem writeAt_keeps (transport : Nat) (off : Nat) (value : Nat) (s : State) : Keeps s (writeAt transport off value s) := by
  unfold writeAt
  repeat' (with_reducible first
    | apply Keeps.refl | apply Keeps.trans ?_ (writeReg_keeps ..) | apply Keeps.of_snd (by assumption)
    | apply Keeps.of_fst (by assumption) | fail_if_no_progress refine Keeps.put rfl ?_ rfl rfl rfl rfl rfl | split)

theorem execClkMtbFracRead_keeps (transport : Nat) (s : State) : KeepsO s (execClkMtbFracRead transport s) := by
  unfold execClkMtbFracRead
  repeat' (with_reducible first
    | apply Keeps.refl | apply KeepsO.next | apply Keeps.trans ?_ (readAt_keeps ..))

theorem execLowWordLatchRead_keeps (transport : Nat) (off : Nat) (s : State) : KeepsO s (execLowWordLatchRead transport off s) := by
  unfold execLowWordLatchRead
  repeat' (with_reducible first
    | apply Keeps.refl | apply KeepsO.next | apply Keeps.trans ?_ (readAt_keeps ..))

theorem execReadClearRegisterRead_keeps (transport : Nat) (off : Nat) (s : State) : KeepsO s (execReadClearRegisterRead transport off s) := by
  unfold execReadClearRegisterRead
  repeat' (with_reducible first
    | apply Keeps.refl | apply KeepsO.next | apply Keeps.trans ?_ (readAt_keeps ..))

theorem execRegisterWrite_keeps (transport : Nat) (off : Nat) (value : Nat) (s : State) : KeepsO s (execRegisterWrite transport off value s) := by
  unfold execRegisterWrite
  repeat' (with_reducible first
    | apply Keeps.refl | apply KeepsO.trans ?_ (done_keeps ..) | apply Keeps.trans ?_ (writeAt_keeps ..))

theorem execEgrStatSelect_keeps (transport : Nat) (value : Nat) (s : State) : KeepsO s (execEgrStatSelect transport value s) := by
  unfold execEgrStatSelect
  repeat' (with_reducible first
    | apply Keeps.refl | apply KeepsO.next | apply Keeps.trans ?_ (writeAt_keeps ..))

theorem execEgrStatSelectClear_keeps (transport : Nat) (value : Nat) (s : State) : KeepsO s (execEgrStatSelectClear transport value s) := by
  unfold execEgrStatSelectClear
  repeat' (with_reducible first
    | apply Keeps.refl | apply KeepsO.next | apply Keeps.trans ?_ (writeAt_keeps ..))

theorem execDrmDlySelect_keeps (transport : Nat) (value : Nat) (s : State) : KeepsO s (execDrmDlySelect transport value s) := by
  unfold execDrmDlySelect
  repeat' (with_reducible first
    | apply Keeps.refl | apply KeepsO.next | apply Keeps.trans ?_ (writeAt_keeps ..))

theorem execClkMonSelect_keeps (transport : Nat) (value : Nat) (s : State) : KeepsO s (execClkMonSelect transport value s) := by
  unfold execClkMonSelect
  repeat' (with_reducible first
    | apply Keeps.refl | apply KeepsO.next | apply Keeps.trans ?_ (writeAt_keeps ..))

theorem execFltLogSelect_keeps (transport : Nat) (value : Nat) (s : State) : KeepsO s (execFltLogSelect transport value s) := by
  unfold execFltLogSelect
  repeat' (with_reducible first
    | apply Keeps.refl | apply KeepsO.next | apply Keeps.trans ?_ (writeAt_keeps ..))

theorem execFltSrcSelect_keeps (transport : Nat) (value : Nat) (s : State) : KeepsO s (execFltSrcSelect transport value s) := by
  unfold execFltSrcSelect
  repeat' (with_reducible first
    | apply Keeps.refl | apply KeepsO.next | apply Keeps.trans ?_ (writeAt_keeps ..))

theorem execFltErrRelease_keeps (transport : Nat) (s : State) : KeepsO s (execFltErrRelease transport s) := by
  unfold execFltErrRelease
  repeat' (with_reducible first
    | apply Keeps.refl | apply KeepsO.next | apply Keeps.trans ?_ (writeAt_keeps ..))

theorem execClkLostClear_keeps (transport : Nat) (mask : Nat) (s : State) : KeepsO s (execClkLostClear transport mask s) := by
  unfold execClkLostClear
  repeat' (with_reducible first
    | apply Keeps.refl | apply KeepsO.next | apply Keeps.trans ?_ (writeAt_keeps ..))

theorem execPwrGpioOutWrite_keeps (transport : Nat) (value : Nat) (s : State) : KeepsO s (execPwrGpioOutWrite transport value s) := by
  unfold execPwrGpioOutWrite
  repeat' (with_reducible first
    | apply Keeps.refl | apply KeepsO.next | apply Keeps.trans ?_ (writeAt_keeps ..))

theorem cmdHstInfo_keeps (r : Req) (s : State) : Keeps s (cmdHstInfo r s) := by
  unfold cmdHstInfo
  repeat' (with_reducible first
    | apply Keeps.refl | apply Keeps.trans ?_ (reply_keeps ..)
    | apply Keeps.trans ?_ (takeRequest_keeps (hbody := ?_) ..) | intro _ | dsimp only)

theorem execHstInfo_keeps (r : Req) (s : State) : KeepsO s (execHstInfo r s) := by
  unfold execHstInfo
  repeat' (with_reducible first
    | apply Keeps.refl | apply KeepsO.trans ?_ (done_keeps ..) | apply Keeps.trans ?_ (cmdHstInfo_keeps ..))

theorem cmdHstRegRead_keeps (r : Req) (s : State) : Keeps s (cmdHstRegRead r s) := by
  unfold cmdHstRegRead
  repeat' (with_reducible first
    | apply Keeps.refl | apply Keeps.trans ?_ (readRegs_keeps ..) | apply Keeps.trans ?_ (reply_keeps ..)
    | apply Keeps.trans ?_ (takeRequest_keeps (hbody := ?_) ..) | apply Keeps.of_snd (by assumption)
    | apply Keeps.of_fst (by assumption) | intro _ | split | dsimp only)

theorem execHstRegRead_keeps (r : Req) (s : State) : KeepsO s (execHstRegRead r s) := by
  unfold execHstRegRead
  repeat' (with_reducible first
    | apply Keeps.refl | apply KeepsO.trans ?_ (done_keeps ..) | apply Keeps.trans ?_ (cmdHstRegRead_keeps ..))

theorem cmdHstRegWrite_keeps (r : Req) (s : State) : Keeps s (cmdHstRegWrite r s) := by
  unfold cmdHstRegWrite
  repeat' (with_reducible first
    | apply Keeps.refl | apply Keeps.trans ?_ (reply_keeps ..)
    | apply Keeps.trans ?_ (takeRequest_keeps (hbody := ?_) ..) | apply Keeps.trans ?_ (writeReg_keeps ..) | intro _
    | dsimp only)

theorem execHstRegWrite_keeps (r : Req) (s : State) : KeepsO s (execHstRegWrite r s) := by
  unfold execHstRegWrite
  repeat' (with_reducible first
    | apply Keeps.refl | apply KeepsO.trans ?_ (done_keeps ..) | apply Keeps.trans ?_ (cmdHstRegWrite_keeps ..))

theorem execHrwScheduleSnapshot_keeps (r : Req) (s : State) : KeepsO s (execHrwScheduleSnapshot r s) := by
  unfold execHrwScheduleSnapshot
  repeat' (with_reducible first
    | apply Keeps.refl | apply KeepsO.trans ?_ (done_keeps ..) | apply Keeps.trans ?_ (cmdHrwSchedule_keeps ..))

theorem execHrwScheduleReset_keeps (r : Req) (s : State) : KeepsO s (execHrwScheduleReset r s) := by
  unfold execHrwScheduleReset
  repeat' (with_reducible first
    | apply Keeps.refl | apply KeepsO.trans ?_ (done_keeps ..) | apply Keeps.trans ?_ (cmdHrwSchedule_keeps ..))

theorem execHrwScheduleReceive_keeps (a : TreeAction) (s : State) : KeepsO s (execHrwScheduleReceive a s) := by
  unfold execHrwScheduleReceive
  repeat' (with_reducible first
    | apply Keeps.refl | apply KeepsO.trans ?_ (done_keeps ..) | apply Keeps.trans ?_ (receiveSchedule_keeps ..))

theorem execHrwActionTime_keeps (seq : Nat) (s : State) : KeepsO s (execHrwActionTime seq s) := by
  unfold execHrwActionTime
  repeat' (with_reducible first
    | apply Keeps.refl | apply KeepsO.trans ?_ (done_keeps ..) | apply Keeps.trans ?_ (actionDue_keeps ..))

theorem execHrwRequestAtRoot_keeps (q : TreeRequest) (s : State) : KeepsO s (execHrwRequestAtRoot q s) := by
  unfold execHrwRequestAtRoot
  repeat' (with_reducible first
    | apply Keeps.refl | apply KeepsO.trans ?_ (done_keeps ..) | apply Keeps.trans ?_ (requestAtRoot_keeps ..))

end Sys2Proof.Machine
end

