-- ==== Sys2Proof/Laws/KeepsBoot.lean ====
section
/-! SUPPORT. What the operations of Machine/Boot.lean keep (Laws/Keeps.lean). -/

set_option linter.unusedTactic false
set_option linter.unreachableTactic false

namespace Sys2Proof.Machine

open Sys2Proof.Safety

theorem recordBody_keeps (type : Nat) (f : Bytes → State → State) (h : recordBody type = some f) (b : Bytes) (s : State) :
    Keeps s (f b s) := by
  unfold recordBody at h
  split at h
  all_goals first
    | cases h
      done
    | (injection h with h; subst h)
  exacts [
    recPadding_keeps .., recGpio_keeps .., recSupply_keeps .., recMtb_keeps .., recMemory_keeps .., recQosPort_keeps ..,
    recEthPort_keeps .., recValsin_keeps .., recIngressFlow_keeps .., recAlignmentGroup_keeps .., recGroupMember_keeps ..,
    recAesIn_keeps .., recAesOut_keeps .., recProgramme_keeps .., recCompositor_keeps .., recVideoLayer_keeps ..,
    recGraphicsLayer_keeps .., recSlateData_keeps .., recTopiaryRegion_keeps .., recEncodeChannel_keeps ..,
    recEncodeContext_keeps .., recContextCoding_keeps .., recChannelColour_keeps .., recRateControl_keeps ..,
    recCoppice_keeps .., recDecodeContext_keeps .., recEgressFlow_keeps .., recFlowGroup_keeps .., recPortClass_keeps ..,
    recGateList_keeps .., recIngressPolicer_keeps .., recPair_keeps .., recHedgerow_keeps .., recSeverity_keeps ..,
    recGeneralFault_keeps .., recBinding_keeps .., recPartitionKey_keeps .., recMgPort_keeps .., recPartitionChannel_keeps ..,
    recPartitionQuota_keeps .., recGeneralUnit_keeps ..]

theorem applyRecord_keeps (enrolling : Bool) (a : State × List Bool) (r : Nat × Bytes) :
    Keeps a.1 (applyRecord enrolling a r).1 := by
  unfold applyRecord
  apply Keeps.ite_fst
  · exact recKey_keeps ..
  · apply Keeps.ite_fst
    · exact Keeps.ite (applied_keeps _) (unknownRecord_keeps _)
    · split
      · exact recordBody_keeps _ _ (by assumption) ..
      · exact unknownRecord_keeps _

theorem applyRecords_keeps (enrolling : Bool) (tags : List Bool) (s : State) : Keeps s (applyRecords enrolling tags s) := by
  unfold applyRecords
  repeat' (with_reducible first
    | apply Keeps.refl | apply Keeps.foldl | apply Keeps.foldl_fst | apply Keeps.foldl_snd
    | apply Keeps.trans ?_ (applyRecord_keeps ..) | intro _ | dsimp only)

theorem execConfigSlotVerify_keeps (x : CfgSlot) (s : State) : KeepsO s (execConfigSlotVerify x s) := by
  unfold execConfigSlotVerify
  repeat' (with_reducible first
    | apply Keeps.refl | apply KeepsO.next | apply KeepsO.ite | apply Keeps.trans ?_ (raise_keeps ..)
    | apply Keeps.trans ?_ (trainMemory_keeps ..) | apply Keeps.trans ?_ (enterMode_keeps ..)
    | apply Keeps.trans ?_ (settle_keeps ..) | apply KeepsO.trans ?_ (done_keeps ..)
    | apply Keeps.trans ?_ (readSelector_keeps ..) | apply Keeps.trans ?_ (takeConfig_keeps ..)
    | apply Keeps.trans ?_ (applyRecords_keeps ..) | apply Keeps.ite
    | fail_if_no_progress refine Keeps.put rfl ?_ rfl rfl rfl rfl rfl | dsimp only)

theorem fixContext_keeps (ch : Chan) (s : State) (x : Nat) : Keeps s (fixContext ch s x) := by
  unfold fixContext
  repeat' (with_reducible first
    | apply Keeps.refl | apply Keeps.trans ?_ (modCtx_keeps ..) | intro _)

theorem refuseChannel_keeps (c : Nat) (cause : Nat) (s : State) : Keeps s (refuseChannel c cause s) := by
  unfold refuseChannel
  repeat' (with_reducible first
    | apply Keeps.refl | apply Keeps.trans ?_ (modChan_keeps ..) | apply Keeps.trans ?_ (refuseEgress_keeps ..)
    | fail_if_no_progress refine Keeps.put rfl ?_ rfl rfl rfl rfl rfl | intro _)

theorem admitChannel_keeps (s : State) (c : Nat) : Keeps s (admitChannel s c) := by
  unfold admitChannel
  repeat' (with_reducible first
    | apply Keeps.refl | apply Keeps.foldl | apply Keeps.foldl_fst | apply Keeps.foldl_snd
    | apply Keeps.trans ?_ (modChan_keeps ..) | apply Keeps.trans ?_ (takeEngines_keeps ..)
    | apply Keeps.trans ?_ (takeAnalysers_keeps ..) | apply Keeps.trans ?_ (takeEgress_keeps ..)
    | apply Keeps.trans ?_ (takeDispatcher_keeps ..) | apply Keeps.trans ?_ (takeHbm_keeps ..)
    | apply Keeps.trans ?_ (fixContext_keeps ..) | apply Keeps.trans ?_ (refuseChannel_keeps ..) | apply Keeps.ite
    | apply Keeps.of_snd (by assumption) | apply Keeps.of_fst (by assumption)
    | fail_if_no_progress refine Keeps.put rfl ?_ rfl rfl rfl rfl rfl | intro _ | split | dsimp only)

theorem execAdmission_keeps (s : State) : KeepsO s (execAdmission s) := by
  unfold execAdmission
  repeat' (with_reducible first
    | apply Keeps.refl | assumption | apply KeepsO.next | exact KeepsO.fault | apply KeepsO.ite | apply Keeps.foldl
    | apply Keeps.foldl_fst | apply Keeps.foldl_snd | apply Keeps.trans ?_ (admitDecode_keeps ..)
    | apply KeepsO.trans ?_ (done_keeps ..) | apply Keeps.trans ?_ (settleSdiOuts_keeps ..)
    | apply Keeps.trans ?_ (settlePllS_keeps ..) | apply Keeps.trans ?_ (settleLayers_keeps ..)
    | apply Keeps.trans ?_ (settleOutputs_keeps ..) | apply Keeps.trans ?_ (leaveConfigure_keeps ..)
    | apply Keeps.trans ?_ (compareDigest_keeps ..) | apply Keeps.trans ?_ (admitChannel_keeps ..) | apply Keeps.ite
    | apply Keeps.of_snd (by assumption) | apply Keeps.of_fst (by assumption)
    | fail_if_no_progress refine Keeps.put rfl ?_ rfl rfl rfl rfl rfl | intro _ | split | dsimp only)

theorem execConfigureComplete_keeps (s : State) : KeepsO s (execConfigureComplete s) := by
  unfold execConfigureComplete
  repeat' (with_reducible first
    | apply Keeps.refl | apply KeepsO.next | apply KeepsO.ite | apply KeepsO.trans ?_ (done_keeps ..)
    | apply Keeps.trans ?_ (leaveConfigure_keeps ..) | apply Keeps.ite
    | fail_if_no_progress refine Keeps.put rfl ?_ rfl rfl rfl rfl rfl | dsimp only)

theorem execConfigureMtbTimeout_keeps (s : State) : KeepsO s (execConfigureMtbTimeout s) := by
  unfold execConfigureMtbTimeout
  repeat' (with_reducible first
    | apply Keeps.refl | apply KeepsO.next | apply KeepsO.ite | apply Keeps.trans ?_ (noEarlier_keeps ..)
    | apply KeepsO.trans ?_ (done_keeps ..) | apply Keeps.trans ?_ (leaveConfigure_keeps ..) | apply Keeps.ite
    | fail_if_no_progress refine Keeps.put rfl ?_ rfl rfl rfl rfl rfl | dsimp only)

theorem atRequestTick_keeps (s : State) : Keeps s (atRequestTick s) := by
  unfold atRequestTick
  repeat' (with_reducible first
    | apply Keeps.refl | apply Keeps.trans ?_ (noEarlier_keeps ..) | apply Keeps.ite
    | apply Keeps.of_snd (by assumption) | apply Keeps.of_fst (by assumption)
    | fail_if_no_progress refine Keeps.put rfl ?_ rfl rfl rfl rfl rfl | intro _ | split | dsimp only)

theorem answerMode_keeps (h : Held) (s : State) : Keeps s (answerMode h s) := by
  unfold answerMode
  repeat' (with_reducible first
    | apply Keeps.refl | apply Keeps.trans ?_ (replyTo_keeps ..))

theorem actOnRequest_keeps (h : Held) (s : State) : Keeps s (actOnRequest h s) := by
  unfold actOnRequest
  repeat' (with_reducible first
    | apply Keeps.refl | apply Keeps.trans ?_ (replyTo_keeps ..) | apply Keeps.trans ?_ (enterMode_keeps ..)
    | apply Keeps.trans ?_ (enterRun_keeps ..) | apply Keeps.trans ?_ (beginUpdate_keeps ..)
    | apply Keeps.trans ?_ (nameSwap_keeps ..) | apply Keeps.trans ?_ (answerMode_keeps ..) | apply Keeps.ite
    | apply Keeps.of_snd (by assumption) | apply Keeps.of_fst (by assumption)
    | fail_if_no_progress refine Keeps.put rfl ?_ rfl rfl rfl rfl rfl | split)

theorem execModeRequestExecute_keeps (s : State) : KeepsO s (execModeRequestExecute s) := by
  unfold execModeRequestExecute
  repeat' (with_reducible first
    | apply Keeps.refl | apply KeepsO.next | apply KeepsO.ite | apply KeepsO.trans ?_ (done_keeps ..)
    | apply Keeps.trans ?_ (earlierTriggers_keeps ..) | apply Keeps.trans ?_ (atRequestTick_keeps ..)
    | apply Keeps.trans ?_ (actOnRequest_keeps ..) | apply Keeps.ite | apply Keeps.of_snd (by assumption)
    | apply Keeps.of_fst (by assumption) | fail_if_no_progress refine Keeps.put rfl ?_ rfl rfl rfl rfl rfl | split
    | dsimp only)

end Sys2Proof.Machine
end

