-- ==== Sys2Proof/Laws/KeepsServe.lean ====
section
/-! SUPPORT. What the operations of Machine/Serve.lean keep (Laws/Keeps.lean). -/

set_option linter.unusedTactic false
set_option linter.unreachableTactic false

namespace Sys2Proof.Machine

open Sys2Proof.Safety

theorem servePvdSubmit_keeps (r : Req) (s : State) : Keeps s (servePvdSubmit r s) := by
  unfold servePvdSubmit
  repeat' (with_reducible first
    | apply Keeps.refl | apply Keeps.trans ?_ (cmdReferenceAction_keeps ..)
    | apply Keeps.trans ?_ (cmdOverlayUpdate_keeps ..) | apply Keeps.trans ?_ (cmdSpliceInsertion_keeps ..)
    | apply Keeps.trans ?_ (cmdSeiInsertion_keeps ..) | apply Keeps.trans ?_ (cmdPvdSubmitUnknownClass_keeps ..)
    | apply Keeps.ite | dsimp only)

theorem serveRequest_keeps (opcode : Nat) (r : Req) (s : State) : Keeps s (serveRequest opcode r s) := by
  unfold serveRequest
  repeat' (with_reducible first
    | apply Keeps.refl | apply Keeps.trans ?_ (cmdClkSwitchToPllR_keeps ..)
    | apply Keeps.trans ?_ (cmdClkSwitchToFrc_keeps ..) | apply Keeps.trans ?_ (cmdHrwBroadcast_keeps ..)
    | apply Keeps.trans ?_ (cmdHrwSchedule_keeps ..) | apply Keeps.trans ?_ (cmdHrwSnapRead_keeps ..)
    | apply Keeps.trans ?_ (cmdHrwBarrier_keeps ..) | apply Keeps.trans ?_ (cmdSecIdentity_keeps ..)
    | apply Keeps.trans ?_ (cmdSecAttest_keeps ..) | apply Keeps.trans ?_ (cmdSecAttestRead_keeps ..)
    | apply Keeps.trans ?_ (cmdSecUpdateBegin_keeps ..) | apply Keeps.trans ?_ (cmdSecUpdateData_keeps ..)
    | apply Keeps.trans ?_ (cmdSecUpdateEnd_keeps ..) | apply Keeps.trans ?_ (cmdSecUpdateAbort_keeps ..)
    | apply Keeps.trans ?_ (cmdEncChannelInfo_keeps ..) | apply Keeps.trans ?_ (cmdEncPoolInfo_keeps ..)
    | apply Keeps.trans ?_ (cmdEncRefInfo_keeps ..) | apply Keeps.trans ?_ (cmdEncRcInfo_keeps ..)
    | apply Keeps.trans ?_ (cmdEncSetBitrate_keeps ..) | apply Keeps.trans ?_ (cmdDecCtxInfo_keeps ..)
    | apply Keeps.trans ?_ (cmdCmpChInfo_keeps ..) | apply Keeps.trans ?_ (cmdCmpSetLayer_keeps ..)
    | apply Keeps.trans ?_ (cmdIngGroupInfo_keeps ..) | apply Keeps.trans ?_ (cmdAudPortRestart_keeps ..)
    | apply Keeps.trans ?_ (cmdEgrSetRate_keeps ..) | apply Keeps.trans ?_ (cmdEgrSetGates_keeps ..)
    | apply Keeps.trans ?_ (cmdRedSwapNow_keeps ..) | apply Keeps.trans ?_ (cmdRedPairInfo_keeps ..)
    | apply Keeps.trans ?_ (cmdLnkPortInfo_keeps ..) | apply Keeps.trans ?_ (cmdLnkRetrain_keeps ..)
    | apply Keeps.trans ?_ (cmdMailboxUnknownOpcode_keeps ..) | apply Keeps.trans ?_ (cmdHstNop_keeps ..)
    | apply Keeps.trans ?_ (cmdHstBufWriteInline_keeps ..) | apply Keeps.trans ?_ (cmdHstBufWritePull_keeps ..)
    | apply Keeps.trans ?_ (cmdHstModeReq_keeps ..) | apply Keeps.trans ?_ (cmdHstInfo_keeps ..)
    | apply Keeps.trans ?_ (cmdHstRegRead_keeps ..) | apply Keeps.trans ?_ (cmdHstRegWrite_keeps ..)
    | apply Keeps.trans ?_ (servePvdSubmit_keeps ..) | apply Keeps.ite | apply Keeps.of_snd (by assumption)
    | apply Keeps.of_fst (by assumption) | fail_if_no_progress refine Keeps.put rfl ?_ rfl rfl rfl rfl rfl | split
    | dsimp only)

theorem serveMessage_keeps (transport : Nat) (b : Bytes) (s : State) : Keeps s (serveMessage transport b s) := by
  unfold serveMessage
  repeat' (with_reducible first
    | apply Keeps.refl | apply Keeps.trans ?_ (serveRequest_keeps ..) | dsimp only)

theorem serveRing_keeps (f p n : Nat) (b : Bytes) (s : State) : Keeps s (serveRing f p n b s) := by
  induction n generalizing b s with
  | zero => exact Keeps.refl _
  | succ n ih =>
    unfold serveRing
    apply Keeps.ite (Keeps.refl _)
    apply Keeps.ite
    · exact (badFrame_keeps ..).trans (ringError_keeps ..)
    · exact ((setRing_keeps ..).trans (serveMessage_keeps ..)).trans (ih ..)

theorem execHstReqTailWrite_keeps (f : Nat) (tail : Nat) (bytes : Bytes) (s : State) : KeepsO s (execHstReqTailWrite f tail bytes s) := by
  unfold execHstReqTailWrite
  repeat' (with_reducible first
    | apply Keeps.refl | apply KeepsO.next | apply KeepsO.ite | apply Keeps.trans ?_ (writeTail_keeps ..)
    | apply KeepsO.trans ?_ (done_keeps ..) | apply Keeps.trans ?_ (serveRing_keeps ..) | apply Keeps.ite
    | apply Keeps.of_snd (by assumption) | apply Keeps.of_fst (by assumption)
    | fail_if_no_progress refine Keeps.put rfl ?_ rfl rfl rfl rfl rfl | split | dsimp only)

theorem execSessionAuth_keeps (i : Nat) (signatureOk : Bool) (peer : Nat) (s : State) : KeepsO s (execSessionAuth i signatureOk peer s) := by
  unfold execSessionAuth
  repeat' (with_reducible first
    | apply Keeps.refl | apply KeepsO.next | apply KeepsO.ite | apply Keeps.trans ?_ (setSession_keeps ..)
    | apply Keeps.trans ?_ (sendOn_keeps ..) | apply Keeps.trans ?_ (flushHeld_keeps ..)
    | apply KeepsO.trans ?_ (done_keeps ..) | apply Keeps.trans ?_ (failAuth_keeps ..) | apply Keeps.ite
    | apply Keeps.of_snd (by assumption) | apply Keeps.of_fst (by assumption)
    | fail_if_no_progress refine Keeps.put rfl ?_ rfl rfl rfl rfl rfl | intro _ | split | dsimp only)

theorem execSessionProtectedFrame_keeps (i : Nat) (counter : Nat) (tagOk : Bool) (peer : Nat) (message : Bytes) (s : State) : KeepsO s (execSessionProtectedFrame i counter tagOk peer message s) := by
  unfold execSessionProtectedFrame
  repeat' (with_reducible first
    | apply Keeps.refl | apply KeepsO.next | apply KeepsO.ite | apply Keeps.trans ?_ (setSession_keeps ..)
    | apply KeepsO.trans ?_ (done_keeps ..) | apply Keeps.trans ?_ (badFrame_keeps ..)
    | apply Keeps.trans ?_ (serveMessage_keeps ..) | apply Keeps.ite | apply Keeps.of_snd (by assumption)
    | apply Keeps.of_fst (by assumption) | fail_if_no_progress refine Keeps.put rfl ?_ rfl rfl rfl rfl rfl | intro _
    | split | dsimp only)

end Sys2Proof.Machine
end

