-- ==== Sys2Proof/Laws/KeepsExec.lean ====
section
/-! SUPPORT. What every command keeps, and with it every step (Laws/Keeps.lean). -/

namespace Sys2Proof.Machine

open Sys2Proof.Safety

/-- Every command keeps the queue behind it, HBM's form, the fuses, and the safety of the outputs and the absence of a claim. -/
theorem exec_keeps (i : Instr) (s : State) : KeepsO s (exec i s) := by
  cases i with
  | inputSupplyGood supply => exact execInputSupplyGood_keeps supply s
  | supplyDebounceDone => exact execSupplyDebounceDone_keeps s
  | railWithinLimits => exact execRailWithinLimits_keeps s
  | railSequenceFail => exact execRailSequenceFail_keeps s
  | railSequenceRetry => exact execRailSequenceRetry_keeps s
  | powerRemoved => exact execPowerRemoved_keeps s
  | frcStartFail => exact execFrcStartFail_keeps s
  | frcRestart => exact execFrcRestart_keeps s
  | loopLockReported source => exact execLoopLockReported_keeps source s
  | sourceStable source ratio => exact execSourceStable_keeps source ratio s
  | resetNFall => exact execResetNFall_keeps s
  | resetAccepted => exact execResetAccepted_keeps s
  | resetNRelease svcEn => exact execResetNRelease_keeps svcEn s
  | clockStopDetect source => exact execClockStopDetect_keeps source s
  | frequencyMeasurement source count => exact execFrequencyMeasurement_keeps source count s
  | rootSwitchDone => exact execRootSwitchDone_keeps s
  | safeHoldExit sourceTime => exact execSafeHoldExit_keeps sourceTime s
  | pllSLockLoss => exact execPllSLockLoss_keeps s
  | supplyLoss supply => exact execSupplyLoss_keeps supply s
  | supplyReturn supply => exact execSupplyReturn_keeps supply s
  | overcurrent => exact execOvercurrent_keeps s
  | coreRailLoss rail => exact execCoreRailLoss_keeps rail s
  | hbmRailLoss stack => exact execHbmRailLoss_keeps stack s
  | tjSample env => exact execTjSample_keeps env s
  | pmbusPage page => exact execPmbusPage_keeps page s
  | pmbusClearFaults => exact execPmbusClearFaults_keeps s
  | pmbusStatusWord => exact execPmbusStatusWord_keeps s
  | pmbusStatusInput => exact execPmbusStatusInput_keeps s
  | pmbusStatusIout => exact execPmbusStatusIout_keeps s
  | pmbusStatusTemperature => exact execPmbusStatusTemperature_keeps s
  | pmbusReadVin => exact execPmbusReadVin_keeps s
  | pmbusReadIin => exact execPmbusReadIin_keeps s
  | pmbusReadVout => exact execPmbusReadVout_keeps s
  | pmbusReadIout => exact execPmbusReadIout_keeps s
  | pmbusReadPin => exact execPmbusReadPin_keeps s
  | pmbusReadTemperature1 => exact execPmbusReadTemperature1_keeps s
  | pmbusMfrFaultLogRead => exact execPmbusMfrFaultLogRead_keeps s
  | pmbusOtherWrite command => exact execPmbusOtherWrite_keeps command s
  | ptpMessageReceive port offset => exact execPtpMessageReceive_keeps port offset s
  | frameInEdge offset => exact execFrameInEdge_keeps offset s
  | ppsInEdge offset => exact execPpsInEdge_keeps offset s
  | mtbSourceLost source => exact execMtbSourceLost_keeps source s
  | clkMtbFracRead transport => exact execClkMtbFracRead_keeps transport s
  | sampleTick tick env => exact execSampleTick_keeps tick env s
  | frameTick channel frame env => exact execFrameTick_keeps channel frame env s
  | rowTick channel frame row env => exact execRowTick_keeps channel frame row env s
  | mtbWholeSecond second => exact execMtbWholeSecond_keeps second s
  | ppsOutFall => exact execPpsOutFall_keeps s
  | mtbMillisecond millisecond => exact execMtbMillisecond_keeps millisecond s
  | shadowCommit channel target change => exact execShadowCommit_keeps channel target change s
  | shadowApply channel frame => exact execShadowApply_keeps channel frame s
  | pleachStripArrival engine strip => exact execPleachStripArrival_keeps engine strip s
  | sliceVerdict verdict => exact execSliceVerdict_keeps verdict s
  | alfDerivation context frame => exact execAlfDerivation_keeps context frame s
  | ringSegmentReroute channel segment => exact execRingSegmentReroute_keeps channel segment s
  | spareTakeover engine channel frame => exact execSpareTakeover_keeps engine channel frame s
  | gRecompute context frame => exact execGRecompute_keeps context frame s
  | sliceEmission context frame row => exact execSliceEmission_keeps context frame row s
  | decodeNalReceive context nal => exact execDecodeNalReceive_keeps context nal s
  | decodeCloseTimeout context => exact execDecodeCloseTimeout_keeps context s
  | decodePictureDone context picture => exact execDecodePictureDone_keeps context picture s
  | graphicsSlotRelease channel layer => exact execGraphicsSlotRelease_keeps channel layer s
  | sdiLineReceive line => exact execSdiLineReceive_keeps line s
  | st2110PacketReceive packet => exact execSt2110PacketReceive_keeps packet s
  | aes3FrameReceive input frame => exact execAes3FrameReceive_keeps input frame s
  | trackerBlock input count => exact execTrackerBlock_keeps input count s
  | aes3Stop input => exact execAes3Stop_keeps input s
  | payloadMuteRelease path pair => exact execPayloadMuteRelease_keeps path pair s
  | aes3BlockStartCheck port paired => exact execAes3BlockStartCheck_keeps port paired s
  | audioPortRestartApply port frame => exact execAudioPortRestartApply_keeps port frame s
  | packetTransmit port => exact execPacketTransmit_keeps port s
  | gateEntryChange port => exact execGateEntryChange_keeps port s
  | gateListStart port => exact execGateListStart_keeps port s
  | shaperRateApply leg tick => exact execShaperRateApply_keeps leg tick s
  | psiInsertion flow frame => exact execPsiInsertion_keeps flow frame s
  | pcrInsertion flow videoDatagram => exact execPcrInsertion_keeps flow videoDatagram s
  | rtcpReceive flow message => exact execRtcpReceive_keeps flow message s
  | addressResolved leg mac => exact execAddressResolved_keeps leg mac s
  | queueSampleTimer => exact execQueueSampleTimer_keeps s
  | pairDigestReceive digest partnerId partnerWants => exact execPairDigestReceive_keeps digest partnerId partnerWants s
  | claimBeaconSend => exact execClaimBeaconSend_keeps s
  | claimBeaconReceive claim epoch mode degraded count => exact execClaimBeaconReceive_keeps claim epoch mode degraded count s
  | vaDown => exact execVaDown_keeps s
  | vaSilent => exact execVaSilent_keeps s
  | pairHbInEdge level => exact execPairHbInEdge_keeps level s
  | heartbeatSilent => exact execHeartbeatSilent_keeps s
  | hrwHeartbeatReceive path claim epoch => exact execHrwHeartbeatReceive_keeps path claim epoch s
  | fingerprintReceive print => exact execFingerprintReceive_keeps print s
  | fingerprintMissing stream => exact execFingerprintMissing_keeps stream s
  | pairFrameEnd => exact execPairFrameEnd_keeps s
  | resyncBulkDone channel frame bytes => exact execResyncBulkDone_keeps channel frame bytes s
  | resyncSmallState channel bytes small => exact execResyncSmallState_keeps channel bytes small s
  | roleSwapDue frame => exact execRoleSwapDue_keeps frame s
  | roleSwap frame => exact execRoleSwap_keeps frame s
  | mergeSwitch leg time unit => exact execMergeSwitch_keeps leg time unit s
  | partnerPacketReceive leg packet => exact execPartnerPacketReceive_keeps leg packet s
  | forwardedChangeReceive channel target change => exact execForwardedChangeReceive_keeps channel target change s
  | claimReleaseFlowsStop => exact execClaimReleaseFlowsStop_keeps s
  | workItemPost item => exact execWorkItemPost_keeps item s
  | producerStallRelease queue => exact execProducerStallRelease_keeps queue s
  | counterArm counter value => exact execCounterArm_keeps counter value s
  | parkedItemWake flow seq => exact execParkedItemWake_keeps flow seq s
  | coreTakeItem core => exact execCoreTakeItem_keeps core s
  | workItemComplete core retry => exact execWorkItemComplete_keeps core retry s
  | retryBackoffExpiry flow seq => exact execRetryBackoffExpiry_keeps flow seq s
  | itemWatchdog core => exact execItemWatchdog_keeps core s
  | workItemDeadline flow seq => exact execWorkItemDeadline_keeps flow seq s
  | rateQuotaPeriod => exact execRateQuotaPeriod_keeps s
  | refreshDue pc requests => exact execRefreshDue_keeps pc requests s
  | postponedRefreshIssue pc => exact execPostponedRefreshIssue_keeps pc s
  | stackTemperatureRead stack celsius => exact execStackTemperatureRead_keeps stack celsius s
  | selfRefreshEntry stack => exact execSelfRefreshEntry_keeps stack s
  | selfRefreshEntryDone stack => exact execSelfRefreshEntryDone_keeps stack s
  | hbmRequestWake address client => exact execHbmRequestWake_keeps address client s
  | selfRefreshExitDone stack => exact execSelfRefreshExitDone_keeps stack s
  | poisonedRead address client => exact execPoisonedRead_keeps address client s
  | scrubAccess pc corrected => exact execScrubAccess_keeps pc corrected s
  | remapCopyDone => exact execRemapCopyDone_keeps s
  | memoryCheckDone failing => exact execMemoryCheckDone_keeps failing s
  | ethFrameReceive port frame => exact execEthFrameReceive_keeps port frame s
  | pauseExpiry port => exact execPauseExpiry_keeps port s
  | lnkPauseLong port => exact execLnkPauseLong_keeps port s
  | ethPortUp port => exact execEthPortUp_keeps port s
  | lnkEthDown port => exact execLnkEthDown_keeps port s
  | valsinFrameReceive port frame => exact execValsinFrameReceive_keeps port frame s
  | valsinAckTimer port => exact execValsinAckTimer_keeps port s
  | valsinRetryTimeout port => exact execValsinRetryTimeout_keeps port s
  | valsinTrainingReceive port sets => exact execValsinTrainingReceive_keeps port sets s
  | valsinStepSwitch port => exact execValsinStepSwitch_keeps port s
  | valsinStepTimeout port => exact execValsinStepTimeout_keeps port s
  | valsinRetrainTimer port => exact execValsinRetrainTimer_keeps port s
  | commaLoss port lane => exact execCommaLoss_keeps port lane s
  | valsinSleepEntry port => exact execValsinSleepEntry_keeps port s
  | valsinWake port => exact execValsinWake_keeps port s
  | valsinWakeFail port => exact execValsinWakeFail_keeps port s
  | hrwDiscovery port up => exact execHrwDiscovery_keeps port up s
  | hrwDepthAnnounce announced => exact execHrwDepthAnnounce_keeps announced s
  | hrwMapReceive port ids depth => exact execHrwMapReceive_keeps port ids depth s
  | hrwNoRoot => exact execHrwNoRoot_keeps s
  | hrwBcastReceive origin seq data => exact execHrwBcastReceive_keeps origin seq data s
  | hrwBarrierArrival barrier port timeoutMs partialArrival => exact execHrwBarrierArrival_keeps barrier port timeoutMs partialArrival s
  | hrwBarrierRelease barrier seq partialRelease => exact execHrwBarrierRelease_keeps barrier seq partialRelease s
  | hrwBarrierTimeout barrier => exact execHrwBarrierTimeout_keeps barrier s
  | hrwScheduleReceive action => exact execHrwScheduleReceive_keeps action s
  | hrwActionTime seq => exact execHrwActionTime_keeps seq s
  | faultReport source inst detail0 detail1 => exact execFaultReport_keeps source inst detail0 detail1 s
  | errPulseEnd => exact execErrPulseEnd_keeps s
  | unitResume source inst => exact execUnitResume_keeps source inst s
  | fltPath source => exact execFltPath_keeps source s
  | faultPathRestore source => exact execFaultPathRestore_keeps source s
  | firmwareSlotVerify slot => exact execFirmwareSlotVerify_keeps slot s
  | configSlotVerify slot => exact execConfigSlotVerify_keeps slot s
  | recordPadding payload => exact execRecordPadding_keeps payload s
  | recordUnknownType type payload => exact execRecordUnknownType_keeps type payload s
  | gpioRecord payload => exact execGpioRecord_keeps payload s
  | supplyRecord payload => exact execSupplyRecord_keeps payload s
  | mtbDisciplineRecord payload => exact execMtbDisciplineRecord_keeps payload s
  | memoryRecord payload => exact execMemoryRecord_keeps payload s
  | qosPortRecord payload => exact execQosPortRecord_keeps payload s
  | ethernetPortRecord payload => exact execEthernetPortRecord_keeps payload s
  | valsinPortRecord payload => exact execValsinPortRecord_keeps payload s
  | ingressFlowRecord payload => exact execIngressFlowRecord_keeps payload s
  | alignmentGroupRecord payload => exact execAlignmentGroupRecord_keeps payload s
  | groupMemberRecord payload => exact execGroupMemberRecord_keeps payload s
  | aes3InputRecord payload => exact execAes3InputRecord_keeps payload s
  | aes3OutputRecord payload => exact execAes3OutputRecord_keeps payload s
  | audioProgrammeRecord payload => exact execAudioProgrammeRecord_keeps payload s
  | compositorRecord payload => exact execCompositorRecord_keeps payload s
  | videoLayerRecord payload => exact execVideoLayerRecord_keeps payload s
  | graphicsLayerRecord payload => exact execGraphicsLayerRecord_keeps payload s
  | slateDataRecord payload => exact execSlateDataRecord_keeps payload s
  | topiaryRegionRecord payload => exact execTopiaryRegionRecord_keeps payload s
  | encodeChannelRecord payload => exact execEncodeChannelRecord_keeps payload s
  | encodeContextRecord payload => exact execEncodeContextRecord_keeps payload s
  | contextCodingRecord payload => exact execContextCodingRecord_keeps payload s
  | channelColourRecord payload => exact execChannelColourRecord_keeps payload s
  | rateControlRecord payload => exact execRateControlRecord_keeps payload s
  | coppiceRecord payload => exact execCoppiceRecord_keeps payload s
  | decodeContextRecord payload => exact execDecodeContextRecord_keeps payload s
  | egressFlowRecord payload => exact execEgressFlowRecord_keeps payload s
  | flowGroupRecord payload => exact execFlowGroupRecord_keeps payload s
  | portClassRecord payload => exact execPortClassRecord_keeps payload s
  | gateListRecord payload => exact execGateListRecord_keeps payload s
  | ingressPolicerRecord payload => exact execIngressPolicerRecord_keeps payload s
  | pairRecord payload => exact execPairRecord_keeps payload s
  | hedgerowRecord payload => exact execHedgerowRecord_keeps payload s
  | severityRecord payload => exact execSeverityRecord_keeps payload s
  | generalFaultRecord payload => exact execGeneralFaultRecord_keeps payload s
  | bindingRecord payload => exact execBindingRecord_keeps payload s
  | partitionKeyRecord payload => exact execPartitionKeyRecord_keeps payload s
  | managementPortRecord payload => exact execManagementPortRecord_keeps payload s
  | partitionChannelRecord payload => exact execPartitionChannelRecord_keeps payload s
  | keyRecord payload tagOk => exact execKeyRecord_keeps payload tagOk s
  | enrolmentRecord payload => exact execEnrolmentRecord_keeps payload s
  | partitionQuotaRecord payload => exact execPartitionQuotaRecord_keeps payload s
  | generalUnitRecord payload => exact execGeneralUnitRecord_keeps payload s
  | engineSelftestDone engines analysers decoders => exact execEngineSelftestDone_keeps engines analysers decoders s
  | boxCoreSelftestDone passing => exact execBoxCoreSelftestDone_keeps passing s
  | cvuSelftestDone failing => exact execCvuSelftestDone_keeps failing s
  | admission => exact execAdmission_keeps s
  | configureComplete => exact execConfigureComplete_keeps s
  | configureMtbTimeout => exact execConfigureMtbTimeout_keeps s
  | fuseBitProgram ok => exact execFuseBitProgram_keeps ok s
  | modeRequestExecute => exact execModeRequestExecute_keeps s
  | updateEraseDone => exact execUpdateEraseDone_keeps s
  | updateVerifyDone item config => exact execUpdateVerifyDone_keeps item config s
  | updateTimeout => exact execUpdateTimeout_keeps s
  | encChannelInfo req => exact execEncChannelInfo_keeps req s
  | encPoolInfo req => exact execEncPoolInfo_keeps req s
  | encRefInfo req => exact execEncRefInfo_keeps req s
  | encSetBitrate req => exact execEncSetBitrate_keeps req s
  | encRcInfo req => exact execEncRcInfo_keeps req s
  | decCtxInfo req => exact execDecCtxInfo_keeps req s
  | cmpChInfo req => exact execCmpChInfo_keeps req s
  | cmpSetLayer req => exact execCmpSetLayer_keeps req s
  | ingGroupInfo req => exact execIngGroupInfo_keeps req s
  | audPortRestart req => exact execAudPortRestart_keeps req s
  | egrSetRate req => exact execEgrSetRate_keeps req s
  | egrSetGates req => exact execEgrSetGates_keeps req s
  | redPairInfo req => exact execRedPairInfo_keeps req s
  | redSwapNow req => exact execRedSwapNow_keeps req s
  | referenceActionAck req => exact execReferenceActionAck_keeps req s
  | referenceActionLoss req => exact execReferenceActionLoss_keeps req s
  | overlayUpdateGraphics req => exact execOverlayUpdateGraphics_keeps req s
  | overlayUpdateExpected req => exact execOverlayUpdateExpected_keeps req s
  | spliceInsertion req => exact execSpliceInsertion_keeps req s
  | seiInsertion req => exact execSeiInsertion_keeps req s
  | lnkPortInfo req => exact execLnkPortInfo_keeps req s
  | lnkRetrain req => exact execLnkRetrain_keeps req s
  | lnkRetrainTimeout kind port => exact execLnkRetrainTimeout_keeps kind port s
  | hrwBroadcast req => exact execHrwBroadcast_keeps req s
  | hrwScheduleSnapshot req => exact execHrwScheduleSnapshot_keeps req s
  | hrwScheduleReset req => exact execHrwScheduleReset_keeps req s
  | hrwBarrier req => exact execHrwBarrier_keeps req s
  | hrwSnapRead req => exact execHrwSnapRead_keeps req s
  | clkSwitchToPllR req => exact execClkSwitchToPllR_keeps req s
  | clkSwitchToFrc req => exact execClkSwitchToFrc_keeps req s
  | secIdentity req => exact execSecIdentity_keeps req s
  | secAttest req => exact execSecAttest_keeps req s
  | secAttestRead req => exact execSecAttestRead_keeps req s
  | secUpdateBegin req => exact execSecUpdateBegin_keeps req s
  | secUpdateData req => exact execSecUpdateData_keeps req s
  | secUpdateEnd req => exact execSecUpdateEnd_keeps req s
  | secUpdateAbort req => exact execSecUpdateAbort_keeps req s
  | hstInfo req => exact execHstInfo_keeps req s
  | hstNop req => exact execHstNop_keeps req s
  | hstBufWriteInline req => exact execHstBufWriteInline_keeps req s
  | hstBufWritePull req => exact execHstBufWritePull_keeps req s
  | hstModeReqQuiescent req => exact execHstModeReqQuiescent_keeps req s
  | hstModeReqRun req => exact execHstModeReqRun_keeps req s
  | hstRegRead req => exact execHstRegRead_keeps req s
  | hstRegWrite req => exact execHstRegWrite_keeps req s
  | mailboxUnknownOpcode opcode req => exact execMailboxUnknownOpcode_keeps opcode req s
  | hstReqTailWrite function tail ring => exact execHstReqTailWrite_keeps function tail ring s
  | hstRingReset function => exact execHstRingReset_keeps function s
  | hstRplHeadWrite function head => exact execHstRplHeadWrite_keeps function head s
  | sessionHello port partition peer => exact execSessionHello_keeps port partition peer s
  | sessionAuth session signatureOk peer => exact execSessionAuth_keeps session signatureOk peer s
  | sessionProtectedFrame session counter tagOk peer message => exact execSessionProtectedFrame_keeps session counter tagOk peer message s
  | sessionIdleTimeout session => exact execSessionIdleTimeout_keeps session s
  | authLockoutExpiry partition => exact execAuthLockoutExpiry_keeps partition s
  | functionLevelReset function => exact execFunctionLevelReset_keeps function s
  | interruptModerationExpiry function => exact execInterruptModerationExpiry_keeps function s
  | hstIntCauseClear function mask => exact execHstIntCauseClear_keeps function mask s
  | egrStatSelect transport value => exact execEgrStatSelect_keeps transport value s
  | egrStatSelectClear transport value => exact execEgrStatSelectClear_keeps transport value s
  | drmDlySelect transport value => exact execDrmDlySelect_keeps transport value s
  | clkMonSelect transport value => exact execClkMonSelect_keeps transport value s
  | fltLogSelect transport value => exact execFltLogSelect_keeps transport value s
  | fltSrcSelect transport value => exact execFltSrcSelect_keeps transport value s
  | fltErrRelease transport => exact execFltErrRelease_keeps transport s
  | cvuRunLoWrite transport unit value => exact execCvuRunLoWrite_keeps transport unit value s
  | cvuRunHiWrite transport unit value => exact execCvuRunHiWrite_keeps transport unit value s
  | cvuRunLoRead transport unit => exact execCvuRunLoRead_keeps transport unit s
  | clkLostClear transport mask => exact execClkLostClear_keeps transport mask s
  | pwrGpioOutWrite transport value => exact execPwrGpioOutWrite_keeps transport value s
  | lowWordLatchRead transport offset => exact execLowWordLatchRead_keeps transport offset s
  | readClearRegisterRead transport offset => exact execReadClearRegisterRead_keeps transport offset s
  | registerWrite transport offset value => exact execRegisterWrite_keeps transport offset value s
  | loopLossOfLock source => exact execLoopLossOfLock_keeps source s
  | inputSupplyBad supply => exact execInputSupplyBad_keeps supply s
  | pvdSubmitUnknownClass req => exact execPvdSubmitUnknownClass_keeps req s
  | hrwRequestAtRoot request => exact execHrwRequestAtRoot_keeps request s
  | hostDmaPullDone function data => exact execHostDmaPullDone_keeps function data s
  | graphicsSlotCopyDone channel layer => exact execGraphicsSlotCopyDone_keeps channel layer s

/-- The cycle of an empty queue keeps all of it. -/
theorem idle_keeps (s : State) : Keeps s (idle s) := Keeps.ite (passCycles_keeps 1 s) (Keeps.refl s)

end Sys2Proof.Machine
end

