-- ==== Sys2Proof/Laws/Spec.lean ====
section
/-! SUPPORT. One lemma per shared operation that says all it does: the collector with nothing to collect, the records' size check, a
record command, a mailbox request. -/

namespace Sys2Proof.Machine

open Sys2Proof.Safety

/-- With no report due the collector changes nothing. -/
@[simp] theorem settle_quiet (s : State) (h : s.flt.due = []) : settle s = s := by simp [settle, h]

/-- With no report due a command's answer is its state. -/
@[simp] theorem done_quiet (s : State) (h : s.flt.due = []) : done s = .next s := by simp [done, h]

/-- A record of at least the size of its table is handed to its body. -/
@[simp] theorem sized_of_le (n : Nat) (b : Bytes) (f : State → State) (s : State) (h : n ≤ b.length) : sized n b f s = f s := by
  simp [sized, Nat.not_lt.mpr h]

/-- A record shorter than its table is discarded and counted. -/
theorem sized_of_lt (n : Nat) (b : Bytes) (f : State → State) (s : State) (h : b.length < n) : sized n b f s = shortRecord s := by
  simp [sized, h]

/-- A record command while records are taken. -/
theorem recordCommand_open (type : Nat) (b : Bytes) (f : Bytes → State → State) (s : State) (h : recordsOpen s = true) :
    recordCommand type b f s = done (f b (joinImage type b s)) := by simp [recordCommand, joinImage, h]

/-- A record command at any other time changes nothing. -/
theorem recordCommand_shut (type : Nat) (b : Bytes) (f : Bytes → State → State) (s : State) (h : recordsOpen s = false) :
    recordCommand type b f s = .next s := by simp [recordCommand, h]

/-- A request that is accepted is handed to its body with its slot in the partition's queue of replies. -/
theorem takeRequest_accepted {o : Nat} {oo : Bool} {legal : Mode → Bool} {r : Req} {body : Nat → State → State} {s : State} {p : Nat}
    (h : Accepted oo legal r p s) : takeRequest o oo legal r body s = body p (slotTaken r p s) := by
  obtain ⟨h1, h2, h3, h4, h5⟩ := h
  have h6 : (oo && p != 0) = false := by
    cases oo
    · rfl
    · simp [h4 rfl]
  simp [takeRequest, slotTaken, h1, h2, h3, h6, setPart, h5]

/-- A time that lies ahead is reached while the management plane is alive. -/
theorem atTime_ahead {time : Nat} {s : State} (h : alive s.mode.mode = true) (k : s.mtb.t ≤ time) :
    atTime time s = some (reach time s) := by
  have : ¬ (time + s.mtb.inc ≤ s.mtb.t ∧ 0 < s.mtb.inc) := by omega
  simp [atTime, h, this, reach]

/-- A tick of a mode in which ticks run finds the management plane alive. -/
theorem alive_of_ticking {s : State} (h : ticking s = true) : alive s.mode.mode = true := by
  revert h; unfold ticking actingMode
  cases s.mode.mode <;> simp [alive, ticksRun]

/-- What a step of the MTB leaves of the clocks and the mode, and what it gives the timebase. -/
theorem stepMtb_parts (n : Nat) (s : State) : (stepMtb n s).clk = s.clk ∧ (stepMtb n s).mode.safeFrom = s.mode.safeFrom ∧
    (stepMtb n s).mtb = { s.mtb with t := n } := ⟨rfl, rfl, rfl⟩

/-- The MTB as M9 is left, no source being present. -/
theorem leaveMtb_alone (v : Option Nat) (s : State) (h : selectedSource s = 0) :
    leaveMtb v s = { s with mtb := { s.mtb with onFrc := false } } := by
  have : selectedSource { s with mtb := { s.mtb with onFrc := false } } = 0 := h
  simp [leaveMtb, this]

/-- The MTB as M9 is left, stepped to a source's time. -/
theorem leaveMtb_stepped (v : Option Nat) (s : State) (h : selectedSource s ≠ 0) :
    (leaveMtb v s).clk = s.clk ∧ (leaveMtb v s).mode.safeFrom = s.mode.safeFrom ∧
    (leaveMtb v s).mtb = { s.mtb with
      onFrc := false, valid := true, t := v.getD (Config.freeValue s.free) % mtbSpan } := by
  have : ¬ selectedSource { s with mtb := { s.mtb with onFrc := false } } = 0 := h
  simp only [leaveMtb, this, if_false, drawFree, stepMtb_parts, and_self]

/-- A request that reaches its stack changes HBM's part alone. -/
theorem requestOn_frame (q a : Nat) (s : State) : ∃ d, requestOn q a s = { s with drm := d } := by
  unfold requestOn leaveOpen beginExit
  dsimp only
  split
  · exact ⟨_, rfl⟩
  · split <;> exact ⟨_, rfl⟩
  · exact ⟨_, rfl⟩
  · exact ⟨_, rfl⟩

/-- A request on a port writes nothing. -/
theorem requestOn_mem (k q : Nat) (s : State) : (requestOn k q s).drm.mem = s.drm.mem := by
  unfold requestOn beginExit; dsimp only; repeat' split
  all_goals rfl

/-- Waking the stacks changes memory's part alone. -/
theorem wakeStacks_frame (s : State) : ∃ d, wakeStacks s = { s with drm := d } :=
  ⟨_, rfl⟩

/-- A message sent changes the host's part and the count of held completions alone. -/
theorem sendOn_frame (s : State) (tr p : Nat) (m : Msg) : ∃ h q, sendOn s tr p m = { s with hst := h, pvd := q } := by
  unfold sendOn
  split
  · dsimp only
    split <;> exact ⟨_, _, rfl⟩
  · exact ⟨_, _, rfl⟩

/-- Replies released change the host's part and the count of held completions alone. -/
theorem releaseReplies_frame (l : List Slot) (p : Nat) : ∀ s : State, ∃ h q, releaseReplies s p l = { s with hst := h, pvd := q } := by
  induction l with
  | nil => exact fun s => ⟨_, _, rfl⟩
  | cons sl l ih =>
    intro s
    unfold releaseReplies
    split
    · rename_i m _
      obtain ⟨h, q, e⟩ := sendOn_frame s sl.transport p m
      obtain ⟨h', q', e'⟩ := ih (sendOn s sl.transport p m)
      exact ⟨h', q', by rw [e', e]⟩
    · exact ⟨_, _, rfl⟩

/-- A reply changes the host's part and the count of held completions alone. -/
theorem reply_frame (p : Nat) (r : Req) (o : Nat) (st : Status) (c : Bool) (d : Bytes) (s : State) :
    ∃ h q, reply p r o st c d s = { s with hst := h, pvd := q } := by
  unfold reply
  obtain ⟨h, q, e⟩ := releaseReplies_frame _ p _
  exact ⟨h, q, e⟩

/-- Counting a report fences nothing. -/
theorem countReport_fenced (src inst : Nat) (s : State) : (countReport src inst s).flt.fenced = s.flt.fenced := by
  have k : ∀ (l : List Nat) (x : State),
      (l.foldl (fun s p => setPart s p (fun y => { y with reports := bump32 y.reports })) x).flt = x.flt := by
    intro l
    induction l with
    | nil => exact fun _ => rfl
    | cons a l ih => exact fun x => ih _
  simp only [countReport, k]

end Sys2Proof.Machine
end

