-- ==== Sys2Proof/Laws/State.lean ====
section
/-! SUPPORT. What each update of the state leaves of the other parts, one lemma a part, and what it reads back where it writes. -/

namespace Sys2Proof.Machine

open Sys2Proof.Safety

/-! setPart -/

@[simp] theorem setPart_clk (s : State) (p : Nat) (f : Part → Part) : (setPart s p f).clk = s.clk := rfl
@[simp] theorem setPart_pwr (s : State) (p : Nat) (f : Part → Part) : (setPart s p f).pwr = s.pwr := rfl
@[simp] theorem setPart_pins (s : State) (p : Nat) (f : Part → Part) : (setPart s p f).pins = s.pins := rfl
@[simp] theorem setPart_mtb (s : State) (p : Nat) (f : Part → Part) : (setPart s p f).mtb = s.mtb := rfl
@[simp] theorem setPart_mode (s : State) (p : Nat) (f : Part → Part) : (setPart s p f).mode = s.mode := rfl
@[simp] theorem setPart_enc (s : State) (p : Nat) (f : Part → Part) : (setPart s p f).enc = s.enc := rfl
@[simp] theorem setPart_dec (s : State) (p : Nat) (f : Part → Part) : (setPart s p f).dec = s.dec := rfl
@[simp] theorem setPart_cmps (s : State) (p : Nat) (f : Part → Part) : (setPart s p f).cmps = s.cmps := rfl
@[simp] theorem setPart_ing (s : State) (p : Nat) (f : Part → Part) : (setPart s p f).ing = s.ing := rfl
@[simp] theorem setPart_aud (s : State) (p : Nat) (f : Part → Part) : (setPart s p f).aud = s.aud := rfl
@[simp] theorem setPart_egr (s : State) (p : Nat) (f : Part → Part) : (setPart s p f).egr = s.egr := rfl
@[simp] theorem setPart_red (s : State) (p : Nat) (f : Part → Part) : (setPart s p f).red = s.red := rfl
@[simp] theorem setPart_run (s : State) (p : Nat) (f : Part → Part) : (setPart s p f).run = s.run := rfl
@[simp] theorem setPart_pvd (s : State) (p : Nat) (f : Part → Part) : (setPart s p f).pvd = s.pvd := rfl
@[simp] theorem setPart_drm (s : State) (p : Nat) (f : Part → Part) : (setPart s p f).drm = s.drm := rfl
@[simp] theorem setPart_lnk (s : State) (p : Nat) (f : Part → Part) : (setPart s p f).lnk = s.lnk := rfl
@[simp] theorem setPart_hrw (s : State) (p : Nat) (f : Part → Part) : (setPart s p f).hrw = s.hrw := rfl
@[simp] theorem setPart_cvu (s : State) (p : Nat) (f : Part → Part) : (setPart s p f).cvu = s.cvu := rfl
@[simp] theorem setPart_sec (s : State) (p : Nat) (f : Part → Part) : (setPart s p f).sec = s.sec := rfl
@[simp] theorem setPart_flt (s : State) (p : Nat) (f : Part → Part) : (setPart s p f).flt = s.flt := rfl
@[simp] theorem setPart_free (s : State) (p : Nat) (f : Part → Part) : (setPart s p f).free = s.free := rfl
@[simp] theorem setPart_pending (s : State) (p : Nat) (f : Part → Part) : (setPart s p f).pending = s.pending := rfl

/-! setRing -/

@[simp] theorem setRing_clk (s : State) (k : Nat) (f : Ring → Ring) : (setRing s k f).clk = s.clk := rfl
@[simp] theorem setRing_pwr (s : State) (k : Nat) (f : Ring → Ring) : (setRing s k f).pwr = s.pwr := rfl
@[simp] theorem setRing_pins (s : State) (k : Nat) (f : Ring → Ring) : (setRing s k f).pins = s.pins := rfl
@[simp] theorem setRing_mtb (s : State) (k : Nat) (f : Ring → Ring) : (setRing s k f).mtb = s.mtb := rfl
@[simp] theorem setRing_mode (s : State) (k : Nat) (f : Ring → Ring) : (setRing s k f).mode = s.mode := rfl
@[simp] theorem setRing_enc (s : State) (k : Nat) (f : Ring → Ring) : (setRing s k f).enc = s.enc := rfl
@[simp] theorem setRing_dec (s : State) (k : Nat) (f : Ring → Ring) : (setRing s k f).dec = s.dec := rfl
@[simp] theorem setRing_cmps (s : State) (k : Nat) (f : Ring → Ring) : (setRing s k f).cmps = s.cmps := rfl
@[simp] theorem setRing_ing (s : State) (k : Nat) (f : Ring → Ring) : (setRing s k f).ing = s.ing := rfl
@[simp] theorem setRing_aud (s : State) (k : Nat) (f : Ring → Ring) : (setRing s k f).aud = s.aud := rfl
@[simp] theorem setRing_egr (s : State) (k : Nat) (f : Ring → Ring) : (setRing s k f).egr = s.egr := rfl
@[simp] theorem setRing_red (s : State) (k : Nat) (f : Ring → Ring) : (setRing s k f).red = s.red := rfl
@[simp] theorem setRing_run (s : State) (k : Nat) (f : Ring → Ring) : (setRing s k f).run = s.run := rfl
@[simp] theorem setRing_pvd (s : State) (k : Nat) (f : Ring → Ring) : (setRing s k f).pvd = s.pvd := rfl
@[simp] theorem setRing_drm (s : State) (k : Nat) (f : Ring → Ring) : (setRing s k f).drm = s.drm := rfl
@[simp] theorem setRing_lnk (s : State) (k : Nat) (f : Ring → Ring) : (setRing s k f).lnk = s.lnk := rfl
@[simp] theorem setRing_hrw (s : State) (k : Nat) (f : Ring → Ring) : (setRing s k f).hrw = s.hrw := rfl
@[simp] theorem setRing_cvu (s : State) (k : Nat) (f : Ring → Ring) : (setRing s k f).cvu = s.cvu := rfl
@[simp] theorem setRing_sec (s : State) (k : Nat) (f : Ring → Ring) : (setRing s k f).sec = s.sec := rfl
@[simp] theorem setRing_flt (s : State) (k : Nat) (f : Ring → Ring) : (setRing s k f).flt = s.flt := rfl
@[simp] theorem setRing_free (s : State) (k : Nat) (f : Ring → Ring) : (setRing s k f).free = s.free := rfl
@[simp] theorem setRing_pending (s : State) (k : Nat) (f : Ring → Ring) : (setRing s k f).pending = s.pending := rfl

/-! setSession -/

@[simp] theorem setSession_clk (s : State) (k : Nat) (f : Session → Session) : (setSession s k f).clk = s.clk := rfl
@[simp] theorem setSession_pwr (s : State) (k : Nat) (f : Session → Session) : (setSession s k f).pwr = s.pwr := rfl
@[simp] theorem setSession_pins (s : State) (k : Nat) (f : Session → Session) : (setSession s k f).pins = s.pins := rfl
@[simp] theorem setSession_mtb (s : State) (k : Nat) (f : Session → Session) : (setSession s k f).mtb = s.mtb := rfl
@[simp] theorem setSession_mode (s : State) (k : Nat) (f : Session → Session) : (setSession s k f).mode = s.mode := rfl
@[simp] theorem setSession_enc (s : State) (k : Nat) (f : Session → Session) : (setSession s k f).enc = s.enc := rfl
@[simp] theorem setSession_dec (s : State) (k : Nat) (f : Session → Session) : (setSession s k f).dec = s.dec := rfl
@[simp] theorem setSession_cmps (s : State) (k : Nat) (f : Session → Session) : (setSession s k f).cmps = s.cmps := rfl
@[simp] theorem setSession_ing (s : State) (k : Nat) (f : Session → Session) : (setSession s k f).ing = s.ing := rfl
@[simp] theorem setSession_aud (s : State) (k : Nat) (f : Session → Session) : (setSession s k f).aud = s.aud := rfl
@[simp] theorem setSession_egr (s : State) (k : Nat) (f : Session → Session) : (setSession s k f).egr = s.egr := rfl
@[simp] theorem setSession_red (s : State) (k : Nat) (f : Session → Session) : (setSession s k f).red = s.red := rfl
@[simp] theorem setSession_run (s : State) (k : Nat) (f : Session → Session) : (setSession s k f).run = s.run := rfl
@[simp] theorem setSession_pvd (s : State) (k : Nat) (f : Session → Session) : (setSession s k f).pvd = s.pvd := rfl
@[simp] theorem setSession_drm (s : State) (k : Nat) (f : Session → Session) : (setSession s k f).drm = s.drm := rfl
@[simp] theorem setSession_lnk (s : State) (k : Nat) (f : Session → Session) : (setSession s k f).lnk = s.lnk := rfl
@[simp] theorem setSession_hrw (s : State) (k : Nat) (f : Session → Session) : (setSession s k f).hrw = s.hrw := rfl
@[simp] theorem setSession_cvu (s : State) (k : Nat) (f : Session → Session) : (setSession s k f).cvu = s.cvu := rfl
@[simp] theorem setSession_sec (s : State) (k : Nat) (f : Session → Session) : (setSession s k f).sec = s.sec := rfl
@[simp] theorem setSession_flt (s : State) (k : Nat) (f : Session → Session) : (setSession s k f).flt = s.flt := rfl
@[simp] theorem setSession_free (s : State) (k : Nat) (f : Session → Session) : (setSession s k f).free = s.free := rfl
@[simp] theorem setSession_pending (s : State) (k : Nat) (f : Session → Session) : (setSession s k f).pending = s.pending := rfl

/-! setView -/

@[simp] theorem setView_clk (s : State) (k : Nat) (f : View → View) : (setView s k f).clk = s.clk := rfl
@[simp] theorem setView_pwr (s : State) (k : Nat) (f : View → View) : (setView s k f).pwr = s.pwr := rfl
@[simp] theorem setView_pins (s : State) (k : Nat) (f : View → View) : (setView s k f).pins = s.pins := rfl
@[simp] theorem setView_mtb (s : State) (k : Nat) (f : View → View) : (setView s k f).mtb = s.mtb := rfl
@[simp] theorem setView_mode (s : State) (k : Nat) (f : View → View) : (setView s k f).mode = s.mode := rfl
@[simp] theorem setView_enc (s : State) (k : Nat) (f : View → View) : (setView s k f).enc = s.enc := rfl
@[simp] theorem setView_dec (s : State) (k : Nat) (f : View → View) : (setView s k f).dec = s.dec := rfl
@[simp] theorem setView_cmps (s : State) (k : Nat) (f : View → View) : (setView s k f).cmps = s.cmps := rfl
@[simp] theorem setView_ing (s : State) (k : Nat) (f : View → View) : (setView s k f).ing = s.ing := rfl
@[simp] theorem setView_aud (s : State) (k : Nat) (f : View → View) : (setView s k f).aud = s.aud := rfl
@[simp] theorem setView_egr (s : State) (k : Nat) (f : View → View) : (setView s k f).egr = s.egr := rfl
@[simp] theorem setView_red (s : State) (k : Nat) (f : View → View) : (setView s k f).red = s.red := rfl
@[simp] theorem setView_run (s : State) (k : Nat) (f : View → View) : (setView s k f).run = s.run := rfl
@[simp] theorem setView_pvd (s : State) (k : Nat) (f : View → View) : (setView s k f).pvd = s.pvd := rfl
@[simp] theorem setView_drm (s : State) (k : Nat) (f : View → View) : (setView s k f).drm = s.drm := rfl
@[simp] theorem setView_lnk (s : State) (k : Nat) (f : View → View) : (setView s k f).lnk = s.lnk := rfl
@[simp] theorem setView_hrw (s : State) (k : Nat) (f : View → View) : (setView s k f).hrw = s.hrw := rfl
@[simp] theorem setView_cvu (s : State) (k : Nat) (f : View → View) : (setView s k f).cvu = s.cvu := rfl
@[simp] theorem setView_sec (s : State) (k : Nat) (f : View → View) : (setView s k f).sec = s.sec := rfl
@[simp] theorem setView_flt (s : State) (k : Nat) (f : View → View) : (setView s k f).flt = s.flt := rfl
@[simp] theorem setView_free (s : State) (k : Nat) (f : View → View) : (setView s k f).free = s.free := rfl
@[simp] theorem setView_pending (s : State) (k : Nat) (f : View → View) : (setView s k f).pending = s.pending := rfl

/-! setQuota -/

@[simp] theorem setQuota_clk (s : State) (p : Nat) (f : Quota → Quota) : (setQuota s p f).clk = s.clk := rfl
@[simp] theorem setQuota_pwr (s : State) (p : Nat) (f : Quota → Quota) : (setQuota s p f).pwr = s.pwr := rfl
@[simp] theorem setQuota_pins (s : State) (p : Nat) (f : Quota → Quota) : (setQuota s p f).pins = s.pins := rfl
@[simp] theorem setQuota_mtb (s : State) (p : Nat) (f : Quota → Quota) : (setQuota s p f).mtb = s.mtb := rfl
@[simp] theorem setQuota_mode (s : State) (p : Nat) (f : Quota → Quota) : (setQuota s p f).mode = s.mode := rfl
@[simp] theorem setQuota_enc (s : State) (p : Nat) (f : Quota → Quota) : (setQuota s p f).enc = s.enc := rfl
@[simp] theorem setQuota_dec (s : State) (p : Nat) (f : Quota → Quota) : (setQuota s p f).dec = s.dec := rfl
@[simp] theorem setQuota_cmps (s : State) (p : Nat) (f : Quota → Quota) : (setQuota s p f).cmps = s.cmps := rfl
@[simp] theorem setQuota_ing (s : State) (p : Nat) (f : Quota → Quota) : (setQuota s p f).ing = s.ing := rfl
@[simp] theorem setQuota_aud (s : State) (p : Nat) (f : Quota → Quota) : (setQuota s p f).aud = s.aud := rfl
@[simp] theorem setQuota_egr (s : State) (p : Nat) (f : Quota → Quota) : (setQuota s p f).egr = s.egr := rfl
@[simp] theorem setQuota_red (s : State) (p : Nat) (f : Quota → Quota) : (setQuota s p f).red = s.red := rfl
@[simp] theorem setQuota_run (s : State) (p : Nat) (f : Quota → Quota) : (setQuota s p f).run = s.run := rfl
@[simp] theorem setQuota_drm (s : State) (p : Nat) (f : Quota → Quota) : (setQuota s p f).drm = s.drm := rfl
@[simp] theorem setQuota_lnk (s : State) (p : Nat) (f : Quota → Quota) : (setQuota s p f).lnk = s.lnk := rfl
@[simp] theorem setQuota_hrw (s : State) (p : Nat) (f : Quota → Quota) : (setQuota s p f).hrw = s.hrw := rfl
@[simp] theorem setQuota_cvu (s : State) (p : Nat) (f : Quota → Quota) : (setQuota s p f).cvu = s.cvu := rfl
@[simp] theorem setQuota_sec (s : State) (p : Nat) (f : Quota → Quota) : (setQuota s p f).sec = s.sec := rfl
@[simp] theorem setQuota_flt (s : State) (p : Nat) (f : Quota → Quota) : (setQuota s p f).flt = s.flt := rfl
@[simp] theorem setQuota_hst (s : State) (p : Nat) (f : Quota → Quota) : (setQuota s p f).hst = s.hst := rfl
@[simp] theorem setQuota_free (s : State) (p : Nat) (f : Quota → Quota) : (setQuota s p f).free = s.free := rfl
@[simp] theorem setQuota_pending (s : State) (p : Nat) (f : Quota → Quota) : (setQuota s p f).pending = s.pending := rfl

/-! setCmp -/

@[simp] theorem setCmp_clk (s : State) (c : Nat) (f : Cmp → Cmp) : (setCmp s c f).clk = s.clk := rfl
@[simp] theorem setCmp_pwr (s : State) (c : Nat) (f : Cmp → Cmp) : (setCmp s c f).pwr = s.pwr := rfl
@[simp] theorem setCmp_pins (s : State) (c : Nat) (f : Cmp → Cmp) : (setCmp s c f).pins = s.pins := rfl
@[simp] theorem setCmp_mtb (s : State) (c : Nat) (f : Cmp → Cmp) : (setCmp s c f).mtb = s.mtb := rfl
@[simp] theorem setCmp_mode (s : State) (c : Nat) (f : Cmp → Cmp) : (setCmp s c f).mode = s.mode := rfl
@[simp] theorem setCmp_enc (s : State) (c : Nat) (f : Cmp → Cmp) : (setCmp s c f).enc = s.enc := rfl
@[simp] theorem setCmp_dec (s : State) (c : Nat) (f : Cmp → Cmp) : (setCmp s c f).dec = s.dec := rfl
@[simp] theorem setCmp_ing (s : State) (c : Nat) (f : Cmp → Cmp) : (setCmp s c f).ing = s.ing := rfl
@[simp] theorem setCmp_aud (s : State) (c : Nat) (f : Cmp → Cmp) : (setCmp s c f).aud = s.aud := rfl
@[simp] theorem setCmp_egr (s : State) (c : Nat) (f : Cmp → Cmp) : (setCmp s c f).egr = s.egr := rfl
@[simp] theorem setCmp_red (s : State) (c : Nat) (f : Cmp → Cmp) : (setCmp s c f).red = s.red := rfl
@[simp] theorem setCmp_run (s : State) (c : Nat) (f : Cmp → Cmp) : (setCmp s c f).run = s.run := rfl
@[simp] theorem setCmp_pvd (s : State) (c : Nat) (f : Cmp → Cmp) : (setCmp s c f).pvd = s.pvd := rfl
@[simp] theorem setCmp_drm (s : State) (c : Nat) (f : Cmp → Cmp) : (setCmp s c f).drm = s.drm := rfl
@[simp] theorem setCmp_lnk (s : State) (c : Nat) (f : Cmp → Cmp) : (setCmp s c f).lnk = s.lnk := rfl
@[simp] theorem setCmp_hrw (s : State) (c : Nat) (f : Cmp → Cmp) : (setCmp s c f).hrw = s.hrw := rfl
@[simp] theorem setCmp_cvu (s : State) (c : Nat) (f : Cmp → Cmp) : (setCmp s c f).cvu = s.cvu := rfl
@[simp] theorem setCmp_sec (s : State) (c : Nat) (f : Cmp → Cmp) : (setCmp s c f).sec = s.sec := rfl
@[simp] theorem setCmp_flt (s : State) (c : Nat) (f : Cmp → Cmp) : (setCmp s c f).flt = s.flt := rfl
@[simp] theorem setCmp_hst (s : State) (c : Nat) (f : Cmp → Cmp) : (setCmp s c f).hst = s.hst := rfl
@[simp] theorem setCmp_free (s : State) (c : Nat) (f : Cmp → Cmp) : (setCmp s c f).free = s.free := rfl
@[simp] theorem setCmp_pending (s : State) (c : Nat) (f : Cmp → Cmp) : (setCmp s c f).pending = s.pending := rfl

/-! setPc -/

@[simp] theorem setPc_clk (s : State) (p : Nat) (f : Pc → Pc) : (setPc s p f).clk = s.clk := rfl
@[simp] theorem setPc_pwr (s : State) (p : Nat) (f : Pc → Pc) : (setPc s p f).pwr = s.pwr := rfl
@[simp] theorem setPc_pins (s : State) (p : Nat) (f : Pc → Pc) : (setPc s p f).pins = s.pins := rfl
@[simp] theorem setPc_mtb (s : State) (p : Nat) (f : Pc → Pc) : (setPc s p f).mtb = s.mtb := rfl
@[simp] theorem setPc_mode (s : State) (p : Nat) (f : Pc → Pc) : (setPc s p f).mode = s.mode := rfl
@[simp] theorem setPc_enc (s : State) (p : Nat) (f : Pc → Pc) : (setPc s p f).enc = s.enc := rfl
@[simp] theorem setPc_dec (s : State) (p : Nat) (f : Pc → Pc) : (setPc s p f).dec = s.dec := rfl
@[simp] theorem setPc_cmps (s : State) (p : Nat) (f : Pc → Pc) : (setPc s p f).cmps = s.cmps := rfl
@[simp] theorem setPc_ing (s : State) (p : Nat) (f : Pc → Pc) : (setPc s p f).ing = s.ing := rfl
@[simp] theorem setPc_aud (s : State) (p : Nat) (f : Pc → Pc) : (setPc s p f).aud = s.aud := rfl
@[simp] theorem setPc_egr (s : State) (p : Nat) (f : Pc → Pc) : (setPc s p f).egr = s.egr := rfl
@[simp] theorem setPc_red (s : State) (p : Nat) (f : Pc → Pc) : (setPc s p f).red = s.red := rfl
@[simp] theorem setPc_run (s : State) (p : Nat) (f : Pc → Pc) : (setPc s p f).run = s.run := rfl
@[simp] theorem setPc_pvd (s : State) (p : Nat) (f : Pc → Pc) : (setPc s p f).pvd = s.pvd := rfl
@[simp] theorem setPc_lnk (s : State) (p : Nat) (f : Pc → Pc) : (setPc s p f).lnk = s.lnk := rfl
@[simp] theorem setPc_hrw (s : State) (p : Nat) (f : Pc → Pc) : (setPc s p f).hrw = s.hrw := rfl
@[simp] theorem setPc_cvu (s : State) (p : Nat) (f : Pc → Pc) : (setPc s p f).cvu = s.cvu := rfl
@[simp] theorem setPc_sec (s : State) (p : Nat) (f : Pc → Pc) : (setPc s p f).sec = s.sec := rfl
@[simp] theorem setPc_flt (s : State) (p : Nat) (f : Pc → Pc) : (setPc s p f).flt = s.flt := rfl
@[simp] theorem setPc_hst (s : State) (p : Nat) (f : Pc → Pc) : (setPc s p f).hst = s.hst := rfl
@[simp] theorem setPc_free (s : State) (p : Nat) (f : Pc → Pc) : (setPc s p f).free = s.free := rfl
@[simp] theorem setPc_pending (s : State) (p : Nat) (f : Pc → Pc) : (setPc s p f).pending = s.pending := rfl

/-! setStack -/

@[simp] theorem setStack_clk (s : State) (k : Nat) (f : Stack → Stack) : (setStack s k f).clk = s.clk := rfl
@[simp] theorem setStack_pwr (s : State) (k : Nat) (f : Stack → Stack) : (setStack s k f).pwr = s.pwr := rfl
@[simp] theorem setStack_pins (s : State) (k : Nat) (f : Stack → Stack) : (setStack s k f).pins = s.pins := rfl
@[simp] theorem setStack_mtb (s : State) (k : Nat) (f : Stack → Stack) : (setStack s k f).mtb = s.mtb := rfl
@[simp] theorem setStack_mode (s : State) (k : Nat) (f : Stack → Stack) : (setStack s k f).mode = s.mode := rfl
@[simp] theorem setStack_enc (s : State) (k : Nat) (f : Stack → Stack) : (setStack s k f).enc = s.enc := rfl
@[simp] theorem setStack_dec (s : State) (k : Nat) (f : Stack → Stack) : (setStack s k f).dec = s.dec := rfl
@[simp] theorem setStack_cmps (s : State) (k : Nat) (f : Stack → Stack) : (setStack s k f).cmps = s.cmps := rfl
@[simp] theorem setStack_ing (s : State) (k : Nat) (f : Stack → Stack) : (setStack s k f).ing = s.ing := rfl
@[simp] theorem setStack_aud (s : State) (k : Nat) (f : Stack → Stack) : (setStack s k f).aud = s.aud := rfl
@[simp] theorem setStack_egr (s : State) (k : Nat) (f : Stack → Stack) : (setStack s k f).egr = s.egr := rfl
@[simp] theorem setStack_red (s : State) (k : Nat) (f : Stack → Stack) : (setStack s k f).red = s.red := rfl
@[simp] theorem setStack_run (s : State) (k : Nat) (f : Stack → Stack) : (setStack s k f).run = s.run := rfl
@[simp] theorem setStack_pvd (s : State) (k : Nat) (f : Stack → Stack) : (setStack s k f).pvd = s.pvd := rfl
@[simp] theorem setStack_lnk (s : State) (k : Nat) (f : Stack → Stack) : (setStack s k f).lnk = s.lnk := rfl
@[simp] theorem setStack_hrw (s : State) (k : Nat) (f : Stack → Stack) : (setStack s k f).hrw = s.hrw := rfl
@[simp] theorem setStack_cvu (s : State) (k : Nat) (f : Stack → Stack) : (setStack s k f).cvu = s.cvu := rfl
@[simp] theorem setStack_sec (s : State) (k : Nat) (f : Stack → Stack) : (setStack s k f).sec = s.sec := rfl
@[simp] theorem setStack_flt (s : State) (k : Nat) (f : Stack → Stack) : (setStack s k f).flt = s.flt := rfl
@[simp] theorem setStack_hst (s : State) (k : Nat) (f : Stack → Stack) : (setStack s k f).hst = s.hst := rfl
@[simp] theorem setStack_free (s : State) (k : Nat) (f : Stack → Stack) : (setStack s k f).free = s.free := rfl
@[simp] theorem setStack_pending (s : State) (k : Nat) (f : Stack → Stack) : (setStack s k f).pending = s.pending := rfl

/-! setEth -/

@[simp] theorem setEth_clk (s : State) (p : Nat) (f : EthPort → EthPort) : (setEth s p f).clk = s.clk := rfl
@[simp] theorem setEth_pwr (s : State) (p : Nat) (f : EthPort → EthPort) : (setEth s p f).pwr = s.pwr := rfl
@[simp] theorem setEth_pins (s : State) (p : Nat) (f : EthPort → EthPort) : (setEth s p f).pins = s.pins := rfl
@[simp] theorem setEth_mtb (s : State) (p : Nat) (f : EthPort → EthPort) : (setEth s p f).mtb = s.mtb := rfl
@[simp] theorem setEth_mode (s : State) (p : Nat) (f : EthPort → EthPort) : (setEth s p f).mode = s.mode := rfl
@[simp] theorem setEth_enc (s : State) (p : Nat) (f : EthPort → EthPort) : (setEth s p f).enc = s.enc := rfl
@[simp] theorem setEth_dec (s : State) (p : Nat) (f : EthPort → EthPort) : (setEth s p f).dec = s.dec := rfl
@[simp] theorem setEth_cmps (s : State) (p : Nat) (f : EthPort → EthPort) : (setEth s p f).cmps = s.cmps := rfl
@[simp] theorem setEth_ing (s : State) (p : Nat) (f : EthPort → EthPort) : (setEth s p f).ing = s.ing := rfl
@[simp] theorem setEth_aud (s : State) (p : Nat) (f : EthPort → EthPort) : (setEth s p f).aud = s.aud := rfl
@[simp] theorem setEth_egr (s : State) (p : Nat) (f : EthPort → EthPort) : (setEth s p f).egr = s.egr := rfl
@[simp] theorem setEth_red (s : State) (p : Nat) (f : EthPort → EthPort) : (setEth s p f).red = s.red := rfl
@[simp] theorem setEth_run (s : State) (p : Nat) (f : EthPort → EthPort) : (setEth s p f).run = s.run := rfl
@[simp] theorem setEth_pvd (s : State) (p : Nat) (f : EthPort → EthPort) : (setEth s p f).pvd = s.pvd := rfl
@[simp] theorem setEth_drm (s : State) (p : Nat) (f : EthPort → EthPort) : (setEth s p f).drm = s.drm := rfl
@[simp] theorem setEth_hrw (s : State) (p : Nat) (f : EthPort → EthPort) : (setEth s p f).hrw = s.hrw := rfl
@[simp] theorem setEth_cvu (s : State) (p : Nat) (f : EthPort → EthPort) : (setEth s p f).cvu = s.cvu := rfl
@[simp] theorem setEth_sec (s : State) (p : Nat) (f : EthPort → EthPort) : (setEth s p f).sec = s.sec := rfl
@[simp] theorem setEth_flt (s : State) (p : Nat) (f : EthPort → EthPort) : (setEth s p f).flt = s.flt := rfl
@[simp] theorem setEth_hst (s : State) (p : Nat) (f : EthPort → EthPort) : (setEth s p f).hst = s.hst := rfl
@[simp] theorem setEth_free (s : State) (p : Nat) (f : EthPort → EthPort) : (setEth s p f).free = s.free := rfl
@[simp] theorem setEth_pending (s : State) (p : Nat) (f : EthPort → EthPort) : (setEth s p f).pending = s.pending := rfl

/-! setVal -/

@[simp] theorem setVal_clk (s : State) (v : Nat) (f : ValPort → ValPort) : (setVal s v f).clk = s.clk := rfl
@[simp] theorem setVal_pwr (s : State) (v : Nat) (f : ValPort → ValPort) : (setVal s v f).pwr = s.pwr := rfl
@[simp] theorem setVal_pins (s : State) (v : Nat) (f : ValPort → ValPort) : (setVal s v f).pins = s.pins := rfl
@[simp] theorem setVal_mtb (s : State) (v : Nat) (f : ValPort → ValPort) : (setVal s v f).mtb = s.mtb := rfl
@[simp] theorem setVal_mode (s : State) (v : Nat) (f : ValPort → ValPort) : (setVal s v f).mode = s.mode := rfl
@[simp] theorem setVal_enc (s : State) (v : Nat) (f : ValPort → ValPort) : (setVal s v f).enc = s.enc := rfl
@[simp] theorem setVal_dec (s : State) (v : Nat) (f : ValPort → ValPort) : (setVal s v f).dec = s.dec := rfl
@[simp] theorem setVal_cmps (s : State) (v : Nat) (f : ValPort → ValPort) : (setVal s v f).cmps = s.cmps := rfl
@[simp] theorem setVal_ing (s : State) (v : Nat) (f : ValPort → ValPort) : (setVal s v f).ing = s.ing := rfl
@[simp] theorem setVal_aud (s : State) (v : Nat) (f : ValPort → ValPort) : (setVal s v f).aud = s.aud := rfl
@[simp] theorem setVal_egr (s : State) (v : Nat) (f : ValPort → ValPort) : (setVal s v f).egr = s.egr := rfl
@[simp] theorem setVal_red (s : State) (v : Nat) (f : ValPort → ValPort) : (setVal s v f).red = s.red := rfl
@[simp] theorem setVal_run (s : State) (v : Nat) (f : ValPort → ValPort) : (setVal s v f).run = s.run := rfl
@[simp] theorem setVal_pvd (s : State) (v : Nat) (f : ValPort → ValPort) : (setVal s v f).pvd = s.pvd := rfl
@[simp] theorem setVal_drm (s : State) (v : Nat) (f : ValPort → ValPort) : (setVal s v f).drm = s.drm := rfl
@[simp] theorem setVal_hrw (s : State) (v : Nat) (f : ValPort → ValPort) : (setVal s v f).hrw = s.hrw := rfl
@[simp] theorem setVal_cvu (s : State) (v : Nat) (f : ValPort → ValPort) : (setVal s v f).cvu = s.cvu := rfl
@[simp] theorem setVal_sec (s : State) (v : Nat) (f : ValPort → ValPort) : (setVal s v f).sec = s.sec := rfl
@[simp] theorem setVal_flt (s : State) (v : Nat) (f : ValPort → ValPort) : (setVal s v f).flt = s.flt := rfl
@[simp] theorem setVal_hst (s : State) (v : Nat) (f : ValPort → ValPort) : (setVal s v f).hst = s.hst := rfl
@[simp] theorem setVal_free (s : State) (v : Nat) (f : ValPort → ValPort) : (setVal s v f).free = s.free := rfl
@[simp] theorem setVal_pending (s : State) (v : Nat) (f : ValPort → ValPort) : (setVal s v f).pending = s.pending := rfl

/-! modChan -/

@[simp] theorem modChan_clk (s : State) (c : Nat) (f : Chan → Chan) : (modChan s c f).clk = s.clk := rfl
@[simp] theorem modChan_pwr (s : State) (c : Nat) (f : Chan → Chan) : (modChan s c f).pwr = s.pwr := rfl
@[simp] theorem modChan_pins (s : State) (c : Nat) (f : Chan → Chan) : (modChan s c f).pins = s.pins := rfl
@[simp] theorem modChan_mtb (s : State) (c : Nat) (f : Chan → Chan) : (modChan s c f).mtb = s.mtb := rfl
@[simp] theorem modChan_mode (s : State) (c : Nat) (f : Chan → Chan) : (modChan s c f).mode = s.mode := rfl
@[simp] theorem modChan_dec (s : State) (c : Nat) (f : Chan → Chan) : (modChan s c f).dec = s.dec := rfl
@[simp] theorem modChan_cmps (s : State) (c : Nat) (f : Chan → Chan) : (modChan s c f).cmps = s.cmps := rfl
@[simp] theorem modChan_ing (s : State) (c : Nat) (f : Chan → Chan) : (modChan s c f).ing = s.ing := rfl
@[simp] theorem modChan_aud (s : State) (c : Nat) (f : Chan → Chan) : (modChan s c f).aud = s.aud := rfl
@[simp] theorem modChan_egr (s : State) (c : Nat) (f : Chan → Chan) : (modChan s c f).egr = s.egr := rfl
@[simp] theorem modChan_red (s : State) (c : Nat) (f : Chan → Chan) : (modChan s c f).red = s.red := rfl
@[simp] theorem modChan_run (s : State) (c : Nat) (f : Chan → Chan) : (modChan s c f).run = s.run := rfl
@[simp] theorem modChan_pvd (s : State) (c : Nat) (f : Chan → Chan) : (modChan s c f).pvd = s.pvd := rfl
@[simp] theorem modChan_drm (s : State) (c : Nat) (f : Chan → Chan) : (modChan s c f).drm = s.drm := rfl
@[simp] theorem modChan_lnk (s : State) (c : Nat) (f : Chan → Chan) : (modChan s c f).lnk = s.lnk := rfl
@[simp] theorem modChan_hrw (s : State) (c : Nat) (f : Chan → Chan) : (modChan s c f).hrw = s.hrw := rfl
@[simp] theorem modChan_cvu (s : State) (c : Nat) (f : Chan → Chan) : (modChan s c f).cvu = s.cvu := rfl
@[simp] theorem modChan_sec (s : State) (c : Nat) (f : Chan → Chan) : (modChan s c f).sec = s.sec := rfl
@[simp] theorem modChan_flt (s : State) (c : Nat) (f : Chan → Chan) : (modChan s c f).flt = s.flt := rfl
@[simp] theorem modChan_hst (s : State) (c : Nat) (f : Chan → Chan) : (modChan s c f).hst = s.hst := rfl
@[simp] theorem modChan_free (s : State) (c : Nat) (f : Chan → Chan) : (modChan s c f).free = s.free := rfl
@[simp] theorem modChan_pending (s : State) (c : Nat) (f : Chan → Chan) : (modChan s c f).pending = s.pending := rfl

/-! modCtx -/

@[simp] theorem modCtx_clk (s : State) (x : Nat) (f : Ctx → Ctx) : (modCtx s x f).clk = s.clk := rfl
@[simp] theorem modCtx_pwr (s : State) (x : Nat) (f : Ctx → Ctx) : (modCtx s x f).pwr = s.pwr := rfl
@[simp] theorem modCtx_pins (s : State) (x : Nat) (f : Ctx → Ctx) : (modCtx s x f).pins = s.pins := rfl
@[simp] theorem modCtx_mtb (s : State) (x : Nat) (f : Ctx → Ctx) : (modCtx s x f).mtb = s.mtb := rfl
@[simp] theorem modCtx_mode (s : State) (x : Nat) (f : Ctx → Ctx) : (modCtx s x f).mode = s.mode := rfl
@[simp] theorem modCtx_dec (s : State) (x : Nat) (f : Ctx → Ctx) : (modCtx s x f).dec = s.dec := rfl
@[simp] theorem modCtx_cmps (s : State) (x : Nat) (f : Ctx → Ctx) : (modCtx s x f).cmps = s.cmps := rfl
@[simp] theorem modCtx_ing (s : State) (x : Nat) (f : Ctx → Ctx) : (modCtx s x f).ing = s.ing := rfl
@[simp] theorem modCtx_aud (s : State) (x : Nat) (f : Ctx → Ctx) : (modCtx s x f).aud = s.aud := rfl
@[simp] theorem modCtx_egr (s : State) (x : Nat) (f : Ctx → Ctx) : (modCtx s x f).egr = s.egr := rfl
@[simp] theorem modCtx_red (s : State) (x : Nat) (f : Ctx → Ctx) : (modCtx s x f).red = s.red := rfl
@[simp] theorem modCtx_run (s : State) (x : Nat) (f : Ctx → Ctx) : (modCtx s x f).run = s.run := rfl
@[simp] theorem modCtx_pvd (s : State) (x : Nat) (f : Ctx → Ctx) : (modCtx s x f).pvd = s.pvd := rfl
@[simp] theorem modCtx_drm (s : State) (x : Nat) (f : Ctx → Ctx) : (modCtx s x f).drm = s.drm := rfl
@[simp] theorem modCtx_lnk (s : State) (x : Nat) (f : Ctx → Ctx) : (modCtx s x f).lnk = s.lnk := rfl
@[simp] theorem modCtx_hrw (s : State) (x : Nat) (f : Ctx → Ctx) : (modCtx s x f).hrw = s.hrw := rfl
@[simp] theorem modCtx_cvu (s : State) (x : Nat) (f : Ctx → Ctx) : (modCtx s x f).cvu = s.cvu := rfl
@[simp] theorem modCtx_sec (s : State) (x : Nat) (f : Ctx → Ctx) : (modCtx s x f).sec = s.sec := rfl
@[simp] theorem modCtx_flt (s : State) (x : Nat) (f : Ctx → Ctx) : (modCtx s x f).flt = s.flt := rfl
@[simp] theorem modCtx_hst (s : State) (x : Nat) (f : Ctx → Ctx) : (modCtx s x f).hst = s.hst := rfl
@[simp] theorem modCtx_free (s : State) (x : Nat) (f : Ctx → Ctx) : (modCtx s x f).free = s.free := rfl
@[simp] theorem modCtx_pending (s : State) (x : Nat) (f : Ctx → Ctx) : (modCtx s x f).pending = s.pending := rfl

/-! modLeg -/

@[simp] theorem modLeg_clk (s : State) (k : Nat) (f : Leg → Leg) : (modLeg s k f).clk = s.clk := rfl
@[simp] theorem modLeg_pwr (s : State) (k : Nat) (f : Leg → Leg) : (modLeg s k f).pwr = s.pwr := rfl
@[simp] theorem modLeg_pins (s : State) (k : Nat) (f : Leg → Leg) : (modLeg s k f).pins = s.pins := rfl
@[simp] theorem modLeg_mtb (s : State) (k : Nat) (f : Leg → Leg) : (modLeg s k f).mtb = s.mtb := rfl
@[simp] theorem modLeg_mode (s : State) (k : Nat) (f : Leg → Leg) : (modLeg s k f).mode = s.mode := rfl
@[simp] theorem modLeg_enc (s : State) (k : Nat) (f : Leg → Leg) : (modLeg s k f).enc = s.enc := rfl
@[simp] theorem modLeg_dec (s : State) (k : Nat) (f : Leg → Leg) : (modLeg s k f).dec = s.dec := rfl
@[simp] theorem modLeg_cmps (s : State) (k : Nat) (f : Leg → Leg) : (modLeg s k f).cmps = s.cmps := rfl
@[simp] theorem modLeg_ing (s : State) (k : Nat) (f : Leg → Leg) : (modLeg s k f).ing = s.ing := rfl
@[simp] theorem modLeg_aud (s : State) (k : Nat) (f : Leg → Leg) : (modLeg s k f).aud = s.aud := rfl
@[simp] theorem modLeg_red (s : State) (k : Nat) (f : Leg → Leg) : (modLeg s k f).red = s.red := rfl
@[simp] theorem modLeg_run (s : State) (k : Nat) (f : Leg → Leg) : (modLeg s k f).run = s.run := rfl
@[simp] theorem modLeg_pvd (s : State) (k : Nat) (f : Leg → Leg) : (modLeg s k f).pvd = s.pvd := rfl
@[simp] theorem modLeg_drm (s : State) (k : Nat) (f : Leg → Leg) : (modLeg s k f).drm = s.drm := rfl
@[simp] theorem modLeg_lnk (s : State) (k : Nat) (f : Leg → Leg) : (modLeg s k f).lnk = s.lnk := rfl
@[simp] theorem modLeg_hrw (s : State) (k : Nat) (f : Leg → Leg) : (modLeg s k f).hrw = s.hrw := rfl
@[simp] theorem modLeg_cvu (s : State) (k : Nat) (f : Leg → Leg) : (modLeg s k f).cvu = s.cvu := rfl
@[simp] theorem modLeg_sec (s : State) (k : Nat) (f : Leg → Leg) : (modLeg s k f).sec = s.sec := rfl
@[simp] theorem modLeg_flt (s : State) (k : Nat) (f : Leg → Leg) : (modLeg s k f).flt = s.flt := rfl
@[simp] theorem modLeg_hst (s : State) (k : Nat) (f : Leg → Leg) : (modLeg s k f).hst = s.hst := rfl
@[simp] theorem modLeg_free (s : State) (k : Nat) (f : Leg → Leg) : (modLeg s k f).free = s.free := rfl
@[simp] theorem modLeg_pending (s : State) (k : Nat) (f : Leg → Leg) : (modLeg s k f).pending = s.pending := rfl

/-! modDec -/

@[simp] theorem modDec_clk (s : State) (d : Nat) (f : DecCtx → DecCtx) : (modDec s d f).clk = s.clk := rfl
@[simp] theorem modDec_pwr (s : State) (d : Nat) (f : DecCtx → DecCtx) : (modDec s d f).pwr = s.pwr := rfl
@[simp] theorem modDec_pins (s : State) (d : Nat) (f : DecCtx → DecCtx) : (modDec s d f).pins = s.pins := rfl
@[simp] theorem modDec_mtb (s : State) (d : Nat) (f : DecCtx → DecCtx) : (modDec s d f).mtb = s.mtb := rfl
@[simp] theorem modDec_mode (s : State) (d : Nat) (f : DecCtx → DecCtx) : (modDec s d f).mode = s.mode := rfl
@[simp] theorem modDec_enc (s : State) (d : Nat) (f : DecCtx → DecCtx) : (modDec s d f).enc = s.enc := rfl
@[simp] theorem modDec_cmps (s : State) (d : Nat) (f : DecCtx → DecCtx) : (modDec s d f).cmps = s.cmps := rfl
@[simp] theorem modDec_ing (s : State) (d : Nat) (f : DecCtx → DecCtx) : (modDec s d f).ing = s.ing := rfl
@[simp] theorem modDec_aud (s : State) (d : Nat) (f : DecCtx → DecCtx) : (modDec s d f).aud = s.aud := rfl
@[simp] theorem modDec_egr (s : State) (d : Nat) (f : DecCtx → DecCtx) : (modDec s d f).egr = s.egr := rfl
@[simp] theorem modDec_red (s : State) (d : Nat) (f : DecCtx → DecCtx) : (modDec s d f).red = s.red := rfl
@[simp] theorem modDec_run (s : State) (d : Nat) (f : DecCtx → DecCtx) : (modDec s d f).run = s.run := rfl
@[simp] theorem modDec_pvd (s : State) (d : Nat) (f : DecCtx → DecCtx) : (modDec s d f).pvd = s.pvd := rfl
@[simp] theorem modDec_drm (s : State) (d : Nat) (f : DecCtx → DecCtx) : (modDec s d f).drm = s.drm := rfl
@[simp] theorem modDec_lnk (s : State) (d : Nat) (f : DecCtx → DecCtx) : (modDec s d f).lnk = s.lnk := rfl
@[simp] theorem modDec_hrw (s : State) (d : Nat) (f : DecCtx → DecCtx) : (modDec s d f).hrw = s.hrw := rfl
@[simp] theorem modDec_cvu (s : State) (d : Nat) (f : DecCtx → DecCtx) : (modDec s d f).cvu = s.cvu := rfl
@[simp] theorem modDec_sec (s : State) (d : Nat) (f : DecCtx → DecCtx) : (modDec s d f).sec = s.sec := rfl
@[simp] theorem modDec_flt (s : State) (d : Nat) (f : DecCtx → DecCtx) : (modDec s d f).flt = s.flt := rfl
@[simp] theorem modDec_hst (s : State) (d : Nat) (f : DecCtx → DecCtx) : (modDec s d f).hst = s.hst := rfl
@[simp] theorem modDec_free (s : State) (d : Nat) (f : DecCtx → DecCtx) : (modDec s d f).free = s.free := rfl
@[simp] theorem modDec_pending (s : State) (d : Nat) (f : DecCtx → DecCtx) : (modDec s d f).pending = s.pending := rfl

/-! modFlow -/

@[simp] theorem modFlow_clk (s : State) (i : Nat) (f : InFlow → InFlow) : (modFlow s i f).clk = s.clk := rfl
@[simp] theorem modFlow_pwr (s : State) (i : Nat) (f : InFlow → InFlow) : (modFlow s i f).pwr = s.pwr := rfl
@[simp] theorem modFlow_pins (s : State) (i : Nat) (f : InFlow → InFlow) : (modFlow s i f).pins = s.pins := rfl
@[simp] theorem modFlow_mtb (s : State) (i : Nat) (f : InFlow → InFlow) : (modFlow s i f).mtb = s.mtb := rfl
@[simp] theorem modFlow_mode (s : State) (i : Nat) (f : InFlow → InFlow) : (modFlow s i f).mode = s.mode := rfl
@[simp] theorem modFlow_enc (s : State) (i : Nat) (f : InFlow → InFlow) : (modFlow s i f).enc = s.enc := rfl
@[simp] theorem modFlow_dec (s : State) (i : Nat) (f : InFlow → InFlow) : (modFlow s i f).dec = s.dec := rfl
@[simp] theorem modFlow_cmps (s : State) (i : Nat) (f : InFlow → InFlow) : (modFlow s i f).cmps = s.cmps := rfl
@[simp] theorem modFlow_aud (s : State) (i : Nat) (f : InFlow → InFlow) : (modFlow s i f).aud = s.aud := rfl
@[simp] theorem modFlow_egr (s : State) (i : Nat) (f : InFlow → InFlow) : (modFlow s i f).egr = s.egr := rfl
@[simp] theorem modFlow_red (s : State) (i : Nat) (f : InFlow → InFlow) : (modFlow s i f).red = s.red := rfl
@[simp] theorem modFlow_run (s : State) (i : Nat) (f : InFlow → InFlow) : (modFlow s i f).run = s.run := rfl
@[simp] theorem modFlow_pvd (s : State) (i : Nat) (f : InFlow → InFlow) : (modFlow s i f).pvd = s.pvd := rfl
@[simp] theorem modFlow_drm (s : State) (i : Nat) (f : InFlow → InFlow) : (modFlow s i f).drm = s.drm := rfl
@[simp] theorem modFlow_lnk (s : State) (i : Nat) (f : InFlow → InFlow) : (modFlow s i f).lnk = s.lnk := rfl
@[simp] theorem modFlow_hrw (s : State) (i : Nat) (f : InFlow → InFlow) : (modFlow s i f).hrw = s.hrw := rfl
@[simp] theorem modFlow_cvu (s : State) (i : Nat) (f : InFlow → InFlow) : (modFlow s i f).cvu = s.cvu := rfl
@[simp] theorem modFlow_sec (s : State) (i : Nat) (f : InFlow → InFlow) : (modFlow s i f).sec = s.sec := rfl
@[simp] theorem modFlow_flt (s : State) (i : Nat) (f : InFlow → InFlow) : (modFlow s i f).flt = s.flt := rfl
@[simp] theorem modFlow_hst (s : State) (i : Nat) (f : InFlow → InFlow) : (modFlow s i f).hst = s.hst := rfl
@[simp] theorem modFlow_free (s : State) (i : Nat) (f : InFlow → InFlow) : (modFlow s i f).free = s.free := rfl
@[simp] theorem modFlow_pending (s : State) (i : Nat) (f : InFlow → InFlow) : (modFlow s i f).pending = s.pending := rfl

/-! modIn -/

@[simp] theorem modIn_clk (s : State) (i : Nat) (f : AudIn → AudIn) : (modIn s i f).clk = s.clk := rfl
@[simp] theorem modIn_pwr (s : State) (i : Nat) (f : AudIn → AudIn) : (modIn s i f).pwr = s.pwr := rfl
@[simp] theorem modIn_pins (s : State) (i : Nat) (f : AudIn → AudIn) : (modIn s i f).pins = s.pins := rfl
@[simp] theorem modIn_mtb (s : State) (i : Nat) (f : AudIn → AudIn) : (modIn s i f).mtb = s.mtb := rfl
@[simp] theorem modIn_mode (s : State) (i : Nat) (f : AudIn → AudIn) : (modIn s i f).mode = s.mode := rfl
@[simp] theorem modIn_enc (s : State) (i : Nat) (f : AudIn → AudIn) : (modIn s i f).enc = s.enc := rfl
@[simp] theorem modIn_dec (s : State) (i : Nat) (f : AudIn → AudIn) : (modIn s i f).dec = s.dec := rfl
@[simp] theorem modIn_cmps (s : State) (i : Nat) (f : AudIn → AudIn) : (modIn s i f).cmps = s.cmps := rfl
@[simp] theorem modIn_ing (s : State) (i : Nat) (f : AudIn → AudIn) : (modIn s i f).ing = s.ing := rfl
@[simp] theorem modIn_egr (s : State) (i : Nat) (f : AudIn → AudIn) : (modIn s i f).egr = s.egr := rfl
@[simp] theorem modIn_red (s : State) (i : Nat) (f : AudIn → AudIn) : (modIn s i f).red = s.red := rfl
@[simp] theorem modIn_run (s : State) (i : Nat) (f : AudIn → AudIn) : (modIn s i f).run = s.run := rfl
@[simp] theorem modIn_pvd (s : State) (i : Nat) (f : AudIn → AudIn) : (modIn s i f).pvd = s.pvd := rfl
@[simp] theorem modIn_drm (s : State) (i : Nat) (f : AudIn → AudIn) : (modIn s i f).drm = s.drm := rfl
@[simp] theorem modIn_lnk (s : State) (i : Nat) (f : AudIn → AudIn) : (modIn s i f).lnk = s.lnk := rfl
@[simp] theorem modIn_hrw (s : State) (i : Nat) (f : AudIn → AudIn) : (modIn s i f).hrw = s.hrw := rfl
@[simp] theorem modIn_cvu (s : State) (i : Nat) (f : AudIn → AudIn) : (modIn s i f).cvu = s.cvu := rfl
@[simp] theorem modIn_sec (s : State) (i : Nat) (f : AudIn → AudIn) : (modIn s i f).sec = s.sec := rfl
@[simp] theorem modIn_flt (s : State) (i : Nat) (f : AudIn → AudIn) : (modIn s i f).flt = s.flt := rfl
@[simp] theorem modIn_hst (s : State) (i : Nat) (f : AudIn → AudIn) : (modIn s i f).hst = s.hst := rfl
@[simp] theorem modIn_free (s : State) (i : Nat) (f : AudIn → AudIn) : (modIn s i f).free = s.free := rfl
@[simp] theorem modIn_pending (s : State) (i : Nat) (f : AudIn → AudIn) : (modIn s i f).pending = s.pending := rfl

/-! modUnit -/

@[simp] theorem modUnit_clk (s : State) (u : Nat) (f : CvUnit → CvUnit) : (modUnit s u f).clk = s.clk := rfl
@[simp] theorem modUnit_pwr (s : State) (u : Nat) (f : CvUnit → CvUnit) : (modUnit s u f).pwr = s.pwr := rfl
@[simp] theorem modUnit_pins (s : State) (u : Nat) (f : CvUnit → CvUnit) : (modUnit s u f).pins = s.pins := rfl
@[simp] theorem modUnit_mtb (s : State) (u : Nat) (f : CvUnit → CvUnit) : (modUnit s u f).mtb = s.mtb := rfl
@[simp] theorem modUnit_mode (s : State) (u : Nat) (f : CvUnit → CvUnit) : (modUnit s u f).mode = s.mode := rfl
@[simp] theorem modUnit_enc (s : State) (u : Nat) (f : CvUnit → CvUnit) : (modUnit s u f).enc = s.enc := rfl
@[simp] theorem modUnit_dec (s : State) (u : Nat) (f : CvUnit → CvUnit) : (modUnit s u f).dec = s.dec := rfl
@[simp] theorem modUnit_cmps (s : State) (u : Nat) (f : CvUnit → CvUnit) : (modUnit s u f).cmps = s.cmps := rfl
@[simp] theorem modUnit_ing (s : State) (u : Nat) (f : CvUnit → CvUnit) : (modUnit s u f).ing = s.ing := rfl
@[simp] theorem modUnit_aud (s : State) (u : Nat) (f : CvUnit → CvUnit) : (modUnit s u f).aud = s.aud := rfl
@[simp] theorem modUnit_egr (s : State) (u : Nat) (f : CvUnit → CvUnit) : (modUnit s u f).egr = s.egr := rfl
@[simp] theorem modUnit_red (s : State) (u : Nat) (f : CvUnit → CvUnit) : (modUnit s u f).red = s.red := rfl
@[simp] theorem modUnit_run (s : State) (u : Nat) (f : CvUnit → CvUnit) : (modUnit s u f).run = s.run := rfl
@[simp] theorem modUnit_pvd (s : State) (u : Nat) (f : CvUnit → CvUnit) : (modUnit s u f).pvd = s.pvd := rfl
@[simp] theorem modUnit_drm (s : State) (u : Nat) (f : CvUnit → CvUnit) : (modUnit s u f).drm = s.drm := rfl
@[simp] theorem modUnit_lnk (s : State) (u : Nat) (f : CvUnit → CvUnit) : (modUnit s u f).lnk = s.lnk := rfl
@[simp] theorem modUnit_hrw (s : State) (u : Nat) (f : CvUnit → CvUnit) : (modUnit s u f).hrw = s.hrw := rfl
@[simp] theorem modUnit_sec (s : State) (u : Nat) (f : CvUnit → CvUnit) : (modUnit s u f).sec = s.sec := rfl
@[simp] theorem modUnit_flt (s : State) (u : Nat) (f : CvUnit → CvUnit) : (modUnit s u f).flt = s.flt := rfl
@[simp] theorem modUnit_hst (s : State) (u : Nat) (f : CvUnit → CvUnit) : (modUnit s u f).hst = s.hst := rfl
@[simp] theorem modUnit_free (s : State) (u : Nat) (f : CvUnit → CvUnit) : (modUnit s u f).free = s.free := rfl
@[simp] theorem modUnit_pending (s : State) (u : Nat) (f : CvUnit → CvUnit) : (modUnit s u f).pending = s.pending := rfl

/-! setSource -/

@[simp] theorem setSource_pwr (s : State) (i : Nat) (f : SourceSt → SourceSt) : (setSource i f s).pwr = s.pwr := rfl
@[simp] theorem setSource_pins (s : State) (i : Nat) (f : SourceSt → SourceSt) : (setSource i f s).pins = s.pins := rfl
@[simp] theorem setSource_mtb (s : State) (i : Nat) (f : SourceSt → SourceSt) : (setSource i f s).mtb = s.mtb := rfl
@[simp] theorem setSource_mode (s : State) (i : Nat) (f : SourceSt → SourceSt) : (setSource i f s).mode = s.mode := rfl
@[simp] theorem setSource_enc (s : State) (i : Nat) (f : SourceSt → SourceSt) : (setSource i f s).enc = s.enc := rfl
@[simp] theorem setSource_dec (s : State) (i : Nat) (f : SourceSt → SourceSt) : (setSource i f s).dec = s.dec := rfl
@[simp] theorem setSource_cmps (s : State) (i : Nat) (f : SourceSt → SourceSt) : (setSource i f s).cmps = s.cmps := rfl
@[simp] theorem setSource_ing (s : State) (i : Nat) (f : SourceSt → SourceSt) : (setSource i f s).ing = s.ing := rfl
@[simp] theorem setSource_aud (s : State) (i : Nat) (f : SourceSt → SourceSt) : (setSource i f s).aud = s.aud := rfl
@[simp] theorem setSource_egr (s : State) (i : Nat) (f : SourceSt → SourceSt) : (setSource i f s).egr = s.egr := rfl
@[simp] theorem setSource_red (s : State) (i : Nat) (f : SourceSt → SourceSt) : (setSource i f s).red = s.red := rfl
@[simp] theorem setSource_run (s : State) (i : Nat) (f : SourceSt → SourceSt) : (setSource i f s).run = s.run := rfl
@[simp] theorem setSource_pvd (s : State) (i : Nat) (f : SourceSt → SourceSt) : (setSource i f s).pvd = s.pvd := rfl
@[simp] theorem setSource_drm (s : State) (i : Nat) (f : SourceSt → SourceSt) : (setSource i f s).drm = s.drm := rfl
@[simp] theorem setSource_lnk (s : State) (i : Nat) (f : SourceSt → SourceSt) : (setSource i f s).lnk = s.lnk := rfl
@[simp] theorem setSource_hrw (s : State) (i : Nat) (f : SourceSt → SourceSt) : (setSource i f s).hrw = s.hrw := rfl
@[simp] theorem setSource_cvu (s : State) (i : Nat) (f : SourceSt → SourceSt) : (setSource i f s).cvu = s.cvu := rfl
@[simp] theorem setSource_sec (s : State) (i : Nat) (f : SourceSt → SourceSt) : (setSource i f s).sec = s.sec := rfl
@[simp] theorem setSource_flt (s : State) (i : Nat) (f : SourceSt → SourceSt) : (setSource i f s).flt = s.flt := rfl
@[simp] theorem setSource_hst (s : State) (i : Nat) (f : SourceSt → SourceSt) : (setSource i f s).hst = s.hst := rfl
@[simp] theorem setSource_free (s : State) (i : Nat) (f : SourceSt → SourceSt) : (setSource i f s).free = s.free := rfl
@[simp] theorem setSource_pending (s : State) (i : Nat) (f : SourceSt → SourceSt) : (setSource i f s).pending = s.pending := rfl

/-! passCycles -/

@[simp] theorem passCycles_clk (s : State) (n : Nat) : (passCycles n s).clk = s.clk := rfl
@[simp] theorem passCycles_pwr (s : State) (n : Nat) : (passCycles n s).pwr = s.pwr := rfl
@[simp] theorem passCycles_pins (s : State) (n : Nat) : (passCycles n s).pins = s.pins := rfl
@[simp] theorem passCycles_mode (s : State) (n : Nat) : (passCycles n s).mode = s.mode := rfl
@[simp] theorem passCycles_enc (s : State) (n : Nat) : (passCycles n s).enc = s.enc := rfl
@[simp] theorem passCycles_dec (s : State) (n : Nat) : (passCycles n s).dec = s.dec := rfl
@[simp] theorem passCycles_cmps (s : State) (n : Nat) : (passCycles n s).cmps = s.cmps := rfl
@[simp] theorem passCycles_ing (s : State) (n : Nat) : (passCycles n s).ing = s.ing := rfl
@[simp] theorem passCycles_aud (s : State) (n : Nat) : (passCycles n s).aud = s.aud := rfl
@[simp] theorem passCycles_egr (s : State) (n : Nat) : (passCycles n s).egr = s.egr := rfl
@[simp] theorem passCycles_red (s : State) (n : Nat) : (passCycles n s).red = s.red := rfl
@[simp] theorem passCycles_run (s : State) (n : Nat) : (passCycles n s).run = s.run := rfl
@[simp] theorem passCycles_pvd (s : State) (n : Nat) : (passCycles n s).pvd = s.pvd := rfl
@[simp] theorem passCycles_drm (s : State) (n : Nat) : (passCycles n s).drm = s.drm := rfl
@[simp] theorem passCycles_lnk (s : State) (n : Nat) : (passCycles n s).lnk = s.lnk := rfl
@[simp] theorem passCycles_hrw (s : State) (n : Nat) : (passCycles n s).hrw = s.hrw := rfl
@[simp] theorem passCycles_cvu (s : State) (n : Nat) : (passCycles n s).cvu = s.cvu := rfl
@[simp] theorem passCycles_sec (s : State) (n : Nat) : (passCycles n s).sec = s.sec := rfl
@[simp] theorem passCycles_flt (s : State) (n : Nat) : (passCycles n s).flt = s.flt := rfl
@[simp] theorem passCycles_hst (s : State) (n : Nat) : (passCycles n s).hst = s.hst := rfl
@[simp] theorem passCycles_free (s : State) (n : Nat) : (passCycles n s).free = s.free := rfl
@[simp] theorem passCycles_pending (s : State) (n : Nat) : (passCycles n s).pending = s.pending := rfl

/-! slotTaken -/

@[simp] theorem slotTaken_clk (s : State) (r : Req) (p : Nat) : (slotTaken r p s).clk = s.clk := rfl
@[simp] theorem slotTaken_pwr (s : State) (r : Req) (p : Nat) : (slotTaken r p s).pwr = s.pwr := rfl
@[simp] theorem slotTaken_pins (s : State) (r : Req) (p : Nat) : (slotTaken r p s).pins = s.pins := rfl
@[simp] theorem slotTaken_mtb (s : State) (r : Req) (p : Nat) : (slotTaken r p s).mtb = s.mtb := rfl
@[simp] theorem slotTaken_mode (s : State) (r : Req) (p : Nat) : (slotTaken r p s).mode = s.mode := rfl
@[simp] theorem slotTaken_enc (s : State) (r : Req) (p : Nat) : (slotTaken r p s).enc = s.enc := rfl
@[simp] theorem slotTaken_dec (s : State) (r : Req) (p : Nat) : (slotTaken r p s).dec = s.dec := rfl
@[simp] theorem slotTaken_cmps (s : State) (r : Req) (p : Nat) : (slotTaken r p s).cmps = s.cmps := rfl
@[simp] theorem slotTaken_ing (s : State) (r : Req) (p : Nat) : (slotTaken r p s).ing = s.ing := rfl
@[simp] theorem slotTaken_aud (s : State) (r : Req) (p : Nat) : (slotTaken r p s).aud = s.aud := rfl
@[simp] theorem slotTaken_egr (s : State) (r : Req) (p : Nat) : (slotTaken r p s).egr = s.egr := rfl
@[simp] theorem slotTaken_red (s : State) (r : Req) (p : Nat) : (slotTaken r p s).red = s.red := rfl
@[simp] theorem slotTaken_run (s : State) (r : Req) (p : Nat) : (slotTaken r p s).run = s.run := rfl
@[simp] theorem slotTaken_pvd (s : State) (r : Req) (p : Nat) : (slotTaken r p s).pvd = s.pvd := rfl
@[simp] theorem slotTaken_drm (s : State) (r : Req) (p : Nat) : (slotTaken r p s).drm = s.drm := rfl
@[simp] theorem slotTaken_lnk (s : State) (r : Req) (p : Nat) : (slotTaken r p s).lnk = s.lnk := rfl
@[simp] theorem slotTaken_hrw (s : State) (r : Req) (p : Nat) : (slotTaken r p s).hrw = s.hrw := rfl
@[simp] theorem slotTaken_cvu (s : State) (r : Req) (p : Nat) : (slotTaken r p s).cvu = s.cvu := rfl
@[simp] theorem slotTaken_sec (s : State) (r : Req) (p : Nat) : (slotTaken r p s).sec = s.sec := rfl
@[simp] theorem slotTaken_flt (s : State) (r : Req) (p : Nat) : (slotTaken r p s).flt = s.flt := rfl
@[simp] theorem slotTaken_free (s : State) (r : Req) (p : Nat) : (slotTaken r p s).free = s.free := rfl
@[simp] theorem slotTaken_pending (s : State) (r : Req) (p : Nat) : (slotTaken r p s).pending = s.pending := rfl

/-! joinImage -/

@[simp] theorem joinImage_clk (s : State) (k : Nat) (b : Bytes) : (joinImage k b s).clk = s.clk := rfl
@[simp] theorem joinImage_pwr (s : State) (k : Nat) (b : Bytes) : (joinImage k b s).pwr = s.pwr := rfl
@[simp] theorem joinImage_pins (s : State) (k : Nat) (b : Bytes) : (joinImage k b s).pins = s.pins := rfl
@[simp] theorem joinImage_mtb (s : State) (k : Nat) (b : Bytes) : (joinImage k b s).mtb = s.mtb := rfl
@[simp] theorem joinImage_mode (s : State) (k : Nat) (b : Bytes) : (joinImage k b s).mode = s.mode := rfl
@[simp] theorem joinImage_enc (s : State) (k : Nat) (b : Bytes) : (joinImage k b s).enc = s.enc := rfl
@[simp] theorem joinImage_dec (s : State) (k : Nat) (b : Bytes) : (joinImage k b s).dec = s.dec := rfl
@[simp] theorem joinImage_cmps (s : State) (k : Nat) (b : Bytes) : (joinImage k b s).cmps = s.cmps := rfl
@[simp] theorem joinImage_ing (s : State) (k : Nat) (b : Bytes) : (joinImage k b s).ing = s.ing := rfl
@[simp] theorem joinImage_aud (s : State) (k : Nat) (b : Bytes) : (joinImage k b s).aud = s.aud := rfl
@[simp] theorem joinImage_egr (s : State) (k : Nat) (b : Bytes) : (joinImage k b s).egr = s.egr := rfl
@[simp] theorem joinImage_red (s : State) (k : Nat) (b : Bytes) : (joinImage k b s).red = s.red := rfl
@[simp] theorem joinImage_run (s : State) (k : Nat) (b : Bytes) : (joinImage k b s).run = s.run := rfl
@[simp] theorem joinImage_pvd (s : State) (k : Nat) (b : Bytes) : (joinImage k b s).pvd = s.pvd := rfl
@[simp] theorem joinImage_drm (s : State) (k : Nat) (b : Bytes) : (joinImage k b s).drm = s.drm := rfl
@[simp] theorem joinImage_lnk (s : State) (k : Nat) (b : Bytes) : (joinImage k b s).lnk = s.lnk := rfl
@[simp] theorem joinImage_hrw (s : State) (k : Nat) (b : Bytes) : (joinImage k b s).hrw = s.hrw := rfl
@[simp] theorem joinImage_cvu (s : State) (k : Nat) (b : Bytes) : (joinImage k b s).cvu = s.cvu := rfl
@[simp] theorem joinImage_flt (s : State) (k : Nat) (b : Bytes) : (joinImage k b s).flt = s.flt := rfl
@[simp] theorem joinImage_hst (s : State) (k : Nat) (b : Bytes) : (joinImage k b s).hst = s.hst := rfl
@[simp] theorem joinImage_free (s : State) (k : Nat) (b : Bytes) : (joinImage k b s).free = s.free := rfl
@[simp] theorem joinImage_pending (s : State) (k : Nat) (b : Bytes) : (joinImage k b s).pending = s.pending := rfl

@[simp] theorem part_setPart (s : State) (p : Nat) (f : Part → Part) : part (setPart s p f) p = f (part s p) := by simp [part, setPart]

theorem part_setPart_ne (s : State) (p : Nat) (f : Part → Part) {j : Nat} (h : p ≠ j) : part (setPart s p f) j = part s j := by simp [part, setPart, tgetD_tupd, h]

@[simp] theorem ring_setRing (s : State) (k : Nat) (f : Ring → Ring) : ring (setRing s k f) k = f (ring s k) := by simp [ring, setRing]

theorem ring_setRing_ne (s : State) (k : Nat) (f : Ring → Ring) {j : Nat} (h : k ≠ j) : ring (setRing s k f) j = ring s j := by simp [ring, setRing, tgetD_tupd, h]

/-! noEarlier -/

/-- Time passes and nothing else. -/
theorem noEarlier_frame (s : State) (t : Nat) : ∃ m, noEarlier t s = { s with mtb := m } := by
  unfold noEarlier atTime
  repeat' split
  all_goals exact ⟨_, rfl⟩

@[simp] theorem noEarlier_clk (s : State) (t : Nat) : (noEarlier t s).clk = s.clk := by
  obtain ⟨m, h⟩ := noEarlier_frame s t; rw [h]
@[simp] theorem noEarlier_pwr (s : State) (t : Nat) : (noEarlier t s).pwr = s.pwr := by
  obtain ⟨m, h⟩ := noEarlier_frame s t; rw [h]
@[simp] theorem noEarlier_pins (s : State) (t : Nat) : (noEarlier t s).pins = s.pins := by
  obtain ⟨m, h⟩ := noEarlier_frame s t; rw [h]
@[simp] theorem noEarlier_mode (s : State) (t : Nat) : (noEarlier t s).mode = s.mode := by
  obtain ⟨m, h⟩ := noEarlier_frame s t; rw [h]
@[simp] theorem noEarlier_enc (s : State) (t : Nat) : (noEarlier t s).enc = s.enc := by
  obtain ⟨m, h⟩ := noEarlier_frame s t; rw [h]
@[simp] theorem noEarlier_dec (s : State) (t : Nat) : (noEarlier t s).dec = s.dec := by
  obtain ⟨m, h⟩ := noEarlier_frame s t; rw [h]
@[simp] theorem noEarlier_cmps (s : State) (t : Nat) : (noEarlier t s).cmps = s.cmps := by
  obtain ⟨m, h⟩ := noEarlier_frame s t; rw [h]
@[simp] theorem noEarlier_ing (s : State) (t : Nat) : (noEarlier t s).ing = s.ing := by
  obtain ⟨m, h⟩ := noEarlier_frame s t; rw [h]
@[simp] theorem noEarlier_aud (s : State) (t : Nat) : (noEarlier t s).aud = s.aud := by
  obtain ⟨m, h⟩ := noEarlier_frame s t; rw [h]
@[simp] theorem noEarlier_egr (s : State) (t : Nat) : (noEarlier t s).egr = s.egr := by
  obtain ⟨m, h⟩ := noEarlier_frame s t; rw [h]
@[simp] theorem noEarlier_red (s : State) (t : Nat) : (noEarlier t s).red = s.red := by
  obtain ⟨m, h⟩ := noEarlier_frame s t; rw [h]
@[simp] theorem noEarlier_run (s : State) (t : Nat) : (noEarlier t s).run = s.run := by
  obtain ⟨m, h⟩ := noEarlier_frame s t; rw [h]
@[simp] theorem noEarlier_pvd (s : State) (t : Nat) : (noEarlier t s).pvd = s.pvd := by
  obtain ⟨m, h⟩ := noEarlier_frame s t; rw [h]
@[simp] theorem noEarlier_drm (s : State) (t : Nat) : (noEarlier t s).drm = s.drm := by
  obtain ⟨m, h⟩ := noEarlier_frame s t; rw [h]
@[simp] theorem noEarlier_lnk (s : State) (t : Nat) : (noEarlier t s).lnk = s.lnk := by
  obtain ⟨m, h⟩ := noEarlier_frame s t; rw [h]
@[simp] theorem noEarlier_hrw (s : State) (t : Nat) : (noEarlier t s).hrw = s.hrw := by
  obtain ⟨m, h⟩ := noEarlier_frame s t; rw [h]
@[simp] theorem noEarlier_cvu (s : State) (t : Nat) : (noEarlier t s).cvu = s.cvu := by
  obtain ⟨m, h⟩ := noEarlier_frame s t; rw [h]
@[simp] theorem noEarlier_sec (s : State) (t : Nat) : (noEarlier t s).sec = s.sec := by
  obtain ⟨m, h⟩ := noEarlier_frame s t; rw [h]
@[simp] theorem noEarlier_flt (s : State) (t : Nat) : (noEarlier t s).flt = s.flt := by
  obtain ⟨m, h⟩ := noEarlier_frame s t; rw [h]
@[simp] theorem noEarlier_hst (s : State) (t : Nat) : (noEarlier t s).hst = s.hst := by
  obtain ⟨m, h⟩ := noEarlier_frame s t; rw [h]
@[simp] theorem noEarlier_free (s : State) (t : Nat) : (noEarlier t s).free = s.free := by
  obtain ⟨m, h⟩ := noEarlier_frame s t; rw [h]
@[simp] theorem noEarlier_pending (s : State) (t : Nat) : (noEarlier t s).pending = s.pending := by
  obtain ⟨m, h⟩ := noEarlier_frame s t; rw [h]

/-! afterUptime -/

/-- Time passes and nothing else. -/
theorem afterUptime_frame (s : State) (u : Nat) : ∃ m, afterUptime u s = { s with mtb := m } := by
  unfold afterUptime
  split <;> exact ⟨_, rfl⟩

@[simp] theorem afterUptime_clk (s : State) (u : Nat) : (afterUptime u s).clk = s.clk := by
  obtain ⟨m, h⟩ := afterUptime_frame s u; rw [h]
@[simp] theorem afterUptime_pwr (s : State) (u : Nat) : (afterUptime u s).pwr = s.pwr := by
  obtain ⟨m, h⟩ := afterUptime_frame s u; rw [h]
@[simp] theorem afterUptime_pins (s : State) (u : Nat) : (afterUptime u s).pins = s.pins := by
  obtain ⟨m, h⟩ := afterUptime_frame s u; rw [h]
@[simp] theorem afterUptime_mode (s : State) (u : Nat) : (afterUptime u s).mode = s.mode := by
  obtain ⟨m, h⟩ := afterUptime_frame s u; rw [h]
@[simp] theorem afterUptime_enc (s : State) (u : Nat) : (afterUptime u s).enc = s.enc := by
  obtain ⟨m, h⟩ := afterUptime_frame s u; rw [h]
@[simp] theorem afterUptime_dec (s : State) (u : Nat) : (afterUptime u s).dec = s.dec := by
  obtain ⟨m, h⟩ := afterUptime_frame s u; rw [h]
@[simp] theorem afterUptime_cmps (s : State) (u : Nat) : (afterUptime u s).cmps = s.cmps := by
  obtain ⟨m, h⟩ := afterUptime_frame s u; rw [h]
@[simp] theorem afterUptime_ing (s : State) (u : Nat) : (afterUptime u s).ing = s.ing := by
  obtain ⟨m, h⟩ := afterUptime_frame s u; rw [h]
@[simp] theorem afterUptime_aud (s : State) (u : Nat) : (afterUptime u s).aud = s.aud := by
  obtain ⟨m, h⟩ := afterUptime_frame s u; rw [h]
@[simp] theorem afterUptime_egr (s : State) (u : Nat) : (afterUptime u s).egr = s.egr := by
  obtain ⟨m, h⟩ := afterUptime_frame s u; rw [h]
@[simp] theorem afterUptime_red (s : State) (u : Nat) : (afterUptime u s).red = s.red := by
  obtain ⟨m, h⟩ := afterUptime_frame s u; rw [h]
@[simp] theorem afterUptime_run (s : State) (u : Nat) : (afterUptime u s).run = s.run := by
  obtain ⟨m, h⟩ := afterUptime_frame s u; rw [h]
@[simp] theorem afterUptime_pvd (s : State) (u : Nat) : (afterUptime u s).pvd = s.pvd := by
  obtain ⟨m, h⟩ := afterUptime_frame s u; rw [h]
@[simp] theorem afterUptime_drm (s : State) (u : Nat) : (afterUptime u s).drm = s.drm := by
  obtain ⟨m, h⟩ := afterUptime_frame s u; rw [h]
@[simp] theorem afterUptime_lnk (s : State) (u : Nat) : (afterUptime u s).lnk = s.lnk := by
  obtain ⟨m, h⟩ := afterUptime_frame s u; rw [h]
@[simp] theorem afterUptime_hrw (s : State) (u : Nat) : (afterUptime u s).hrw = s.hrw := by
  obtain ⟨m, h⟩ := afterUptime_frame s u; rw [h]
@[simp] theorem afterUptime_cvu (s : State) (u : Nat) : (afterUptime u s).cvu = s.cvu := by
  obtain ⟨m, h⟩ := afterUptime_frame s u; rw [h]
@[simp] theorem afterUptime_sec (s : State) (u : Nat) : (afterUptime u s).sec = s.sec := by
  obtain ⟨m, h⟩ := afterUptime_frame s u; rw [h]
@[simp] theorem afterUptime_flt (s : State) (u : Nat) : (afterUptime u s).flt = s.flt := by
  obtain ⟨m, h⟩ := afterUptime_frame s u; rw [h]
@[simp] theorem afterUptime_hst (s : State) (u : Nat) : (afterUptime u s).hst = s.hst := by
  obtain ⟨m, h⟩ := afterUptime_frame s u; rw [h]
@[simp] theorem afterUptime_free (s : State) (u : Nat) : (afterUptime u s).free = s.free := by
  obtain ⟨m, h⟩ := afterUptime_frame s u; rw [h]
@[simp] theorem afterUptime_pending (s : State) (u : Nat) : (afterUptime u s).pending = s.pending := by
  obtain ⟨m, h⟩ := afterUptime_frame s u; rw [h]

/-! sendLink -/

/-- What is sent changes the links alone. -/
theorem sendLink_frame (s : State) (v : Nat) (cls : Nat) (msg : LinkMsg) : ∃ l, sendLink v cls msg s = { s with lnk := l } := ⟨_, rfl⟩

@[simp] theorem sendLink_clk (s : State) (v : Nat) (cls : Nat) (msg : LinkMsg) : (sendLink v cls msg s).clk = s.clk := by
  obtain ⟨l, h⟩ := sendLink_frame s v cls msg; rw [h]
@[simp] theorem sendLink_pwr (s : State) (v : Nat) (cls : Nat) (msg : LinkMsg) : (sendLink v cls msg s).pwr = s.pwr := by
  obtain ⟨l, h⟩ := sendLink_frame s v cls msg; rw [h]
@[simp] theorem sendLink_pins (s : State) (v : Nat) (cls : Nat) (msg : LinkMsg) : (sendLink v cls msg s).pins = s.pins := by
  obtain ⟨l, h⟩ := sendLink_frame s v cls msg; rw [h]
@[simp] theorem sendLink_mtb (s : State) (v : Nat) (cls : Nat) (msg : LinkMsg) : (sendLink v cls msg s).mtb = s.mtb := by
  obtain ⟨l, h⟩ := sendLink_frame s v cls msg; rw [h]
@[simp] theorem sendLink_mode (s : State) (v : Nat) (cls : Nat) (msg : LinkMsg) : (sendLink v cls msg s).mode = s.mode := by
  obtain ⟨l, h⟩ := sendLink_frame s v cls msg; rw [h]
@[simp] theorem sendLink_enc (s : State) (v : Nat) (cls : Nat) (msg : LinkMsg) : (sendLink v cls msg s).enc = s.enc := by
  obtain ⟨l, h⟩ := sendLink_frame s v cls msg; rw [h]
@[simp] theorem sendLink_dec (s : State) (v : Nat) (cls : Nat) (msg : LinkMsg) : (sendLink v cls msg s).dec = s.dec := by
  obtain ⟨l, h⟩ := sendLink_frame s v cls msg; rw [h]
@[simp] theorem sendLink_cmps (s : State) (v : Nat) (cls : Nat) (msg : LinkMsg) : (sendLink v cls msg s).cmps = s.cmps := by
  obtain ⟨l, h⟩ := sendLink_frame s v cls msg; rw [h]
@[simp] theorem sendLink_ing (s : State) (v : Nat) (cls : Nat) (msg : LinkMsg) : (sendLink v cls msg s).ing = s.ing := by
  obtain ⟨l, h⟩ := sendLink_frame s v cls msg; rw [h]
@[simp] theorem sendLink_aud (s : State) (v : Nat) (cls : Nat) (msg : LinkMsg) : (sendLink v cls msg s).aud = s.aud := by
  obtain ⟨l, h⟩ := sendLink_frame s v cls msg; rw [h]
@[simp] theorem sendLink_egr (s : State) (v : Nat) (cls : Nat) (msg : LinkMsg) : (sendLink v cls msg s).egr = s.egr := by
  obtain ⟨l, h⟩ := sendLink_frame s v cls msg; rw [h]
@[simp] theorem sendLink_red (s : State) (v : Nat) (cls : Nat) (msg : LinkMsg) : (sendLink v cls msg s).red = s.red := by
  obtain ⟨l, h⟩ := sendLink_frame s v cls msg; rw [h]
@[simp] theorem sendLink_run (s : State) (v : Nat) (cls : Nat) (msg : LinkMsg) : (sendLink v cls msg s).run = s.run := by
  obtain ⟨l, h⟩ := sendLink_frame s v cls msg; rw [h]
@[simp] theorem sendLink_pvd (s : State) (v : Nat) (cls : Nat) (msg : LinkMsg) : (sendLink v cls msg s).pvd = s.pvd := by
  obtain ⟨l, h⟩ := sendLink_frame s v cls msg; rw [h]
@[simp] theorem sendLink_drm (s : State) (v : Nat) (cls : Nat) (msg : LinkMsg) : (sendLink v cls msg s).drm = s.drm := by
  obtain ⟨l, h⟩ := sendLink_frame s v cls msg; rw [h]
@[simp] theorem sendLink_hrw (s : State) (v : Nat) (cls : Nat) (msg : LinkMsg) : (sendLink v cls msg s).hrw = s.hrw := by
  obtain ⟨l, h⟩ := sendLink_frame s v cls msg; rw [h]
@[simp] theorem sendLink_cvu (s : State) (v : Nat) (cls : Nat) (msg : LinkMsg) : (sendLink v cls msg s).cvu = s.cvu := by
  obtain ⟨l, h⟩ := sendLink_frame s v cls msg; rw [h]
@[simp] theorem sendLink_sec (s : State) (v : Nat) (cls : Nat) (msg : LinkMsg) : (sendLink v cls msg s).sec = s.sec := by
  obtain ⟨l, h⟩ := sendLink_frame s v cls msg; rw [h]
@[simp] theorem sendLink_flt (s : State) (v : Nat) (cls : Nat) (msg : LinkMsg) : (sendLink v cls msg s).flt = s.flt := by
  obtain ⟨l, h⟩ := sendLink_frame s v cls msg; rw [h]
@[simp] theorem sendLink_hst (s : State) (v : Nat) (cls : Nat) (msg : LinkMsg) : (sendLink v cls msg s).hst = s.hst := by
  obtain ⟨l, h⟩ := sendLink_frame s v cls msg; rw [h]
@[simp] theorem sendLink_free (s : State) (v : Nat) (cls : Nat) (msg : LinkMsg) : (sendLink v cls msg s).free = s.free := by
  obtain ⟨l, h⟩ := sendLink_frame s v cls msg; rw [h]
@[simp] theorem sendLink_pending (s : State) (v : Nat) (cls : Nat) (msg : LinkMsg) : (sendLink v cls msg s).pending = s.pending := by
  obtain ⟨l, h⟩ := sendLink_frame s v cls msg; rw [h]

/-! sendVa -/

/-- What is sent changes the links alone. -/
theorem sendVa_frame (s : State) (cls : Nat) (msg : LinkMsg) : ∃ l, sendVa cls msg s = { s with lnk := l } := by
  unfold sendVa; split <;> exact ⟨_, rfl⟩

@[simp] theorem sendVa_clk (s : State) (cls : Nat) (msg : LinkMsg) : (sendVa cls msg s).clk = s.clk := by
  obtain ⟨l, h⟩ := sendVa_frame s cls msg; rw [h]
@[simp] theorem sendVa_pwr (s : State) (cls : Nat) (msg : LinkMsg) : (sendVa cls msg s).pwr = s.pwr := by
  obtain ⟨l, h⟩ := sendVa_frame s cls msg; rw [h]
@[simp] theorem sendVa_pins (s : State) (cls : Nat) (msg : LinkMsg) : (sendVa cls msg s).pins = s.pins := by
  obtain ⟨l, h⟩ := sendVa_frame s cls msg; rw [h]
@[simp] theorem sendVa_mtb (s : State) (cls : Nat) (msg : LinkMsg) : (sendVa cls msg s).mtb = s.mtb := by
  obtain ⟨l, h⟩ := sendVa_frame s cls msg; rw [h]
@[simp] theorem sendVa_mode (s : State) (cls : Nat) (msg : LinkMsg) : (sendVa cls msg s).mode = s.mode := by
  obtain ⟨l, h⟩ := sendVa_frame s cls msg; rw [h]
@[simp] theorem sendVa_enc (s : State) (cls : Nat) (msg : LinkMsg) : (sendVa cls msg s).enc = s.enc := by
  obtain ⟨l, h⟩ := sendVa_frame s cls msg; rw [h]
@[simp] theorem sendVa_dec (s : State) (cls : Nat) (msg : LinkMsg) : (sendVa cls msg s).dec = s.dec := by
  obtain ⟨l, h⟩ := sendVa_frame s cls msg; rw [h]
@[simp] theorem sendVa_cmps (s : State) (cls : Nat) (msg : LinkMsg) : (sendVa cls msg s).cmps = s.cmps := by
  obtain ⟨l, h⟩ := sendVa_frame s cls msg; rw [h]
@[simp] theorem sendVa_ing (s : State) (cls : Nat) (msg : LinkMsg) : (sendVa cls msg s).ing = s.ing := by
  obtain ⟨l, h⟩ := sendVa_frame s cls msg; rw [h]
@[simp] theorem sendVa_aud (s : State) (cls : Nat) (msg : LinkMsg) : (sendVa cls msg s).aud = s.aud := by
  obtain ⟨l, h⟩ := sendVa_frame s cls msg; rw [h]
@[simp] theorem sendVa_egr (s : State) (cls : Nat) (msg : LinkMsg) : (sendVa cls msg s).egr = s.egr := by
  obtain ⟨l, h⟩ := sendVa_frame s cls msg; rw [h]
@[simp] theorem sendVa_red (s : State) (cls : Nat) (msg : LinkMsg) : (sendVa cls msg s).red = s.red := by
  obtain ⟨l, h⟩ := sendVa_frame s cls msg; rw [h]
@[simp] theorem sendVa_run (s : State) (cls : Nat) (msg : LinkMsg) : (sendVa cls msg s).run = s.run := by
  obtain ⟨l, h⟩ := sendVa_frame s cls msg; rw [h]
@[simp] theorem sendVa_pvd (s : State) (cls : Nat) (msg : LinkMsg) : (sendVa cls msg s).pvd = s.pvd := by
  obtain ⟨l, h⟩ := sendVa_frame s cls msg; rw [h]
@[simp] theorem sendVa_drm (s : State) (cls : Nat) (msg : LinkMsg) : (sendVa cls msg s).drm = s.drm := by
  obtain ⟨l, h⟩ := sendVa_frame s cls msg; rw [h]
@[simp] theorem sendVa_hrw (s : State) (cls : Nat) (msg : LinkMsg) : (sendVa cls msg s).hrw = s.hrw := by
  obtain ⟨l, h⟩ := sendVa_frame s cls msg; rw [h]
@[simp] theorem sendVa_cvu (s : State) (cls : Nat) (msg : LinkMsg) : (sendVa cls msg s).cvu = s.cvu := by
  obtain ⟨l, h⟩ := sendVa_frame s cls msg; rw [h]
@[simp] theorem sendVa_sec (s : State) (cls : Nat) (msg : LinkMsg) : (sendVa cls msg s).sec = s.sec := by
  obtain ⟨l, h⟩ := sendVa_frame s cls msg; rw [h]
@[simp] theorem sendVa_flt (s : State) (cls : Nat) (msg : LinkMsg) : (sendVa cls msg s).flt = s.flt := by
  obtain ⟨l, h⟩ := sendVa_frame s cls msg; rw [h]
@[simp] theorem sendVa_hst (s : State) (cls : Nat) (msg : LinkMsg) : (sendVa cls msg s).hst = s.hst := by
  obtain ⟨l, h⟩ := sendVa_frame s cls msg; rw [h]
@[simp] theorem sendVa_free (s : State) (cls : Nat) (msg : LinkMsg) : (sendVa cls msg s).free = s.free := by
  obtain ⟨l, h⟩ := sendVa_frame s cls msg; rw [h]
@[simp] theorem sendVa_pending (s : State) (cls : Nat) (msg : LinkMsg) : (sendVa cls msg s).pending = s.pending := by
  obtain ⟨l, h⟩ := sendVa_frame s cls msg; rw [h]

/-! sendTree -/

/-- What is sent changes the links alone. -/
theorem sendTree_frame (s : State) (k : Nat) (cls : Nat) (msg : LinkMsg) : ∃ l, sendTree k cls msg s = { s with lnk := l } := by
  unfold sendTree; split <;> exact ⟨_, rfl⟩

@[simp] theorem sendTree_clk (s : State) (k : Nat) (cls : Nat) (msg : LinkMsg) : (sendTree k cls msg s).clk = s.clk := by
  obtain ⟨l, h⟩ := sendTree_frame s k cls msg; rw [h]
@[simp] theorem sendTree_pwr (s : State) (k : Nat) (cls : Nat) (msg : LinkMsg) : (sendTree k cls msg s).pwr = s.pwr := by
  obtain ⟨l, h⟩ := sendTree_frame s k cls msg; rw [h]
@[simp] theorem sendTree_pins (s : State) (k : Nat) (cls : Nat) (msg : LinkMsg) : (sendTree k cls msg s).pins = s.pins := by
  obtain ⟨l, h⟩ := sendTree_frame s k cls msg; rw [h]
@[simp] theorem sendTree_mtb (s : State) (k : Nat) (cls : Nat) (msg : LinkMsg) : (sendTree k cls msg s).mtb = s.mtb := by
  obtain ⟨l, h⟩ := sendTree_frame s k cls msg; rw [h]
@[simp] theorem sendTree_mode (s : State) (k : Nat) (cls : Nat) (msg : LinkMsg) : (sendTree k cls msg s).mode = s.mode := by
  obtain ⟨l, h⟩ := sendTree_frame s k cls msg; rw [h]
@[simp] theorem sendTree_enc (s : State) (k : Nat) (cls : Nat) (msg : LinkMsg) : (sendTree k cls msg s).enc = s.enc := by
  obtain ⟨l, h⟩ := sendTree_frame s k cls msg; rw [h]
@[simp] theorem sendTree_dec (s : State) (k : Nat) (cls : Nat) (msg : LinkMsg) : (sendTree k cls msg s).dec = s.dec := by
  obtain ⟨l, h⟩ := sendTree_frame s k cls msg; rw [h]
@[simp] theorem sendTree_cmps (s : State) (k : Nat) (cls : Nat) (msg : LinkMsg) : (sendTree k cls msg s).cmps = s.cmps := by
  obtain ⟨l, h⟩ := sendTree_frame s k cls msg; rw [h]
@[simp] theorem sendTree_ing (s : State) (k : Nat) (cls : Nat) (msg : LinkMsg) : (sendTree k cls msg s).ing = s.ing := by
  obtain ⟨l, h⟩ := sendTree_frame s k cls msg; rw [h]
@[simp] theorem sendTree_aud (s : State) (k : Nat) (cls : Nat) (msg : LinkMsg) : (sendTree k cls msg s).aud = s.aud := by
  obtain ⟨l, h⟩ := sendTree_frame s k cls msg; rw [h]
@[simp] theorem sendTree_egr (s : State) (k : Nat) (cls : Nat) (msg : LinkMsg) : (sendTree k cls msg s).egr = s.egr := by
  obtain ⟨l, h⟩ := sendTree_frame s k cls msg; rw [h]
@[simp] theorem sendTree_red (s : State) (k : Nat) (cls : Nat) (msg : LinkMsg) : (sendTree k cls msg s).red = s.red := by
  obtain ⟨l, h⟩ := sendTree_frame s k cls msg; rw [h]
@[simp] theorem sendTree_run (s : State) (k : Nat) (cls : Nat) (msg : LinkMsg) : (sendTree k cls msg s).run = s.run := by
  obtain ⟨l, h⟩ := sendTree_frame s k cls msg; rw [h]
@[simp] theorem sendTree_pvd (s : State) (k : Nat) (cls : Nat) (msg : LinkMsg) : (sendTree k cls msg s).pvd = s.pvd := by
  obtain ⟨l, h⟩ := sendTree_frame s k cls msg; rw [h]
@[simp] theorem sendTree_drm (s : State) (k : Nat) (cls : Nat) (msg : LinkMsg) : (sendTree k cls msg s).drm = s.drm := by
  obtain ⟨l, h⟩ := sendTree_frame s k cls msg; rw [h]
@[simp] theorem sendTree_hrw (s : State) (k : Nat) (cls : Nat) (msg : LinkMsg) : (sendTree k cls msg s).hrw = s.hrw := by
  obtain ⟨l, h⟩ := sendTree_frame s k cls msg; rw [h]
@[simp] theorem sendTree_cvu (s : State) (k : Nat) (cls : Nat) (msg : LinkMsg) : (sendTree k cls msg s).cvu = s.cvu := by
  obtain ⟨l, h⟩ := sendTree_frame s k cls msg; rw [h]
@[simp] theorem sendTree_sec (s : State) (k : Nat) (cls : Nat) (msg : LinkMsg) : (sendTree k cls msg s).sec = s.sec := by
  obtain ⟨l, h⟩ := sendTree_frame s k cls msg; rw [h]
@[simp] theorem sendTree_flt (s : State) (k : Nat) (cls : Nat) (msg : LinkMsg) : (sendTree k cls msg s).flt = s.flt := by
  obtain ⟨l, h⟩ := sendTree_frame s k cls msg; rw [h]
@[simp] theorem sendTree_hst (s : State) (k : Nat) (cls : Nat) (msg : LinkMsg) : (sendTree k cls msg s).hst = s.hst := by
  obtain ⟨l, h⟩ := sendTree_frame s k cls msg; rw [h]
@[simp] theorem sendTree_free (s : State) (k : Nat) (cls : Nat) (msg : LinkMsg) : (sendTree k cls msg s).free = s.free := by
  obtain ⟨l, h⟩ := sendTree_frame s k cls msg; rw [h]
@[simp] theorem sendTree_pending (s : State) (k : Nat) (cls : Nat) (msg : LinkMsg) : (sendTree k cls msg s).pending = s.pending := by
  obtain ⟨l, h⟩ := sendTree_frame s k cls msg; rw [h]

/-! sendUp -/

/-- What is sent changes the links alone. -/
theorem sendUp_frame (s : State) (cls : Nat) (msg : LinkMsg) : ∃ l, sendUp cls msg s = { s with lnk := l } := sendTree_frame s 0 cls msg

@[simp] theorem sendUp_clk (s : State) (cls : Nat) (msg : LinkMsg) : (sendUp cls msg s).clk = s.clk := by
  obtain ⟨l, h⟩ := sendUp_frame s cls msg; rw [h]
@[simp] theorem sendUp_pwr (s : State) (cls : Nat) (msg : LinkMsg) : (sendUp cls msg s).pwr = s.pwr := by
  obtain ⟨l, h⟩ := sendUp_frame s cls msg; rw [h]
@[simp] theorem sendUp_pins (s : State) (cls : Nat) (msg : LinkMsg) : (sendUp cls msg s).pins = s.pins := by
  obtain ⟨l, h⟩ := sendUp_frame s cls msg; rw [h]
@[simp] theorem sendUp_mtb (s : State) (cls : Nat) (msg : LinkMsg) : (sendUp cls msg s).mtb = s.mtb := by
  obtain ⟨l, h⟩ := sendUp_frame s cls msg; rw [h]
@[simp] theorem sendUp_mode (s : State) (cls : Nat) (msg : LinkMsg) : (sendUp cls msg s).mode = s.mode := by
  obtain ⟨l, h⟩ := sendUp_frame s cls msg; rw [h]
@[simp] theorem sendUp_enc (s : State) (cls : Nat) (msg : LinkMsg) : (sendUp cls msg s).enc = s.enc := by
  obtain ⟨l, h⟩ := sendUp_frame s cls msg; rw [h]
@[simp] theorem sendUp_dec (s : State) (cls : Nat) (msg : LinkMsg) : (sendUp cls msg s).dec = s.dec := by
  obtain ⟨l, h⟩ := sendUp_frame s cls msg; rw [h]
@[simp] theorem sendUp_cmps (s : State) (cls : Nat) (msg : LinkMsg) : (sendUp cls msg s).cmps = s.cmps := by
  obtain ⟨l, h⟩ := sendUp_frame s cls msg; rw [h]
@[simp] theorem sendUp_ing (s : State) (cls : Nat) (msg : LinkMsg) : (sendUp cls msg s).ing = s.ing := by
  obtain ⟨l, h⟩ := sendUp_frame s cls msg; rw [h]
@[simp] theorem sendUp_aud (s : State) (cls : Nat) (msg : LinkMsg) : (sendUp cls msg s).aud = s.aud := by
  obtain ⟨l, h⟩ := sendUp_frame s cls msg; rw [h]
@[simp] theorem sendUp_egr (s : State) (cls : Nat) (msg : LinkMsg) : (sendUp cls msg s).egr = s.egr := by
  obtain ⟨l, h⟩ := sendUp_frame s cls msg; rw [h]
@[simp] theorem sendUp_red (s : State) (cls : Nat) (msg : LinkMsg) : (sendUp cls msg s).red = s.red := by
  obtain ⟨l, h⟩ := sendUp_frame s cls msg; rw [h]
@[simp] theorem sendUp_run (s : State) (cls : Nat) (msg : LinkMsg) : (sendUp cls msg s).run = s.run := by
  obtain ⟨l, h⟩ := sendUp_frame s cls msg; rw [h]
@[simp] theorem sendUp_pvd (s : State) (cls : Nat) (msg : LinkMsg) : (sendUp cls msg s).pvd = s.pvd := by
  obtain ⟨l, h⟩ := sendUp_frame s cls msg; rw [h]
@[simp] theorem sendUp_drm (s : State) (cls : Nat) (msg : LinkMsg) : (sendUp cls msg s).drm = s.drm := by
  obtain ⟨l, h⟩ := sendUp_frame s cls msg; rw [h]
@[simp] theorem sendUp_hrw (s : State) (cls : Nat) (msg : LinkMsg) : (sendUp cls msg s).hrw = s.hrw := by
  obtain ⟨l, h⟩ := sendUp_frame s cls msg; rw [h]
@[simp] theorem sendUp_cvu (s : State) (cls : Nat) (msg : LinkMsg) : (sendUp cls msg s).cvu = s.cvu := by
  obtain ⟨l, h⟩ := sendUp_frame s cls msg; rw [h]
@[simp] theorem sendUp_sec (s : State) (cls : Nat) (msg : LinkMsg) : (sendUp cls msg s).sec = s.sec := by
  obtain ⟨l, h⟩ := sendUp_frame s cls msg; rw [h]
@[simp] theorem sendUp_flt (s : State) (cls : Nat) (msg : LinkMsg) : (sendUp cls msg s).flt = s.flt := by
  obtain ⟨l, h⟩ := sendUp_frame s cls msg; rw [h]
@[simp] theorem sendUp_hst (s : State) (cls : Nat) (msg : LinkMsg) : (sendUp cls msg s).hst = s.hst := by
  obtain ⟨l, h⟩ := sendUp_frame s cls msg; rw [h]
@[simp] theorem sendUp_free (s : State) (cls : Nat) (msg : LinkMsg) : (sendUp cls msg s).free = s.free := by
  obtain ⟨l, h⟩ := sendUp_frame s cls msg; rw [h]
@[simp] theorem sendUp_pending (s : State) (cls : Nat) (msg : LinkMsg) : (sendUp cls msg s).pending = s.pending := by
  obtain ⟨l, h⟩ := sendUp_frame s cls msg; rw [h]

/-! sendDown -/

/-- What is sent changes the links alone. -/
theorem sendDown_frame (s : State) (cls : Nat) (msg : LinkMsg) : ∃ l, sendDown cls msg s = { s with lnk := l } := by
  unfold sendDown
  generalize childrenUp s = l
  induction l generalizing s with
  | nil => exact ⟨_, rfl⟩
  | cons k l ih =>
    obtain ⟨x, hx⟩ := sendTree_frame s k cls msg
    obtain ⟨y, hy⟩ := ih (sendTree k cls msg s)
    exact ⟨y, by rw [List.foldl_cons, hy, hx]⟩

@[simp] theorem sendDown_clk (s : State) (cls : Nat) (msg : LinkMsg) : (sendDown cls msg s).clk = s.clk := by
  obtain ⟨l, h⟩ := sendDown_frame s cls msg; rw [h]
@[simp] theorem sendDown_pwr (s : State) (cls : Nat) (msg : LinkMsg) : (sendDown cls msg s).pwr = s.pwr := by
  obtain ⟨l, h⟩ := sendDown_frame s cls msg; rw [h]
@[simp] theorem sendDown_pins (s : State) (cls : Nat) (msg : LinkMsg) : (sendDown cls msg s).pins = s.pins := by
  obtain ⟨l, h⟩ := sendDown_frame s cls msg; rw [h]
@[simp] theorem sendDown_mtb (s : State) (cls : Nat) (msg : LinkMsg) : (sendDown cls msg s).mtb = s.mtb := by
  obtain ⟨l, h⟩ := sendDown_frame s cls msg; rw [h]
@[simp] theorem sendDown_mode (s : State) (cls : Nat) (msg : LinkMsg) : (sendDown cls msg s).mode = s.mode := by
  obtain ⟨l, h⟩ := sendDown_frame s cls msg; rw [h]
@[simp] theorem sendDown_enc (s : State) (cls : Nat) (msg : LinkMsg) : (sendDown cls msg s).enc = s.enc := by
  obtain ⟨l, h⟩ := sendDown_frame s cls msg; rw [h]
@[simp] theorem sendDown_dec (s : State) (cls : Nat) (msg : LinkMsg) : (sendDown cls msg s).dec = s.dec := by
  obtain ⟨l, h⟩ := sendDown_frame s cls msg; rw [h]
@[simp] theorem sendDown_cmps (s : State) (cls : Nat) (msg : LinkMsg) : (sendDown cls msg s).cmps = s.cmps := by
  obtain ⟨l, h⟩ := sendDown_frame s cls msg; rw [h]
@[simp] theorem sendDown_ing (s : State) (cls : Nat) (msg : LinkMsg) : (sendDown cls msg s).ing = s.ing := by
  obtain ⟨l, h⟩ := sendDown_frame s cls msg; rw [h]
@[simp] theorem sendDown_aud (s : State) (cls : Nat) (msg : LinkMsg) : (sendDown cls msg s).aud = s.aud := by
  obtain ⟨l, h⟩ := sendDown_frame s cls msg; rw [h]
@[simp] theorem sendDown_egr (s : State) (cls : Nat) (msg : LinkMsg) : (sendDown cls msg s).egr = s.egr := by
  obtain ⟨l, h⟩ := sendDown_frame s cls msg; rw [h]
@[simp] theorem sendDown_red (s : State) (cls : Nat) (msg : LinkMsg) : (sendDown cls msg s).red = s.red := by
  obtain ⟨l, h⟩ := sendDown_frame s cls msg; rw [h]
@[simp] theorem sendDown_run (s : State) (cls : Nat) (msg : LinkMsg) : (sendDown cls msg s).run = s.run := by
  obtain ⟨l, h⟩ := sendDown_frame s cls msg; rw [h]
@[simp] theorem sendDown_pvd (s : State) (cls : Nat) (msg : LinkMsg) : (sendDown cls msg s).pvd = s.pvd := by
  obtain ⟨l, h⟩ := sendDown_frame s cls msg; rw [h]
@[simp] theorem sendDown_drm (s : State) (cls : Nat) (msg : LinkMsg) : (sendDown cls msg s).drm = s.drm := by
  obtain ⟨l, h⟩ := sendDown_frame s cls msg; rw [h]
@[simp] theorem sendDown_hrw (s : State) (cls : Nat) (msg : LinkMsg) : (sendDown cls msg s).hrw = s.hrw := by
  obtain ⟨l, h⟩ := sendDown_frame s cls msg; rw [h]
@[simp] theorem sendDown_cvu (s : State) (cls : Nat) (msg : LinkMsg) : (sendDown cls msg s).cvu = s.cvu := by
  obtain ⟨l, h⟩ := sendDown_frame s cls msg; rw [h]
@[simp] theorem sendDown_sec (s : State) (cls : Nat) (msg : LinkMsg) : (sendDown cls msg s).sec = s.sec := by
  obtain ⟨l, h⟩ := sendDown_frame s cls msg; rw [h]
@[simp] theorem sendDown_flt (s : State) (cls : Nat) (msg : LinkMsg) : (sendDown cls msg s).flt = s.flt := by
  obtain ⟨l, h⟩ := sendDown_frame s cls msg; rw [h]
@[simp] theorem sendDown_hst (s : State) (cls : Nat) (msg : LinkMsg) : (sendDown cls msg s).hst = s.hst := by
  obtain ⟨l, h⟩ := sendDown_frame s cls msg; rw [h]
@[simp] theorem sendDown_free (s : State) (cls : Nat) (msg : LinkMsg) : (sendDown cls msg s).free = s.free := by
  obtain ⟨l, h⟩ := sendDown_frame s cls msg; rw [h]
@[simp] theorem sendDown_pending (s : State) (cls : Nat) (msg : LinkMsg) : (sendDown cls msg s).pending = s.pending := by
  obtain ⟨l, h⟩ := sendDown_frame s cls msg; rw [h]

/-! toStandby -/

/-- What is sent changes the links alone. -/
theorem toStandby_frame (s : State) (msg : LinkMsg) : ∃ l, toStandby msg s = { s with lnk := l } := by
  unfold toStandby; split
  · exact sendVa_frame s 3 msg
  · exact ⟨_, rfl⟩

@[simp] theorem toStandby_clk (s : State) (msg : LinkMsg) : (toStandby msg s).clk = s.clk := by
  obtain ⟨l, h⟩ := toStandby_frame s msg; rw [h]
@[simp] theorem toStandby_pwr (s : State) (msg : LinkMsg) : (toStandby msg s).pwr = s.pwr := by
  obtain ⟨l, h⟩ := toStandby_frame s msg; rw [h]
@[simp] theorem toStandby_pins (s : State) (msg : LinkMsg) : (toStandby msg s).pins = s.pins := by
  obtain ⟨l, h⟩ := toStandby_frame s msg; rw [h]
@[simp] theorem toStandby_mtb (s : State) (msg : LinkMsg) : (toStandby msg s).mtb = s.mtb := by
  obtain ⟨l, h⟩ := toStandby_frame s msg; rw [h]
@[simp] theorem toStandby_mode (s : State) (msg : LinkMsg) : (toStandby msg s).mode = s.mode := by
  obtain ⟨l, h⟩ := toStandby_frame s msg; rw [h]
@[simp] theorem toStandby_enc (s : State) (msg : LinkMsg) : (toStandby msg s).enc = s.enc := by
  obtain ⟨l, h⟩ := toStandby_frame s msg; rw [h]
@[simp] theorem toStandby_dec (s : State) (msg : LinkMsg) : (toStandby msg s).dec = s.dec := by
  obtain ⟨l, h⟩ := toStandby_frame s msg; rw [h]
@[simp] theorem toStandby_cmps (s : State) (msg : LinkMsg) : (toStandby msg s).cmps = s.cmps := by
  obtain ⟨l, h⟩ := toStandby_frame s msg; rw [h]
@[simp] theorem toStandby_ing (s : State) (msg : LinkMsg) : (toStandby msg s).ing = s.ing := by
  obtain ⟨l, h⟩ := toStandby_frame s msg; rw [h]
@[simp] theorem toStandby_aud (s : State) (msg : LinkMsg) : (toStandby msg s).aud = s.aud := by
  obtain ⟨l, h⟩ := toStandby_frame s msg; rw [h]
@[simp] theorem toStandby_egr (s : State) (msg : LinkMsg) : (toStandby msg s).egr = s.egr := by
  obtain ⟨l, h⟩ := toStandby_frame s msg; rw [h]
@[simp] theorem toStandby_red (s : State) (msg : LinkMsg) : (toStandby msg s).red = s.red := by
  obtain ⟨l, h⟩ := toStandby_frame s msg; rw [h]
@[simp] theorem toStandby_run (s : State) (msg : LinkMsg) : (toStandby msg s).run = s.run := by
  obtain ⟨l, h⟩ := toStandby_frame s msg; rw [h]
@[simp] theorem toStandby_pvd (s : State) (msg : LinkMsg) : (toStandby msg s).pvd = s.pvd := by
  obtain ⟨l, h⟩ := toStandby_frame s msg; rw [h]
@[simp] theorem toStandby_drm (s : State) (msg : LinkMsg) : (toStandby msg s).drm = s.drm := by
  obtain ⟨l, h⟩ := toStandby_frame s msg; rw [h]
@[simp] theorem toStandby_hrw (s : State) (msg : LinkMsg) : (toStandby msg s).hrw = s.hrw := by
  obtain ⟨l, h⟩ := toStandby_frame s msg; rw [h]
@[simp] theorem toStandby_cvu (s : State) (msg : LinkMsg) : (toStandby msg s).cvu = s.cvu := by
  obtain ⟨l, h⟩ := toStandby_frame s msg; rw [h]
@[simp] theorem toStandby_sec (s : State) (msg : LinkMsg) : (toStandby msg s).sec = s.sec := by
  obtain ⟨l, h⟩ := toStandby_frame s msg; rw [h]
@[simp] theorem toStandby_flt (s : State) (msg : LinkMsg) : (toStandby msg s).flt = s.flt := by
  obtain ⟨l, h⟩ := toStandby_frame s msg; rw [h]
@[simp] theorem toStandby_hst (s : State) (msg : LinkMsg) : (toStandby msg s).hst = s.hst := by
  obtain ⟨l, h⟩ := toStandby_frame s msg; rw [h]
@[simp] theorem toStandby_free (s : State) (msg : LinkMsg) : (toStandby msg s).free = s.free := by
  obtain ⟨l, h⟩ := toStandby_frame s msg; rw [h]
@[simp] theorem toStandby_pending (s : State) (msg : LinkMsg) : (toStandby msg s).pending = s.pending := by
  obtain ⟨l, h⟩ := toStandby_frame s msg; rw [h]

end Sys2Proof.Machine
end

