-- ==== Sys2Proof/Laws/Still.lean ====
section
/-! SUPPORT. What the collector and the entry to a mode leave alone: HBM, the fuses, the timebase, and but for the switch itself the
mode. -/

set_option linter.unusedTactic false
set_option linter.unreachableTactic false

namespace Sys2Proof.Machine

open Sys2Proof.Safety

/-- The mode, HBM, the fuses, the timebase and the queue stand as they did. -/
structure Still (s t : State) : Prop where
  mode : t.mode.mode = s.mode.mode
  prev : t.mode.prev = s.mode.prev
  safe : t.pins.forcedSafe = s.pins.forcedSafe
  time : t.mtb.t = s.mtb.t
  mgt : t.mtb.mgt = s.mtb.mgt
  servo : t.mtb.servo = s.mtb.servo
  uptime : t.mtb.uptime = s.mtb.uptime
  mem : t.drm.mem = s.drm.mem
  fuses : t.sec.fuses = s.sec.fuses
  pending : t.pending = s.pending

theorem Still.refl (s : State) : Still s s := ⟨rfl, rfl, rfl, rfl, rfl, rfl, rfl, rfl, rfl, rfl⟩

theorem Still.trans {a b c : State} (h : Still a b) (k : Still b c) : Still a c :=
  ⟨k.mode.trans h.mode, k.prev.trans h.prev, k.safe.trans h.safe, k.time.trans h.time,
    k.mgt.trans h.mgt, k.servo.trans h.servo, k.uptime.trans h.uptime, k.mem.trans h.mem,
    k.fuses.trans h.fuses, k.pending.trans h.pending⟩

/-- Fields put that leave the parts concerned alone. -/
theorem Still.put {s x : State} {f1 f2 f3 f4 f5 f6 f7 f8 f9 f10 f11 f12 f13 f14 f15 f16 f17 f18 f19 f20 f21 f22 f23} (h : Still s x)
    (hmode : f5.mode = x.mode.mode) (hprev : f5.prev = x.mode.prev) (hsafe : f3.forcedSafe = x.pins.forcedSafe) (htime : f4.t = x.mtb.t)
    (hmgt : f4.mgt = x.mtb.mgt) (hservo : f4.servo = x.mtb.servo) (huptime : f4.uptime = x.mtb.uptime) (hmem : f15.mem = x.drm.mem)
    (hfuses : f19.fuses = x.sec.fuses) (hpending : f23 = x.pending) :
    Still s (State.mk f1 f2 f3 f4 f5 f6 f7 f8 f9 f10 f11 f12 f13 f14 f15 f16 f17 f18 f19 f20 f21 f22 f23) :=
  h.trans ⟨hmode, hprev, hsafe, htime, hmgt, hservo, huptime, hmem, hfuses, hpending⟩

theorem Still.ite {s a b : State} {c : Prop} [Decidable c] (h : Still s a) (k : Still s b) : Still s (if c then a else b) := by
  split
  · exact h
  · exact k

theorem Still.ite_fst {α : Type} {s : State} {a b : State × α} {c : Prop} [Decidable c] (h : Still s a.1) (k : Still s b.1) :
    Still s (if c then a else b).1 := by
  split
  · exact h
  · exact k

theorem Still.ite_snd {α : Type} {s : State} {a b : α × State} {c : Prop} [Decidable c] (h : Still s a.2) (k : Still s b.2) :
    Still s (if c then a else b).2 := by
  split
  · exact h
  · exact k

theorem Still.foldl {α : Type} {s x : State} {g : State → α → State} {l : List α} (h : Still s x) (k : ∀ y a, Still y (g y a)) :
    Still s (l.foldl g x) := by
  induction l generalizing x with
  | nil => exact h
  | cons a l ih => exact ih (h.trans (k x a))

/-- A fold that carries something beside the state. -/
theorem Still.foldl_fst {α β : Type} {s : State} {x : State × β} {g : State × β → α → State × β} {l : List α} (h : Still s x.1)
    (k : ∀ y a, Still y.1 (g y a).1) : Still s (l.foldl g x).1 := by
  induction l generalizing x with
  | nil => exact h
  | cons a l ih => exact ih (h.trans (k x a))

/-- A fold that carries something before the state. -/
theorem Still.foldl_snd {α β : Type} {s : State} {x : β × State} {g : β × State → α → β × State} {l : List α} (h : Still s x.2)
    (k : ∀ y a, Still y.2 (g y a).2) : Still s (l.foldl g x).2 := by
  induction l generalizing x with
  | nil => exact h
  | cons a l ih => exact ih (h.trans (k x a))

theorem Still.of_snd {α : Type} {s t : State} {a : α} {p : α × State} (e : p = (a, t)) (h : Still s p.2) : Still s t := by
  subst e; exact h

theorem Still.of_fst {α : Type} {s t : State} {a : α} {p : State × α} (e : p = (t, a)) (h : Still s p.1) : Still s t := by
  subst e; exact h

theorem drawBytes_still (n : Nat) (s : State) : Still s (drawBytes n s).2 := by
  unfold drawBytes
  repeat' (with_reducible first
    | apply Still.refl | fail_if_no_progress refine Still.put ?_ rfl rfl rfl rfl rfl rfl rfl rfl rfl rfl)

theorem raiseWith_still (source : Nat) (inst : Nat) (d0 : Nat) (d1 : Nat) (s : State) : Still s (raiseWith source inst d0 d1 s) := by
  unfold raiseWith
  repeat' (with_reducible first
    | apply Still.refl | fail_if_no_progress refine Still.put ?_ rfl rfl rfl rfl rfl rfl rfl rfl rfl rfl)

theorem raise_still (source : Nat) (inst : Nat) (s : State) : Still s (raise source inst s) := by
  unfold raise
  repeat' (with_reducible first
    | apply Still.refl | apply Still.trans ?_ (raiseWith_still ..)
    | fail_if_no_progress refine Still.put ?_ rfl rfl rfl rfl rfl rfl rfl rfl rfl rfl)

theorem reportPoison_still (l : List Nat) (s : State) : Still s (reportPoison l s) := by
  unfold reportPoison
  repeat' (with_reducible first
    | apply Still.refl | apply Still.foldl | apply Still.foldl_fst | apply Still.foldl_snd
    | apply Still.trans ?_ (raise_still ..) | fail_if_no_progress refine Still.put ?_ rfl rfl rfl rfl rfl rfl rfl rfl rfl rfl | intro _)

theorem hbmRead_still (a : Nat) (n : Nat) (s : State) : Still s (hbmRead a n s).2 := by
  unfold hbmRead
  repeat' (with_reducible first
    | apply Still.refl | apply Still.ite_snd | apply Still.trans ?_ (drawBytes_still ..) | apply Still.ite
    | apply Still.of_snd (by assumption) | apply Still.of_fst (by assumption) | intro _ | split | dsimp only)

theorem sendLink_still (v : Nat) (cls : Nat) (msg : LinkMsg) (s : State) : Still s (sendLink v cls msg s) := by
  unfold sendLink
  repeat' (with_reducible first
    | apply Still.refl | apply Still.ite | fail_if_no_progress refine Still.put ?_ rfl rfl rfl rfl rfl rfl rfl rfl rfl rfl | intro _)

theorem sendVa_still (cls : Nat) (msg : LinkMsg) (s : State) : Still s (sendVa cls msg s) := by
  unfold sendVa
  repeat' (with_reducible first
    | apply Still.refl | apply Still.trans ?_ (sendLink_still ..) | apply Still.ite)

theorem sendTree_still (k : Nat) (cls : Nat) (msg : LinkMsg) (s : State) : Still s (sendTree k cls msg s) := by
  unfold sendTree
  repeat' (with_reducible first
    | apply Still.refl | apply Still.trans ?_ (sendLink_still ..) | apply Still.ite)

theorem sendDown_still (cls : Nat) (msg : LinkMsg) (s : State) : Still s (sendDown cls msg s) := by
  unfold sendDown
  repeat' (with_reducible first
    | apply Still.refl | apply Still.foldl | apply Still.foldl_fst | apply Still.foldl_snd
    | apply Still.trans ?_ (sendTree_still ..) | intro _)

theorem sendUp_still (cls : Nat) (msg : LinkMsg) (s : State) : Still s (sendUp cls msg s) := by
  unfold sendUp
  repeat' (with_reducible first
    | apply Still.refl | apply Still.trans ?_ (sendTree_still ..))

theorem setPart_still (s : State) (p : Nat) (f : Part → Part) : Still s (setPart s p f) := by
  unfold setPart
  repeat' (with_reducible first
    | apply Still.refl | fail_if_no_progress refine Still.put ?_ rfl rfl rfl rfl rfl rfl rfl rfl rfl rfl)

theorem setRing_still (s : State) (f : Nat) (g : Ring → Ring) : Still s (setRing s f g) := by
  unfold setRing
  repeat' (with_reducible first
    | apply Still.refl | fail_if_no_progress refine Still.put ?_ rfl rfl rfl rfl rfl rfl rfl rfl rfl rfl)

theorem setSession_still (s : State) (i : Nat) (f : Session → Session) : Still s (setSession s i f) := by
  unfold setSession
  repeat' (with_reducible first
    | apply Still.refl | fail_if_no_progress refine Still.put ?_ rfl rfl rfl rfl rfl rfl rfl rfl rfl rfl)

theorem setQuota_still (s : State) (p : Nat) (f : Quota → Quota) : Still s (setQuota s p f) := by
  unfold setQuota
  repeat' (with_reducible first
    | apply Still.refl | fail_if_no_progress refine Still.put ?_ rfl rfl rfl rfl rfl rfl rfl rfl rfl rfl)

theorem sendOn_still (s : State) (transport : Nat) (p : Nat) (m : Msg) : Still s (sendOn s transport p m) := by
  unfold sendOn
  repeat' (with_reducible first
    | apply Still.refl | apply Still.trans ?_ (setRing_still ..) | apply Still.trans ?_ (setSession_still ..)
    | apply Still.trans ?_ (setQuota_still ..) | apply Still.ite
    | fail_if_no_progress refine Still.put ?_ rfl rfl rfl rfl rfl rfl rfl rfl rfl rfl | intro _ | dsimp only)

theorem releaseReplies_still (s : State) (p : Nat) (l : List Slot) : Still s (releaseReplies s p l) := by
  induction l generalizing s with
  | nil => exact setPart_still ..
  | cons a l ih =>
    unfold releaseReplies
    split
    · exact (sendOn_still ..).trans (ih _)
    · exact setPart_still ..

theorem reply_still (p : Nat) (r : Req) (opcode : Nat) (st : Status) (clamped : Bool) (data : Bytes) (s : State) : Still s (reply p r opcode st clamped data s) := by
  unfold reply
  repeat' (with_reducible first
    | apply Still.refl | apply Still.trans ?_ (setPart_still ..) | apply Still.trans ?_ (releaseReplies_still ..)
    | apply Still.trans ?_ (busy_still ..) | apply Still.ite
    | fail_if_no_progress refine Still.put ?_ rfl rfl rfl rfl rfl rfl rfl rfl rfl rfl | intro _ | dsimp only)

theorem replyTo_still (r : Req) (opcode : Nat) (st : Status) (clamped : Bool) (data : Bytes) (s : State) : Still s (replyTo r opcode st clamped data s) := by
  unfold replyTo
  repeat' (with_reducible first
    | apply Still.refl | apply Still.trans ?_ (reply_still ..))

theorem limitEvents_still (s : State) (p : Nat) : Still s (limitEvents s p) := by
  unfold limitEvents
  repeat' (with_reducible first
    | apply Still.refl | apply Still.trans ?_ (raise_still ..) | apply Still.trans ?_ (setPart_still ..)
    | apply Still.trans ?_ (setRing_still ..) | apply Still.ite | apply Still.of_snd (by assumption)
    | apply Still.of_fst (by assumption) | fail_if_no_progress refine Still.put ?_ rfl rfl rfl rfl rfl rfl rfl rfl rfl rfl | intro _
    | split | dsimp only)

theorem sendEvent_still (p : Nat) (opcode : Nat) (payload : Bytes) (s : State) : Still s (sendEvent p opcode payload s) := by
  unfold sendEvent
  repeat' (with_reducible first
    | apply Still.refl | apply Still.foldl | apply Still.foldl_fst | apply Still.foldl_snd
    | apply Still.trans ?_ (setPart_still ..) | apply Still.trans ?_ (sendOn_still ..)
    | apply Still.trans ?_ (limitEvents_still ..) | apply Still.ite | apply Still.of_snd (by assumption)
    | apply Still.of_fst (by assumption) | fail_if_no_progress refine Still.put ?_ rfl rfl rfl rfl rfl rfl rfl rfl rfl rfl | intro _
    | split | dsimp only)

theorem sendEventAll_still (opcode : Nat) (payload : Bytes) (s : State) : Still s (sendEventAll opcode payload s) := by
  unfold sendEventAll
  repeat' (with_reducible first
    | apply Still.refl | apply Still.foldl | apply Still.foldl_fst | apply Still.foldl_snd
    | apply Still.trans ?_ (sendEvent_still ..) | intro _)

theorem modeEvent_still (newMode : Mode) (oldMode : Mode) (s : State) : Still s (modeEvent newMode oldMode s) := by
  unfold modeEvent
  repeat' (with_reducible first
    | apply Still.refl | apply Still.foldl | apply Still.foldl_fst | apply Still.foldl_snd
    | apply Still.trans ?_ (setRing_still ..) | apply Still.trans ?_ (sendEventAll_still ..) | intro _ | dsimp only)

theorem modChan_still (s : State) (c : Nat) (f : Chan → Chan) : Still s (modChan s c f) := by
  unfold modChan
  repeat' (with_reducible first
    | apply Still.refl | fail_if_no_progress refine Still.put ?_ rfl rfl rfl rfl rfl rfl rfl rfl rfl rfl)

theorem modCtx_still (s : State) (x : Nat) (f : Ctx → Ctx) : Still s (modCtx s x f) := by
  unfold modCtx
  repeat' (with_reducible first
    | apply Still.refl | fail_if_no_progress refine Still.put ?_ rfl rfl rfl rfl rfl rfl rfl rfl rfl rfl)

theorem modPic_still (s : State) (x : Nat) (frame : Nat) (f : Ctx → Pic → Ctx × Pic) : Still s (modPic s x frame f) := by
  unfold modPic
  repeat' (with_reducible first
    | apply Still.refl | apply Still.trans ?_ (modCtx_still ..) | apply Still.ite | apply Still.of_snd (by assumption)
    | apply Still.of_fst (by assumption) | fail_if_no_progress refine Still.put ?_ rfl rfl rfl rfl rfl rfl rfl rfl rfl rfl | intro _
    | split | dsimp only)

theorem noteCommit_still (late : Bool) (change : ShadowChange) (s : State) : Still s (noteCommit late change s) := by
  unfold noteCommit
  repeat' (with_reducible first
    | apply Still.refl | apply Still.trans ?_ (modCtx_still ..) | apply Still.ite | apply Still.of_snd (by assumption)
    | apply Still.of_fst (by assumption) | fail_if_no_progress refine Still.put ?_ rfl rfl rfl rfl rfl rfl rfl rfl rfl rfl | intro _
    | split)

theorem commitSei_still (x : Nat) (frame : Nat) (kind : Nat) (data : Bytes) (item : Option Nat) (s : State) : Still s (commitSei x frame kind data item s) := by
  unfold commitSei
  repeat' (with_reducible first
    | apply Still.refl | apply Still.trans ?_ (modChan_still ..) | apply Still.trans ?_ (modCtx_still ..)
    | apply Still.trans ?_ (modPic_still ..) | apply Still.ite | apply Still.of_snd (by assumption)
    | apply Still.of_fst (by assumption) | fail_if_no_progress refine Still.put ?_ rfl rfl rfl rfl rfl rfl rfl rfl rfl rfl | intro _
    | split | dsimp only)

theorem commitAt_still (c : Nat) (frame : Nat) (late : Bool) (change : ShadowChange) (item : Option Nat) (s : State) : Still s (commitAt c frame late change item s) := by
  unfold commitAt
  repeat' (with_reducible first
    | apply Still.refl | apply Still.trans ?_ (modChan_still ..) | apply Still.trans ?_ (noteCommit_still ..)
    | apply Still.trans ?_ (commitSei_still ..) | apply Still.ite | apply Still.of_snd (by assumption)
    | apply Still.of_fst (by assumption) | fail_if_no_progress refine Still.put ?_ rfl rfl rfl rfl rfl rfl rfl rfl rfl rfl | intro _
    | split)

theorem commitBoth_still (c : Nat) (frame : Nat) (late : Bool) (change : ShadowChange) (item : Option Nat) (s : State) : Still s (commitBoth c frame late change item s) := by
  unfold commitBoth
  repeat' (with_reducible first
    | apply Still.refl | apply Still.trans ?_ (sendVa_still ..) | apply Still.trans ?_ (commitAt_still ..)
    | apply Still.ite | fail_if_no_progress refine Still.put ?_ rfl rfl rfl rfl rfl rfl rfl rfl rfl rfl | dsimp only)

theorem forward_still (f : Fwd) (named : Nat) (s : State) : Still s (forward f named s) := by
  unfold forward
  repeat' (with_reducible first
    | apply Still.refl | apply Still.trans ?_ (sendVa_still ..)
    | fail_if_no_progress refine Still.put ?_ rfl rfl rfl rfl rfl rfl rfl rfl rfl rfl)

theorem setPvd_still (s : State) (f : Pvd → Pvd) : Still s (setPvd s f) := by
  unfold setPvd
  repeat' (with_reducible first
    | apply Still.refl | fail_if_no_progress refine Still.put ?_ rfl rfl rfl rfl rfl rfl rfl rfl rfl rfl)

theorem setItem_still (s : State) (order : Nat) (f : Item → Item) : Still s (setItem s order f) := by
  unfold setItem
  repeat' (with_reducible first
    | apply Still.refl | apply Still.trans ?_ (setPvd_still ..) | apply Still.ite
    | fail_if_no_progress refine Still.put ?_ rfl rfl rfl rfl rfl rfl rfl rfl rfl rfl | intro _)

theorem notePeaks_still (s : State) : Still s (notePeaks s) := by
  unfold notePeaks
  repeat' (with_reducible first
    | apply Still.refl | apply Still.foldl | apply Still.foldl_fst | apply Still.foldl_snd
    | apply Still.trans ?_ (setPvd_still ..) | apply Still.ite
    | fail_if_no_progress refine Still.put ?_ rfl rfl rfl rfl rfl rfl rfl rfl rfl rfl | intro _)

theorem promote_still (s : State) : Still s (promote s) := by
  unfold promote
  repeat' (with_reducible first
    | apply Still.refl | apply Still.foldl | apply Still.foldl_fst | apply Still.foldl_snd
    | apply Still.trans ?_ (setItem_still ..) | apply Still.trans ?_ (notePeaks_still ..) | apply Still.ite
    | apply Still.of_snd (by assumption) | apply Still.of_fst (by assumption)
    | fail_if_no_progress refine Still.put ?_ rfl rfl rfl rfl rfl rfl rfl rfl rfl rfl | intro _ | split)

theorem counterFault_still (k : Nat) (s : State) : Still s (counterFault k s) := by
  unfold counterFault
  repeat' (with_reducible first
    | apply Still.refl | apply Still.trans ?_ (raise_still ..) | apply Still.trans ?_ (setPvd_still ..)
    | fail_if_no_progress refine Still.put ?_ rfl rfl rfl rfl rfl rfl rfl rfl rfl rfl | intro _)

theorem decrement_still (s : State) (k : Nat) : Still s (decrement s k) := by
  unfold decrement
  repeat' (with_reducible first
    | apply Still.refl | apply Still.trans ?_ (setPvd_still ..) | apply Still.trans ?_ (counterFault_still ..)
    | apply Still.ite | fail_if_no_progress refine Still.put ?_ rfl rfl rfl rfl rfl rfl rfl rfl rfl rfl | intro _ | dsimp only)

theorem retireItem_still (i : Item) (s : State) : Still s (retireItem i s) := by
  unfold retireItem
  repeat' (with_reducible first
    | apply Still.refl | apply Still.foldl | apply Still.foldl_fst | apply Still.foldl_snd
    | apply Still.trans ?_ (setPvd_still ..) | apply Still.trans ?_ (decrement_still ..)
    | fail_if_no_progress refine Still.put ?_ rfl rfl rfl rfl rfl rfl rfl rfl rfl rfl | intro _ | dsimp only)

theorem markCommitted_still (order : Nat) (frame : Nat) (s : State) : Still s (markCommitted order frame s) := by
  unfold markCommitted
  repeat' (with_reducible first
    | apply Still.refl | apply Still.trans ?_ (setPvd_still ..) | apply Still.trans ?_ (setItem_still ..)
    | fail_if_no_progress refine Still.put ?_ rfl rfl rfl rfl rfl rfl rfl rfl rfl rfl | intro _)

theorem commitItem_still (order : Nat) (h : HostItem) (ch : Chan) (s : State) : Still s (commitItem order h ch s).1 := by
  unfold commitItem
  repeat' (with_reducible first
    | apply Still.refl | apply Still.ite_fst | apply Still.trans ?_ (setQuota_still ..)
    | apply Still.trans ?_ (commitBoth_still ..) | apply Still.trans ?_ (markCommitted_still ..) | apply Still.ite
    | apply Still.of_snd (by assumption) | apply Still.of_fst (by assumption)
    | fail_if_no_progress refine Still.put ?_ rfl rfl rfl rfl rfl rfl rfl rfl rfl rfl | intro _ | split | dsimp only)

theorem slotData_still (g : GLayer) (slot : Nat) (s : State) : Still s (slotData g slot s).2 := by
  unfold slotData
  repeat' (with_reducible first
    | apply Still.refl | apply Still.trans ?_ (hbmRead_still ..))

theorem startCopy_still (c : Nat) (layer : Nat) (slot : Nat) (copy : SlotCopy) (s : State) : Still s (startCopy c layer slot copy s) := by
  unfold startCopy
  repeat' (with_reducible first
    | apply Still.refl | apply Still.trans ?_ (slotData_still ..) | apply Still.trans ?_ (reportPoison_still ..)
    | apply Still.trans ?_ (sendVa_still ..) | apply Still.of_snd (by assumption) | apply Still.of_fst (by assumption)
    | fail_if_no_progress refine Still.put ?_ rfl rfl rfl rfl rfl rfl rfl rfl rfl rfl | intro _ | split | dsimp only)

theorem hostEffect_still (order : Nat) (h : HostItem) (s : State) : Still s (hostEffect order h s).1 := by
  unfold hostEffect
  repeat' (with_reducible first
    | apply Still.refl | apply Still.ite_fst | apply Still.trans ?_ (commitItem_still ..)
    | apply Still.trans ?_ (forward_still ..) | apply Still.trans ?_ (setItem_still ..)
    | apply Still.trans ?_ (startCopy_still ..) | apply Still.ite | apply Still.of_snd (by assumption)
    | apply Still.of_fst (by assumption) | fail_if_no_progress refine Still.put ?_ rfl rfl rfl rfl rfl rfl rfl rfl rfl rfl | intro _
    | split | dsimp only)

theorem answerItem_still (h : HostItem) (st : Status) (data : Bytes) (s : State) : Still s (answerItem h st data s) := by
  unfold answerItem
  repeat' (with_reducible first
    | apply Still.refl | apply Still.trans ?_ (replyTo_still ..))

theorem answered_still (i : Item) (h : HostItem) (st : Status) (data : Bytes) (s : State) : Still s (answered i h st data s) := by
  unfold answered
  repeat' (with_reducible first
    | apply Still.refl | apply Still.trans ?_ (setItem_still ..) | apply Still.trans ?_ (retireItem_still ..)
    | apply Still.trans ?_ (answerItem_still ..) | apply Still.ite
    | fail_if_no_progress refine Still.put ?_ rfl rfl rfl rfl rfl rfl rfl rfl rfl rfl | intro _ | dsimp only)

theorem releaseFlow_still (flow n : Nat) (s : State) : Still s (releaseFlow flow n s) := by
  induction n generalizing s with
  | zero => exact Still.refl _
  | succ n ih =>
    unfold releaseFlow
    split
    · exact Still.refl _
    · rename_i i _
      split
      · exact (retireItem_still i s).trans (ih _)
      · rename_i h _
        split
        · exact (answered_still ..).trans (ih _)
        · have k := hostEffect_still i.order h s
          split
          · exact Still.of_fst (by assumption) k
          · exact ((Still.of_fst (by assumption) k).trans (answered_still ..)).trans (ih _)
          · exact ((Still.of_fst (by assumption) k).trans (answered_still ..)).trans (ih _)

theorem release_still (flow : Nat) (s : State) : Still s (release flow s) := by
  unfold release
  repeat' (with_reducible first
    | apply Still.refl | apply Still.trans ?_ (promote_still ..) | apply Still.trans ?_ (releaseFlow_still ..))

theorem refuseItem_still (order : Nat) (st : Status) (s : State) : Still s (refuseItem order st s) := by
  unfold refuseItem
  repeat' (with_reducible first
    | apply Still.refl | apply Still.trans ?_ (answered_still ..) | apply Still.trans ?_ (release_still ..)
    | apply Still.ite | apply Still.of_snd (by assumption) | apply Still.of_fst (by assumption)
    | fail_if_no_progress refine Still.put ?_ rfl rfl rfl rfl rfl rfl rfl rfl rfl rfl | split)

theorem missCaptions_still (i : Item) (s : State) : Still s (missCaptions i s) := by
  unfold missCaptions
  repeat' (with_reducible first
    | apply Still.refl | apply Still.trans ?_ (modChan_still ..) | apply Still.trans ?_ (modCtx_still ..)
    | apply Still.ite | apply Still.of_snd (by assumption) | apply Still.of_fst (by assumption)
    | fail_if_no_progress refine Still.put ?_ rfl rfl rfl rfl rfl rfl rfl rfl rfl rfl | intro _ | split | dsimp only)

theorem emptyItem_still (i : Item) (s : State) : Still s (emptyItem i s) := by
  unfold emptyItem
  repeat' (with_reducible first
    | apply Still.refl | apply Still.trans ?_ (raise_still ..) | apply Still.trans ?_ (setItem_still ..)
    | apply Still.trans ?_ (release_still ..) | apply Still.trans ?_ (missCaptions_still ..)
    | fail_if_no_progress refine Still.put ?_ rfl rfl rfl rfl rfl rfl rfl rfl rfl rfl | intro _
    | dsimp only)

theorem retryItem_still (i : Item) (s : State) : Still s (retryItem i s) := by
  unfold retryItem
  repeat' (with_reducible first
    | apply Still.refl | apply Still.trans ?_ (setPvd_still ..) | apply Still.trans ?_ (setItem_still ..)
    | apply Still.trans ?_ (emptyItem_still ..) | apply Still.ite
    | fail_if_no_progress refine Still.put ?_ rfl rfl rfl rfl rfl rfl rfl rfl rfl rfl | intro _)

theorem setCore_still (s : State) (k : Nat) (f : Core → Core) : Still s (setCore s k f) := by
  unfold setCore
  repeat' (with_reducible first
    | apply Still.refl | apply Still.trans ?_ (setPvd_still ..)
    | fail_if_no_progress refine Still.put ?_ rfl rfl rfl rfl rfl rfl rfl rfl rfl rfl | intro _)

theorem noteBusy_still (k : Nat) (s : State) : Still s (noteBusy k s) := by
  unfold noteBusy
  repeat' (with_reducible first
    | apply Still.refl | apply Still.trans ?_ (setPvd_still ..) | apply Still.trans ?_ (setCore_still ..)
    | apply Still.ite | apply Still.of_snd (by assumption) | apply Still.of_fst (by assumption)
    | fail_if_no_progress refine Still.put ?_ rfl rfl rfl rfl rfl rfl rfl rfl rfl rfl | intro _ | split | dsimp only)

theorem freeCore_still (k : Nat) (s : State) : Still s (freeCore k s) := by
  unfold freeCore
  repeat' (with_reducible first
    | apply Still.refl | apply Still.trans ?_ (setCore_still ..) | apply Still.trans ?_ (noteBusy_still ..)
    | apply Still.trans ?_ (busy_still ..) | fail_if_no_progress refine Still.put ?_ rfl rfl rfl rfl rfl rfl rfl rfl rfl rfl | intro _)

theorem dropCoreItem_still (k : Nat) (s : State) : Still s (dropCoreItem k s) := by
  unfold dropCoreItem
  repeat' (with_reducible first
    | apply Still.refl | apply Still.trans ?_ (retryItem_still ..) | apply Still.trans ?_ (freeCore_still ..)
    | apply Still.of_snd (by assumption) | apply Still.of_fst (by assumption)
    | fail_if_no_progress refine Still.put ?_ rfl rfl rfl rfl rfl rfl rfl rfl rfl rfl | split)

theorem stopLegsWhere_still (p : Nat → Leg → Bool) (s : State) : Still s (stopLegsWhere p s) := by
  unfold stopLegsWhere
  repeat' (with_reducible first
    | apply Still.refl | apply Still.ite | fail_if_no_progress refine Still.put ?_ rfl rfl rfl rfl rfl rfl rfl rfl rfl rfl | intro _)

theorem stopContext_still (x : Nat) (s : State) : Still s (stopContext x s) := by
  unfold stopContext
  repeat' (with_reducible first
    | apply Still.refl | apply Still.trans ?_ (stopLegsWhere_still ..)
    | fail_if_no_progress refine Still.put ?_ rfl rfl rfl rfl rfl rfl rfl rfl rfl rfl | intro _ | dsimp only)

theorem disableChannel_still (c : Nat) (s : State) : Still s (disableChannel c s) := by
  unfold disableChannel
  repeat' (with_reducible first
    | apply Still.refl | apply Still.foldl | apply Still.foldl_fst | apply Still.foldl_snd
    | apply Still.trans ?_ (modChan_still ..) | apply Still.trans ?_ (stopLegsWhere_still ..)
    | apply Still.trans ?_ (stopContext_still ..) | apply Still.ite | apply Still.of_snd (by assumption)
    | apply Still.of_fst (by assumption) | fail_if_no_progress refine Still.put ?_ rfl rfl rfl rfl rfl rfl rfl rfl rfl rfl | intro _
    | split | dsimp only)

theorem countFloor_still (x : Nat) (key : Nat) (p : Pic) (s : State) : Still s (countFloor x key p s) := by
  unfold countFloor
  repeat' (with_reducible first
    | apply Still.refl | apply Still.trans ?_ (modChan_still ..) | apply Still.trans ?_ (modCtx_still ..)
    | apply Still.ite | apply Still.of_snd (by assumption) | apply Still.of_fst (by assumption)
    | fail_if_no_progress refine Still.put ?_ rfl rfl rfl rfl rfl rfl rfl rfl rfl rfl | intro _ | split | dsimp only)

theorem replaceSlice_still (x : Nat) (frame : Nat) (key : Nat) (s : State) : Still s (replaceSlice x frame key s) := by
  unfold replaceSlice
  repeat' (with_reducible first
    | apply Still.refl | apply Still.trans ?_ (modPic_still ..) | apply Still.trans ?_ (countFloor_still ..)
    | apply Still.ite | apply Still.of_snd (by assumption) | apply Still.of_fst (by assumption)
    | fail_if_no_progress refine Still.put ?_ rfl rfl rfl rfl rfl rfl rfl rfl rfl rfl | intro _ | split | dsimp only)

theorem floorInFlight_still (e : Nat) (s : State) : Still s (floorInFlight e s) := by
  unfold floorInFlight
  repeat' (with_reducible first
    | apply Still.refl | apply Still.foldl | apply Still.foldl_fst | apply Still.foldl_snd
    | apply Still.trans ?_ (modPic_still ..) | apply Still.trans ?_ (replaceSlice_still ..)
    | apply Still.of_snd (by assumption) | apply Still.of_fst (by assumption)
    | fail_if_no_progress refine Still.put ?_ rfl rfl rfl rfl rfl rfl rfl rfl rfl rfl | intro _ | split | dsimp only)

theorem floorRetry_still (e : Nat) (s : State) : Still s (floorRetry e s) := by
  unfold floorRetry
  repeat' (with_reducible first
    | apply Still.refl | apply Still.foldl | apply Still.foldl_fst | apply Still.foldl_snd
    | apply Still.trans ?_ (modPic_still ..) | apply Still.trans ?_ (replaceSlice_still ..)
    | apply Still.of_snd (by assumption) | apply Still.of_fst (by assumption)
    | fail_if_no_progress refine Still.put ?_ rfl rfl rfl rfl rfl rfl rfl rfl rfl rfl | intro _ | split | dsimp only)

theorem setEngine_still (s : State) (e : Nat) (f : Engine → Engine) : Still s (setEngine s e f) := by
  unfold setEngine
  repeat' (with_reducible first
    | apply Still.refl | fail_if_no_progress refine Still.put ?_ rfl rfl rfl rfl rfl rfl rfl rfl rfl rfl)

theorem loseEngineOf_still (e : Nat) (c : Nat) (s : State) : Still s (loseEngineOf e c s) := by
  unfold loseEngineOf
  repeat' (with_reducible first
    | apply Still.refl | apply Still.foldl | apply Still.foldl_fst | apply Still.foldl_snd
    | apply Still.trans ?_ (modChan_still ..) | apply Still.trans ?_ (stopContext_still ..)
    | apply Still.trans ?_ (disableChannel_still ..) | apply Still.ite | apply Still.of_snd (by assumption)
    | apply Still.of_fst (by assumption) | fail_if_no_progress refine Still.put ?_ rfl rfl rfl rfl rfl rfl rfl rfl rfl rfl | intro _
    | split | dsimp only)

theorem takeSpare_still (s : State) : Still s (takeSpare s) := by
  unfold takeSpare
  repeat' (with_reducible first
    | apply Still.refl | fail_if_no_progress refine Still.put ?_ rfl rfl rfl rfl rfl rfl rfl rfl rfl rfl)

theorem giveDuty_still (sp : Nat) (d : Duty) (s : State) : Still s (giveDuty sp d s) := by
  unfold giveDuty
  repeat' (with_reducible first
    | apply Still.refl | apply Still.foldl | apply Still.foldl_fst | apply Still.foldl_snd
    | apply Still.trans ?_ (setEngine_still ..) | fail_if_no_progress refine Still.put ?_ rfl rfl rfl rfl rfl rfl rfl rfl rfl rfl
    | intro _ | dsimp only)

theorem readdress_still (e : Nat) (sp : Nat) (s : State) : Still s (readdress e sp s) := by
  unfold readdress
  repeat' (with_reducible first
    | apply Still.refl | apply Still.ite | fail_if_no_progress refine Still.put ?_ rfl rfl rfl rfl rfl rfl rfl rfl rfl rfl | intro _)

theorem movePort_still (e : Nat) (sp : Nat) (s : State) : Still s (movePort e sp s) := by
  unfold movePort
  repeat' (with_reducible first
    | apply Still.refl | fail_if_no_progress refine Still.put ?_ rfl rfl rfl rfl rfl rfl rfl rfl rfl rfl | intro _ | dsimp only)

theorem takeOver_still (sp : Nat) (c : Nat) (n : Nat) (s : State) : Still s (takeOver sp c n s) := by
  unfold takeOver
  repeat' (with_reducible first
    | apply Still.refl | apply Still.trans ?_ (modChan_still ..) | apply Still.trans ?_ (setEngine_still ..)
    | apply Still.trans ?_ (movePort_still ..) | apply Still.ite
    | fail_if_no_progress refine Still.put ?_ rfl rfl rfl rfl rfl rfl rfl rfl rfl rfl | intro _ | dsimp only)

theorem assignSpare_still (olds : List Nat) (chans : List Nat) (s : State) : Still s (assignSpare olds chans s).1 := by
  unfold assignSpare
  repeat' (with_reducible first
    | apply Still.refl | apply Still.ite_fst | apply Still.foldl | apply Still.foldl_fst | apply Still.foldl_snd
    | apply Still.trans ?_ (modChan_still ..) | apply Still.trans ?_ (loseEngineOf_still ..)
    | apply Still.trans ?_ (takeSpare_still ..) | apply Still.trans ?_ (giveDuty_still ..)
    | apply Still.trans ?_ (readdress_still ..) | apply Still.trans ?_ (takeOver_still ..) | apply Still.ite
    | apply Still.of_snd (by assumption) | apply Still.of_fst (by assumption)
    | fail_if_no_progress refine Still.put ?_ rfl rfl rfl rfl rfl rfl rfl rfl rfl rfl | intro _ | split | dsimp only)

theorem retireEngine_still (e : Nat) (s : State) : Still s (retireEngine e s).1 := by
  unfold retireEngine
  repeat' (with_reducible first
    | apply Still.refl | apply Still.ite_fst | apply Still.trans ?_ (assignSpare_still ..)
    | apply Still.trans ?_ (floorInFlight_still ..) | apply Still.trans ?_ (setEngine_still ..)
    | apply Still.trans ?_ (takeSpare_still ..) | apply Still.ite | apply Still.of_snd (by assumption)
    | apply Still.of_fst (by assumption) | fail_if_no_progress refine Still.put ?_ rfl rfl rfl rfl rfl rfl rfl rfl rfl rfl | intro _
    | split | dsimp only)

theorem retireAnalyser_still (a : Nat) (s : State) : Still s (retireAnalyser a s) := by
  unfold retireAnalyser
  repeat' (with_reducible first
    | apply Still.refl | apply Still.ite | fail_if_no_progress refine Still.put ?_ rfl rfl rfl rfl rfl rfl rfl rfl rfl rfl | intro _)

theorem retireDecoder_still (e : Nat) (s : State) : Still s (retireDecoder e s) := by
  unfold retireDecoder
  repeat' (with_reducible first
    | apply Still.refl | apply Still.ite | fail_if_no_progress refine Still.put ?_ rfl rfl rfl rfl rfl rfl rfl rfl rfl rfl | intro _)

theorem disableDecode_still (d : Nat) (s : State) : Still s (disableDecode d s) := by
  unfold disableDecode
  repeat' (with_reducible first
    | apply Still.refl | apply Still.ite | fail_if_no_progress refine Still.put ?_ rfl rfl rfl rfl rfl rfl rfl rfl rfl rfl | intro _)

theorem fenceCompositor_still (c : Nat) (s : State) : Still s (fenceCompositor c s) := by
  unfold fenceCompositor
  repeat' (with_reducible first
    | apply Still.refl | apply Still.trans ?_ (fenced_still ..)
    | fail_if_no_progress refine Still.put ?_ rfl rfl rfl rfl rfl rfl rfl rfl rfl rfl | intro _)

theorem fenceAesIn_still (i : Nat) (s : State) : Still s (fenceAesIn i s) := by
  unfold fenceAesIn
  repeat' (with_reducible first
    | apply Still.refl | apply Still.trans ?_ (fenced_still ..)
    | fail_if_no_progress refine Still.put ?_ rfl rfl rfl rfl rfl rfl rfl rfl rfl rfl | intro _)

theorem fenceAesOut_still (i : Nat) (s : State) : Still s (fenceAesOut i s) := by
  unfold fenceAesOut
  repeat' (with_reducible first
    | apply Still.refl | fail_if_no_progress refine Still.put ?_ rfl rfl rfl rfl rfl rfl rfl rfl rfl rfl | intro _)

theorem fenceFlows_still (p : Nat → Leg → Bool) (s : State) : Still s (fenceFlows p s) := by
  unfold fenceFlows
  repeat' (with_reducible first
    | apply Still.refl | apply Still.foldl | apply Still.foldl_fst | apply Still.foldl_snd
    | apply Still.trans ?_ (stopLegsWhere_still ..) | apply Still.trans ?_ (disableChannel_still ..) | intro _
    | dsimp only)

theorem fenceCore_still (k : Nat) (s : State) : Still s (fenceCore k s) := by
  unfold fenceCore
  repeat' (with_reducible first
    | apply Still.refl | apply Still.trans ?_ (dropCoreItem_still ..) | apply Still.ite
    | apply Still.of_snd (by assumption) | apply Still.of_fst (by assumption)
    | fail_if_no_progress refine Still.put ?_ rfl rfl rfl rfl rfl rfl rfl rfl rfl rfl | intro _ | split | dsimp only)

theorem setStack_still (s : State) (k : Nat) (f : Stack → Stack) : Still s (setStack s k f) := by
  unfold setStack
  repeat' (with_reducible first
    | apply Still.refl | fail_if_no_progress refine Still.put ?_ rfl rfl rfl rfl rfl rfl rfl rfl rfl rfl)

theorem beginExit_still (k : Nat) (s : State) : Still s (beginExit k s) := by
  unfold beginExit
  repeat' (with_reducible first
    | apply Still.refl | apply Still.trans ?_ (setStack_still ..) | apply Still.ite
    | fail_if_no_progress refine Still.put ?_ rfl rfl rfl rfl rfl rfl rfl rfl rfl rfl | intro _)

theorem retirePc_still (p : Nat) (copy : Bool) (s : State) : Still s (retirePc p copy s) := by
  unfold retirePc
  repeat' (with_reducible first
    | apply Still.refl | apply Still.trans ?_ (raise_still ..) | apply Still.ite
    | fail_if_no_progress refine Still.put ?_ rfl rfl rfl rfl rfl rfl rfl rfl rfl rfl | intro _)

theorem bringUp_still (s : State) : Still s (bringUp s) := by
  unfold bringUp
  repeat' (with_reducible first
    | apply Still.refl | apply Still.ite | fail_if_no_progress refine Still.put ?_ rfl rfl rfl rfl rfl rfl rfl rfl rfl rfl | intro _)

theorem ethDown_still (p : Nat) (s : State) : Still s (ethDown p s) := by
  unfold ethDown
  repeat' (with_reducible first
    | apply Still.refl | apply Still.trans ?_ (raise_still ..) | apply Still.ite | apply Still.of_snd (by assumption)
    | apply Still.of_fst (by assumption) | fail_if_no_progress refine Still.put ?_ rfl rfl rfl rfl rfl rfl rfl rfl rfl rfl | intro _
    | split | dsimp only)

theorem fenceEth_still (p : Nat) (s : State) : Still s (fenceEth p s) := by
  unfold fenceEth
  repeat' (with_reducible first
    | apply Still.refl | apply Still.trans ?_ (fenced_still ..) | apply Still.trans ?_ (ethDown_still ..)
    | fail_if_no_progress refine Still.put ?_ rfl rfl rfl rfl rfl rfl rfl rfl rfl rfl | intro _ | dsimp only)

theorem announceTo_still (k : Nat) (tree : Option Nat) (s : State) : Still s (announceTo k tree s) := by
  unfold announceTo
  repeat' (with_reducible first
    | apply Still.refl | apply Still.trans ?_ (sendTree_still ..) | apply Still.of_snd (by assumption)
    | apply Still.of_fst (by assumption) | fail_if_no_progress refine Still.put ?_ rfl rfl rfl rfl rfl rfl rfl rfl rfl rfl | split)

theorem announceDown_still (tree : Option Nat) (s : State) : Still s (announceDown tree s) := by
  unfold announceDown
  repeat' (with_reducible first
    | apply Still.refl | apply Still.foldl | apply Still.foldl_fst | apply Still.foldl_snd
    | apply Still.trans ?_ (announceTo_still ..) | intro _)

theorem sendMap_still (s : State) : Still s (sendMap s) := by
  unfold sendMap
  repeat' (with_reducible first
    | apply Still.refl | apply Still.trans ?_ (sendUp_still ..))

theorem judgeMaps_still (s : State) : Still s (judgeMaps s) := by
  unfold judgeMaps
  repeat' (with_reducible first
    | apply Still.refl | apply Still.trans ?_ (raise_still ..) | apply Still.trans ?_ (announceDown_still ..)
    | apply Still.trans ?_ (sendMap_still ..) | apply Still.ite
    | fail_if_no_progress refine Still.put ?_ rfl rfl rfl rfl rfl rfl rfl rfl rfl rfl | dsimp only)

theorem nextTreeSeq_still (s : State) : Still s (nextTreeSeq s).2 := by
  unfold nextTreeSeq
  repeat' (with_reducible first
    | apply Still.refl | fail_if_no_progress refine Still.put ?_ rfl rfl rfl rfl rfl rfl rfl rfl rfl rfl)

theorem setBarrier_still (s : State) (k : Nat) (f : Barrier → Barrier) : Still s (setBarrier s k f) := by
  unfold setBarrier
  repeat' (with_reducible first
    | apply Still.refl | fail_if_no_progress refine Still.put ?_ rfl rfl rfl rfl rfl rfl rfl rfl rfl rfl)

theorem releaseBarrier_still (k : Nat) (isPartial : Bool) (s : State) : Still s (releaseBarrier k isPartial s) := by
  unfold releaseBarrier
  repeat' (with_reducible first
    | apply Still.refl | apply Still.trans ?_ (replyTo_still ..) | apply Still.ite | apply Still.of_snd (by assumption)
    | apply Still.of_fst (by assumption) | fail_if_no_progress refine Still.put ?_ rfl rfl rfl rfl rfl rfl rfl rfl rfl rfl | split
    | dsimp only)

theorem judgeBarrier_still (k : Nat) (s : State) : Still s (judgeBarrier k s) := by
  unfold judgeBarrier
  repeat' (with_reducible first
    | apply Still.refl | apply Still.trans ?_ (nextTreeSeq_still ..) | apply Still.trans ?_ (sendDown_still ..)
    | apply Still.trans ?_ (sendUp_still ..) | apply Still.trans ?_ (release_still ..)
    | apply Still.trans ?_ (setBarrier_still ..) | apply Still.trans ?_ (releaseBarrier_still ..) | apply Still.ite
    | apply Still.of_snd (by assumption) | apply Still.of_fst (by assumption)
    | fail_if_no_progress refine Still.put ?_ rfl rfl rfl rfl rfl rfl rfl rfl rfl rfl | intro _ | split | dsimp only)

theorem rejudgeBarriers_still (s : State) : Still s (rejudgeBarriers s) := by
  unfold rejudgeBarriers
  repeat' (with_reducible first
    | apply Still.refl | apply Still.foldl | apply Still.foldl_fst | apply Still.foldl_snd
    | apply Still.trans ?_ (judgeBarrier_still ..) | intro _)

theorem failTreeRequests_still (s : State) : Still s (failTreeRequests s) := by
  unfold failTreeRequests
  repeat' (with_reducible first
    | apply Still.refl | apply Still.foldl | apply Still.foldl_fst | apply Still.foldl_snd
    | apply Still.trans ?_ (replyTo_still ..) | fail_if_no_progress refine Still.put ?_ rfl rfl rfl rfl rfl rfl rfl rfl rfl rfl
    | intro _ | dsimp only)

theorem leaveTree_still (s : State) : Still s (leaveTree s) := by
  unfold leaveTree
  repeat' (with_reducible first
    | apply Still.refl | apply Still.trans ?_ (sendDown_still ..) | apply Still.trans ?_ (failTreeRequests_still ..)
    | fail_if_no_progress refine Still.put ?_ rfl rfl rfl rfl rfl rfl rfl rfl rfl rfl)

theorem treeLink_still (k : Nat) (up : Bool) (s : State) : Still s (treeLink k up s) := by
  unfold treeLink
  repeat' (with_reducible first
    | apply Still.refl | apply Still.trans ?_ (announceTo_still ..) | apply Still.trans ?_ (sendMap_still ..)
    | apply Still.trans ?_ (judgeMaps_still ..) | apply Still.trans ?_ (rejudgeBarriers_still ..)
    | apply Still.trans ?_ (leaveTree_still ..) | apply Still.ite
    | fail_if_no_progress refine Still.put ?_ rfl rfl rfl rfl rfl rfl rfl rfl rfl rfl | dsimp only)

theorem failForward_still (s : State) (f : Fwd) : Still s (failForward s f) := by
  unfold failForward
  repeat' (with_reducible first
    | apply Still.refl | apply Still.trans ?_ (replyTo_still ..) | apply Still.trans ?_ (refuseItem_still ..)
    | apply Still.of_snd (by assumption) | apply Still.of_fst (by assumption)
    | fail_if_no_progress refine Still.put ?_ rfl rfl rfl rfl rfl rfl rfl rfl rfl rfl | split)

theorem failForwards_still (s : State) : Still s (failForwards s) := by
  unfold failForwards
  repeat' (with_reducible first
    | apply Still.refl | assumption | apply Still.foldl | apply Still.foldl_fst | apply Still.foldl_snd
    | apply Still.trans ?_ (failForward_still ..) | apply Still.ite | apply Still.of_snd (by assumption)
    | apply Still.of_fst (by assumption) | fail_if_no_progress refine Still.put ?_ rfl rfl rfl rfl rfl rfl rfl rfl rfl rfl | intro _
    | split | dsimp only)

theorem failSwap_still (s : State) : Still s (failSwap s) := by
  unfold failSwap
  repeat' (with_reducible first
    | apply Still.refl | apply Still.trans ?_ (replyTo_still ..) | apply Still.of_snd (by assumption)
    | apply Still.of_fst (by assumption) | fail_if_no_progress refine Still.put ?_ rfl rfl rfl rfl rfl rfl rfl rfl rfl rfl | split)

theorem dropVa_still (s : State) : Still s (dropVa s) := by
  unfold dropVa
  repeat' (with_reducible first
    | apply Still.refl | apply Still.trans ?_ (raise_still ..) | apply Still.trans ?_ (failForwards_still ..)
    | apply Still.trans ?_ (failSwap_still ..) | apply Still.ite
    | fail_if_no_progress refine Still.put ?_ rfl rfl rfl rfl rfl rfl rfl rfl rfl rfl | dsimp only)

theorem valsinLost_still (v : Nat) (s : State) : Still s (valsinLost v s) := by
  unfold valsinLost
  repeat' (with_reducible first
    | apply Still.refl | apply Still.trans ?_ (treeLink_still ..) | apply Still.trans ?_ (dropVa_still ..)
    | apply Still.ite)

theorem fenceValsin_still (v : Nat) (s : State) : Still s (fenceValsin v s) := by
  unfold fenceValsin
  repeat' (with_reducible first
    | apply Still.refl | apply Still.trans ?_ (valsinLost_still ..)
    | fail_if_no_progress refine Still.put ?_ rfl rfl rfl rfl rfl rfl rfl rfl rfl rfl | intro _)

theorem startTraining_still (v : Nat) (s : State) : Still s (startTraining v s) := by
  unfold startTraining
  repeat' (with_reducible first
    | apply Still.refl | apply Still.trans ?_ (raise_still ..) | apply Still.trans ?_ (valsinLost_still ..)
    | apply Still.ite | apply Still.of_snd (by assumption) | apply Still.of_fst (by assumption)
    | fail_if_no_progress refine Still.put ?_ rfl rfl rfl rfl rfl rfl rfl rfl rfl rfl | intro _ | split | dsimp only)

theorem linksIdle_still (s : State) : Still s (linksIdle s) := by
  unfold linksIdle
  repeat' (with_reducible first
    | apply Still.refl | apply Still.foldl | apply Still.foldl_fst | apply Still.foldl_snd
    | apply Still.trans ?_ (ethDown_still ..) | apply Still.trans ?_ (treeLink_still ..) | apply Still.ite
    | fail_if_no_progress refine Still.put ?_ rfl rfl rfl rfl rfl rfl rfl rfl rfl rfl | intro _ | dsimp only)

theorem linksRestart_still (s : State) : Still s (linksRestart s) := by
  unfold linksRestart
  repeat' (with_reducible first
    | apply Still.refl | apply Still.foldl | apply Still.foldl_fst | apply Still.foldl_snd
    | apply Still.trans ?_ (bringUp_still ..) | apply Still.trans ?_ (startTraining_still ..) | intro _)

theorem fenceCvu_still (u : Nat) (s : State) : Still s (fenceCvu u s) := by
  unfold fenceCvu
  repeat' (with_reducible first
    | apply Still.refl | apply Still.ite | fail_if_no_progress refine Still.put ?_ rfl rfl rfl rfl rfl rfl rfl rfl rfl rfl | intro _
    | dsimp only)

theorem fenced_still (s : State) : Still s (fenced s).1 := by
  unfold fenced
  repeat' (with_reducible first
    | apply Still.refl)

theorem Still.fenced_fst {s x : State} (h : Still s x) : Still s (fenced x).1 := h

theorem fenceInstance_still (src inst : Nat) (s : State) : Still s (fenceInstance src inst s).1 := by
  unfold fenceInstance
  with_reducible
    refine Still.ite_fst (retireEngine_still ..) ?_
    repeat' refine Still.ite_fst (Still.fenced_fst ?_) ?_
  any_goals with_reducible apply retireAnalyser_still
  any_goals with_reducible apply disableChannel_still
  any_goals with_reducible apply retireDecoder_still
  any_goals with_reducible apply setEngine_still
  any_goals with_reducible apply disableDecode_still
  any_goals with_reducible apply fenceCompositor_still
  any_goals with_reducible apply fenceAesIn_still
  any_goals with_reducible apply fenceAesOut_still
  any_goals with_reducible apply fenceFlows_still
  any_goals with_reducible apply fenceCore_still
  any_goals with_reducible apply retirePc_still
  any_goals with_reducible apply fenceEth_still
  any_goals with_reducible apply fenceValsin_still
  any_goals with_reducible apply fenceCvu_still
  any_goals exact Still.put (Still.refl _) rfl rfl rfl rfl rfl rfl rfl rfl rfl rfl
  all_goals
    split
    all_goals with_reducible first
      | apply disableChannel_still
      | apply fenceAesIn_still
      | apply fenceAesOut_still
      | exact Still.refl _

theorem breakAnalysis_still (a : Nat) (s : State) : Still s (breakAnalysis a s) := by
  unfold breakAnalysis
  repeat' (with_reducible first
    | apply Still.refl | apply Still.ite | fail_if_no_progress refine Still.put ?_ rfl rfl rfl rfl rfl rfl rfl rfl rfl rfl | intro _)

theorem breakComposition_still (c : Nat) (s : State) : Still s (breakComposition c s) := by
  unfold breakComposition
  repeat' (with_reducible first
    | apply Still.refl | fail_if_no_progress refine Still.put ?_ rfl rfl rfl rfl rfl rfl rfl rfl rfl rfl | intro _)

theorem retryUnit_still (src : Nat) (inst : Nat) (s : State) : Still s (retryUnit src inst s) := by
  unfold retryUnit
  repeat' (with_reducible first
    | apply Still.refl | apply Still.trans ?_ (dropCoreItem_still ..) | apply Still.trans ?_ (floorRetry_still ..)
    | apply Still.trans ?_ (setEngine_still ..) | apply Still.trans ?_ (breakAnalysis_still ..)
    | apply Still.trans ?_ (breakComposition_still ..) | apply Still.ite
    | fail_if_no_progress refine Still.put ?_ rfl rfl rfl rfl rfl rfl rfl rfl rfl rfl | intro _)

theorem settleMerge_still (s : State) : Still s (settleMerge s) := by
  unfold settleMerge
  repeat' (with_reducible first
    | apply Still.refl | fail_if_no_progress refine Still.put ?_ rfl rfl rfl rfl rfl rfl rfl rfl rfl rfl | intro _)

theorem adoptMerge_still (s : State) : Still s (adoptMerge s) := by
  unfold adoptMerge
  repeat' (with_reducible first
    | apply Still.refl | fail_if_no_progress refine Still.put ?_ rfl rfl rfl rfl rfl rfl rfl rfl rfl rfl | intro _)

theorem dropClaim_still (s : State) : Still s (dropClaim s) := by
  unfold dropClaim
  split
  · exact Still.refl _
  · exact ⟨rfl, rfl, rfl, rfl, rfl, rfl, rfl, rfl, rfl, rfl⟩

theorem stopData_still (empty : Bool) (s : State) : Still s (stopData empty s) := by
  unfold stopData
  repeat' (with_reducible first
    | apply Still.refl | apply Still.ite | fail_if_no_progress refine Still.put ?_ rfl rfl rfl rfl rfl rfl rfl rfl rfl rfl | intro _)

theorem resumeCvu_still (s : State) : Still s (resumeCvu s) := by
  unfold resumeCvu
  repeat' (with_reducible first
    | apply Still.refl | fail_if_no_progress refine Still.put ?_ rfl rfl rfl rfl rfl rfl rfl rfl rfl rfl | intro _)

theorem restartCtxs_still (s : State) : Still s (restartCtxs s) := by
  unfold restartCtxs
  repeat' (with_reducible first
    | apply Still.refl | apply Still.ite | fail_if_no_progress refine Still.put ?_ rfl rfl rfl rfl rfl rfl rfl rfl rfl rfl | intro _)

theorem discardEncoding_still (s : State) : Still s (discardEncoding s) := by
  unfold discardEncoding
  repeat' (with_reducible first
    | apply Still.refl | fail_if_no_progress refine Still.put ?_ rfl rfl rfl rfl rfl rfl rfl rfl rfl rfl | intro _)

theorem abandonUpdate_still (s : State) : Still s (abandonUpdate s) := by
  unfold abandonUpdate
  repeat' (with_reducible first
    | apply Still.refl | apply Still.trans ?_ (raise_still ..) | apply Still.trans ?_ (replyTo_still ..)
    | apply Still.of_snd (by assumption) | apply Still.of_fst (by assumption)
    | fail_if_no_progress refine Still.put ?_ rfl rfl rfl rfl rfl rfl rfl rfl rfl rfl | split | dsimp only)

theorem overtakeHeld_still (s : State) : Still s (overtakeHeld s) := by
  unfold overtakeHeld
  repeat' (with_reducible first
    | apply Still.refl | apply Still.trans ?_ (replyTo_still ..) | apply Still.ite | apply Still.of_snd (by assumption)
    | apply Still.of_fst (by assumption) | fail_if_no_progress refine Still.put ?_ rfl rfl rfl rfl rfl rfl rfl rfl rfl rfl | split)

theorem startAntiRollback_still (s : State) : Still s (startAntiRollback s) := by
  unfold startAntiRollback
  repeat' (with_reducible first
    | apply Still.refl | apply Still.ite | fail_if_no_progress refine Still.put ?_ rfl rfl rfl rfl rfl rfl rfl rfl rfl rfl)

theorem noteSafeHold_still (old : Mode) (s : State) : Still s (noteSafeHold old s) := by
  unfold noteSafeHold
  repeat' (with_reducible first
    | apply Still.refl | apply Still.foldl | apply Still.foldl_fst | apply Still.foldl_snd
    | apply Still.trans ?_ (replyTo_still ..) | apply Still.of_snd (by assumption) | apply Still.of_fst (by assumption)
    | fail_if_no_progress refine Still.put ?_ rfl rfl rfl rfl rfl rfl rfl rfl rfl rfl | intro _ | split | dsimp only)



theorem startResync_still (s : State) : Still s (startResync s) := by
  unfold startResync
  repeat' (with_reducible first
    | apply Still.refl | apply Still.trans ?_ (discardEncoding_still ..)
    | fail_if_no_progress refine Still.put ?_ rfl rfl rfl rfl rfl rfl rfl rfl rfl rfl)

theorem wakeAll_still (s : State) : Still s (wakeAll s) := by
  unfold wakeAll
  repeat' (with_reducible first
    | apply Still.refl | apply Still.foldl | apply Still.foldl_fst | apply Still.foldl_snd
    | apply Still.trans ?_ (beginExit_still ..) | apply Still.ite | intro _)

theorem resumePass_still (m : Mode) (old : Mode) (s : State) : Still s (resumePass m old s) := by
  unfold resumePass
  repeat' (with_reducible first
    | apply Still.refl | apply Still.trans ?_ (resumeCvu_still ..) | apply Still.trans ?_ (wakeAll_still ..)
    | apply Still.ite | dsimp only)

theorem resumeSolo_still (m : Mode) (old : Mode) (s : State) : Still s (resumeSolo m old s) := by
  unfold resumeSolo
  repeat' (with_reducible first
    | apply Still.refl | apply Still.trans ?_ (restartCtxs_still ..) | apply Still.ite)

theorem copyOnEntry_still (m : Mode) (old : Mode) (s : State) : Still s (copyOnEntry m old s) := by
  unfold copyOnEntry
  repeat' (with_reducible first
    | apply Still.refl | apply Still.trans ?_ (startResync_still ..) | apply Still.ite
    | fail_if_no_progress refine Still.put ?_ rfl rfl rfl rfl rfl rfl rfl rfl rfl rfl)

theorem noteConfigure_still (m : Mode) (s : State) : Still s (noteConfigure m s) := by
  unfold noteConfigure
  repeat' (with_reducible first
    | apply Still.refl | apply Still.ite | fail_if_no_progress refine Still.put ?_ rfl rfl rfl rfl rfl rfl rfl rfl rfl rfl)

theorem rollbackOnEntry_still (m : Mode) (s : State) : Still s (rollbackOnEntry m s) := by
  unfold rollbackOnEntry
  repeat' (with_reducible first
    | apply Still.refl | apply Still.trans ?_ (startAntiRollback_still ..) | apply Still.ite)

theorem degradeOnEntry_still (m : Mode) (s : State) : Still s (degradeOnEntry m s) := by
  unfold degradeOnEntry
  repeat' (with_reducible first
    | apply Still.refl | apply Still.ite | fail_if_no_progress refine Still.put ?_ rfl rfl rfl rfl rfl rfl rfl rfl rfl rfl)

theorem mergeOnEntry_still (m : Mode) (old : Mode) (s : State) : Still s (mergeOnEntry m old s) := by
  unfold mergeOnEntry
  repeat' (with_reducible first
    | apply Still.refl | apply Still.trans ?_ (settleMerge_still ..) | apply Still.trans ?_ (adoptMerge_still ..)
    | apply Still.ite)

theorem yieldOnEntry_still (m : Mode) (s : State) : Still s (yieldOnEntry m s) := by
  unfold yieldOnEntry
  repeat' (with_reducible first
    | apply Still.refl | fail_if_no_progress refine Still.put ?_ rfl rfl rfl rfl rfl rfl rfl rfl rfl rfl)

theorem startOnEntry_still (m : Mode) (old : Mode) (s : State) : Still s (startOnEntry m old s) := by
  unfold startOnEntry
  repeat' (with_reducible first
    | apply Still.refl | apply Still.trans ?_ (resumePass_still ..) | apply Still.trans ?_ (resumeSolo_still ..)
    | apply Still.trans ?_ (copyOnEntry_still ..) | apply Still.trans ?_ (noteConfigure_still ..)
    | apply Still.trans ?_ (rollbackOnEntry_still ..) | apply Still.trans ?_ (degradeOnEntry_still ..)
    | apply Still.trans ?_ (mergeOnEntry_still ..) | apply Still.trans ?_ (yieldOnEntry_still ..))

theorem setDegraded_still (s : State) : Still s (setDegraded s) := by
  unfold setDegraded
  repeat' (with_reducible first
    | apply Still.refl | apply Still.trans ?_ (modeEvent_still ..) | apply Still.ite
    | apply Still.of_snd (by assumption) | apply Still.of_fst (by assumption)
    | fail_if_no_progress refine Still.put ?_ rfl rfl rfl rfl rfl rfl rfl rfl rfl rfl | split)

theorem supervisorLog_still (e : LogEntry) (s : State) : Still s (supervisorLog e s) := by
  unfold supervisorLog
  repeat' (with_reducible first
    | apply Still.refl | fail_if_no_progress refine Still.put ?_ rfl rfl rfl rfl rfl rfl rfl rfl rfl rfl)

theorem writeLog_still (r : Report) (sev : Nat) (flags : Nat) (hist : Nat) (s : State) : Still s (writeLog r sev flags hist s) := by
  unfold writeLog
  repeat' (with_reducible first
    | apply Still.refl | apply Still.trans ?_ (supervisorLog_still ..) | apply Still.ite
    | fail_if_no_progress refine Still.put ?_ rfl rfl rfl rfl rfl rfl rfl rfl rfl rfl | dsimp only)

theorem faultEvent_still (r : Report) (s : State) : Still s (faultEvent r s) := by
  unfold faultEvent
  repeat' (with_reducible first
    | apply Still.refl | apply Still.foldl | apply Still.foldl_fst | apply Still.foldl_snd
    | apply Still.trans ?_ (sendEvent_still ..) | apply Still.of_snd (by assumption)
    | apply Still.of_fst (by assumption) | fail_if_no_progress refine Still.put ?_ rfl rfl rfl rfl rfl rfl rfl rfl rfl rfl | intro _
    | split)

theorem countReport_still (src : Nat) (inst : Nat) (s : State) : Still s (countReport src inst s) := by
  unfold countReport
  repeat' (with_reducible first
    | apply Still.refl | apply Still.foldl | apply Still.foldl_fst | apply Still.foldl_snd
    | apply Still.trans ?_ (setPart_still ..) | fail_if_no_progress refine Still.put ?_ rfl rfl rfl rfl rfl rfl rfl rfl rfl rfl
    | intro _ | dsimp only)

theorem fenceReport_still (src : Nat) (inst : Nat) (s : State) : Still s (fenceReport src inst s) := by
  unfold fenceReport
  repeat' (with_reducible first
    | apply Still.refl | apply Still.trans ?_ (fenced_still ..) | apply Still.trans ?_ (fenceInstance_still ..)
    | apply Still.trans ?_ (settleMerge_still ..) | apply Still.trans ?_ (setDegraded_still ..) | apply Still.ite
    | apply Still.of_snd (by assumption) | apply Still.of_fst (by assumption)
    | fail_if_no_progress refine Still.put ?_ rfl rfl rfl rfl rfl rfl rfl rfl rfl rfl | split | dsimp only)

theorem startPulse_still (s : State) : Still s (startPulse s) := by
  unfold startPulse
  repeat' (with_reducible first
    | apply Still.refl | apply Still.of_snd (by assumption) | apply Still.of_fst (by assumption)
    | fail_if_no_progress refine Still.put ?_ rfl rfl rfl rfl rfl rfl rfl rfl rfl rfl | split)

theorem unitReaction_still (r : Report) (sev : Nat) (permanent : Bool) (merged : Bool) (s : State) : Still s (unitReaction r sev permanent merged s) := by
  unfold unitReaction
  repeat' (with_reducible first
    | apply Still.refl | apply Still.trans ?_ (retryUnit_still ..) | apply Still.trans ?_ (fenceReport_still ..)
    | apply Still.ite | fail_if_no_progress refine Still.put ?_ rfl rfl rfl rfl rfl rfl rfl rfl rfl rfl)

theorem collect_still (path : Bool) (r : Report) (s : State) : Still s (collect path r s).1 := by
  unfold collect
  repeat' (with_reducible first
    | apply Still.refl | apply Still.ite_fst | apply Still.trans ?_ (dropClaim_still ..)
    | apply Still.trans ?_ (writeLog_still ..) | apply Still.trans ?_ (faultEvent_still ..)
    | apply Still.trans ?_ (countReport_still ..) | apply Still.trans ?_ (startPulse_still ..)
    | apply Still.trans ?_ (unitReaction_still ..) | apply Still.ite
    | fail_if_no_progress refine Still.put ?_ rfl rfl rfl rfl rfl rfl rfl rfl rfl rfl | dsimp only)

theorem collectAll_still (l : List Report) (s : State) : Still s (collectAll l s).1 := by
  unfold collectAll
  repeat' (with_reducible first
    | apply Still.refl | apply Still.foldl | apply Still.foldl_fst | apply Still.foldl_snd
    | apply Still.trans ?_ (collect_still ..) | apply Still.of_snd (by assumption) | apply Still.of_fst (by assumption)
    | intro _ | split | dsimp only)

theorem stopOnEntry_still (m old : Mode) (s : State) : Still s (stopOnEntry m old s) := by
  unfold stopOnEntry
  extract_lets s1 s2 s3 s4
  have h1 : Still s s1 := Still.ite (abandonUpdate_still _) (Still.refl _)
  have h2 : Still s1 s2 := Still.ite (stopData_still _ _) (Still.refl _)
  have h3 : Still s2 s3 := Still.ite (noteSafeHold_still _ _) (Still.refl _)
  have h4 : Still s3 s4 := Still.ite (linksIdle_still _) (Still.ite (linksRestart_still _) (bringUp_still _))
  have h : Still s s4 := ((h1.trans h2).trans h3).trans h4
  clear_value s4
  exact Still.ite (Still.put h rfl rfl rfl rfl rfl rfl rfl rfl rfl rfl) h

/-- Entry to a mode: the switch, and nothing else of the parts concerned. -/
theorem enterMode_still (m : Mode) (s : State) : Still (switchMode m s) (enterMode m s) :=
  (((stopOnEntry_still m s.mode.mode _).trans (startOnEntry_still m s.mode.mode _)).trans (overtakeHeld_still _)).trans
    (modeEvent_still ..)

/-- The switch sets the mode, the mode before it and the safety of the outputs, and leaves HBM, the fuses, the timebase and the queue
as they were. -/
theorem switchMode_spec (m : Mode) (s : State) : (switchMode m s).mode.mode = m ∧ (switchMode m s).mode.prev = s.mode.mode ∧
    (switchMode m s).pins.forcedSafe = (safeMode m || s.pins.tripped) ∧ (switchMode m s).drm.mem = s.drm.mem ∧
    (switchMode m s).sec.fuses = s.sec.fuses ∧ (switchMode m s).mtb = s.mtb ∧ (switchMode m s).pending = s.pending := by
  unfold switchMode claimOnEntry dropClaim
  refine ⟨?_, ?_, ?_, ?_, ?_, ?_, ?_⟩ <;> repeat' (first | rfl | split)

/-- What entry to a mode leaves of the parts concerned. -/
theorem enterMode_spec (m : Mode) (s : State) : (enterMode m s).mode.mode = m ∧ (enterMode m s).mode.prev = s.mode.mode ∧
    (enterMode m s).pins.forcedSafe = (safeMode m || s.pins.tripped) ∧ (enterMode m s).drm.mem = s.drm.mem ∧
    (enterMode m s).sec.fuses = s.sec.fuses ∧ (enterMode m s).mtb.t = s.mtb.t ∧ (enterMode m s).mtb.servo = s.mtb.servo ∧
    (enterMode m s).pending = s.pending := by
  obtain ⟨h1, h2, h3, h4, h5, h6, h7⟩ := switchMode_spec m s
  have k := enterMode_still m s
  exact ⟨k.mode.trans h1, k.prev.trans h2, k.safe.trans h3, k.mem.trans h4, k.fuses.trans h5, by rw [k.time, h6],
    by rw [k.servo, h6], k.pending.trans h7⟩

theorem modeReaction_mem (v : Nat) (s : State) : (modeReaction v s).drm.mem = s.drm.mem := by
  unfold modeReaction
  split
  · exact (enterMode_spec _ _).2.2.2.1
  · split
    · split
      · rfl
      · exact (enterMode_spec _ _).2.2.2.1
    · split
      · exact ((enterMode_spec _ _).2.2.2.1).trans (setDegraded_still s).mem
      · rfl

theorem settleOnce_mem (s : State) : (settleOnce s).drm.mem = s.drm.mem := by
  unfold settleOnce
  dsimp only
  split
  · exact (modeReaction_mem _ _).trans (collectAll_still _ _).mem
  · rfl

/-- The collector leaves HBM as it is. -/
theorem settle_mem (s : State) : (settle s).drm.mem = s.drm.mem := by
  unfold settle
  dsimp only
  repeat' split
  all_goals simp only [settleOnce_mem]

end Sys2Proof.Machine
end

