-- ==== Sys2Proof/Machine/Package.lean ====
section
/-! DEFINITION. What the outside of the package shows: the ball map, how every output is driven, and the stepping (R17, R18, R446 to R448,
R459). -/

namespace Sys2Proof.Machine

/-! ### The ball map (R446, R447) -/

/-- The letters of row names, in order. -/
def rowLetters : List String := ["A", "B", "C", "D", "E", "F", "G", "H", "J", "K", "L", "M", "N", "P", "T", "U", "V", "W", "Y"]

/-- The name of a row, 1 to 70: the letters, then the letters again with the prefixes A, B and C. -/
def rowName (i : Nat) : String := ["", "A", "B", "C"].getD ((i - 1) / 19) "" ++ rowLetters.getD ((i - 1) % 19) ""

/-- What a ball carries (Tables 1 and 2 of R446); `p` tells the P ball of a pair from its N ball. -/
inductive Ball where
  | depopulated | vss | vin | vio18 | vio33
  | ethTx (lane : Nat) (p : Bool) | ethRx (lane : Nat) (p : Bool)
  | vaTx (lane : Nat) (p : Bool) | vaRx (lane : Nat) (p : Bool)
  | vhTx (port : Nat) (clock p : Bool) | vhRx (port : Nat) (clock p : Bool)
  | sdiIn (n : Nat) (p : Bool) | sdiOut (m : Nat) (p : Bool)
  | hpTx (port lane : Nat) (p : Bool) | hpRx (port lane : Nat) (p : Bool) | hpRefclk (port : Nat) (p : Bool) | hpPerst (port : Nat)
  | mgTx (port : Nat) (p : Bool) | mgRx (port : Nat) (p : Bool) | mgRefclk (p : Bool)
  | lowSpeed (name : String)
  deriving DecidableEq, Repr

/-- The signals of a low-speed row, columns 12 to 43 in order; what is left of them is VSS (Table 2 of R446). -/
def lowRow (row : Nat) : List String :=
  let numbered := fun (name : String) (n : Nat) => (List.range n).map (fun i => name ++ toString i)
  if row = 51 then numbered "AES_IN" 32
  else if row = 52 then
    numbered "AES_OUT" 16 ++ ["XSPI_CLK", "XSPI_CS_N", "XSPI_DQS"] ++ numbered "XSPI_DQ" 8 ++
      ["XSPI_RST_N", "XIN0", "XOUT0", "XIN1", "XOUT1"]
  else if row = 53 then
    ["FRAME_IN", "PPS_IN", "PPS_OUT", "PAIR_HB_IN", "PAIR_HB_OUT", "ERR_OUT_N", "RESET_N", "SVC_EN", "SVC_TCK", "SVC_TMS", "SVC_TDI",
      "SVC_TDO", "PMB_CLK", "PMB_DAT"] ++ numbered "GPIO" 16 ++ ["RSVD", "RSVD"]
  else if row = 54 then List.replicate 24 "RSVD"
  else []

/-- The pair that a place from a first one belongs to, when there are n pairs of P and N, each `step` places after the one before. -/
def pairAt (first n step place : Nat) : Option (Nat × Bool) :=
  if first ≤ place ∧ (place - first) / step < n ∧ (place - first) % step < 2 then
    some ((place - first) / step, (place - first) % step == 0)
  else none

/-- The signal ball at a row and a column, where Table 1 places one. -/
def signalAt (row col : Nat) : Option Ball :=
  let eth := pairAt 3 16 4 col
  let va := pairAt 3 9 4 row
  let vh := pairAt 38 10 3 row
  let hp := fun (h : Nat) => pairAt (8 + 16 * h) 4 4 row
  let mg := pairAt 42 2 4 row
  if row = 2 then eth.map (fun e => .ethTx e.1 e.2)
  else if row = 5 ∧ 3 ≤ col ∧ col ≤ 64 then eth.map (fun e => .ethRx e.1 e.2)
  else if row = 68 ∧ col ≤ 64 then eth.map (fun e => .sdiIn e.1 e.2)
  else if row = 65 ∧ 3 ≤ col ∧ col ≤ 16 then (pairAt 3 4 4 col).map (fun e => .sdiOut e.1 e.2)
  else if col = 68 ∨ col = 65 then
    match va, vh with
    | some v, _ => some (if col = 68 then .vaTx v.1 v.2 else .vaRx v.1 v.2)
    | none, some v => some (if col = 68 then .vhTx (v.1 / 2) (v.1 % 2 == 1) v.2 else .vhRx (v.1 / 2) (v.1 % 2 == 1) v.2)
    | none, none => none
  else if col = 2 ∨ col = 5 then
    match hp 0, hp 1, mg with
    | some l, _, _ => some (if col = 2 then .hpTx 0 l.1 l.2 else .hpRx 0 l.1 l.2)
    | none, some l, _ => some (if col = 2 then .hpTx 1 l.1 l.2 else .hpRx 1 l.1 l.2)
    | none, none, some g => some (if col = 2 then .mgTx g.1 g.2 else .mgRx g.1 g.2)
    | none, none, none => none
  else if col = 8 then
    if row = 42 ∨ row = 43 then some (.mgRefclk (row == 42))
    else if row = 8 ∨ row = 9 ∨ row = 24 ∨ row = 25 then some (.hpRefclk ((row - 8) / 16) (row % 2 == 0))
    else if row = 11 ∨ row = 27 then some (.hpPerst ((row - 11) / 16))
    else none
  else none

/-- The supply ball at a row and a column, where Table 1 places one. -/
def supplyAt (row col : Nat) : Option Ball :=
  if 30 ≤ row ∧ row ≤ 41 ∧ 30 ≤ col ∧ col ≤ 37 then some .vin
  else if row = 56 ∧ 12 ≤ col ∧ col ≤ 35 then some .vio18
  else if row = 56 ∧ 36 ≤ col ∧ col ≤ 47 then some .vio33
  else none

/-- The ball at a row and a column, each from 1 to 70: the corners are depopulated, and what no group takes is VSS (R446). -/
def ballAt (row col : Nat) : Ball :=
  if (row = 1 ∨ row = 70) ∧ (col = 1 ∨ col = 70) then .depopulated
  else
    match signalAt row col, supplyAt row col, (if 12 ≤ col then (lowRow row)[col - 12]? else none) with
    | some b, _, _ => b
    | none, some b, _ => b
    | none, none, some n => .lowSpeed n
    | none, none, none => .vss

/-! ### How the outputs are driven (R17, R18, R448) -/

/-- The outputs of Table 3 of the pin chapter. -/
inductive OutPin where
  | ethTx (lane : Nat) | vaTx | vhTx (port : Nat) | sdiOut (output : Nat) | aesOut | ppsOut | hbOut | errOut | xspi | tdo | gpio (n : Nat)
  deriving DecidableEq, Repr

/-- How a ball is driven. -/
inductive Drive where
  | live | electricalIdle | highZ | low | high
  deriving DecidableEq, Repr

/-- A level as a drive. -/
def driveOf (v : Bool) : Drive := if v then .high else .low

/-- Whether the outputs that carry media are in their safe state: in the modes of R17, in M2, and after a trip of R371. -/
def mediaSafe (s : State) : Bool := s.pins.forcedSafe || safeMode s.mode.mode || s.mode.mode == .configure

/-- Whether the SDI and AES3 outputs are undriven: where media is safe, and in M7 (Table 4 of the architecture chapter, R214). -/
def confidenceOff (s : State) : Bool := mediaSafe s || s.mode.mode == .quiescent

/-- The Ethernet port that a lane belongs to in the mode of its quad, where that port has a record (R317). -/
def portOfLane (s : State) (n : Nat) : Option Nat :=
  let m := quadMode s (n / 4)
  let p := n - n % lanesOf m
  if m ≤ 2 ∧ thas s.lnk.eth p = true then some p else none

/-- Whether an Ethernet lane is driven in its mode: its port has a record and may link up; the lanes of a quad in mode 3 are asleep
(R317, R321). -/
def laneLive (s : State) (n : Nat) : Bool :=
  match portOfLane s n with
  | some p => mayLink s p
  | none => false

/-- Whether a Valsin port drives its lanes: it is in use and its transmitter is awake (R17, R323, R330, R331). -/
def valsinLive (s : State) (v : Nat) : Bool := (valPort s v).st != 0 && !(valPort s v).txAsleep

/-- Whether a confidence output is of the rate family that PLL_S runs at (R374). -/
def ofFamily (s : State) (n : Nat) : Bool :=
  s.dec.ctxs.all (fun e => !(claimedOutputs e.2).contains n || !e.2.undriven)

/-- How an output is driven: before the rails are good every one but ERR_OUT_N is high-impedance; a safe output stands as Table 3 says;
in M2 the links that configure the device and its pair run (R17, R18, R321, R331, R374, R448, R449, R451). -/
def drive (s : State) (p : OutPin) : Drive :=
  let safe := s.pins.forcedSafe || safeMode s.mode.mode
  if s.pwr.railsUp ≠ 7 ∧ p ≠ .errOut then .highZ
  else
    match p with
    | .ethTx n => if safe || !laneLive s n then .electricalIdle else .live
    | .vaTx => if safe || !valsinLive s 0 then .electricalIdle else .live
    | .vhTx k => if safe || !valsinLive s (k + 1) then .electricalIdle else .live
    | .sdiOut n => if confidenceOff s || s.pins.sdiUndriven || !ofFamily s n then .highZ else .live
    | .aesOut => if confidenceOff s then .highZ else .live
    | .ppsOut => driveOf s.pins.ppsOut
    | .hbOut => driveOf s.pins.hbOut
    | .errOut => if errDriven s then .low else .highZ
    | .xspi => if s.pins.xspiHiZ then .highZ else .live
    | .tdo => if s.mode.mode == .service then .live else .highZ
    | .gpio n =>
      let oe := if mediaSafe s then (if s.pins.gpioTaken then s.pins.gpioSafeOe else 0) else s.pins.gpioOe
      if bitOf oe n then driveOf (bitOf (if mediaSafe s then s.pins.gpioSafeLvl else s.pins.gpioOut) n) else .highZ

/-! ### Identification (R459) -/

/-- HST_STEPPING of a stepping: its letter's index, A being 1, and its digit (R459). -/
def steppingCode (letter digit : Nat) : Nat := 16 * (letter % 16) + digit % 16

end Sys2Proof.Machine
end

