-- ==== Sys2Proof/Tests/Slice0.lean ====
section
/-! SUPPORT. The smoke test of WellFormed, small tests whose expected values are the spec's own, and for every statement with
hypotheses a state and operands that meet them. -/

namespace Sys2Proof.Tests
open Sys2Proof.Machine Sys2Proof.Safety

/-! ### WellFormed refuses an ill-formed command for each of its checks -/

theorem test_operand_range : (Instr.inputSupplyGood 3).defects = [.operandRange] := by decide

theorem test_record_length : (Instr.gpioRecord [0, 0, 0]).defects = [.recordLength] := by decide

theorem test_request_header :
    (Instr.hstInfo { transport := 32, hdrPartition := 0, seq := 0, tag := 0, len := 0, payload := [] }).defects = [.requestHeader] := by
  decide

theorem test_request_payload :
    (Instr.hstNop { transport := 0, hdrPartition := 0, seq := 0, tag := 0, len := 2, payload := [1] }).defects = [.requestPayload] := by
  decide

theorem test_well_formed : [Instr.inputSupplyGood 2, .gpioRecord [0, 0, 0, 0], .powerRemoved,
    .hstNop { transport := 16, hdrPartition := 3, seq := 1, tag := 2, len := 1, payload := [1] }].all Instr.WellFormed = true := by
  decide

/-! ### Values that the spec works out -/

/-- The table gives its rows no bits, so no word spells a command. -/
theorem test_no_word : decodeTableWord 16 0xFFFF = none := by decide

/-- Window offset 0 and the mode codes of R12 and R424. -/
theorem test_identity : identityWord State.reset 0 0 = 0x54434838 ∧ modeCode .halt = 0xB ∧
    identityWord State.reset 0 0x0100 % 16 = 0 := by decide

/-- At 119.88 frames per second, frame 120,000 is due at 1,001 s; at 48 kHz sample 48,000 at 1 s (R32). -/
theorem test_ticks : frameTickAt 9 120000 = 1001 * secUnit ∧ sampleTickAt 48000 = secUnit ∧ frameTickAt 10 120 = secUnit := by decide

/-- A row tick lies 64 lines of the raster after the frame's tick (R32): 64 of 4,500 lines at 120 frames per second. -/
theorem test_row_tick : rowTickAt 0 10 0 1 = 64 * secUnit / (120 * 4500) := by decide

/-- R7: 192.0.2.1 is its bytes in network order, and a u32 has its least significant byte first. -/
theorem test_little_endian : le 4 0x01020304 = [4, 3, 2, 1] ∧ u16 [0x34, 0x12] 0 = 0x1234 := by decide

/-- R300: a read beyond 63 GiB has no memory to read. -/
theorem test_outside_memory : exec (.poisonedRead 0xFC0000000 .audio) State.reset = .fault (.addressOutsideMemory 0xFC0000000) := by rfl

/-- R354: the check value of preset 2 over no byte is its initial value, and of preset 5 zero. -/
theorem test_empty_span : crcPresetOf 2 [] = 0xFFFFFFFF ∧ crcPresetOf 5 [] = 0 := by decide

/-- R6: an 8-bit field beyond its range takes the nearest legal value. -/
theorem test_clamp : clamp 1 17 0 = 1 ∧ clamp 1 17 255 = 17 ∧ clamp 1 17 9 = 9 := by decide

/-- R391: reports of one cycle in ascending source and instance. -/
theorem test_report_order : (sortReports [{ source := 5, inst := 1 }, { source := 2 }, { source := 5 }]).map (fun r => (r.source, r.inst)) =
    [(2, 0), (5, 0), (5, 1)] := by decide

/-- R163: full-scale white with either matrix. -/
theorem test_white : graphicsYcc 0 1023 1023 1023 = (940, 512, 512) ∧ graphicsYcc 2 1023 1023 1023 = (940, 512, 512) := by decide

/-- R85: 119.88 frames per second gives 1,001 / 120,000. -/
theorem test_vui_rate : (vuiOf { rate := 9 }).unitsInTick = 1001 ∧ (vuiOf { rate := 9 }).timeScale = 120000 := by decide

/-- R44, Table 4, in units of 10 ns: 8K at 120 with L = 3, 1080p at 60 with L = 4, and 8K at 119.88 with L = 4. -/
theorem test_delays : (rowDelay 0 10 3 0 + 5 * nsUnit) / (10 * nsUnit) = 36756 ∧ (rowDelay 2 7 4 0 + 5 * nsUnit) / (10 * nsUnit) = 380459 ∧
    (rowDelay 0 9 4 0 + 5 * nsUnit) / (10 * nsUnit) = 48655 := by decide

/-- R446's own examples: Ethernet lane 5, VA's forwarded clock and VH2's clock. -/
theorem test_ball_map : ballAt 2 23 = .ethTx 5 true ∧ ballAt 5 24 = .ethRx 5 false ∧ ballAt 35 68 = .vaTx 8 true ∧ ballAt 36 68 = .vaTx 8 false ∧
    ballAt 53 65 = .vhRx 2 true true ∧ ballAt 54 65 = .vhRx 2 true false ∧ [35, 53].map rowName = ["AU", "BT"] := by decide

/-- R60: the shorter path, and on equal paths the rising one; R64: the other direction around a fenced segment. -/
theorem test_ring_route : (ringRoute [] 0 9).1 = true ∧ (ringRoute [] 0 10).1 = false ∧ ringRoute [3] 3 4 = (false, fallingSegments 3 4) := by
  decide

/-- R162: full opacity shows the layer, none the picture below. -/
theorem test_blend : blend 255 500 100 = 500 ∧ blend 0 500 100 = 100 := by decide

/-- R42: a target of 0 is the next open frame. -/
theorem test_target_zero : resolveTarget 77 0 = (77, false) := by decide

/-- The reset state in another mode. -/
def inMode (m : Mode) : State := { State.reset with mode := { State.reset.mode with mode := m } }

/-- Hold with the input supplies good and so many rails up. -/
def railsAt (n : Nat) (rising : Bool) : State :=
  { State.reset with pwr := { State.reset.pwr with
    supplyGood := [(0, true), (1, true), (2, true)], railsUp := n, railRising := rising } }

/-- A state with a clock source as given. -/
def withSource (i : Nat) (x : SourceSt) (s : State) : State := setSource i (fun _ => x) s

/-- FRC, XIN0 and PLL_R judged stable. -/
def stableAll (s : State) : State := setSources [0, 2, 4] (fun x => { x with running := true, ready := true }) s

/-- M2 while records are taken. -/
def taking : State := { State.reset with mode := { State.reset.mode with mode := .configure, configured := true } }

/-- A mode with channel 0 running. -/
def withChan (m : Mode) : State :=
  { inMode m with enc := { State.reset.enc with chans := [(0, { taken := true, st := 1 })] } }

/-- Whether a command ran to a next state. -/
def runs (o : Outcome) : Bool :=
  match o with
  | .next _ => true
  | _ => false

/-! Witnesses of InputSuppliesAndRails. -/

theorem wit_supply_good : (inMode .hold).mode.mode = .hold ∧ 2 < 3 ∧ (inMode .hold).pins.resetLow = false ∧
    (∀ k, k < 3 → k ≠ 2 → tgetD (railsAt 0 false).pwr.supplyGood k false = true) ∧ (railsAt 0 false).mode.mode = .hold ∧
    (∃ k ∈ [0, 2, 4], (source (railsAt 0 false) k).ready = false) ∧ (railsAt 0 false).pwr.railRising = false ∧ (railsAt 0 false).pwr.retryWait = false := by decide

theorem wit_supply_boot : (stableAll (railsAt 7 false)).mode.mode = .hold ∧ 1 < 3 ∧
    (∀ k, k < 3 → k ≠ 1 → tgetD (stableAll (railsAt 7 false)).pwr.supplyGood k false = true) ∧
    (∀ k ∈ [0, 2, 4], (source (stableAll (railsAt 7 false)) k).ready = true) ∧
    (stableAll (railsAt 7 false)).pins.resetLow = false ∧ (stableAll (railsAt 7 false)).pwr.railsUp = 7 := by decide

theorem wit_supply_reset_low : (inMode .hold).mode.mode = .hold ∧
    { inMode .hold with pins := { State.reset.pins with resetLow := true } }.pins.resetLow = true := by decide

theorem wit_debounce_done :
    { railsAt 0 false with pwr := { (railsAt 0 false).pwr with debounce := true } }.pwr.debounce = true ∧
      inputsGood (railsAt 0 false) = true ∧ (railsAt 0 false).pins.resetLow = false := by decide

theorem wit_rail_within_limits : (railsAt 5 true).pwr.railRising = true ∧ (railsAt 5 true).pwr.railsUp < 6 ∧
    (railsAt 6 true).pwr.railRising = true ∧ (railsAt 6 true).pwr.railsUp = 6 ∧ (railsAt 6 true).pins.resetLow = false := by
  decide

theorem wit_rail_retry : { railsAt 0 false with pwr := { (railsAt 0 false).pwr with retryWait := true } }.pwr.retryWait = true ∧
    inputsGood (railsAt 0 false) = true ∧ (railsAt 0 false).pins.resetLow = false := by decide

/-! Witnesses of SupplyAndTemperatureFaults. -/

theorem wit_supply_faults : alive (inMode .boot).mode.mode = true ∧ 5 < 6 ∧
    tgetD { inMode .boot with pwr := { State.reset.pwr with supplyGood := [(5, true)] } }.pwr.supplyGood 5 false = true ∧
    { inMode .boot with pwr := { State.reset.pwr with lostSupplies := [5] } }.pwr.lostSupplies.contains 5 = true ∧ 1 < 2 ∧
    3 < 4 := by decide

theorem wit_tj_sample : hottest 0 [125, 20] ≤ 125 ∧ State.reset.pwr.alertW = 0 ∧ 135 ≤ hottest 0 [20, 135] := by decide

/-! Witnesses of OscillatorsAndResetPin. -/

theorem wit_loop_lock : (source (withSource 0 { ready := true } (withSource 10 { running := true } State.reset)) 10).running = true ∧
    (source (withSource 0 { ready := true } (withSource 10 { running := true } State.reset)) 10).gated = false ∧
    (source (withSource 0 { ready := true } (withSource 10 { running := true } State.reset)) 10).ready = false ∧
    (source (withSource 0 { ready := true } (withSource 10 { running := true } State.reset)) 0).ready = true := by decide

/-- Hold with FRC and XIN0 ready and PLL_R counting. -/
def plausibleHold : State :=
  withSource 4 { running := true, counting := true } (withSource 0 { ready := true } (withSource 2 { ready := true } (railsAt 7 false)))

/-- The same with PLL_R judged stable. -/
def pllRJudged : State :=
  afterStable 4 (setSource 4 (fun x => { x with counting := false, ready := true, absent := false, ratio := 60 }) plausibleHold)

theorem wit_source_stable : (source plausibleHold 4).counting = true ∧ countPasses 4 60 = true ∧ pllRJudged.mode.mode = .hold ∧
    inputsGood pllRJudged = true ∧ (source pllRJudged 2).ready = true ∧ (source pllRJudged 0).ready = true ∧
    (source pllRJudged 4).ready = true ∧ pllRJudged.pins.resetLow = false := by decide

theorem wit_source_stable_alone : (source (withSource 2 { counting := true } State.reset) 2).counting = true ∧ countPasses 2 11 = true ∧
    (source (afterStable 2 (withSource 2 { counting := true } State.reset)) 4).ready = false ∧ countPasses 2 14 = false := by decide

theorem wit_frc : (withSource 2 { running := true } State.reset).mode.mode = .hold ∧
    (source (withSource 2 { running := true } State.reset) 2).running = true ∧
    (source (withSource 2 { running := true } State.reset) 2).ready = false ∧ State.reset.clk.frcFails < 7 ∧
    (railsAt 7 false).mode.mode = .hold ∧ (source (railsAt 7 false) 2).running = false ∧ (railsAt 7 false).pwr.railsUp = 7 := by
  decide

theorem wit_reset_pin : { State.reset with pins := { State.reset.pins with resetLow := true, resetFilter := true } }.pins.resetFilter = true ∧
    { State.reset with pins := { State.reset.pins with resetLow := true, resetFilter := true } }.pins.resetLow = true ∧
    { State.reset with pins := { State.reset.pins with resetLow := true } }.pins.resetFilter = false ∧
    (railsAt 7 false).pwr.railsUp = 7 := by decide

/-! Witnesses of ClockLossAndTheRoot. -/

/-- M3 with PLL_R and the MTB's reference in use and learnt. -/
def onPllR : State := withSource 4 { running := true, ready := true, ratio := 50 } (withSource 0 { running := true, ready := true, ratio := 50 } (inMode .solo))

theorem wit_trip : alive onPllR.mode.mode = true ∧ monitored onPllR 4 = true ∧ (source onPllR 4).absent = false ∧ 4 ≤ 4 ∧ 4 ≠ 2 ∧
    (source onPllR 4).ratio ≠ 0 ∧ 100 * max 51 (source onPllR 4).ratio ≤ 2 * (source onPllR 4).ratio + 100 * min 51 (source onPllR 4).ratio ∧
    2 * (source onPllR 4).ratio + 100 * min 48 (source onPllR 4).ratio < 100 * max 48 (source onPllR 4).ratio := by decide

theorem wit_pll_s : alive (withSource 10 { ready := true } (inMode .boot)).mode.mode = true ∧
    (source (withSource 10 { ready := true } (inMode .boot)) 10).ready = true := by decide

theorem wit_root_switch : (beginSwitch true false State.reset).clk.switchBusy = true ∧ (beginSwitch true false State.reset).clk.switchForced = false ∧
    (beginSwitch true false State.reset).clk.pendingLoss = [] ∧ (beginSwitch true false State.reset).clk.switchReply = none ∧
    (beginSwitch true false State.reset).clk.switchStop = false ∧ (beginSwitch true false State.reset).clk.switchToFrc = true := by decide

/-- M9 with everything it waits for back. -/
def safeHoldReady : State :=
  withSource 0 { ready := true } (withSource 2 { ready := true } (withSource 4 { ready := true }
    { inMode .safeHold with mode := { State.reset.mode with mode := .safeHold, safeFrom := .solo } }))

theorem wit_safe_hold_exit : safeHoldReady.mode.mode = .safeHold ∧ safeHoldOver safeHoldReady = true ∧ safeHoldReady.mode.safeFrom ≠ .boot ∧
    safeHoldReady.mode.safeFrom ≠ .configure ∧ safeHoldReady.mode.safeFrom ≠ .service ∧ selectedSource safeHoldReady = 0 := by decide

theorem wit_safe_hold_source : selectedSource { safeHoldReady with mtb := { State.reset.mtb with pri := [3, 0, 0], present := [3] } } ≠ 0 ∧
    safeHoldOver { safeHoldReady with mtb := { State.reset.mtb with pri := [3, 0, 0], present := [3] } } = true := by decide

/-- M9 with PLL_R stopped by CLK_SWITCH. -/
def safeHoldStopped : State :=
  { withSource 4 {} safeHoldReady with clk := { (withSource 4 {} safeHoldReady).clk with pllROff := true } }

theorem wit_safe_hold_restart : safeHoldStopped.mode.mode = .safeHold ∧ (source safeHoldStopped 4).ready = false ∧
    safeHoldStopped.clk.pllROff = true ∧ othersReturned safeHoldStopped = true := by decide

/-! Witnesses of PmbusTransactions. -/

theorem wit_pmbus : pmbusAnswers (railsAt 0 false) = true ∧ (255 ≤ 7 ∨ 255 = 255) ∧
    pmbusAnswers { railsAt 0 false with flt := { State.reset.flt with supLog := [{ source := 0xFFFF }] } } = true ∧
    [({ source := 0xFFFF } : LogEntry)].reverse[State.reset.pwr.pmbLogIndex]? = some { source := 0xFFFF } := by decide

/-! Witnesses of TimeSourcesComplete. -/

/-- M3 with PTP, FRAME_IN and PPS_IN listed and source k in use; port 0 is up. -/
def timed (k : Nat) : State :=
  { inMode .solo with
    mtb := { State.reset.mtb with pri := [k, 0, 0], src := k, present := [k], within := 15 }
    lnk := { State.reset.lnk with eth := [(0, { st := 3 })] } }

theorem wit_time_source : ∀ k ∈ [1, 2, 3], alive (timed k).mode.mode = true ∧ k ∈ listedSources (timed k) ∧
    { timed k with clk := { State.reset.clk with rootFrc := false } }.clk.rootFrc = false ∧ listedSources (timed k) = [] ++ k :: [] ∧
    k ∈ (timed k).mtb.present ∧ (timed k).mtb.src = k := by decide

theorem wit_ptp_port : portUp (timed 1) 0 = true ∧ (timed 1).mtb.ptpPort = 0 ∧ portUp (inMode .solo) 0 = false ∧
    16 ≠ (timed 1).mtb.ptpPort ∧ 16 ≠ (timed 1).mtb.ptpPort2 ∧ 16 ≠ 255 ∧
    { timed 1 with mtb := { State.reset.mtb with ptpPort2 := 17 } }.mtb.ptpPort2 = 17 := by decide

theorem wit_time_on_frc : alive (timed 1).mode.mode = true ∧ 1 ∈ listedSources (timed 1) ∧ 2 ∉ listedSources (timed 1) ∧
    { timed 1 with clk := { State.reset.clk with rootFrc := true } }.clk.rootFrc = true := by decide

theorem wit_measured : stepMode (timed 1).mode.mode = false ∧ (satOffset 3).natAbs ≤ (timed 1).mtb.lockNs ∧ 15 ≤ (timed 1).mtb.within ∧
    (timed 1).mtb.lockNs < (satOffset (-2000)).natAbs := by decide

theorem wit_source_lost : 3 ∈ (timed 3).mtb.present ∧ (timed 3).mtb.src = 3 ∧ selectedSource (dropPresent 3 (timed 3)) = 0 ∧
    (timed 3).mtb.src ≠ 2 ∧
    selectedSource (dropPresent 3 { timed 3 with mtb := { (timed 3).mtb with pri := [3, 2, 0], present := [3, 2] } }) ≠ 0 := by decide

theorem wit_pps_out : { timed 3 with pins := { State.reset.pins with ppsOut := true } }.pins.ppsOut = true ∧ (timed 3).pins.ppsOut = false := by decide

/-! Witnesses of TicksOfTheTimebase. -/

theorem wit_ticks : alive (inMode .boot).mode.mode = true ∧ (inMode .boot).mtb.t ≤ sampleTickAt 0 ∧ (inMode .boot).mtb.t ≤ 0 * msUnit ∧
    (inMode .boot).mtb.t ≤ 0 * secUnit := by decide

theorem wit_channel_ticks : ticking (withChan .solo) = true ∧ chanRunning (withChan .solo) 0 = true ∧
    (chan (withChan .solo) 0).lastFrame = none ∧ (withChan .solo).mtb.t ≤ frameTickAt (chan (withChan .solo) 0).rate 0 ∧
    1 ≤ 101 ∧ 101 ≤ ctuRows (chan (withChan .solo) 0).raster + 33 ∧
    tget (chan (withChan .solo) 0).rowTicks (chan (withChan .solo) 0).raster ≠ some (256 * 0 + 101) ∧
    (withChan .solo).mtb.t ≤ rowTickAt (chan (withChan .solo) 0).raster (chan (withChan .solo) 0).rate 0 101 ∧
    changeLegal (withChan .solo).mode.mode = true := by decide

/-! Witnesses of DeviceRecordsTaken. -/

theorem wit_records_open : recordsOpen taking = true ∧ 60 ≤ (zeros 60).length ∧ taking.pins.gpioTaken = false ∧
    taking.pwr.supplyTaken = false ∧ taking.mtb.recordTaken = false ∧ taking.drm.taken = false ∧ taking.flt.generalTaken = false ∧
    severityNamed (u16 (zeros 8) 0) (u16 (zeros 8) 2) = true ∧ thas taking.flt.rules (faultKey 0 0) = false ∧ taking.red.taken = false ∧
    u8 (zeros 12) 0 = 0 ∧ 1 ≤ u8 (1 :: zeros 11) 0 ∧ taking.hrw.taken = false ∧ (qosPort taking 0).taken = false ∧
    (valPort taking 0).taken = false ∧ (quota taking 0).taken = false := by decide

/-! Witnesses of EncodeRecordsTaken. -/

/-- M2 with encode channel 63 and context 127 taken. -/
def takingChan : State :=
  { taking with enc := { State.reset.enc with
    chans := [(63, { taken := true, ctxs := [127] })], ctxs := [(127, { channel := 63 })] } }

theorem wit_encode_records : recordsOpen takingChan = true ∧ 16 ≤ (zeros 16).length ∧
    clamp 0 63 (u8 (0 :: 255 :: zeros 14) 1) = 63 ∧ thas takingChan.enc.ctxs (clamp 0 127 (u8 (0 :: 255 :: zeros 14) 0)) = false ∧
    (chan takingChan 63).taken = true ∧ (chan takingChan 63).ctxs.length < 8 ∧ clamp 0 127 (u8 (255 :: zeros 31) 0) = 127 ∧
    ((tget takingChan.enc.ctxs 127).map (fun c => c.codingTaken || c.rcTaken)) = some false ∧
    (chan takingChan (clamp 0 63 (u8 (255 :: zeros 31) 0))).taken = true ∧ (chan takingChan 63).colourTaken = false ∧
    (tgetD takingChan.enc.cps 63 {}).taken = false ∧ tget takingChan.dec.ctxs 31 = none := by decide

/-! Witnesses of MediaRecordsTaken. -/

theorem wit_media_records : recordsOpen takingChan = true ∧ 48 ≤ (255 :: zeros 47).length ∧ clamp 0 63 (u8 (255 :: zeros 47) 0) = 63 ∧
    (chan takingChan 63).taken = true ∧ (Machine.cmp takingChan 63).taken = false ∧ thas (Machine.cmp takingChan 63).v 0 = false ∧
    thas (Machine.cmp takingChan 63).g 0 = false ∧ thas (Machine.cmp takingChan 63).regions 0 = false ∧
    overloads (Machine.cmp takingChan 63).regions (regionOf takingChan 63 (255 :: zeros 47)) (activeW (chan takingChan 63).raster) = false ∧ thas takingChan.ing.flows 255 = false ∧
    thas takingChan.ing.groups 63 = false ∧ thas takingChan.ing.policers 255 = false ∧ thas takingChan.aud.ins 31 = false ∧
    clamp 0 63 (u8 (0 :: 255 :: zeros 46) 1) = 63 ∧ thas takingChan.aud.outs 0 = false ∧ thas takingChan.aud.programmes 0 = false := by
  decide

/-- M2 with channel 63 and its group taken. -/
def takingGroup : State :=
  { takingChan with ing := { State.reset.ing with groups := [(63, {})] } }

theorem wit_group_member : recordsOpen takingGroup = true ∧ 8 ≤ (255 :: 255 :: zeros 6).length ∧ (chan takingGroup 63).taken = true ∧
    thas takingGroup.ing.groups 63 = true ∧ thas (group takingGroup 63).members 15 = false ∧ u8 (255 :: 255 :: zeros 6) 3 = 0 ∧
    sourceSuits takingGroup 0 0 0 = true ∧ sourceTaken takingGroup 0 0 0 = false := by decide

theorem wit_general_unit : recordsOpen taking = true ∧ 40 ≤ (47 :: 0 :: 1 :: 0 :: 0 :: 3 :: zeros 34).length ∧
    clamp 0 63 (u8 (47 :: 0 :: 1 :: 0 :: 0 :: 3 :: zeros 34) 0) = 47 ∧ 47 < 48 ∧ (cvUnit taking 47).taken = false ∧
    tapTaken (joinImage 0x0F01 (47 :: 0 :: 1 :: 0 :: 0 :: 3 :: zeros 34) taking) 3 0 = true := by decide

/-! Witnesses of NetworkAndHostRecordsTaken. -/

/-- M2 with channel 0, context 0 and a flow group of class 7. -/
def takingFlow : State :=
  { taking with
    enc := { State.reset.enc with chans := [(0, { taken := true })], ctxs := [(0, { channel := 0 })] }
    egr := { State.reset.egr with groups := [(0, { port := 0, cls := 7, weight := 1024 })] } }

/-- An egress flow record of one leg, or of two with the second on port n. -/
def flowRecord (n : Nat) : Bytes := zeros 7 ++ [BitVec.ofNat 8 n] ++ zeros 72

/-- The image joined by an egress flow record. -/
def flowJoined (n : Nat) : State := joinImage 0x0901 (flowRecord n) takingFlow

theorem wit_flow_record : recordsOpen takingFlow = true ∧ 80 ≤ (flowRecord 16).length ∧ 16 ≤ u8 (flowRecord 16) 7 ∧
    flowChannel (flowJoined 16) (clamp 0 3 (u8 (flowRecord 16) 2)) (clamp 0 127 (u16 (flowRecord 16) 4)) = some (0, true) ∧
    (chan (flowJoined 16) 0).taken = true ∧ thas (flowJoined 16).egr.legs 0 = false ∧
    groupSuits (flowJoined 16) (legOf (flowJoined 16) (flowRecord 16) 0 false) = true := by
  decide

theorem wit_flow_two_legs : u8 (flowRecord 15) 7 ≤ 15 ∧ (flowJoined 15).egr.legs = [] ∧
    ([legOf (flowJoined 15) (flowRecord 15) 0 false, legOf (flowJoined 15) (flowRecord 15) 0 true].map (groupSuits (flowJoined 15))) = [true, false] ∧
    ([legOf (flowJoined 0) (flowRecord 0) 0 false, legOf (flowJoined 0) (flowRecord 0) 0 true].map (groupSuits (flowJoined 0))) = [true, true] ∧
    flowChannel (joinImage 0x0901 (flowRecord 15) taking) 0 0 = none ∧
    flowChannel (joinImage 0x0901 (flowRecord 15) { taking with enc := { State.reset.enc with ctxs := [(0, { channel := 0 })] } }) 0 0 = some (0, true) := by
  decide

theorem wit_port_records : recordsOpen taking = true ∧ 60 ≤ (zeros 60).length ∧ thas taking.egr.groups (u8 (zeros 8) 0) = false ∧
    (egrPort taking (clamp 0 15 (u8 (zeros 60) 0))).classTaken = false ∧ 20 + 8 * clamp 1 1024 (u16 (zeros 28) 2) ≤ (zeros 28).length ∧
    (egrPort taking 0).nextGates = none ∧ (egrPort taking 0).gates = none ∧
    portIn (tgetD taking.lnk.quads (15 / 4) (clamp 0 2 (u8 (255 :: zeros 59) 1))) (clamp 0 15 (u8 (255 :: zeros 59) 0)) = true ∧
    thas taking.lnk.eth 15 = false := by decide

theorem wit_host_records : recordsOpen taking = true ∧ 8 ≤ (15 :: 2 :: zeros 6).length ∧
    (if clamp 0 2 (u8 (15 :: 2 :: zeros 6) 1) = 0 then none else some (8 * (2 - 1) + clamp 0 7 (u8 (15 :: 2 :: zeros 6) 2))) = some 8 ∧
    (part taking 15).bound = false ∧ taking.hst.parts.any (fun e => e.2.function == some 8) = false ∧
    u16 (0 :: 0 :: 0x87 :: zeros 3) 2 = 0x0087 ∧ (part taking 0).key = none ∧ thas taking.hst.mgPorts (clamp 0 1 (u8 (zeros 56) 0)) = false ∧
    1 ≤ u8 (1 :: zeros 15) 0 ∧ u8 (zeros 16) 0 = 0 := by decide

theorem wit_key_length : 2596 ≤ (zeros 2596).length := by rw [zeros, List.length_replicate]

theorem wit_key_record : { taking with sec := { State.reset.sec with fuses := { State.reset.sec.fuses with kwoProgrammed := true } } }.sec.keysSeen.contains
      (clamp 0 254 (u8 (255 :: zeros 75) 0)) = false ∧ 76 ≤ (255 :: zeros 75).length ∧ taking.sec.fuses.usAllOnes = false ∧
    taking.mode.mode = .configure ∧ taking.sec.fuses.enrolled = false ∧ (zeros 32).length = 32 ∧
    (true && taking.sec.fuses.kwoProgrammed && !taking.sec.fuses.usAllOnes) = false ∧
    recordsOpen { taking with sec := { taking.sec with fuses := { taking.sec.fuses with enrolled := true } } } = true := by decide

/-! Witnesses of RecordsDiscardedAndIgnored. -/

theorem wit_short_records : recordsOpen taking = true ∧ ∀ q ∈ shortRecords (zeros 3), (zeros 3).length < q.2.2 := by decide

/-! Witnesses of InformationRequestsAnswered. -/

/-- A mode with partition 0 on function 0, channel 0 and context 0 running, and a decode context. -/
def serving (m : Mode) : State :=
  { withChan m with
    hst := { State.reset.hst with parts := [(0, { bound := true, function := some 0 })] }
    enc := { State.reset.enc with chans := [(0, { taken := true, st := 1, ctxs := [0] })], ctxs := [(0, { channel := 0 })] } }

/-- The owner's request over function 0. -/
def ask (payload : Bytes) : Req := { transport := 0, hdrPartition := 0, seq := 1, tag := 7, len := payload.length, payload := payload }

theorem wit_accepted : Accepted true infoLegal (ask []) 0 (serving .solo) ∧ Accepted false infoLegal (ask []) 0 (serving .solo) ∧
    Accepted false attestLegal (ask []) 0 (serving .solo) ∧ Accepted false changeLegal (ask []) 0 (serving .solo) := by
  unfold Accepted; decide

theorem wit_in_scope : ownsChannel (slotTaken (ask []) 0 (serving .solo)) 0 (clamp 0 63 (u8 (payloadOf (ask [])) 0)) = true ∧
    ownsCtx (slotTaken (ask []) 0 (serving .solo)) 0 0 = true ∧ ownsDecode (slotTaken (ask []) 0 (serving .solo)) 0 0 = true ∧
    (tget (serving .solo).enc.ctxs (clamp 0 127 (u8 (payloadOf (ask [])) 0))).isSome = true := by decide

/-! Witnesses of WindowReadsLatchAndClear. -/

/-- M3 with partition 0 on function 0, sent a free unit 0. -/
def windowOpen : State :=
  { serving .solo with cvu := { State.reset.cvu with units := [(0, { taken := true, partition := 0, st := 1, width := 32, run := 5 })] } }

theorem wit_window : unboundFunction windowOpen 8 = true ∧ unboundFunction State.reset 0 = false ∧ caller windowOpen 0 = some 0 ∧ seesUnit windowOpen 0 0 = true ∧ caller State.reset 0 = none := by decide

/-! Witnesses of SelectionsAndWrites. -/

theorem wit_unit_loads : seesUnit windowOpen 0 0 = true ∧ runWritable windowOpen 0 = true ∧ runWritable windowOpen 1 = false := by decide

/-- Two bound partitions, the second on function 1. -/
def twoParts (m : Mode) : State :=
  { withChan m with hst := { State.reset.hst with parts := [(0, { bound := true, function := some 0 }), (1, { bound := true, function := some 1 })] } }

theorem wit_other_partition : caller (twoParts .solo) 1 = some 1 ∧ caller (twoParts .solo) 0 = some 0 := by decide

/-! Witnesses of RuntimeChangesDecided. -/

/-- M3 with channel 0 running context 0, a compositor layer, a decode of leg 0 and an AES3 input, all in partition 0. -/
def changing : State :=
  { serving .solo with
    cmps := [(0, { v := [(0, {})] })]
    aud := { State.reset.aud with ins := [(0, { taken := true })] }
    egr := { State.reset.egr with legs := [(0, { st := 1, kind := 1 }), (2, { st := 1, kind := 2 })] } }

theorem wit_changes : Accepted false changeLegal (ask []) 0 changing ∧ Accepted true gatesLegal (ask []) 0 changing ∧
    ownsCtx (slotTaken (ask []) 0 changing) 0 0 = true ∧ (tget changing.enc.ctxs 0).map (fun c => c.stopped) = some false ∧
    chanRunning changing 0 = true ∧ thas (Machine.cmp changing 0).v 0 = true ∧
    seesPort (slotTaken (ask []) 0 changing) 0 0 = true ∧ (aesIn (slotTaken (ask []) 0 changing) 0).taken = true ∧
    (tget changing.egr.legs 0).map (fun l => (l.st, sliceLeg l)) = some (1, true) ∧
    ownsLeg (slotTaken (ask [2, 0]) 0 changing) 0 2 = true ∧ (tget changing.egr.legs 2).map (fun l => (l.st, sliceLeg l)) = some (1, false) ∧
    (tget changing.enc.chans 0).isSome = true ∧ decidesHere changing = true := by unfold Accepted; decide

/-! Witnesses of HostItemsEnterTheDispatcher. -/

/-- M3 with a graphics layer, a topiary region, a TS leg and a partition quota. -/
def submitting : State :=
  { changing with
    cmps := [(0, { v := [(0, {})], g := [(0, {})], regions := [(0, {})] })]
    pvd := { State.reset.pvd with quotas := [(0, { quota := 4, rate := 4 })] } }

theorem wit_host_items : Accepted false changeLegal (ask []) 0 submitting ∧ ownsCtx (slotTaken (ask []) 0 submitting) 0 0 = true ∧
    chanOfCtx (slotTaken (ask []) 0 submitting) 0 = some 0 ∧ thas (Machine.cmp (slotTaken (ask []) 0 submitting) 0).g 0 = true ∧
    thas (Machine.cmp (slotTaken (ask []) 0 submitting) 0).regions 0 = true ∧ ownsLeg (slotTaken (ask []) 0 submitting) 0 0 = true ∧
    waitDepth submitting < 250000 ∧ inFlight submitting 0 < (quota submitting 0).quota ∧
    (tget submitting.enc.chans 0).map (fun c => c.st) = some 1 := by unfold Accepted; decide
theorem wit_host_items_busy : (tget submitting.enc.chans 0).map (fun c => c.st) = some 1 ∧
    (250000 ≤ waitDepth { submitting with pvd := { State.reset.pvd with quotas := [(0, { quota := 0 })] } } ∨
      (quota { submitting with pvd := { State.reset.pvd with quotas := [(0, { quota := 0 })] } } 0).quota ≤
        inFlight { submitting with pvd := { State.reset.pvd with quotas := [(0, { quota := 0 })] } } 0) := by decide

/-! Witnesses of OwnerRequestsHeldOrAnswered. -/

theorem wit_owner_modes : Accepted true (requestLegal .quiescent) (ask []) 0 (serving .solo) ∧
    Accepted true (requestLegal .run) (ask []) 0 (serving .quiescent) ∧ Accepted true updateLegal (ask []) 0 (serving .standby) ∧
    Accepted true (requestLegal .swap) (ask []) 0 (serving .active) ∧ Accepted true quiescentOnly (ask []) 0 (serving .quiescent) ∧
    (serving .quiescent).clk.switchBusy = false := by
  unfold Accepted; decide

/-- M8 with an erased item of 8 bytes. -/
def updating : State := { serving .update with sec := { State.reset.sec with update := some { len := 8, erased := true, lastChunk := 0 } } }

theorem wit_updating : Accepted true updateOnly (ask []) 0 updating ∧ Accepted true updateOnly (ask [4, 0, 0, 0]) 0 updating ∧
    updating.sec.update.map (fun u => (u.erased, u.ended, u.received)) = some (true, none, 0) ∧
    u32 (payloadOf (ask [])) 0 = 0 ∧ u32 (payloadOf (ask [4, 0, 0, 0])) 0 ≠ 0 := by unfold Accepted; decide

/-- M7 on each root, with Ethernet port 0 configured and Valsin port 0 in use. -/
def linked (frc : Bool) : State :=
  { serving .quiescent with
    clk := { State.reset.clk with rootFrc := frc }
    lnk := { State.reset.lnk with eth := [(0, {})], vals := [(0, { st := 1 })] } }

theorem wit_linked : Accepted true retrainLegal (ask []) 0 (linked true) ∧ (portNamed (ask [])).1 = 0 ∧ (portNamed (ask [])).2.1 = 0 ∧
    thas (slotTaken (ask []) 0 (linked true)).lnk.eth 0 = true ∧ (portNamed (ask [1])).1 ≠ 0 ∧
    (valPort (slotTaken (ask [1]) 0 (linked true)) (portNamed (ask [1])).2.1).st ≠ 0 ∧ Accepted true retrainLegal (ask [1]) 0 (linked true) ∧
    (linked true).clk.rootFrc = true ∧ (linked false).clk.rootFrc = false ∧ (linked true).clk.switchBusy = false ∧
    Accepted true quiescentOnly (ask []) 0 (linked true) ∧ Accepted true quiescentOnly (ask []) 0 (linked false) := by unfold Accepted; decide

/-! Witnesses of DataRequestsAnswered. -/

theorem wit_data_requests : Accepted false (fun _ => true) (ask []) 0 (serving .configure) ∧ Accepted false bufLegal (ask []) 0 submitting ∧
    inSlot (slotTaken (ask []) 0 submitting) 0 (u64 (payloadOf (ask [])) 0) 0 = true ∧ Accepted true hrwLegal (ask []) 0 (serving .solo) ∧
    (ask []).transport < 16 ∧ stacksAwake (serving .solo) 0 8 = true ∧ writeLegal (serving .solo).mode.mode = true ∧
    writeLegal (serving .safeHold).mode.mode = false ∧
    stacksAwake { serving .solo with drm := { State.reset.drm with stackOf := [(0, { sr := .asleep })] } } 0 8 = false := by
  unfold Accepted; decide

/-- A state with a pull of no bytes that function 0 waits for. -/
def pulling : State := { serving .solo with hst := { (serving .solo).hst with pulls := [(0, { req := ask [], addr := 0, len := 0, clamped := false })] } }

theorem wit_pulling : (tget pulling.hst.pulls 0).isSome = true ∧ bufLegal pulling.mode.mode = true := by decide

/-! Witnesses of TreeRequestsSentOrHeld. -/

/-- M3 in a tree, as its root or not. -/
def treed (root : Bool) : State :=
  { serving .solo with hrw := { State.reset.hrw with taken := true, role := if root then 1 else 2, root := root, depth := 0, announced := true } }

theorem wit_treed : Accepted true hrwLegal (ask []) 0 (treed true) ∧ inTree (slotTaken (ask []) 0 (treed true)) = true ∧
    (treed true).hrw.pending.length < 4 ∧ inTree (slotTaken (ask []) 0 (serving .solo)) = false := by unfold Accepted; decide

/-! Witnesses of EncodeEventsComplete. -/

/-- M3 with a coded row of a picture whose one slice has its cap, at MTB 0. -/
def coding : State :=
  { withChan .solo with enc := { State.reset.enc with
      chans := [(0, { taken := true, st := 1, ctxs := [0] })]
      ctxs := [(0, { channel := 0, rcMode := 1, seqFrame := some 0, codec := 0, sizes := [{ f := 0, size := 100, tAvg := 80 }]
                     pics := [{ frame := 0, caps := [(sliceKey 0 0, 1000)], rowsIn := List.range 70, rowsDone := [0] }] })] } }

theorem wit_coding : (tget coding.enc.ctxs 0).map (fun c => (c.stopped, c.rcMode, c.codec, c.seqFrame)) = some (false, 1, 0, some 0) ∧
    (picOf coding 0 0).map (fun p => (thas p.caps (sliceKey 0 0), thas p.emitted (sliceKey 0 0), p.floorTiles.contains 0,
      p.floorDue.contains (sliceKey 0 0), p.rowsDone.contains 0)) = some (true, false, false, false, true) ∧
    ticking coding = true ∧ decides coding = true ∧ chanRunning coding 0 = true ∧ alive coding.mode.mode = true := by decide

/-- A slice of 10 coded bits against a floor of 100, and one whose code is longer than its cap. -/
def slice (bits : Nat) : SliceResult := { context := 0, frame := 0, row := 0, tile := 0, lengths := [bits] }

theorem wit_verdicts : ((tget coding.enc.ctxs 0).bind fun c => (picOf coding 0 0).map fun p =>
    ((verdictOf (slice 10) false c p).2.2, (verdictOf (slice 1000000) false c p).2.2)) = some (false, true) := by decide
theorem wit_in_turn : ((tget coding.enc.ctxs 0).map fun c => (inTurn coding (c.engines.getD 0 18) (slice 10),
    decide (coding.mtb.t < guardAt (chan coding 0).raster (chan coding 0).rate (0 + 8)), c.engines.length)) = some (true, true, 0) := by decide
theorem wit_statistics : [1, 2, 3].all ({ statsIn := [1, 2, 3] } : Pic).statsIn.contains = true := by decide
theorem wit_correction : ((tget coding.enc.ctxs 0).map fun c => (pocAt c 32 % 32, (correctionOf (pocAt c 32) c).isSome)) = some (0, true) := by decide
theorem wit_alf : ((tget coding.enc.ctxs 0).bind fun c => (picOf coding 0 0).map fun p =>
    p.rowsIn.contains (ctuRows c.raster - (if c.raster = 3 ∧ c.further then 2 else 1))) = some true := by decide
theorem wit_emission : ((tget coding.enc.ctxs 0).map fun c => decide (coding.mtb.t ≤ emissionTime (chan coding 0) c 0 0)) = some true := by decide

/-! Witnesses of DecodeAndOverlayEventsComplete. -/

/-- M3 with a decode context that has a current and a closed picture, and a graphics layer whose old slot is displaced. -/
def decoding : State :=
  { withChan .solo with
    dec := { State.reset.dec with ctxs := [(0, { st := 1, use := 1, cur := some {}, closed := [{}] })] }
    cmps := [(0, { g := [(0, { displaced := some {} , copying := [{}] }), (1, { displaced := some { item := some 5 } })] })]
    pvd := { State.reset.pvd with items := [{ order := 5, host := some { req := ⟨0, 0, 0, 0, 0, []⟩, partition := 0, channel := 0 } }] } }

theorem wit_decoding : (tget decoding.dec.ctxs 0).map (fun c => (c.st, c.use, c.cur.isSome, c.closed.length)) = some (1, 1, true, 1) ∧
    ticking decoding = true ∧ ((tget (Machine.cmp decoding 0).g 0).bind (fun g => g.displaced)).map (fun d => d.item) = some none ∧
    ((tget (Machine.cmp decoding 0).g 1).bind (fun g => g.displaced)).map (fun d => d.item) = some (some 5) ∧
    ((itemOf decoding 5).bind (fun i => i.host)).isSome = true ∧
    ((tget (Machine.cmp decoding 0).g 0).map (fun g => g.copying.length)) = some 1 := by decide

/-! Witnesses of IngestAndAudioEventsComplete. -/

/-- M3 with AES3 input 0 locked, input 1 transparent, output 0 running, a mute at its end and a restart committed. -/
def hearing : State :=
  { withChan .solo with
    enc := { State.reset.enc with chans := [(0, { taken := true, st := 1, shadow := [⟨3, .portRestart 0⟩] })] }
    aud := { State.reset.aud with
      ins := [(0, { taken := true, st := 1 }), (1, { taken := true, transp := true, st := 1 })]
      outs := [(0, { st := 1, restartDue := true })], mutes := [(0, { active := true })], tick := 5000 } }

theorem wit_hearing : ticking hearing = true ∧ hearing.ing.sdiFenced.contains 0 = false ∧ aesRuns hearing 0 = true ∧ aesRuns hearing 1 = true ∧
    (aesIn hearing 0).transp = false ∧ (aesIn hearing 1).transp = true ∧ (aesIn hearing 0).st ≠ 3 ∧ (aesIn hearing 0).taken = true ∧
    (aesIn hearing 0).fenced = false ∧ (tget hearing.aud.outs 0).map (fun o => (o.st, o.restartDue)) = some (1, true) ∧
    tkeysOf hearing.enc.chans (fun _ h => h.shadow.any (fun k => k.frame == 3 && k.change == .portRestart 0)) ≠ [] ∧
    (tgetD hearing.aud.mutes 0 {}).active = true ∧ (tgetD hearing.aud.mutes 0 {}).lastSign + 4096 ≤ hearing.aud.tick ∧
    (aesIn hearing 0).nonAudio = false := by decide

/-! Witnesses of EgressEventsComplete. -/

/-- M3 with a port up, a slice leg 0 with a packet, a TS leg 2, an audio leg 4 with a packet, and gates. -/
def sending (kind : Nat) (queue : List QPkt) : State :=
  { withChan .solo with
    mtb := { State.reset.mtb with t := 30 * msUnit, mgt := 4000000 }
    enc := { State.reset.enc with chans := [(0, { taken := true, st := 1, ctxs := [0] })], ctxs := [(0, { channel := 0, feedback := 7 })] }
    lnk := { State.reset.lnk with eth := [(0, { })] }
    egr := { State.reset.egr with
      legs := [(0, { st := 1, kind := kind, port := 0, rtcp := true, ssrc := 9, change := some ⟨1, 2, 3⟩
                     running := true, resolved := true, rate := 1000000000, depth := 9000, queue := queue })]
      groups := [(0, { port := 0, cls := if kind ≤ 1 then 7 else 3 })]
      ports := if queue.isEmpty then [(0, { gates := some { entries := [(255, 1000)], cycle := 1000, start := 0 }, nextGates := some { entries := [(255, 1000)], cycle := 1000, start := 0 } })] else [(0, {})] } }

theorem wit_sending : portSends (sending 0 []) 0 = true ∧ (sliceNext (refreshPort 0 (sending 0 [])) 0).isNone = true ∧
    (classToSend (refreshPort 0 (sending 0 [])) 0).isNone = true ∧ (egrPort (sending 0 []) 0).gates.isSome = true ∧
    (egrPort (sending 0 []) 0).nextGates.isSome = true ∧ egressRuns (sending 0 []).mode.mode = true ∧
    (tget (sending 1 []).egr.legs 0).map (fun l => (l.kind, l.st, l.rtcp, sliceLeg l, l.change.isSome, pcrDue (sending 1 []).mtb.t l)) =
      some (1, 1, true, true, true, true) ∧ (tget (sending 2 []).egr.legs 0).map (fun l => sliceLeg l) = some false ∧
    chanRunning (sending 1 []) 0 = true ∧ ticking (sending 1 []) = true ∧
    (rpsiPoc (List.replicate 32 false)).isSome = true ∧ (tget (sending 1 []).enc.ctxs 0).map (fun c => (bitOf c.feedback 0, c.stopped)) = some (true, false) ∧
    (runningChans (inMode .solo)).isEmpty = true ∧ egressRuns (inMode .solo).mode.mode = true := by decide
theorem wit_sending_slice : (sliceNext (refreshPort 0 (sending 0 [{ wire := 100 }])) 0).isSome = true := by decide
theorem wit_sending_forwarded : ticking (sending 0 []) = true ∧
    (forwardNext (sending 0 []) 0).isNone = true ∧
    (forwardNext (modLeg (sending 0 []) 0 (fun l => { l with fwd := [⟨0, 0, none, 0, 0, 100, none, false, [], 0, 0⟩] })) 0).isSome = true := by decide
theorem wit_sending_own :
    (classToSend (setEgrPort (sending 2 [{ wire := 100 }]) 0 (fun x => { x with own := [{ wire := 90 }] })) 0).map (fun e => e.2.wire) = some 90 := by decide
theorem wit_sending_class : (sliceNext (refreshPort 0 (sending 2 [{ wire := 100 }])) 0).isNone = true ∧
    (classToSend (refreshPort 0 (sending 2 [{ wire := 100 }])) 0).isSome = true := by decide

/-! Witnesses of PairLinkEventsComplete. -/

/-- A pair in force in a mode, with VA up or down and a claim. -/
def pairedIn (m : Mode) (va : Bool) (claim : Nat) : State :=
  { withChan m with
    mtb := { State.reset.mtb with valid := true }
    red := { State.reset.red with paired := true, vaUp := va, claim := claim, hbHedgerow := true, matchRun := 16 }
    run := { State.reset.run with claimLost := some 0 } }

theorem wit_pair_links : pairInForce (pairedIn .configure true 0) = true ∧ (pairedIn .configure true 0).red.digestDone = false ∧
    beaconsPass (pairedIn .active true 5) = true ∧ (pairedIn .active false 5).red.vaSilent = false ∧ pairMode .active = true ∧
    watchesSplit (pairedIn .active false 5) = true ∧ watchesSplit (pairedIn .active true 5) = false ∧ hrwRuns .active = true ∧ hearsPair .safeHold = true ∧
    (pairedIn .active false 5).red.hbSilent = false ∧ (pairedIn .active false 5).red.partnerId = 65535 ∧
    (pairedIn .standby true 0).run.claimLost = some 0 ∧ (pairedIn .standby true 0).red.claim = 0 := by decide

/-! Witnesses of PairCopyEventsComplete. -/

/-- The row fingerprint of a channel's input. -/
def print1 (v : Nat) : Fingerprint := { stream := .input 0 0 0, value := v, status := true }

/-- A pair with a row waiting, a swap named, and a leg that waits for its switch. -/
def copying (m : Mode) : State :=
  { pairedIn m true 0 with
    enc := { State.reset.enc with chans := [(0, { taken := true, st := 1 })] }
    egr := { State.reset.egr with legs := [(0, { st := 1, want := some .device })] }
    run := { State.reset.run with locals := [{ print := print1 3, time := 0 }], copying := true, joins := [(0, 2)], swapFrame := some 4 } }

theorem wit_copying : comparing (copying .active) = true ∧ (takeRow (print1 4).stream (copying .active).run.locals).1.isSome = true ∧
    (takeRow (.audio 0 0) (copying .active).run.locals).1.isNone = true ∧ pairInForce (copying .resync) = true ∧
    actingMode (copying .resync) = .resync ∧ chanRunning (copying .resync) 0 = true ∧ thas (copying .resync).run.joins 0 = true ∧
    (copying .resync).run.joined.contains 0 = false ∧ (copying .resync).run.copying = true ∧ (copying .resync).red.vaUp = true ∧
    (refChannel (pairedIn .active true 5)).isSome = true ∧ judgesFrames (copying .active) = true ∧ joinFits (copying .resync) 0 (joinNow (copying .resync) 0) = true ∧
    (pairedIn .active true 5).run.swapFrame = none ∧ (refChannel (copying .active)).isSome = true ∧
    (copying .active).run.swapFrame = some 4 ∧ (tget (copying .active).egr.legs 0).map (fun l => (l.st, l.want.isSome)) = some (1, true) ∧
    (tget (copying .active).egr.legs 0).map (fun l => decide (l.src = .partner)) = some false ∧ ticking (copying .active) = true ∧
    decides (copying .resync) = false ∧ decides (pairedIn .active true 5) = true := by decide
theorem wit_boundary : boundaryNow (copying .active) = some 0 ∧ (copying .active).run.judgedAhead = none ∧
    { (copying .active).run with judgedAhead := some 0 }.judgedAhead = some 0 := by decide
/-- A pair whose leg passes the partner's packets. -/
def merging : State := { copying .active with egr := { State.reset.egr with legs := [(0, { st := 1, src := .partner })] } }
theorem wit_merging : (tget merging.egr.legs 0).map (fun l => (l.st, decide (l.src = .partner))) = some (1, true) ∧ ticking merging = true := by decide

/-! Witnesses of DispatcherEventsComplete. -/

/-- M3 with an item in each place, a free live core, a core that runs one, an armed counter and a stalled queue. -/
def dispatching : State :=
  { withChan .solo with pvd := { State.reset.pvd with
      passing := 128
      cores := [(0, { live := false }), (20, { live := true }), (21, { live := true, busy := some (3, 0) })]
      counters := [(5, 2)], stalled := [40]
      posts := [⟨0, 0, none, 0, 0, 40, [], some 2⟩] ++ List.replicate 8 ⟨0, 0, none, 0, 0, 40, [], some 3⟩
      items := [{ order := 0, flow := 0, seq := 0, place := .parked }, { order := 1, flow := 1, seq := 0, place := .queued 50, queue := 50 },
                { order := 2, flow := 2, seq := 0, place := .backoff }, { order := 3, flow := 3, seq := 0, place := .running 21 }] } }

theorem wit_dispatching : alive dispatching.mode.mode = true ∧ dispatcherMay dispatching = true ∧ queueMay dispatching 40 = true ∧
    heldPosts dispatching (some 1) = [] ∧ blocker dispatching ⟨0, 0, none, 0, 0, 1, [], some 1⟩ = none ∧
    blocker dispatching ⟨0, 0, none, 0, 0, 40, [], some 1⟩ = some 40 ∧ (heldPosts dispatching (some 2)).length = 1 ∧
    (heldPosts dispatching (some 3)).length = 8 ∧ dispatching.pvd.stalled.contains 40 = true ∧
    atLow dispatching 40 = true ∧ tgetD dispatching.pvd.counters 6 0 = 0 ∧ tgetD dispatching.pvd.counters 5 0 ≠ 0 ∧
    (itemAt dispatching 0 0).map (fun i => i.place) = some .parked ∧ (itemAt dispatching 2 0).map (fun i => i.place) = some .backoff ∧
    (itemAt dispatching 1 0).map (fun i => (i.queue, i.place)) = some (50, .queued 50) ∧ coreMay dispatching 20 = true ∧
    coreMay dispatching 21 = true ∧ (tget dispatching.pvd.cores 21).map (fun c => c.busy.isSome) = some true ∧
    ((tget dispatching.pvd.cores 20).bind (nextItem dispatching 20)).isSome = true ∧ (tget dispatching.pvd.cores 20).map (fun c => c.busy) = some none ∧
    (runsOn dispatching 21).isSome = true ∧ runsOn dispatching 20 = none := by decide

/-! Witnesses of MemoryEventsComplete. -/

/-- A mode with stack 0 in a self-refresh state and pseudo-channel 0 owing refreshes. -/
def refreshing (m : Mode) (sr : SrState) (owed : Nat) : State :=
  { inMode m with drm := { State.reset.drm with stackOf := [(0, { sr := sr })], pcs := [(0, { owed := owed })], remapActive := true } }

/-- The same with a graphics slot of channel 0 at address 0. -/
def holdingSlot (s : State) : State := { s with cmps := [(0, { g := [(0, { maxW := 16, maxH := 16, addrA := 0, addrB := 8192 })] })] }

theorem wit_memory : alive Mode.solo = true ∧ pcServes (refreshing .solo .awake 2) 0 = true ∧ (stack (refreshing .solo .awake 2) 0).sr = .awake ∧
    urgentWaits (noteLate 0 [] (atRefresh 0 (refreshing .solo .awake 2))) [] = false ∧
    urgentWaits (noteLate 0 [⟨.compositor 0, 0⟩] (atRefresh 0 { refreshing .solo .awake 2 with mtb := { State.reset.mtb with t := secUnit } })) [⟨.compositor 0, 0⟩] = true ∧
    (pcOf (refreshing .solo .awake 2) 0).owed < 3 ∧ 3 ≤ (pcOf (refreshing .solo .awake 3) 0).owed ∧
    (stack (refreshing .quiescent .entering 0) 0).sr = .entering ∧ (stack (refreshing .quiescent .exiting 0) 0).sr = .exiting ∧
    (stack (refreshing .safeHold .awake 0) 0).sr ≠ .asleep ∧ stackAt (refreshing .solo .awake 0) 0 = 0 ∧ portOf (.encode 18) = none ∧
    portAwake .quiescent 46 = true ∧ portOf .hostDma = some 46 ∧ patrolPc (refreshing .solo .awake 0) = 0 := by decide
theorem wit_access : mayAccess (holdingSlot (refreshing .solo .awake 0)) .hostDma 0 = true ∧
    mayAccess (holdingSlot (refreshing .solo .awake 0)) (.compositor 0) 0 = true ∧
    mayAccess (holdingSlot (refreshing .solo .awake 0)) .pairTransmit 0 = true ∧
    mayAccess (holdingSlot (refreshing .solo .awake 0)) .management 0 = false := by decide
theorem wit_reading :
    nextBand (stack (refreshing .solo .awake 0) 0).band (-40) = (stack (refreshing .solo .awake 0) 0).band ∧
    nextBand (stack (refreshing .solo .awake 0) 0).band 120 ≠ (stack (refreshing .solo .awake 0) 0).band ∧
    (refreshing .solo .awake 0).drm.remapActive = true ∧ (refreshing .configure .awake 0).mode.admitted = false := by decide

/-! Witnesses of EthernetEventsComplete. -/

/-- M3 with Ethernet port 0 in a state, paused. -/
def ethIn (st : Nat) : State := { inMode .solo with lnk := { State.reset.lnk with eth := [(0, { st := st, pausedAt := 0, pausedUntil := some (200 * usUnit) })] } }

theorem wit_ethernet : (tget (ethIn 3).lnk.eth 0).map (fun x => (x.st, x.pausedUntil, x.longReported)) = some (3, some (200 * usUnit), false) ∧
    (tget (ethIn 2).lnk.eth 0).map (fun x => x.st) = some 2 ∧ mayLink (ethIn 2) 0 = true ∧ 0 + 100 * usUnit < 200 * usUnit := by decide

/-! Witnesses of ValsinEventsComplete. -/

/-- M3 with Valsin port 0 as given. -/
def valIn (x : ValPort) : State := { inMode .solo with lnk := { State.reset.lnk with vals := [(0, x)] } }

/-- An empty link frame with a check value. -/
def frame0 (crc : Nat) : LinkFrame := { kind := 0, cls := 0, seq := 0, len := 0, flags := 0, ack := 0, nak := 0, reserved := [], payload := [], crc := crc, msg := none }

theorem wit_valsin : valsinMode Mode.solo = true ∧ (valPort (valIn { st := 2, nak := some 3, step := 2 }) 0).st = 2 ∧
    (valPort (valIn { st := 2, nak := some 3, step := 2 }) 0).nak.isSome = true ∧ 2 ≤ (valPort (valIn { st := 2, nak := some 3, step := 2 }) 0).step ∧
    0 < valsinLanes 0 ∧ (valPort (valIn { st := 1, entering := true, step := 1, target := some 2 }) 0).target = some 2 ∧
    (valPort (valIn { st := 1, entering := true, step := 1 }) 0).step ≠ 0 ∧ (valPort (valIn { st := 1, entering := true, step := 0 }) 0).step = 0 ∧
    (valPort (valIn { st := 1, entering := true, step := 0 }) 0).entering = true ∧ (valPort (valIn { st := 3 }) 0).st = 3 := by decide
theorem wit_sleep_entry : ({ valIn { st := 2 } with mode := { State.reset.mode with mode := .quiescent } }).mode.mode = .quiescent ∧
    (valPort (valIn { st := 2 }) 0).txAsleep = false ∧ (valPort (valIn { st := 2 }) 0).queue = [] := by decide
theorem wit_retrain_waits : (valPort (valIn { st := 1, retrain := [⟨0, 0, 0, 0, 0, []⟩] }) 0).retrain ≠ [] := by decide
theorem wit_link_frames : frameGood (frame0 0) = false ∧
    frameGood { frame0 0 with kind := 1, cls := 1, crc := crcPresetOf 5 (headerBytes { frame0 0 with kind := 1, cls := 1 }) } = true := by
  constructor
  · decide
  · simp [frameGood, headerBytes, frame0]

/-! Witnesses of TreeEventsComplete. -/

/-- A member of a tree whose VH0 and VH1 are up, with an action held, a barrier arrived and requests of its own on their way. -/
def member : State :=
  { treed false with
    lnk := { State.reset.lnk with vals := [(1, { taken := true, st := 2 }), (2, { taken := true, st := 2 })] }
    hrw := { (treed false).hrw with pending := [{ action := ⟨7, 1, 1, 0, 0⟩ }], vh0UpAt := some 0, announced := false, portsUp := 3, down := 2, barriers := [(0, {})], schedules := [ask []], broadcasts := [ask []] } }

theorem wit_member : hrwRuns member.mode.mode = true ∧ member.hrw.role = 2 ∧ vhUp member 0 = true ∧ member.hrw.vh0UpAt.isSome = true ∧
    member.hrw.announced = false ∧ member.hrw.noRoot = false ∧ inTree member = true ∧ thas member.hrw.barriers 0 = true ∧
    (member.hrw.pending.find? (fun p => p.action.seq == 7)).isSome = true ∧ alive member.mode.mode = true ∧
    member.mtb.t ≤ actionTime ⟨7, 1, 1, 0, 0⟩ ∧ member.hrw.root = false ∧ (broadcastDown 0 0 [] (treed false)).hrw.broadcasts = [] ∧
    (broadcastDown 0 0 [] member).hrw.broadcasts = [ask []] ∧ (treed true).hrw.root = true ∧ (treed true).hrw.pending.length < 4 := by decide
theorem wit_child : (childPorts member).contains 1 = true ∧ vhUp member 1 = true ∧ (childrenUp member).contains 1 = true := by decide

/-! Witnesses of FaultEventsComplete. -/

theorem wit_faults : alive Mode.solo = true ∧ reservedSource 0x010 = false ∧ (inMode .solo).flt.unsupervised.contains 0x010 = false ∧
    minimumSeverity 0x010 = 0 ∧ reservedSource 0x066 = false ∧ minimumSeverity 0x066 ≠ 0 ∧
    ({ State.reset.flt with pulseUntil := some 5 } : Flt).pulseUntil = some 5 ∧
    ({ State.reset.flt with retrying := [faultKey 1 0] } : Flt).retrying.contains (faultKey 1 0) = true := by decide

/-! Witnesses of BootEventsComplete. -/

/-- A firmware slot whose checks pass, or fail at the read. -/
def fwSlot (readError : Bool) : FwSlot :=
  { slot := 0, readError := readError, magic := 0x46573831, format := 1, part := 8416, bodyLen := 0, svn := 0, keyOk := true, signatureOk := true
    measurement := [], selectors := [], uniqueSecretOk := true, fusesOk := true, svcCommand := [], svcSignatureOk := false, fuseProgramOk := true }

/-- A configuration slot that fails at the read. -/
def cfgSlot : CfgSlot :=
  { slot := 0, readError := true, header := [], ownerKeys := [], signatureOk := true, sigMagic := 0, sigAlg := 0, sigLen := 0
    programOk := true, measurement := [], area := [], keyTags := [], selectors := [] }

/-- A configuration header without records, its key hash all zeros, that an unenrolled device takes. -/
def cfgHeader : Bytes :=
  le 4 0x48434331 ++ le 2 1 ++ le 2 256 ++ le 4 8416 ++ le 4 36 ++ le 4 1 ++ [1, 0] ++ le 2 1 ++ zeros 16 ++ zeros 24 ++ zeros 64

/-- A configuration slot that passes on an unenrolled device: one enrolment record. -/
def cfgGood : CfgSlot :=
  { cfgSlot with readError := false, header := cfgHeader, ownerKeys := [⟨0x4F4B4531, 0x0087, 2592, zeros 64⟩], sigMagic := 0x53474E31, sigAlg := 0x0087, sigLen := 4627
                 area := le 2 0x0D20 ++ le 2 32 ++ zeros 32 }

theorem wit_boot_states : tgetD (inMode .boot).sec.fwFail 0 0 = 0 ∧ (readSelector [] (inMode .boot)).sec.selFw = 0 ∧
    firmwareCode (fwSlot true) 0 ≠ 1 ∧ firmwareCode (fwSlot false) 0 = 1 ∧ (inMode .configure).mode.configured = false ∧ (readSelector [] (inMode .configure)).sec.selCfg = 0 ∧
    configCode cfgSlot true (readSelector [] (inMode .configure)) ≠ 1 ∧ configCode cfgGood true (readSelector [] (inMode .configure)) = 1 ∧ taking.mode.admitted = false ∧ taking.mode.complete = false ∧ selectedSource taking = 0 ∧
    ({ taking with mtb := { taking.mtb with servo := 2 }, mode := { taking.mode with admitted := true } } : State).mtb.servo = 2 ∧
    ({ (inMode .solo) with sec := { State.reset.sec with antiRollback := [0] } } : State).sec.antiRollback = [0] := by decide

/-! Witnesses of UpdateAndModeEventsComplete. -/

/-- M8 with an item in a stage of its update, and a request held. -/
def updateIn (u : Update) : State :=
  { inMode .update with sec := { State.reset.sec with update := some u }
                        mode := { (inMode .update).mode with held := some { kind := .quiescent, req := ask [] } } }

theorem wit_updates : (updateIn { begun := some (ask []) }).mode.held.isSome = true ∧ alive Mode.update = true ∧
    (updateIn { begun := some (ask []) }).sec.update = some { begun := some (ask []) } ∧ ({ begun := some (ask []) } : Update).erased = false ∧
    itemCode { kind := 0, erased := true, ended := some (ask []) } (fwSlot true) cfgSlot (updateIn {}) ≠ 1 ∧
    itemCode { kind := 0, len := 4, received := 4, erased := true, ended := some (ask []) } (fwSlot false) cfgSlot (updateIn {}) = 1 := by decide

/-! Witnesses of TransportsComplete. -/

/-- M3 with partition 0 on function 0 and management port 0, its key, and session 0 open or not. -/
def sessioned (opened : Bool) (most : Nat) : State :=
  { serving .solo with hst := { State.reset.hst with
      parts := [(0, { bound := true, function := some 0, mg := 1, sessions := most, key := some [] }), (1, { lockout := true })]
      sessions := [(0, { partition := 0, opened := opened })] } }

theorem wit_transports : boundPart (sessioned true 2) 0 = some 0 ∧ serves Mode.solo = true ∧ (part (sessioned true 2) 0).bound = true ∧
    bitOf (part (sessioned true 2) 0).mg 0 = true ∧ (part (sessioned true 2) 0).lockout = false ∧ (sessioned true 2).hst.mgFaults.contains 0 = false ∧
    (sessionsOf (sessioned true 2) 0).length < (part (sessioned true 2) 0).sessions ∧ (part (sessioned true 1) 0).sessions ≤ (sessionsOf (sessioned true 1) 0).length ∧
    freeSession (sessioned true 2) = some 1 ∧ bitOf (part (sessioned true 2) 0).mg 1 = false ∧
    (tget (sessioned false 2).hst.sessions 0).map (fun x => (x.opened, x.hostCtr)) = some (false, 0) ∧ (part (sessioned false 2) 0).key.isSome = true ∧
    (tget (sessioned true 2).hst.sessions 0).map (fun x => x.opened) = some true ∧ (part (sessioned true 2) 1).lockout = true := by decide

/-! Witnesses of EveryCommandCompletes. -/

theorem wit_every_command : runs (exec (.poisonedRead hbmEnd .audio) State.reset) = false ∧
    runs (exec (.ppsOutFall) State.reset) = true := by decide

/-! Witnesses of EmptyQueuePassesACycle. -/

theorem wit_idle : (serving .solo).pending = [] ∧ alive (serving .solo).mode.mode = true ∧
    State.reset.pending = [] ∧ State.reset.mode.mode = .hold := by decide

/-! Witnesses of EveryStepKeepsSound. -/

theorem wit_sound_step : hbmWf State.reset.drm.mem = true ∧ Safety.outputsSafe State.reset = true ∧ Safety.claimFree State.reset = true ∧
    State.reset.pending.all Instr.WellFormed = true ∧ runs (step State.reset) = true := by decide

/-! Witnesses of FusesNeverFall. -/

theorem wit_fuses_step : runs (step State.reset) = true ∧ runs (step { State.reset with pending := [.powerRemoved] }) = true := by decide

/-! Witnesses of TheQueueLosesItsFront. -/

theorem wit_queue : runs (step { State.reset with pending := [.ppsOutFall, .powerRemoved] }) = true := by decide

/-! Witnesses of TicksFireInTheirCycle. -/

/-- M3 with the MTB one increment on. -/
def counting : State := { serving .solo with mtb := { State.reset.mtb with t := 100, inc := 7 } }

theorem wit_tick_cycles : alive counting.mode.mode = true ∧ 0 < counting.mtb.inc ∧ counting.mtb.t ≤ 120 ∧ 120 + counting.mtb.inc ≤ mtbSpan ∧
    (atTime 120 counting).map (fun u => u.mtb.t) = some 121 ∧ 115 ≤ 121 ∧ 121 < 115 + 7 := by decide

/-! Witnesses of TimebaseFromHoldToHalt. -/

theorem wit_timebase : State.reset.mode.mode = .hold ∧ State.reset.pending = [] ∧ 1 ≤ modeCode Mode.service ∧
    modeCode Mode.service ≤ 10 ∧ (serving .service).pending = [] := by decide

/-! Witnesses of EnteringAMode. -/

theorem wit_entering_tripped : (enterMode .solo { serving .solo with pins := { State.reset.pins with tripped := true } }).pins.forcedSafe = true := by decide
theorem wit_entering : Mode.resync ∈ [Mode.standby, .resync, .safeHold, .halt] ∧
    (enterMode .resync { serving .solo with red := { State.reset.red with claim := 5 } }).mode.prev = .solo := by decide

/-! Witnesses of SeverityDecidesTheMode. -/

/-- M4 with one report due. -/
def reporting (src : Nat) : State := { inMode .active with flt := { State.reset.flt with due := [{ source := src }] } }

theorem wit_severity : alive (reporting 37).mode.mode = true ∧ ([37, 54, 102, 124].all (fun k => !reservedSource k &&
      !(reporting k).flt.unsupervised.contains k && !(reporting k).flt.fenced.contains (faultKey k 0))) = true ∧
    severityOf (reporting 37) 37 0 = 5 ∧ severityOf (reporting 54) 54 0 = 4 ∧ severityOf (reporting 102) 102 0 = 7 ∧
    severityOf (reporting 124) 124 0 = 6 := by decide

/-! Witnesses of CheckValuePresets. -/

theorem wit_presets : [1, 2, 3, 4, 5].map (fun k => clamp 0 5 (u8 [0, 0, BitVec.ofNat 8 k] 2)) = [1, 2, 3, 4, 5] := by decide

/-! Witnesses of CheckValueOfASpan. -/

theorem wit_span : 1 ≤ (crcPreset 1).w ∧ (crcPreset 4).w ≤ 64 ∧
    (0x104C11DB7 % 2 ^ 32 = (crcPreset 1).g % 2 ^ 32) ∧ (({ width := 8, init := 0x1FF, run := 0xFF } : CvUnit).run = 0x1FF % 2 ^ 8) ∧
    ruleResult (crcPreset 1) 8 [0x31] = crcOf (crcPreset 1) 8 [0x31] := by decide

/-! Witnesses of TargetFramesResolve. -/

theorem wit_targets : resolveTarget (2 ^ 32 + 5) 5 = (2 ^ 32 + 5, false) ∧ resolveTarget (2 ^ 32 + 5) 4 = (2 ^ 32 + 5, true) ∧
    resolveTarget 10 (2 ^ 31 + 9) = (2 ^ 31 + 9, false) ∧ resolveTarget (2 ^ 31) 1 = (2 ^ 31, true) ∧
    (2 ^ 31 + 9) % 2 ^ 32 = 2 ^ 31 + 9 ∧ 2 ^ 31 + 9 < 10 + 2 ^ 31 ∧ 2 ^ 31 ≤ 0 + 2 ^ 31 := by decide

/-! Witnesses of HostWritesLandInHbm. -/

/-- M4 with channel 0 composed with one graphics slot at address 4,096, owned by the caller on function 0. -/
def slotted : State := { serving .active with cmps := [(0, { g := [(0, { maxW := 64, maxH := 64, addrA := 4096, addrB := 4096 })] })] }

/-- A request over function 0 to write two bytes at address 4,096. -/
def write2 : Req := ask ([0, 16, 0, 0, 0, 0, 0, 0] ++ [2, 0, 0, 0] ++ [0, 0, 0, 0] ++ [7, 9])

theorem wit_hbm_writes : partOf slotted write2.transport = some 0 ∧ write2.hdrPartition = 0 ∧ bufLegal slotted.mode.mode = true ∧
    deaf slotted.mode.mode = false ∧ min (u32 (payloadOf write2) 8) (min 4064 ((payloadOf write2).length - 16)) = 2 ∧
    inSlot (slotTaken write2 0 slotted) 0 (u64 (payloadOf write2) 0) 2 = true ∧ u64 (payloadOf write2) 0 + 2 ≤ hbmEnd ∧
    stacksAwake (slotTaken write2 0 slotted) 4096 2 = true ∧
    stacksAwake (setStack slotted (channelOf slotted 4096 / 32) (fun x => { x with sr := .asleep })) 4096 2 = false ∧
    runs (exec (.poisonedRead 4096 (.compositor 0)) slotted) = true := by decide

/-! Witnesses of PairInfoReply. -/

/-- A state served in a mode, with partition 3 on function 1 beside the owner on function 0. -/
def ownerAndThree (m : Mode) : State := { serving m with hst := { State.reset.hst with
  parts := [(0, { bound := true, function := some 0 }), (3, { bound := true, function := some 1 })] } }

/-- A request of partition 3 over function 1. -/
def askOther (payload : Bytes) : Req := { ask payload with transport := 1, hdrPartition := 3 }

theorem wit_pair_info : Mode.solo ∈ infoModes ∧ Mode.safeHold ∈ infoModes ∧ partOf (ownerAndThree .solo) (ask []).transport = some 0 ∧
    (ask []).hdrPartition = 0 ∧ (ownerAndThree .solo).flt.due = [] ∧ Mode.configure ∈ everyMode ∧
    partOf (ownerAndThree .configure) (askOther []).transport = some 3 ∧ (askOther []).hdrPartition = 3 ∧
    Mode.service ∈ [Mode.configure, .service] := by decide

/-! Witnesses of PortInfoReply. -/

theorem wit_port_info : Mode.solo ∈ infoModes ∧ partOf (ownerAndThree .solo) (ask [2, 9]).transport = some 0 ∧ (ask [2, 9]).hdrPartition = 0 ∧
    (ownerAndThree .solo).flt.due = [] ∧ min 1 (u8 (payloadOf (ask [2, 9])) 0) = 1 ∧ min 5 (u8 (payloadOf (ask [2, 9])) 1) = 5 ∧
    min 1 (u8 (payloadOf (ask [0, 15])) 0) = 0 ∧ min 15 (u8 (payloadOf (ask [0, 15])) 1) = 15 ∧
    partOf (ownerAndThree .service) (askOther []).transport = some 3 := by decide

/-! Witnesses of MailboxRefusals. -/

theorem wit_refusals : (mailRow (.hstModeReqRun (ask []))).map (fun w => (w.opcode, w.ownerOnly)) = some (0x0D33, true) ∧
    (ownerAndThree .solo).flt.due = [] ∧ Mode.solo ∈ everyMode ∧ partOf (ownerAndThree .solo) 1 = some 3 ∧ (ask []).hdrPartition ≠ 3 ∧
    Mode.solo ∉ ([.quiescent] : List Mode) ∧ Mode.boot ∉ everyMode ∧ partOf (ownerAndThree .solo) 5 = none := by decide

/-! Witnesses of RepliesKeepRequestOrder. -/

/-- The owner's partition with two requests waiting. -/
def queued : State := { serving .solo with hst := { State.reset.hst with
  parts := [(0, { bound := true, function := some 0, slots := [⟨0, 1, 7, none⟩, ⟨0, 2, 8, none⟩] })] } }

theorem wit_replies : (part queued 0).slots = [⟨0, 1, 7, none⟩, ⟨0, 2, 8, none⟩] ∧
    ¬ ((0 : Nat) = 0 ∧ (1 : Nat) = 2 ∧ (7 : Nat) = 8) ∧ (part (slotTaken (ask []) 0 (serving .solo)) 0).slots = [⟨0, 1, 7, none⟩] ∧
    (ask []).transport < 16 := by decide

/-! Witnesses of PartitionsSeeOnlyTheirOwn. -/

theorem wit_isolation : caller (ownerAndThree .solo) 1 = some 3 ∧ (ownerAndThree .solo).flt.due = [] ∧ ownsChannel (ownerAndThree .solo) 3 0 = false ∧
    0x4304 % 4 = 0 ∧ 0x4000 ≤ 0x4304 ∧ 0x4304 < 0x7000 := by decide

/-! Witnesses of ABlendLiesBetweenItsSamples. -/

theorem wit_blend : (64 : Nat) ≤ 255 ∧ (4 : Nat) ≤ 512 ∧ (512 : Nat) ≤ 1019 ∧
    [(255, 4), (0, 1019)].all (fun l : Nat × Nat => decide (l.1 ≤ 255 ∧ 4 ≤ l.2 ∧ l.2 ≤ 1019)) = true := by decide

/-! Witnesses of GuidesLieBeyondDirectSearch. -/

theorem wit_guides : guidesOf [(300, 0), (300, 0), (300, 0), (0, 0), (-300, 8), (-300, 8)] = [(300, 0), (-300, 8)] ∧
    (3 : Nat) ≤ 5 := by decide


end Sys2Proof.Tests
end

section
/-! The order of bytes, the configuration records and the register window. -/

namespace Sys2Proof.Proofs

open Sys2Proof Sys2Proof.Machine Sys2Proof.Safety

/-! ### Fields of bytes (R7) -/

@[simp] theorem le_length (n v : Nat) : (le n v).length = n := by
  induction n generalizing v with
  | zero => rfl
  | succ n ih => simp [le, ih]

/-- Byte i of a number laid out holds its bits from 8i on. -/
theorem le_getElem? {n i : Nat} (v : Nat) (h : i < n) : (le n v)[i]? = some (BitVec.ofNat 8 (v / 256 ^ i)) := by
  induction n generalizing v i with
  | zero => omega
  | succ n ih =>
    cases i with
    | zero => simp [le]
    | succ i =>
      have hdiv : v / 256 / 256 ^ i = v / 256 ^ (i + 1) := by rw [Nat.div_div_eq_div_mul, Nat.pow_succ']
      simp [le, ih (v / 256) (Nat.lt_of_succ_lt_succ h), hdiv]

/-- The byte that stands right behind the bytes before it. -/
theorem u8_append_cons (before after : Bytes) (x : Byte) : u8 (before ++ x :: after) before.length = x.toNat := by
  simp [u8]

/-- A number laid out as a field reads back modulo the field's range, whatever stands around it. -/
theorem leAt_append_le (n v : Nat) (before after : Bytes) :
    leAt (before ++ le n v ++ after) before.length n = v % 256 ^ n := by
  induction n generalizing v before with
  | zero => simp [leAt, Nat.mod_one]
  | succ n ih =>
    have hrest : leAt (before ++ le (n + 1) v ++ after) (before.length + 1) n = v / 256 % 256 ^ n := by
      simpa [le] using ih (v / 256) (before ++ [BitVec.ofNat 8 v])
    have hlow : u8 (before ++ le (n + 1) v ++ after) before.length = v % 256 := by
      simp [le, u8_append_cons]
    rw [leAt, hlow, hrest, Nat.pow_succ', Nat.mod_mul]

/-- Settles O50, by induction on the number of bytes. -/
theorem fieldsAreLittleEndian : Obligations.FieldsAreLittleEndian := by
  unfold Obligations.FieldsAreLittleEndian
  exact fun n v before after => ⟨le_length n v, fun _ => le_getElem? v, leAt_append_le n v before after⟩

/-! ### Records: what a record command does while records are taken -/

section Records

variable {i : Instr} {type n : Nat} {b : Bytes} {body cfg : State → State} {used : State → Bool}
  {rule : Bytes → State → State} {s t : State}

/-- A record command while records are taken: its rule acts on the state whose image the record has joined. -/
theorem exec_recordCommand (hexec : exec i s = recordCommand type b rule s) (hopen : recordsOpen s = true)
    (hrule : rule b (joinImage type b s) = t) : exec i s = .next (settle t) := by
  rw [hexec, recordCommand_open _ _ _ _ hopen, hrule, done]

/-- A record of at least the size of its table is judged by the body of its rule. -/
theorem exec_record (hexec : exec i s = recordCommand type b rule s) (hrule : rule b = sized n b body)
    (hopen : recordsOpen s = true) (hlen : n ≤ b.length) (hbody : body (joinImage type b s) = t) :
    exec i s = .next (settle t) :=
  exec_recordCommand hexec hopen (by rw [hrule, sized_of_le _ _ _ _ hlen, hbody])

/-- A record for an object that no record has used configures it. -/
theorem exec_record_new (hexec : exec i s = recordCommand type b rule s)
    (hrule : rule b = sized n b (fun t => if used t = true then orphan t else cfg t))
    (hopen : recordsOpen s = true) (hlen : n ≤ b.length) (hnew : used (joinImage type b s) = false)
    (hcfg : cfg (joinImage type b s) = t) : exec i s = .next (settle t) :=
  exec_record hexec hrule hopen hlen (by simp only [hnew, Bool.false_eq_true, if_false, hcfg])

end Records

/-- Settles O8: each record is new to its object, so the body of its rule configures the object. -/
theorem deviceRecordsTaken : Obligations.DeviceRecordsTaken := by
  unfold Obligations.DeviceRecordsTaken
  refine ⟨?gpio, ?supply, ?mtb, ?memory, ?general, ?severity, ?single, ?paired, ?hedgerow, ?qosPort, ?valsin, ?quota⟩
  case gpio => exact fun b s hopen hlen hnew => exec_record_new rfl rfl hopen hlen hnew rfl
  case supply => exact fun b s hopen hlen hnew => exec_record_new rfl rfl hopen hlen hnew rfl
  case mtb =>
    exact fun b s hopen hlen hnew =>
      ⟨_, exec_record_new rfl rfl hopen hlen hnew rfl, rfl, rfl, rfl, rfl, rfl, rfl, rfl, rfl⟩
  case memory => exact fun b s hopen hlen hnew => exec_record_new rfl rfl hopen hlen hnew rfl
  case general => exact fun b s hopen hlen hnew => exec_record_new rfl rfl hopen hlen hnew rfl
  case severity =>
    intro b s hopen hlen hnamed hnew
    exact exec_record rfl rfl hopen hlen (if_neg (by simpa [hnamed] using hnew))
  case single =>
    intro b s hopen hlen hnew hsingle
    exact exec_record_new rfl rfl hopen hlen hnew (by simp [applied, hsingle])
  case paired =>
    intro b s hopen hlen hnew hpaired
    have hset : decide (1 ≤ u8 b 0) = true := decide_eq_true hpaired
    exact ⟨_, exec_record_new rfl rfl hopen hlen hnew (if_pos hset), rfl, hset, rfl, rfl, rfl⟩
  case hedgerow =>
    exact fun b s hopen hlen hnew =>
      ⟨_, _, exec_record_new rfl rfl hopen hlen hnew rfl, rfl, rfl, rfl, rfl, rfl, rfl⟩
  case qosPort => exact fun b s hopen hlen hnew => exec_record_new rfl rfl hopen hlen hnew rfl
  case valsin => exact fun b s hopen hlen hnew => ⟨_, rfl, exec_record_new rfl rfl hopen hlen hnew rfl⟩
  case quota => exact fun b s hopen hlen hnew => exec_record_new rfl rfl hopen hlen hnew rfl

@[simp] theorem joinImage_enc (type : Nat) (b : Bytes) (s : State) : (joinImage type b s).enc = s.enc := rfl
@[simp] theorem joinImage_dec (type : Nat) (b : Bytes) (s : State) : (joinImage type b s).dec = s.dec := rfl

/-- Settles O9: a channel or decode record is taken in any case, the others where their object exists and has no such record. -/
theorem encodeRecordsTaken : Obligations.EncodeRecordsTaken := by
  unfold Obligations.EncodeRecordsTaken
  refine ⟨?channel, ?context, ?coding, ?colour, ?rate, ?coppice, ?decode⟩
  case channel =>
    intro b s hopen hlen
    exact ⟨_, exec_record rfl rfl hopen hlen rfl, rfl⟩
  case context =>
    intro b s n hopen hlen hn hfree htaken hroom
    subst hn
    have hnew : (thas s.enc.ctxs (clamp 0 127 (u8 b 0)) || !(chan s (clamp 0 63 (u8 b 1))).taken) = false := by
      simp [hfree, htaken]
    exact ⟨_, exec_record_new rfl rfl hopen hlen hnew (if_neg (Nat.not_le.mpr hroom)), rfl, rfl, rfl, rfl, rfl⟩
  case coding =>
    intro b s c hopen hlen hget hnew
    exact exec_record rfl rfl hopen hlen (by simp [hget, hnew])
  case colour =>
    intro b s hopen hlen htaken hnew
    have hused : (!(chan s (clamp 0 63 (u8 b 0))).taken || (chan s (clamp 0 63 (u8 b 0))).colourTaken) = false := by
      simp [htaken, hnew]
    exact ⟨_, exec_record_new rfl rfl hopen hlen hused rfl, fun h => ⟨rfl, rfl, rfl, rfl, rfl, rfl, rfl⟩⟩
  case rate =>
    intro b s c hopen hlen hget hnew
    exact exec_record rfl rfl hopen hlen (by simp [hget, hnew])
  case coppice =>
    intro b s hopen hlen htaken hnew
    have hused : (!(chan s (clamp 0 63 (u8 b 0))).taken || (tgetD s.enc.cps (clamp 0 63 (u8 b 0)) {}).taken) = false := by
      simp [htaken, hnew]
    exact exec_record_new rfl rfl hopen hlen hused rfl
  case decode =>
    intro b s hopen hlen
    refine ⟨_, exec_record rfl rfl hopen hlen rfl, ?_, ?_⟩
    · intro d hd
      simp [hd]
    · intro hd
      simp [hd]

/-- Whether a flow record of a taken channel is at fault (R226). -/
def flowFault (s : State) (known : Bool) (legs : List (Nat × Leg)) : Bool :=
  !known || legs.any (fun l => thas s.egr.legs l.1) || !legs.all (fun l => groupSuits s l.2)

/-- A flow record is at fault where its source is not taken, a leg is used already or a leg's group does not suit it (R226). -/
theorem flowFault_iff (s : State) (known : Bool) (legs : List (Nat × Leg)) : flowFault s known legs = true ↔
    known = false ∨ (∃ l ∈ legs, thas s.egr.legs l.1 = true) ∨ ∃ l ∈ legs, groupSuits s l.2 = false := by
  simp [flowFault, or_assoc]

/-- A flow record of a taken source, whose legs are free and suit their groups, is not at fault. -/
theorem flowFault_eq_false {s : State} {known : Bool} {legs : List (Nat × Leg)} (hknown : known = true)
    (hfree : ∀ l ∈ legs, thas s.egr.legs l.1 = false) (hsuits : ∀ l ∈ legs, groupSuits s l.2 = true) :
    flowFault s known legs = false := by
  rw [← Bool.not_eq_true, flowFault_iff]
  rintro (h | ⟨l, hl, h⟩ | ⟨l, hl, h⟩)
  · simp [hknown] at h
  · simp [hfree l hl] at h
  · simp [hsuits l hl] at h

/-- A flow record whose channel is taken marks the channel where it is at fault, and puts its legs otherwise (R226). -/
theorem recEgressFlow_of_channel {b : Bytes} {s : State} {c f : Nat} {known : Bool} {legs : List (Nat × Leg)} (hlen : 80 ≤ b.length)
    (hsource : flowChannel s (clamp 0 3 (u8 b 2)) (clamp 0 (if clamp 0 3 (u8 b 2) ≤ 1 then 127 else 255) (u16 b 4)) = some (c, known))
    (htaken : (chan s c).taken = true)
    (hf : f = if u8 b 7 ≤ 15 then even (clamp 0 4095 (u16 b 0)) else clamp 0 4095 (u16 b 0))
    (hlegs : legs = if u8 b 7 ≤ 15 then [(f, legOf s b c false), (f + 1, legOf s b c true)] else [(f, legOf s b c false)]) :
    recEgressFlow b s =
      if flowFault s known legs = true then applied (badFlow c s)
      else applied { s with egr := { s.egr with legs := legs.foldl (fun t l => tset t l.1 l.2) s.egr.legs } } := by
  rw [recEgressFlow, sized_of_le _ _ _ _ hlen]
  simp only [hsource, htaken, Bool.true_eq_false, if_false, decide_eq_true_eq, ← hf, ← hlegs]
  rfl

/-- A filter by two tests is one filter after the other. -/
theorem filter_and {α : Type} (p q : α → Bool) (l : List α) : l.filter (fun i => p i && q i) = (l.filter p).filter q := by
  rw [List.filter_filter]
  exact List.filter_congr (fun i _ => Bool.and_comm (p i) (q i))

/-- Settles O11: each record's rule as it stands, the flow record through its faults and the channel record through its filters. -/
theorem networkAndHostRecordsTaken : Obligations.NetworkAndHostRecordsTaken := by
  unfold Obligations.NetworkAndHostRecordsTaken
  refine ⟨?egress, ?group, ?portClass, ?gates, ?ethernet, ?binding, ?partKey, ?mgPort, ?partChannel, ?key, ?enrol, ?enrolled⟩
  case egress =>
    rintro b s _ _ _ hopen hlen rfl rfl rfl
    refine ⟨fun hnone => exec_record rfl rfl hopen hlen (by simp only [hnone]), fun c known hsome => ⟨fun hfree => ?_, ?_⟩⟩
    · exact exec_record rfl rfl hopen hlen (by simp only [hsome, hfree, if_true])
    intro f legs htaken hf hlegs
    have hrule := recEgressFlow_of_channel hlen hsome htaken hf hlegs
    refine ⟨fun hknown hfree hsuits => ?_, fun hfault => ?_⟩
    · exact exec_recordCommand rfl hopen (hrule.trans (if_neg (Bool.eq_false_iff.mp (flowFault_eq_false hknown hfree hsuits))))
    · exact exec_recordCommand rfl hopen (hrule.trans (if_pos ((flowFault_iff _ _ _).mpr hfault)))
  case group =>
    rintro b s _ _ hopen hlen rfl rfl
    exact exec_record rfl rfl hopen hlen rfl
  case portClass =>
    rintro b s _ _ hopen hlen rfl rfl
    exact exec_record rfl rfl hopen hlen rfl
  case gates =>
    rintro b s _ _ hopen hlen rfl rfl
    exact exec_record rfl rfl hopen hlen rfl
  case ethernet =>
    rintro b s _ _ _ hopen hlen rfl rfl rfl
    exact ⟨_, exec_record rfl rfl hopen hlen rfl, rfl, rfl, rfl, rfl, rfl, rfl, rfl, rfl, rfl, rfl, rfl, rfl, rfl, rfl, rfl⟩
  case binding =>
    rintro b s _ _ _ _ hopen hlen rfl rfl rfl rfl
    exact exec_record rfl rfl hopen hlen rfl
  case partKey =>
    rintro b s _ _ hopen hlen rfl rfl
    exact exec_record rfl rfl hopen hlen rfl
  case mgPort =>
    rintro b s _ _ hopen hlen rfl rfl
    exact ⟨_, exec_record rfl rfl hopen hlen rfl, rfl, rfl, rfl, rfl, rfl, rfl, rfl, rfl, rfl⟩
  case partChannel =>
    rintro b s _ hopen hlen rfl
    refine ⟨fun hzero => exec_record rfl rfl hopen hlen (if_pos hzero), ?_⟩
    rintro _ _ _ _ _ hnamed rfl rfl rfl rfl rfl
    refine exec_record rfl rfl hopen hlen ((if_neg hnamed).trans ?_)
    simp only [filter_and]
    rfl
  case key =>
    rintro b tagOk s _ _ hopen hlen rfl rfl
    refine ⟨fun hseen => ?_, fun hnew hgood => ?_, fun hnew hbad => ?_⟩
    · exact exec_record rfl rfl hopen hlen (if_pos hseen)
    · exact exec_record_new rfl rfl hopen hlen hnew (if_pos hgood)
    · exact exec_record_new rfl rfl hopen hlen hnew (if_neg (Bool.eq_false_iff.mp hbad))
  case enrol =>
    intro b s hmode hfuse
    exact (if_pos ⟨hmode, hfuse⟩).trans (apply_ite Host.Outcome.next _ _ _).symm
  case enrolled =>
    intro b s hopen hfuse
    have hshut : ¬ (s.mode.mode = .configure ∧ s.sec.fuses.enrolled = false) := by simp [hfuse]
    exact (if_neg hshut).trans (recordCommand_open _ _ _ _ hopen)

/-! ### The register window -/

/-- Answers with equal states are equal. -/
theorem next_eq {s t : State} (h : s = t) : (.next s : Outcome) = .next t := congrArg _ h

/-- An aligned offset in the window is its own word's offset. -/
theorem alignedOffset {off : Nat} (hoff : off < 65536) (halign : off % 4 = 0) : off % 65536 / 4 * 4 = off := by omega

/-- A read by a transport that has a partition: the word, the latches of the read and what the read clears (R441). -/
theorem readAt_caller {tr p off : Nat} {s : State} (hcaller : caller s tr = some p) (hoff : off < 65536) (halign : off % 4 = 0) :
    readAt tr off s =
      setView (readClear tr p off (readLatch tr p off s)) tr (fun x => { x with last := [readWord s tr p off] }) := by
  simp only [readAt, hcaller, alignedOffset hoff halign, readReg]

/-- A transport that sees no window reads nothing. -/
theorem readAt_none {tr : Nat} {s : State} (off : Nat) (hcaller : caller s tr = none) (hbound : unboundFunction s tr = false) :
    readAt tr off s = s := by
  simp [readAt, hcaller, hbound]

/-- A function that no binding record names reads its identity block and zero elsewhere (R428). -/
theorem readAt_unbound {tr : Nat} {s : State} (off : Nat) (hbound : unboundFunction s tr = true) :
    readAt tr off s = setView s tr (fun x => { x with last := [unboundWord s (off % 65536 / 4 * 4)] }) := by
  simp [readAt, caller_unbound hbound, hbound]

/-- A write by a transport that has a partition reaches the register at its offset (R441). -/
theorem writeAt_caller {tr p off : Nat} {s : State} (v : Nat) (hcaller : caller s tr = some p) (hoff : off < 65536)
    (halign : off % 4 = 0) : writeAt tr off v s = writeReg tr p off (v % 2 ^ 32) s := by
  simp only [writeAt, hcaller, alignedOffset hoff halign]

/-- A 32-bit value reaches the register whole. -/
theorem writeAt_word {tr p off v : Nat} {s : State} (hcaller : caller s tr = some p) (hoff : off < 65536) (halign : off % 4 = 0)
    (hv : v < 2 ^ 32) : writeAt tr off v s = writeReg tr p off v s := by
  rw [writeAt_caller v hcaller hoff halign, Nat.mod_eq_of_lt hv]

/-- The owner's read of CLK_MTB_FRAC answers the fraction and latches the rest of the MTB (R25). -/
theorem readAt_mtbFrac {tr : Nat} {s : State} (hcaller : caller s tr = some 0) :
    readAt tr 0x4104 s =
      setView (setLatches tr 0x4108 [nsOf s.mtb.t, loWord (secOf s.mtb.t), fieldOf 16 (hiWord (secOf s.mtb.t))] s) tr
        (fun x => { x with last := [clockWord s tr 0x4104] }) := by
  have hword : readWord s tr 0 0x4104 = clockWord s tr 0x4104 := rfl
  have hlatch : readLatch tr 0 0x4104 s =
      setLatches tr 0x4108 [nsOf s.mtb.t, loWord (secOf s.mtb.t), fieldOf 16 (hiWord (secOf s.mtb.t))] s := rfl
  have hclear (t : State) : readClear tr 0 0x4104 t = t := rfl
  rw [readAt_caller hcaller (by decide) (by decide), hword, hlatch, hclear]

/-- Settles O14, through what a read does for a caller, an unbound function and a transport without a window. -/
theorem windowReadsLatchAndClear : Obligations.WindowReadsLatchAndClear := by
  unfold Obligations.WindowReadsLatchAndClear
  refine ⟨?lowWord, ?readClear, ?mtbFrac, ?runLo, ?unbound, ?noWindow⟩
  case lowWord => exact fun tr p off s hcaller hoff halign => next_eq (readAt_caller hcaller hoff halign)
  case readClear => exact fun tr p off s hcaller hoff halign => next_eq (readAt_caller hcaller hoff halign)
  case mtbFrac => exact fun tr s hcaller => next_eq (readAt_mtbFrac hcaller)
  case runLo =>
    intro tr u s hu hsees
    have hguard : (decide (u < 64) && seesUnit s tr u) = true := by simp [hu, hsees]
    exact if_pos hguard
  case unbound => exact fun tr off s hbound => next_eq (readAt_unbound off hbound)
  case noWindow =>
    intro tr off s hcaller hbound
    have hstill (o : Nat) : (.next (readAt tr o s) : Outcome) = .next s := next_eq (readAt_none o hcaller hbound)
    exact ⟨hstill off, hstill off, hstill 0x4104⟩

/-- EGR_SEL_TYPE and EGR_SEL_INDEX lie in the low half of a selection, whatever its clear bit (R242). -/
theorem bitsOf_selection (v clear : Nat) : bitsOf (v % 65536 + clear * 65536) 14 12 = bitsOf v 14 12 ∧
    bitsOf (v % 65536 + clear * 65536) 11 0 = bitsOf v 11 0 := by
  simp only [bitsOf]
  omega

/-- A selection without its clear bit latches the object's counters (R242). -/
theorem selectStats_keep (tr p v : Nat) (s : State) :
    selectStats tr p (v % 65536) s = setLatches tr 0x3004 (statWords s p (bitsOf v 14 12) (bitsOf v 11 0))
      (setLatch tr 0x3000 (Nat.land (v % 65536) 0x17FFF) s) := by
  obtain ⟨htype, hindex⟩ := bitsOf_selection v 0
  have hclear : bitOf (v % 65536) 16 = false := by
    simp only [bitOf, beq_eq_false_iff_ne]; omega
  simp only [Nat.zero_mul, Nat.add_zero] at htype hindex
  simp [selectStats, htype, hindex, hclear]

/-- A selection with its clear bit latches the object's counters and clears them (R242). -/
theorem selectStats_clear (tr p v : Nat) (s : State) :
    selectStats tr p (v % 65536 + 65536) s = clearStats p (bitsOf v 14 12) (bitsOf v 11 0)
      (setLatches tr 0x3004 (statWords s p (bitsOf v 14 12) (bitsOf v 11 0))
        (setLatch tr 0x3000 (Nat.land (v % 65536 + 65536) 0x17FFF) s)) := by
  obtain ⟨htype, hindex⟩ := bitsOf_selection v 1
  have hclear : bitOf (v % 65536 + 65536) 16 = true := by
    simp only [bitOf, beq_iff_eq]; omega
  simp only [Nat.one_mul] at htype hindex
  simp [selectStats, htype, hindex, hclear]

/-! What a write of each register does (R441). -/

section Registers

variable (tr p v : Nat) (s : State)

theorem writeReg_errRelease : writeReg tr p 0x0808 1 s = releaseErr p s := by simp [writeReg, bitOf]
theorem writeReg_logSelect : writeReg tr p 0x0814 v s = selectLog tr p v s := by simp [writeReg]
theorem writeReg_sourceSelect : writeReg tr p 0x0840 v s = selectFaultSource tr p v s := by simp [writeReg]
theorem writeReg_statSelect : writeReg tr p 0x3000 v s = selectStats tr p v s := by simp [writeReg]
theorem writeReg_clkLost : writeReg tr p 0x4004 v s = if p = 0 then clearLost v s else s := by
  by_cases hp : p = 0 <;> simp [writeReg, hp]
theorem writeReg_monitorSelect : writeReg tr p 0x4018 v s = if p = 0 then selectMonitor tr v s else s := by
  by_cases hp : p = 0 <;> simp [writeReg, hp]
theorem writeReg_gpioOut : writeReg tr p 0x4304 v s =
    if p = 0 then { s with pins := { s.pins with gpioOut := bitsOf v 15 0 } } else s := by
  by_cases hp : p = 0 <;> simp [writeReg, hp]
theorem writeReg_delaySelect : writeReg tr p 0x6300 v s = if p = 0 then selectDelay tr v s else s := by
  by_cases hp : p = 0 <;> simp [writeReg, hp]

end Registers

/-- Settles O15, through what a write of each register does. -/
theorem selectionsAndWrites : Obligations.SelectionsAndWrites := by
  unfold Obligations.SelectionsAndWrites
  refine ⟨?stat, ?statClear, ?delay, ?monitor, ?log, ?source, ?release, ?lost, ?gpio, ?notOwner, ?runLo, ?runHi, ?runShut, ?write⟩
  case stat =>
    intro tr p v s hcaller
    have hv : v % 65536 < 2 ^ 32 := by omega
    refine next_eq ?_
    rw [writeAt_word hcaller (by decide) (by decide) hv, writeReg_statSelect, selectStats_keep]
  case statClear =>
    intro tr p v s hcaller
    have hv : v % 65536 + 65536 < 2 ^ 32 := by omega
    refine next_eq ?_
    rw [writeAt_word hcaller (by decide) (by decide) hv, writeReg_statSelect, selectStats_clear]
  case delay =>
    exact fun tr v s hcaller hv =>
      next_eq ((writeAt_word hcaller (by decide) (by decide) hv).trans (writeReg_delaySelect tr 0 v s))
  case monitor =>
    exact fun tr v s hcaller hv =>
      next_eq ((writeAt_word hcaller (by decide) (by decide) hv).trans (writeReg_monitorSelect tr 0 v s))
  case log =>
    exact fun tr p v s hcaller hv =>
      next_eq ((writeAt_word hcaller (by decide) (by decide) hv).trans (writeReg_logSelect tr p v s))
  case source =>
    exact fun tr p v s hcaller hv =>
      next_eq ((writeAt_word hcaller (by decide) (by decide) hv).trans (writeReg_sourceSelect tr p v s))
  case release =>
    exact fun tr p s hcaller =>
      next_eq ((writeAt_word hcaller (by decide) (by decide) (by decide)).trans (writeReg_errRelease tr p s))
  case lost =>
    exact fun tr v s hcaller hv =>
      next_eq ((writeAt_word hcaller (by decide) (by decide) hv).trans (writeReg_clkLost tr 0 v s))
  case gpio =>
    exact fun tr v s hcaller hv =>
      next_eq ((writeAt_word hcaller (by decide) (by decide) hv).trans (writeReg_gpioOut tr 0 v s))
  case notOwner =>
    intro tr p v s hcaller hp
    have hignored {off : Nat} (hoff : off < 65536) (halign : off % 4 = 0) (hreg : writeReg tr p off (v % 2 ^ 32) s = s) :
        writeAt tr off v s = s := (writeAt_caller v hcaller hoff halign).trans hreg
    exact ⟨next_eq (hignored (by decide) (by decide) (by rw [writeReg_clkLost, if_neg hp])),
      next_eq (hignored (by decide) (by decide) (by rw [writeReg_gpioOut, if_neg hp])),
      next_eq (hignored (by decide) (by decide) (by rw [writeReg_delaySelect, if_neg hp])),
      next_eq (hignored (by decide) (by decide) (by rw [writeReg_monitorSelect, if_neg hp]))⟩
  case runLo =>
    intro tr u v s hu hsees hwrite
    have hguard : (decide (u < 64) && seesUnit s tr u && runWritable s u) = true := by simp [hu, hsees, hwrite]
    exact next_eq (if_pos hguard)
  case runHi =>
    intro tr u v s hsees hwrite
    have hguard : (seesUnit s tr u && runWritable s u) = true := by simp [hsees, hwrite]
    exact next_eq (if_pos hguard)
  case runShut =>
    intro tr u v s hshut
    exact ⟨next_eq (by simp [stageRun, hshut]), next_eq (by simp [loadRun, hshut])⟩
  case write =>
    intro tr p off v s hcaller hoff halign hv
    exact congrArg done (writeAt_word hcaller hoff halign hv)

end Sys2Proof.Proofs
end

section
/-! The soundness of the state over a step, entry to a mode, the reaction to one report, the owner's requests, boot and update. -/

namespace Sys2Proof.Proofs

open Sys2Proof Sys2Proof.Machine Sys2Proof.Safety

/-! ### Soundness (R12, R17, R18, R300) -/

/-- A step takes the front of the queue, and keeps the rest of it with all that commands and idle cycles keep. -/
theorem step_keeps {s t : State} (hstep : step s = .next t) : Keeps { s with pending := s.pending.drop 1 } t := by
  unfold step at hstep
  split at hstep
  case h_1 hpending =>
    cases hstep
    have hrest : s.pending.drop 1 = s.pending := by simp [hpending]
    rw [hrest]
    exact idle_keeps s
  case h_2 c rest hpending =>
    rw [hpending]
    exact exec_keeps c _ t hstep

/-- What is kept is all that soundness asks. -/
theorem sound_of_keeps {s t : State} (h : Keeps s t) (hsound : Sound s) : Sound t := by
  obtain ⟨hmem, hsafe, hclaim, hqueue⟩ := hsound
  exact ⟨h.mem hmem, h.safe hsafe, h.claim hclaim, by rw [h.pending]; exact hqueue⟩

/-- A sound state is sound with fewer commands waiting. -/
theorem sound_drop {s : State} (n : Nat) (hsound : Sound s) : Sound { s with pending := s.pending.drop n } := by
  obtain ⟨hmem, hsafe, hclaim, hqueue⟩ := hsound
  rw [List.all_eq_true] at hqueue
  exact ⟨hmem, hsafe, hclaim, List.all_eq_true.mpr fun c hc => hqueue c (List.mem_of_mem_drop hc)⟩

/-- Settles O39: each of the four parts evaluates. -/
theorem soundAtReset : Obligations.SoundAtReset := by
  unfold Obligations.SoundAtReset
  exact ⟨rfl, rfl, rfl, rfl⟩

/-- Settles O40: a step keeps, of the state without the command it takes, all that soundness asks. -/
theorem everyStepKeepsSound : Obligations.EveryStepKeepsSound := by
  unfold Obligations.EveryStepKeepsSound
  exact fun s t hsound hstep => sound_of_keeps (step_keeps hstep) (sound_drop 1 hsound)

/-- Settles O58: each value stands in the reset state. -/
theorem resetLeavesHold : Obligations.ResetLeavesHold := by
  unfold Obligations.ResetLeavesHold
  and_intros <;> rfl

/-! ### Entry to a mode (R12, R13, R17, R18) -/

theorem holdsNoClaim_iff (m : Mode) : holdsNoClaim m = true ↔ m ∈ [Mode.standby, .resync, .safeHold, .halt] := by
  cases m <;> decide

theorem safeMode_iff (m : Mode) : safeMode m = true ↔ m ∈ [Mode.hold, .boot, .safeHold, .service, .halt] := by
  cases m <;> decide

/-- Whatever was claimed before, the entry leaves no claim where the mode allows none. -/
theorem enterMode_claimFree (m : Mode) (s : State) : claimFree (enterMode m s) = true := by
  have hkept : Kept { s with red := { s.red with claim := 0 } } s := ⟨rfl, id, fusesKept_refl _⟩
  exact (enterMode_of_kept m hkept).claim (by simp [claimFree])

theorem enterMode_claim {m : Mode} (s : State) (hm : holdsNoClaim m = true) : (enterMode m s).red.claim = 0 := by
  have hfree := enterMode_claimFree m s
  rw [claimFree, (enterMode_spec m s).1, hm] at hfree
  simpa using hfree

/-- Settles O45, from what the entry to a mode leaves. -/
theorem enteringAMode : Obligations.EnteringAMode := by
  unfold Obligations.EnteringAMode
  rintro m s _ rfl
  obtain ⟨hmode, hprev, hsafe, hmem, hfuses, htime, -, hpending⟩ := enterMode_spec m s
  refine ⟨hmode, hprev, ?_, fun hm => enterMode_claim s ((holdsNoClaim_iff m).mpr hm), hmem, hfuses, htime, hpending⟩
  rw [hsafe, Bool.or_eq_true, safeMode_iff]

/-! ### The mode's reaction to one report (R387, R391) -/

theorem modeReaction_zero (s : State) : modeReaction 0 s = s := rfl

theorem modeReaction_five {s : State} (hmode : s.mode.mode = .active) : (modeReaction 5 s).mode.mode = .standby := by
  simpa [modeReaction, hmode] using (enterMode_spec .standby (setDegraded s)).1

theorem modeReaction_six (s : State) : (modeReaction 6 s).mode.mode = .safeHold := by
  by_cases hmode : s.mode.mode = .safeHold
  · simp [modeReaction, hmode]
  · simpa [modeReaction, hmode] using (enterMode_spec .safeHold s).1

theorem modeReaction_seven (s : State) : (modeReaction 7 s).mode.mode = .halt := (enterMode_spec .halt s).1

/-- The severity whose mode reaction a report makes due, or 0. -/
def dueSeverity (s : State) (r : Report) : Nat :=
  if 5 ≤ severityOf s r.source r.inst then severityOf s r.source r.inst else 0

section OneReport

variable {r : Report} {s : State}

/-- A report of a supervised source whose unit is not fenced makes its severity due from 5 on. -/
theorem collect_snd (hnamed : reservedSource r.source = false) (hsupervised : s.flt.unsupervised.contains r.source = false)
    (hfenced : s.flt.fenced.contains (faultKey r.source r.inst) = false) : (collect false r s).2 = dueSeverity s r := by
  simp only [collect, hnamed, hsupervised, countReport_fenced, hfenced, Bool.false_and, Bool.false_eq_true, if_false, dueSeverity]

/-- The collector that takes one report leaves the mode alone but for the reaction that the report makes due. -/
theorem settleOnce_one (halive : alive s.mode.mode = true) (hdue : s.flt.due = [r]) (hnamed : reservedSource r.source = false)
    (hsupervised : s.flt.unsupervised.contains r.source = false)
    (hfenced : s.flt.fenced.contains (faultKey r.source r.inst) = false) :
    ∃ t, t.mode.mode = s.mode.mode ∧ settleOnce s = modeReaction (dueSeverity s r) t := by
  have hsev : (collect false r { s with flt := { s.flt with due := [] } }).2 = dueSeverity s r :=
    collect_snd hnamed hsupervised hfenced
  refine ⟨_, (collect_still false r { s with flt := { s.flt with due := [] } }).mode, ?_⟩
  simp [settleOnce, hdue, halive, sortReports, insertReport, collectAll, hsev]

end OneReport

/-- Settles O47: the report's severity decides which reaction is due, and each reaction its mode. -/
theorem severityDecidesTheMode : Obligations.SeverityDecidesTheMode := by
  unfold Obligations.SeverityDecidesTheMode
  rintro r s _ halive hdue hnamed hsupervised hfenced rfl
  obtain ⟨t, hmode, hreaction⟩ := settleOnce_one halive hdue hnamed hsupervised hfenced
  refine ⟨fun hsev => ?halt, fun hsev => ?safeHold, fun hsev hactive => ?standby, fun hsev => ?stays, settleOnce_mem s⟩
  case halt =>
    rw [hreaction, dueSeverity, hsev]
    exact modeReaction_seven t
  case safeHold =>
    rw [hreaction, dueSeverity, hsev]
    exact modeReaction_six t
  case standby =>
    rw [hreaction, dueSeverity, hsev]
    exact modeReaction_five (hmode.trans hactive)
  case stays =>
    have hnone : dueSeverity s r = 0 := if_neg (by omega)
    rw [hreaction, hnone, modeReaction_zero, hmode]

/-! ### The owner's requests (R436, R439) -/

/-- A request command whose request is accepted is carried out by its body, on the state with the request's slot. -/
theorem exec_accepted {i : Instr} {o p : Nat} {ownerOnly : Bool} {legal : Mode → Bool} {r : Req} {body : Nat → State → State}
    {s u : State} (hexec : exec i s = done (takeRequest o ownerOnly legal r body s)) (haccepted : Accepted ownerOnly legal r p s)
    (hbody : body p (slotTaken r p s) = u) : exec i s = .next (settle u) := by
  rw [hexec, takeRequest_accepted haccepted, hbody, done]

/-- Settles O18: each request is accepted, so its body decides, along the branch that the premises select. -/
theorem ownerRequestsHeldOrAnswered : Obligations.OwnerRequestsHeldOrAnswered := by
  unfold Obligations.OwnerRequestsHeldOrAnswered
  refine ⟨?quiescent, ?run, ?begin, ?swap, ?chunk, ?otherOffset, ?finish, ?abort, ?toPllR, ?toFrc, ?onFrc, ?ethRetrain, ?valsinRetrain⟩
  case quiescent =>
    rintro r p s _ haccepted rfl
    exact exec_accepted rfl haccepted rfl
  case run =>
    rintro r p s _ haccepted rfl
    exact exec_accepted rfl haccepted rfl
  case begin =>
    rintro r p s _ _ _ haccepted rfl rfl rfl
    exact exec_accepted rfl haccepted rfl
  case swap =>
    rintro r p s _ haccepted rfl
    exact exec_accepted rfl haccepted rfl
  case chunk =>
    rintro r p s _ u _ haccepted rfl hupdate herased hended hoffset rfl
    exact exec_accepted rfl haccepted (by simp [hupdate, herased, hended, hoffset])
  case otherOffset =>
    rintro r p s _ u haccepted rfl hupdate herased hended hoffset
    exact exec_accepted rfl haccepted (by simp [hupdate, herased, hended, hoffset])
  case finish =>
    rintro r p s _ u haccepted rfl hupdate herased hended
    exact exec_accepted rfl haccepted (by simp [hupdate, herased, hended])
  case abort =>
    rintro r p s _ u haccepted rfl hupdate
    exact exec_accepted rfl haccepted (by simp [hupdate])
  case toPllR =>
    rintro r p s _ haccepted rfl
    exact exec_accepted rfl haccepted rfl
  case toFrc =>
    rintro r p s _ haccepted rfl hbusy hroot
    exact exec_accepted rfl haccepted (by simp [hbusy, hroot])
  case onFrc =>
    rintro r p s _ _ haccepted rfl hbusy hroot rfl
    exact exec_accepted rfl haccepted (by simp [hbusy, hroot])
  case ethRetrain =>
    rintro r p s _ _ haccepted rfl hkind rfl hport
    exact exec_accepted rfl haccepted (by simp only [hkind, hport, if_true])
  case valsinRetrain =>
    rintro r p s _ _ haccepted rfl hkind rfl hinUse
    exact exec_accepted rfl haccepted (by simp only [hkind, hinUse, if_false])

/-! ### Boot (R398 to R410) -/

/-- A slot whose turn it is, the preferred one where it is the first to be tried, is judged (R400 to R404). -/
theorem slotTurn_judged {turn first preferred : Prop} [Decidable turn] [Decidable first] [Decidable preferred]
    {waits judged still : Outcome} (hturn : turn) (hpreferred : first → preferred) :
    (if turn then if first ∧ ¬ preferred then waits else judged else still) = judged :=
  (if_pos hturn).trans (if_neg fun h => h.2 (hpreferred h.1))

/-- Settles O33: each event finds its context, and a slot is judged by its code. -/
theorem bootEventsComplete : Obligations.BootEventsComplete := by
  unfold Obligations.BootEventsComplete
  refine ⟨?firmware, ?badFirmware, ?config, ?badConfig, ?engines, ?cores, ?units, ?admission, ?complete, ?timeout, ?fuse⟩
  case firmware =>
    rintro x s _ _ _ hmode hslot hfresh rfl hpreferred rfl hcode rfl
    refine (slotTurn_judged ⟨hmode, hslot, hfresh⟩ hpreferred).trans ((if_pos hcode).trans ?_)
    rw [hcode, done]
  case badFirmware =>
    rintro x s _ _ _ _ hmode hslot hfresh rfl hpreferred rfl rfl hbad rfl
    exact (slotTurn_judged ⟨hmode, hslot, hfresh⟩ hpreferred).trans ((if_neg hbad).trans (apply_ite done _ _ _).symm)
  case config =>
    rintro x s _ hmode hunconfigured hslot hfresh rfl hpreferred hcode
    refine (slotTurn_judged ⟨hmode, hunconfigured, hslot, hfresh⟩ hpreferred).trans ((if_pos hcode).trans ?_)
    rw [hcode, done]
  case badConfig =>
    rintro x s _ _ _ hmode hunconfigured hslot hfresh rfl hpreferred rfl hbad rfl
    exact (slotTurn_judged ⟨hmode, hunconfigured, hslot, hfresh⟩ hpreferred).trans ((if_neg hbad).trans (apply_ite done _ _ _).symm)
  case engines => exact fun engines analysers decoders s hmode hopen => if_pos ⟨hmode, hopen⟩
  case cores =>
    rintro passing _ s hmode hopen rfl
    exact if_pos ⟨hmode, hopen⟩
  case units => exact fun failing s hmode => if_pos hmode
  case admission =>
    rintro s _ _ hmode hconfigured hopen rfl rfl
    exact if_pos ⟨hmode, hconfigured, hopen⟩
  case complete => exact fun s hmode hadmitted hlocked => if_pos ⟨hmode, hadmitted, hlocked⟩
  case timeout =>
    rintro s _ hmode hconfigured hwaiting hsource rfl
    exact if_pos ⟨hmode, hconfigured, hwaiting, hsource⟩
  case fuse =>
    rintro c rest s _ _ hbits halive rfl rfl
    constructor <;> simp only [exec, execFuseBitProgram, hbits, halive, if_true, Bool.false_eq_true, if_false, done]

/-! ### The held request and the update at their times (R14, R15, R415 to R417) -/

/-- Settles O34: the held request by what the earlier triggers left of it, the update by the stage it is in. -/
theorem updateAndModeEventsComplete : Obligations.UpdateAndModeEventsComplete := by
  unfold Obligations.UpdateAndModeEventsComplete
  refine ⟨?acted, ?overtaken, ?order, ?erased, ?passed, ?failed, ?timeout⟩
  case acted =>
    rintro s _ _ h hheld halive rfl hrequest rfl
    simp only [exec, execModeRequestExecute, hheld, halive, hrequest]
    rfl
  case overtaken =>
    rintro s _ hheld halive rfl hnone
    simp only [exec, execModeRequestExecute, hheld, halive, hnone]
    rfl
  case order => exact fun s => rfl
  case erased =>
    rintro s _ u r hupdate hmode herased hbegun rfl
    simp only [exec, execUpdateEraseDone, hupdate, hmode, herased, hbegun, and_self, if_true, done]
  case passed =>
    rintro s _ u r item config hupdate hmode hended hcode rfl
    simp only [exec, execUpdateVerifyDone, hupdate, hmode, hended, hcode, if_true, done]
  case failed =>
    rintro s _ u r item config _ hupdate hmode hended rfl hbad rfl
    simp only [exec, execUpdateVerifyDone, hupdate, hmode, hended, hbad, if_false, done]
  case timeout =>
    rintro s u hupdate hmode hended
    simp only [exec, execUpdateTimeout, hupdate, hmode, hended]
    cases atTime (u.lastChunk + 10 * secUnit) s <;> rfl

end Sys2Proof.Proofs
end

section
/-! The Media Time Base: its cycles, the cycle that reaches a time, the frame of a target, its sources and its ticks. -/

namespace Sys2Proof.Proofs

open Sys2Proof Sys2Proof.Machine Sys2Proof.Safety

/-! ### Cycles with no command waiting (R22, R24) -/

theorem alive_eq_false_iff (m : Mode) : alive m = false ↔ m = .hold ∨ m = .halt := by
  cases m <;> decide

/-- The codes 1 to 10 are those of the modes in which the MTB counts. -/
theorem alive_of_modeCode {m : Mode} (hlow : 1 ≤ modeCode m) (hhigh : modeCode m ≤ 10) : alive m = true := by
  revert hlow hhigh
  cases m <;> decide

theorem step_of_empty {s : State} (hempty : s.pending = []) : step s = .next (idle s) := by
  simp only [step, hempty]

/-- While the MTB counts, a step on an empty queue is one cycle. -/
theorem step_counting {s : State} (hempty : s.pending = []) (halive : alive s.mode.mode = true) :
    step s = .next (passCycles 1 s) := by
  rw [step_of_empty hempty, idle, if_pos halive]

/-- In M0 and M11 a step on an empty queue changes nothing. -/
theorem step_stopped {s : State} (hempty : s.pending = []) (hstopped : s.mode.mode = .hold ∨ s.mode.mode = .halt) :
    step s = .next s := by
  have hdead : ¬ alive s.mode.mode = true := Bool.eq_false_iff.mp ((alive_eq_false_iff _).mpr hstopped)
  rw [step_of_empty hempty, idle, if_neg hdead]

/-- Settles O38: the step is one cycle, or none. -/
theorem emptyQueuePassesACycle : Obligations.EmptyQueuePassesACycle := by
  unfold Obligations.EmptyQueuePassesACycle
  refine ⟨fun s hempty halive => ?_, fun s => step_stopped⟩
  rw [step_counting hempty halive, passCycles, Nat.one_mul, Nat.one_mul]

/-- Settles O44: entry to M0 is the reset, entry to M1 is entry to a mode from a timebase at 0, and the rest are idle steps. -/
theorem timebaseFromHoldToHalt : Obligations.TimebaseFromHoldToHalt := by
  unfold Obligations.TimebaseFromHoldToHalt
  refine ⟨fun s => ⟨rfl, rfl⟩, fun s hhold hempty => step_stopped hempty (.inl hhold), fun s => ?boot, ?counts⟩
  case boot =>
    obtain ⟨hmode, -, -, -, -, htime, hservo, -⟩ :=
      enterMode_spec .boot { s with mtb := { s.mtb with t := 0, mgt := 0, uptime := 0, servo := 0, inc := nominalInc } }
    exact ⟨hmode, htime, hservo⟩
  case counts =>
    intro s hlow hhigh hempty
    refine ⟨_, step_counting hempty (alive_of_modeCode hlow hhigh), ?_⟩
    rw [passCycles, Nat.one_mul]

/-! ### The cycle in which a time is reached (R33) -/

/-- The model's quotient rounded up is Mathlib's. -/
theorem ceilDiv_le_iff {a b n : Nat} (hb : 0 < b) : ceilDiv a b ≤ n ↔ a ≤ b * n := by
  rw [ceilDiv, ← Nat.ceilDiv_eq_add_pred_div, ceilDiv_le_iff_le_mul hb]

theorem le_mul_ceilDiv (a : Nat) {b : Nat} (hb : 0 < b) : a ≤ b * ceilDiv a b :=
  (ceilDiv_le_iff hb).mp le_rfl

theorem mul_lt_of_lt_ceilDiv {a b n : Nat} (hb : 0 < b) (hn : n < ceilDiv a b) : b * n < a := by
  rwa [← not_le, ← ceilDiv_le_iff hb, not_le]

theorem mul_ceilDiv_lt (a : Nat) {b : Nat} (hb : 0 < b) : b * ceilDiv a b < a + b := by
  cases hq : ceilDiv a b with
  | zero => omega
  | succ n =>
    have hbefore : b * n < a := mul_lt_of_lt_ceilDiv hb (by omega)
    rw [Nat.mul_succ]
    omega

theorem passCycles_zero {s : State} (ht : s.mtb.t < mtbSpan) : passCycles 0 s = s := by
  simp [passCycles, Nat.mod_eq_of_lt ht]

theorem passCycles_time_lt (n : Nat) (s : State) : (passCycles n s).mtb.t < mtbSpan := Nat.mod_lt _ (by decide)

/-- The time after n cycles, within the span of the MTB. -/
theorem passCycles_time {s : State} {n : Nat} (hspan : s.mtb.t + s.mtb.inc * n < mtbSpan) :
    (passCycles n s).mtb.t = s.mtb.t + s.mtb.inc * n := by
  rw [passCycles, Nat.mul_comm n, Nat.mod_eq_of_lt hspan]

/-- In the cycle that has reached a time, ticks at that time take place with no further cycle. -/
theorem atTime_now {time : Nat} {s : State} (halive : alive s.mode.mode = true) (hspan : s.mtb.t < mtbSpan)
    (hreached : time ≤ s.mtb.t) (hnew : s.mtb.t < time + s.mtb.inc) : atTime time s = some s := by
  have hfresh : ¬ (time + s.mtb.inc ≤ s.mtb.t ∧ 0 < s.mtb.inc) := by omega
  have hnone : ceilDiv (time - s.mtb.t) s.mtb.inc = 0 := by
    rw [← Nat.le_zero, ceilDiv_le_iff (by omega)]
    omega
  rw [atTime, if_neg (by simp [halive]), if_neg hfresh, hnone, passCycles_zero hspan]

/-- What atTime answers is its state some cycles on. -/
theorem atTime_eq_some {time : Nat} {s u : State} (h : atTime time s = some u) : ∃ n, u = passCycles n s := by
  unfold atTime at h
  split at h
  · cases h
  · split at h
    · cases h
    · exact ⟨_, (Option.some.inj h).symm⟩

/-- Settles O43: the number of cycles is a quotient rounded up, the least that is enough. -/
theorem ticksFireInTheirCycle : Obligations.TicksFireInTheirCycle := by
  unfold Obligations.TicksFireInTheirCycle
  constructor
  · intro time s halive hinc hahead hspan
    have hreached := le_mul_ceilDiv (time - s.mtb.t) hinc
    have hfirst := mul_ceilDiv_lt (time - s.mtb.t) hinc
    have htime := passCycles_time (s := s) (n := ceilDiv (time - s.mtb.t) s.mtb.inc) (by omega)
    refine ⟨_, atTime_ahead halive hahead, by rw [htime]; omega, by rw [htime]; omega, fun k hk => ?_⟩
    have hbefore := mul_lt_of_lt_ceilDiv hinc hk
    rw [passCycles_time (by omega)]
    omega
  · intro time later s u halive hinc hat hreached hnew
    obtain ⟨n, rfl⟩ := atTime_eq_some hat
    exact atTime_now halive (passCycles_time_lt n s) hreached hnew

/-! ### Targets (R42) -/

/-- Settles O51: the model's distance is that of the frame from the open one, modulo 2^32. -/
theorem targetFramesResolve : Obligations.TargetFramesResolve := by
  unfold Obligations.TargetFramesResolve
  intro o v hv
  refine ⟨fun hzero => if_pos hzero, fun hnamed n hn hopen hnear => ?ahead, fun hnamed n hn hpast hnear => ?late⟩
  case ahead =>
    have hdist : (v + 2 ^ 32 - o % 2 ^ 32) % 2 ^ 32 = n - o := by omega
    have hahead : n - o < 2 ^ 31 := by omega
    simp only [resolveTarget, hnamed, if_false, hdist, hahead, if_true, Nat.add_sub_cancel' hopen]
  case late =>
    have hbehind : ¬ (v + 2 ^ 32 - o % 2 ^ 32) % 2 ^ 32 < 2 ^ 31 := by omega
    simp only [resolveTarget, hnamed, if_false, hbehind]

/-! ### The sources of the Media Time Base (R27 to R29, R31) -/

theorem sourceEvent_ignored {s : State} {k : Nat} (offset : Int) (h : alive s.mode.mode = false ∨ k ∉ listedSources s) :
    sourceEvent k offset s = s := by
  refine if_neg ?_
  rw [Bool.and_eq_true, List.contains_iff_mem]
  rintro ⟨halive, hlisted⟩
  exact h.elim (by simp [halive]) (absurd hlisted)

/-- A listed source that is heard is present; off FRC it is selected where it comes first, and measured where selected (R27, R31). -/
theorem sourceEvent_listed {s : State} {k : Nat} (offset : Int) (halive : alive s.mode.mode = true)
    (hlisted : k ∈ listedSources s) : sourceEvent k offset s =
      if s.clk.rootFrc = true then markPresent k s
      else if (selectSource (markPresent k s)).mtb.src = k then measure offset (selectSource (markPresent k s))
      else selectSource (markPresent k s) :=
  if_pos (by simp [halive, hlisted])

/-- Every listed source has a code of its own; 0 lists none (R26). -/
theorem listedSources_ne_zero {s : State} {k : Nat} (h : k ∈ listedSources s) : k ≠ 0 := by
  simpa using (List.mem_filter.mp h).2

/-- The source selected is the first of the list that is present (R27). -/
theorem selectedSource_first {s : State} {k : Nat} {l r : List Nat} (hlist : listedSources s = l ++ k :: r)
    (hpresent : k ∈ s.mtb.present) (hbefore : ∀ j ∈ l, j ∉ s.mtb.present) : selectedSource s = k := by
  have hnone : l.find? (fun j => s.mtb.present.contains j) = none := by simpa using hbefore
  rw [selectedSource, hlist, List.find?_append, hnone]
  simp [hpresent]

/-- A source newly selected is acquired (R27). -/
theorem selectSource_first {s : State} {k : Nat} {l r : List Nat} (hlist : listedSources s = l ++ k :: r)
    (hpresent : k ∈ s.mtb.present) (hbefore : ∀ j ∈ l, j ∉ s.mtb.present) :
    selectSource s = if k = s.mtb.src then s else { s with mtb := { s.mtb with src := k, servo := 1, within := 0 } } := by
  have hcode : k ≠ 0 := listedSources_ne_zero (s := s) (by simp [hlist])
  have hselected := selectedSource_first hlist hpresent hbefore
  by_cases hsame : k = s.mtb.src
  · rw [if_pos hsame]
    exact if_neg (by simp [hselected, hsame])
  · rw [if_neg hsame]
    simp only [selectSource, hselected, hcode, hsame, ne_eq, not_false_eq_true, and_self, if_true]

/-- The measurements in a row within CLK_MTB_LOCK_NS, one measurement on (R28). -/
def withinAfter (offset : Int) (s : State) : Nat :=
  if decide ((satOffset offset).natAbs ≤ s.mtb.lockNs) then min (s.mtb.within + 1) 16 else 0

/-- Where the MTB is not stepped a measurement is kept and updates the servo, which the sixteenth in a row locks (R28). -/
theorem measure_unstepped {s : State} (offset : Int) (hmode : stepMode s.mode.mode = false) :
    measure offset s = updateServo { s with mtb := { s.mtb with
      offset := satOffset offset
      within := withinAfter offset s
      servo := if withinAfter offset s = 16 then 2 else s.mtb.servo
      valid := s.mtb.valid || withinAfter offset s == 16
      abs := s.mtb.abs || s.mtb.src == 1 } } :=
  if_neg (by simp [hmode])

/-- An update of the servo draws two free values for its rate and its increment, and changes nothing else but the updates kept
(R28, log entry 10). -/
theorem updateServo_frame (s : State) : ∃ rate inc history,
    updateServo s = { s with free := s.free + 2, mtb := { s.mtb with rate := rate, inc := inc, history := history } } :=
  ⟨_, _, _, rfl⟩

theorem mem_sadd (l : List Nat) (k : Nat) : k ∈ sadd l k := by
  unfold sadd
  split
  · next h => exact List.contains_iff_mem.mp h
  · exact List.mem_cons_self

/-- A PTP message that reaches the device on its first port is noted under 1, one on its second under 4 (R27). -/
theorem execPtpMessageReceive_configured {s : State} {port m : Nat} (offset : Int) (hreaches : 16 ≤ port ∨ portUp s port = true)
    (hport : port = s.mtb.ptpPort ∧ m = 1 ∨ port ≠ s.mtb.ptpPort ∧ port = s.mtb.ptpPort2 ∧ port ≠ 255 ∧ m = 4) :
    execPtpMessageReceive port offset s = .next (answerPtp port (sourceEvent 1 offset (noteSeen m s))) := by
  have hheard : ¬ ptpReaches s port = false := by simpa [ptpReaches, imp_iff_not_or] using hreaches
  refine (if_neg hheard).trans ?_
  obtain ⟨hfirst, rfl⟩ | ⟨hother, hsecond, hnamed, rfl⟩ := hport
  · exact if_pos hfirst
  · exact (if_neg hother).trans (if_pos ⟨hsecond, hsecond ▸ hnamed⟩)

/-- A message on another port, or on one that is down, is not heard (R317, R321). -/
theorem execPtpMessageReceive_ignored {s : State} {port : Nat} (offset : Int) (h : (port < 16 ∧ portUp s port = false) ∨
    (port ≠ s.mtb.ptpPort ∧ (port ≠ s.mtb.ptpPort2 ∨ port = 255))) : execPtpMessageReceive port offset s = .next s := by
  by_cases hheard : ptpReaches s port = false
  · exact if_pos hheard
  · obtain ⟨hlow, hdown⟩ | ⟨hfirst, hsecond⟩ := h
    · exact absurd (by simp [ptpReaches, hlow, hdown]) hheard
    · have hnone : ¬ (port = s.mtb.ptpPort2 ∧ s.mtb.ptpPort2 ≠ 255) := by omega
      exact (if_neg hheard).trans ((if_neg hfirst).trans (if_neg hnone))

/-- Settles O6: messages and edges through the event of their source, a measurement through the row of those within the limit. -/
theorem timeSourcesComplete : Obligations.TimeSourcesComplete := by
  unfold Obligations.TimeSourcesComplete
  refine ⟨?ptp, ?otherPort, ?frame, ?pps, ?silent, ?ppsFall, ?ignored, ?onFrc, ?onPllR, ?select, ?measured, ?present, ?lost⟩
  case ptp => exact fun s port m offset => execPtpMessageReceive_configured offset
  case otherPort => exact fun s port offset => execPtpMessageReceive_ignored offset
  case frame => exact fun s offset => rfl
  case pps => exact fun s offset => rfl
  case silent => exact fun s k halive hpresent => if_pos (by simp [halive, hpresent])
  case ppsFall =>
    intro s
    simp only [exec, execPpsOutFall]
    split
    · rw [noEarlier_pins]
    · rfl
  case ignored => exact fun s k offset => sourceEvent_ignored offset
  case onFrc =>
    intro s k offset halive hlisted hroot
    exact (sourceEvent_listed offset halive hlisted).trans (if_pos hroot)
  case onPllR =>
    rintro s _ k offset halive hlisted hroot rfl
    exact (sourceEvent_listed offset halive hlisted).trans (if_neg (by simp [hroot]))
  case select =>
    intro s k l r hlist hpresent hbefore
    exact ⟨selectedSource_first hlist hpresent hbefore, selectSource_first hlist hpresent hbefore⟩
  case measured =>
    intro s offset hmode
    rw [measure_unstepped offset hmode]
    obtain ⟨rate, inc, history, hupdate⟩ := updateServo_frame _
    rw [hupdate]
    refine ⟨rfl, rfl, fun hgood hrow => if_pos ?_, fun hfar => ?_⟩
    · rw [withinAfter, if_pos (decide_eq_true hgood)]
      omega
    · have hnone : withinAfter offset s = 0 := if_neg (by simpa using hfar)
      simp [hnone]
  case present => exact fun s k => mem_sadd s.mtb.present k
  case lost =>
    rintro s _ k rfl
    refine ⟨fun hother => if_neg hother, fun hsrc hnext => ?_, fun hsrc hnone => ?_⟩
    · exact (if_pos hsrc).trans (if_neg hnext)
    · exact (if_pos hsrc).trans (if_pos hnone)

/-! ### Ticks (R32 to R42) -/

/-- Settles O7: the time lies ahead, so it is reached, and the tick's effects take place there. -/
theorem ticksOfTheTimebase : Obligations.TicksOfTheTimebase := by
  unfold Obligations.TicksOfTheTimebase
  refine ⟨?sample, ?frame, ?row, ?millisecond, ?second, ?commit, ?apply⟩
  case sample =>
    rintro s _ n env halive hahead rfl
    have hreach := atTime_ahead halive hahead
    refine ⟨fun hrun => ?_, fun hstill => ?_⟩
    · simp only [exec, execSampleTick, hreach, hrun, if_true, done]
    · simp only [exec, execSampleTick, hreach, hstill, Bool.false_eq_true, if_false, done]
  case frame =>
    intro s c n env hticking hrun hfresh hahead
    have hreach := atTime_ahead (alive_of_ticking hticking) hahead
    have hlater : (match (chan s c).lastFrame with | some m => decide (m < n) | none => true) = true := by
      split
      · next m hm => exact decide_eq_true (hfresh m hm)
      · rfl
    refine (if_pos ⟨hticking, hrun, hlater⟩).trans ?_
    simp only [hreach, done]
  case row =>
    intro s c n m env hticking hrun hlattice hfirst hlast hnew hahead
    have hreach := atTime_ahead (alive_of_ticking hticking) hahead
    have hknown : (env.lattice == (chan s c).raster || !(latticeCtxs s c env.lattice).isEmpty) = true := by simpa using hlattice
    refine (if_pos ⟨hticking, hrun, hknown, hfirst, hlast, hnew⟩).trans ?_
    simp only [hreach, done]
  case millisecond =>
    intro s m halive hahead
    simp only [exec, execMtbMillisecond, atTime_ahead halive hahead, done]
  case second =>
    intro s sec halive hahead
    simp only [exec, execMtbWholeSecond, atTime_ahead halive hahead, done]
  case commit => exact fun s c target change hlegal hrun => if_pos ⟨hlegal, hrun⟩
  case apply =>
    intro s c n hticking hrun hahead
    have hreach := atTime_ahead (alive_of_ticking hticking) hahead
    refine (if_pos ⟨hticking, hrun⟩).trans ?_
    simp only [hreach, done]

end Sys2Proof.Proofs
end

section
/-! The loss of a clock, the root and the exit from safe hold; the decision of runtime changes. -/

namespace Sys2Proof.Proofs

open Sys2Proof Sys2Proof.Machine Sys2Proof.Safety

/-! ### Detectors, the root and the exit from safe hold (R365 to R374) -/

/-- The guard that the detectors share: the source is monitored, and not lost already (R367). -/
theorem detector_guard {s : State} {i : Nat} (halive : alive s.mode.mode = true) (hmonitored : monitored s i = true)
    (hpresent : (source s i).absent = false) : (alive s.mode.mode && monitored s i && !(source s i).absent) = true := by
  simp [halive, hmonitored, hpresent]

/-- A measurement stores the departure from a learnt ratio, and trips a source other than FRC where it is more than 2 % (R367). -/
theorem execFrequencyMeasurement_live {s : State} {i count : Nat} (hsource : i ≠ 2)
    (hlive : (alive s.mode.mode && monitored s i && !(source s i).absent) = true) (hratio : (source s i).ratio ≠ 0) :
    execFrequencyMeasurement i count s =
      if 2 * (source s i).ratio < 100 * (max count (source s i).ratio - min count (source s i).ratio)
      then done (tripSource i false (setSource i (fun x => { x with ppm := ppmOf count (source s i).ratio }) s))
      else .next (setSource i (fun x => { x with ppm := ppmOf count (source s i).ratio }) s) := by
  simp only [execFrequencyMeasurement, hlive, if_true, hratio, hsource, if_false, decide_eq_true_eq]

/-- The clocks and the timebase with the root moved to FRC; in M7 the stacks are parked too (R31, R365). -/
theorem moveRoot_frc (s : State) : moveRoot true s = { (if s.mode.mode = .quiescent then parkStacks s else s) with
    clk := { s.clk with rootFrc := true, switchBusy := false }
    mtb := { s.mtb with inc := frcInc, onFrc := s.mode.mode == .safeHold } } := by
  obtain ⟨d, hd⟩ : ∃ d, (if s.mode.mode = .quiescent then parkStacks s else s) = { s with drm := d } := by
    split
    · exact ⟨_, parkStacks_frame s⟩
    · exact ⟨_, rfl⟩
  simp only [moveRoot, true_and, if_true, Bool.true_and, hd]

/-- The root back on PLL_R, which leaves the stacks alone (R31, R365). -/
theorem moveRoot_pllR (s : State) : moveRoot false s = { s with
    clk := { s.clk with rootFrc := false, switchBusy := false }, mtb := { s.mtb with inc := s.mtb.rate, onFrc := false } } := by
  simp [moveRoot]

/-- A switch to FRC with no loss and no request waiting moves the root (R368). -/
theorem execRootSwitchDone_quiet {s : State} (hbusy : s.clk.switchBusy = true) (hforced : s.clk.switchForced = false)
    (hloss : s.clk.pendingLoss = []) (hreply : s.clk.switchReply = none) (hstop : s.clk.switchStop = false)
    (hfrc : s.clk.switchToFrc = true) : execRootSwitchDone s = .next (moveRoot true s) := by
  simp [execRootSwitchDone, moveRoot_frc, hbusy, hforced, hloss, hreply, hstop, hfrc]

/-- The state that safe hold is left with: the root on PLL_R, the MTB stepped to its source, the stacks awake and the outputs
released (R31, R306, R372). -/
def leftSafeHold (v : Option Nat) (s : State) : State :=
  { wakeStacks (leaveMtb v (moveRoot false s)) with
    pins := { (leaveMtb v (moveRoot false s)).pins with forcedSafe := false, tripped := false } }

/-- The step of the MTB to its source leaves the clocks and the mode that safe hold was entered from. -/
theorem leaveMtb_frame (v : Option Nat) (s : State) :
    (leaveMtb v s).clk = s.clk ∧ (leaveMtb v s).mode.safeFrom = s.mode.safeFrom := by
  by_cases hsource : selectedSource s = 0
  · rw [leaveMtb_alone v s hsource]
    exact ⟨rfl, rfl⟩
  · obtain ⟨hclk, hfrom, -⟩ := leaveMtb_stepped v s hsource
    exact ⟨hclk, hfrom⟩

/-- Waking the stacks and releasing the outputs leave the clocks, the timebase and the mode as the step of the MTB did. -/
theorem leftSafeHold_parts (v : Option Nat) (s : State) :
    (leftSafeHold v s).clk = (leaveMtb v (moveRoot false s)).clk ∧ (leftSafeHold v s).mtb = (leaveMtb v (moveRoot false s)).mtb ∧
      (leftSafeHold v s).mode = (leaveMtb v (moveRoot false s)).mode := by
  obtain ⟨d, hd⟩ := wakeStacks_frame (leaveMtb v (moveRoot false s))
  rw [leftSafeHold, hd]
  exact ⟨rfl, rfl, rfl⟩

theorem leftSafeHold_clk (v : Option Nat) (s : State) :
    (leftSafeHold v s).clk = { s.clk with rootFrc := false, switchBusy := false } := by
  obtain ⟨hparts, -⟩ := leftSafeHold_parts v s
  obtain ⟨hclk, -⟩ := leaveMtb_frame v (moveRoot false s)
  rw [hparts, hclk, moveRoot_pllR]

theorem leftSafeHold_safeFrom (v : Option Nat) (s : State) : (leftSafeHold v s).mode.safeFrom = s.mode.safeFrom := by
  obtain ⟨-, -, hparts⟩ := leftSafeHold_parts v s
  obtain ⟨-, hfrom⟩ := leaveMtb_frame v (moveRoot false s)
  rw [hparts, hfrom, moveRoot_pllR]

theorem selectedSource_moveRoot (s : State) : selectedSource (moveRoot false s) = selectedSource s := by
  rw [moveRoot_pllR]
  rfl

/-- With no source present the MTB goes on from where it stands, at the rate last measured (R31, log entry 47). -/
theorem leftSafeHold_mtb_alone (v : Option Nat) {s : State} (hnone : selectedSource s = 0) :
    (leftSafeHold v s).mtb = { s.mtb with inc := s.mtb.rate, onFrc := false } := by
  obtain ⟨-, hparts, -⟩ := leftSafeHold_parts v s
  rw [hparts, leaveMtb_alone v _ ((selectedSource_moveRoot s).trans hnone), moveRoot_pllR]

/-- With a source present the MTB is stepped to its time (R31). -/
theorem leftSafeHold_mtb_stepped (v : Option Nat) {s : State} (hsource : selectedSource s ≠ 0) :
    (leftSafeHold v s).mtb = { s.mtb with
      inc := s.mtb.rate, onFrc := false, valid := true, t := v.getD (Config.freeValue s.free) % mtbSpan } := by
  obtain ⟨-, hparts, -⟩ := leftSafeHold_parts v s
  obtain ⟨-, -, hmtb⟩ := leaveMtb_stepped v (moveRoot false s) (by rwa [selectedSource_moveRoot])
  rw [hparts, hmtb, moveRoot_pllR]

/-- Safe hold that is over is left for the run mode where the mode before it was neither M1, M2 nor M10 (R13, R372). -/
theorem execSafeHoldExit_run {s : State} (v : Option Nat) (hmode : s.mode.mode = .safeHold) (hover : safeHoldOver s = true)
    (hboot : s.mode.safeFrom ≠ .boot) (hconfigure : s.mode.safeFrom ≠ .configure) (hservice : s.mode.safeFrom ≠ .service) :
    execSafeHoldExit v s = done (enterRun (leftSafeHold v s)) := by
  have hfrom := leftSafeHold_safeFrom v s
  simp only [leftSafeHold] at hfrom ⊢
  simp only [execSafeHoldExit, hmode, hover, and_self, if_true, hfrom]

/-- Settles O4: each detector through its guard, the switch and the exit through the states that they leave. -/
theorem clockLossAndTheRoot : Obligations.ClockLossAndTheRoot := by
  unfold Obligations.ClockLossAndTheRoot
  refine ⟨?stopped, ?unlocked, ?inBand, ?outOfBand, ?pllS, ?switched, ?left, ?restarted⟩
  case stopped => exact fun s i halive hmonitored hpresent => if_pos (detector_guard halive hmonitored hpresent)
  case unlocked =>
    intro s i hlow hhigh halive hmonitored hpresent
    exact if_pos (by simp [hlow, hhigh, halive, hmonitored, hpresent])
  case inBand =>
    intro s i count hsource halive hmonitored hpresent hratio hband
    exact (execFrequencyMeasurement_live hsource (detector_guard halive hmonitored hpresent) hratio).trans (if_neg (by omega))
  case outOfBand =>
    intro s i count hsource halive hmonitored hpresent hratio hband
    exact (execFrequencyMeasurement_live hsource (detector_guard halive hmonitored hpresent) hratio).trans (if_pos (by omega))
  case pllS => exact fun s halive hready => if_pos (by simp [halive, hready])
  case switched =>
    intro s hbusy hforced hloss hreply hstop hfrc
    rw [← moveRoot_frc]
    exact execRootSwitchDone_quiet hbusy hforced hloss hreply hstop hfrc
  case left =>
    intro s v hmode hover hboot hconfigure hservice
    have hclk := leftSafeHold_clk v s
    have hexit := execSafeHoldExit_run v hmode hover hboot hconfigure hservice
    by_cases hsource : selectedSource s = 0
    · have hmtb := leftSafeHold_mtb_alone v hsource
      exact ⟨_, hexit, by rw [hclk], by rw [hclk], by rw [hmtb], rfl, rfl, by rw [hmtb], fun _ => ⟨by rw [hmtb], by rw [hmtb]⟩,
        fun h => absurd hsource h⟩
    · have hmtb := leftSafeHold_mtb_stepped v hsource
      refine ⟨_, hexit, by rw [hclk], by rw [hclk], by rw [hmtb], rfl, rfl, by rw [hmtb], fun h => absurd h hsource,
        fun _ => ⟨by rw [hmtb], ?_⟩⟩
      rintro n rfl
      rw [hmtb]
      rfl
  case restarted =>
    intro s v hmode hready hoff hreturned
    have hnotOver : ¬ (s.mode.mode = .safeHold ∧ safeHoldOver s = true) := by simp [safeHoldOver, hready]
    exact (if_neg hnotOver).trans (if_pos ⟨hmode, hoff, hreturned⟩)

/-! ### Runtime changes (R42, R264) -/

/-- A change forwarded to the deciding device is noted behind those that wait (R264). -/
theorem forward_forwards (f : Fwd) (named : Nat) (s : State) : (forward f named s).run.forwards = s.run.forwards ++ [f] := by
  rw [forward, sendVa_run]

theorem chanRunning_slotTaken (r : Req) (p : Nat) (s : State) (c : Nat) : chanRunning (slotTaken r p s) c = chanRunning s c := rfl

theorem cmp_slotTaken (r : Req) (p : Nat) (s : State) (c : Nat) : Machine.cmp (slotTaken r p s) c = Machine.cmp s c := rfl

/-- A guard that refuses where a test fails lets a request through where it holds. -/
theorem guard_passed {test : Bool} {refused taken : State} (h : test = true) : (if !test then refused else taken) = taken := by
  simp [h]

/-- A depth that is kept where none is asked for is clamped only where one is (R243). -/
theorem clamp_unless_kept (lo hi kept asked : Nat) :
    (if asked = 0 then kept else clamp lo hi (if asked = 0 then kept else asked)) = if asked = 0 then kept else clamp lo hi asked := by
  split <;> rfl

/-- Settles O16: each request is accepted, so its body decides, along the branch that the premises select. -/
theorem runtimeChangesDecided : Obligations.RuntimeChangesDecided := by
  unfold Obligations.RuntimeChangesDecided
  refine ⟨?decided, ?forwarded, ?bitrate, ?layer, ?port, ?later, ?rate, ?sliceRate, ?gates⟩
  case decided =>
    intro p op c named cl data change r t ch hchan hhere
    simp only [changeFor, hchan, hhere, if_true]
  case forwarded =>
    intro p op c named cl data change r t ch hchan helsewhere
    exact ⟨by simp only [changeFor, hchan, helsewhere, Bool.false_eq_true, if_false], forward_forwards _ named t⟩
  case bitrate =>
    rintro r p s _ _ c haccepted rfl rfl howns hctx hstopped hrun
    refine exec_accepted rfl haccepted ?_
    simp only [f8, fclamp, howns, slotTaken_enc, hctx, hstopped, chanRunning_slotTaken, hrun, Bool.not_true, Bool.or_false,
      Bool.false_eq_true, if_false]
  case layer =>
    rintro r p s _ _ _ _ _ _ haccepted rfl rfl rfl rfl rfl rfl howns hlayer hrun
    refine exec_accepted rfl haccepted ?_
    simp only [f8, fclamp, howns, cmp_slotTaken, hlayer, chanRunning_slotTaken, hrun, Bool.not_true, Bool.or_false,
      Bool.false_eq_true, if_false]
  case port =>
    rintro r p s _ _ _ _ haccepted rfl rfl rfl rfl hsees hknown
    refine exec_accepted rfl haccepted ?_
    exact (guard_passed hsees).trans ((guard_passed hknown).trans rfl)
  case later => exact fun port s => rfl
  case rate =>
    rintro r p s _ _ _ _ l haccepted rfl rfl howns hleg hrunning hslice rfl rfl
    refine exec_accepted rfl haccepted ?_
    simp only [f16, fclamp, howns, slotTaken_egr, slotTaken_mtb, hleg, hrunning, hslice, Bool.not_true, Bool.false_eq_true,
      if_false, ne_eq, not_true_eq_false, false_or, clamp_unless_kept]
  case sliceRate =>
    rintro r p s _ _ l haccepted rfl rfl howns hleg hrunning hslice
    refine exec_accepted rfl haccepted ?_
    simp only [f16, fclamp, howns, slotTaken_egr, slotTaken_mtb, hleg, hrunning, hslice, Bool.not_true, Bool.false_eq_true,
      if_false, if_true, ne_eq, not_true_eq_false, true_or]
  case gates =>
    rintro r p s _ _ haccepted rfl rfl
    exact exec_accepted rfl haccepted rfl

end Sys2Proof.Proofs
end

section
/-! What a partition that is not the owner sees and reaches through its window, the guides of a CTU, and the information requests. -/

namespace Sys2Proof.Proofs

open Sys2Proof Sys2Proof.Machine Sys2Proof.Safety

/-! ### The window of a partition that is not the owner (R426, R441) -/

section NotOwner

/-- The blocks of the window that are the owner's alone: security and pool, clocks to memory, and the pair (R426, R441). -/
def OwnersBlock (off : Nat) : Prop :=
  (0x0180 ≤ off ∧ off < 0x01D0) ∨ (0x4000 ≤ off ∧ off < 0x7000) ∨ (0x9000 ≤ off ∧ off < 0xA000)

/-- The registers that every partition may write: its rings and interrupts, its selections, and the running values of the check-value
units it sees (R441). -/
def SharedRegister (off : Nat) : Prop :=
  (0x0200 ≤ off ∧ off < 0x0800) ∨ off = 0x0808 ∨ off = 0x0814 ∨ off = 0x0840 ∨ off = 0x3000 ∨ (0x7000 ≤ off ∧ off < 0x7800)

variable {tr p off : Nat} {s : State}

theorem OwnersBlock.not_sharedRegister (h : OwnersBlock off) : ¬ SharedRegister off := by
  unfold OwnersBlock at h
  unfold SharedRegister
  omega

/-- A word of the owner's blocks reads zero to any other partition. -/
theorem plainWord_ownersBlock (hp : p ≠ 0) (h : OwnersBlock off) : plainWord s tr p off = 0 := by
  have hown : (p == 0) = false := beq_eq_false_iff_ne.mpr hp
  rw [plainWord, hown]
  rcases h with h | h | h <;>
    simp (disch := omega) only [if_pos, if_neg, Bool.false_eq_true, if_false, Bool.not_false, if_true, ite_self]

/-- A read of the owner's blocks by any other partition clears nothing. -/
theorem readClear_ownersBlock (hp : p ≠ 0) (h : OwnersBlock off) : readClear tr p off s = s := by
  have hown : (p == 0) = false := beq_eq_false_iff_ne.mpr hp
  rw [readClear, hown]
  rcases h with h | h | h <;>
    simp (disch := omega) only [if_pos, if_neg, Bool.false_and, Bool.false_eq_true, if_false, ite_self]

/-- A partition that is not the owner writes nothing but the shared registers. -/
theorem writeReg_notOwner (v : Nat) (hp : p ≠ 0) (h : ¬ SharedRegister off) : writeReg tr p off v s = s := by
  have hown : (!(p == 0)) = true := by simpa using hp
  simp only [SharedRegister, not_or] at h
  obtain ⟨hrings, hrelease, hlog, hsource, hstats, hrun⟩ := h
  rw [writeReg, if_neg hrings, if_neg hrelease, if_neg hlog, if_neg hsource, if_neg hstats, if_neg hrun, if_pos hown]

/-! The status blocks of the channels lie from 0x1000 on, 0x80 apart (R70). -/

/-- The offset of a word of a channel's status block. -/
def channelOffset (c o : Nat) : Nat := 0x1000 + 0x80 * c + o

variable {c o : Nat}

theorem channelOffset_bounds (hc : c < 64) (ho : o < 0x80) : 0x1000 ≤ channelOffset c o ∧ channelOffset c o < 0x3000 := by
  unfold channelOffset
  omega

theorem channelOffset_not_sharedRegister (hc : c < 64) (ho : o < 0x80) : ¬ SharedRegister (channelOffset c o) := by
  obtain ⟨hlo, hhi⟩ := channelOffset_bounds hc ho
  unfold SharedRegister
  omega

theorem channelOffset_channel (ho : o < 0x80) : (channelOffset c o - 0x1000) / 0x80 = c := by
  unfold channelOffset
  omega

/-- The status block of a channel outside a partition's scope reads zero to it. -/
theorem plainWord_otherChannel (howns : ownsChannel s p c = false) (hc : c < 64) (ho : o < 0x80) :
    plainWord s tr p (channelOffset c o) = 0 := by
  obtain ⟨hlo, hhi⟩ := channelOffset_bounds hc ho
  rw [plainWord]
  simp (disch := omega) only [if_pos, if_neg, channelOffset_channel ho, howns, Bool.false_eq_true, if_false]

/-- A read of the status block of a channel outside a partition's scope clears nothing. -/
theorem readClear_otherChannel (howns : ownsChannel s p c = false) (hc : c < 64) (ho : o < 0x80) :
    readClear tr p (channelOffset c o) s = s := by
  obtain ⟨hlo, hhi⟩ := channelOffset_bounds hc ho
  rw [readClear]
  simp (disch := omega) only [if_pos, if_neg, channelOffset_channel ho, howns, Bool.false_eq_true, if_false]

/-- Only a partition other than the owner has a channel outside its scope (R426). -/
theorem not_owner_of_ownsChannel (howns : ownsChannel s p c = false) : p ≠ 0 := by
  rintro rfl
  simp [ownsChannel] at howns

end NotOwner

/-- Settles O57, by the blocks of the window: the owner's blocks, and the status block of a channel outside the scope. -/
theorem partitionsSeeOnlyTheirOwn : Obligations.PartitionsSeeOnlyTheirOwn := by
  unfold Obligations.PartitionsSeeOnlyTheirOwn
  refine ⟨?owners, ?channels, ?command⟩
  case owners =>
    exact fun s tr p off hp hblock => ⟨plainWord_ownersBlock hp hblock, readClear_ownersBlock hp hblock,
      fun v => writeReg_notOwner v hp (OwnersBlock.not_sharedRegister hblock)⟩
  case channels =>
    intro s tr p c o howns hc ho
    exact ⟨plainWord_otherChannel howns hc ho, readClear_otherChannel howns hc ho,
      fun v => writeReg_notOwner v (not_owner_of_ownsChannel howns) (channelOffset_not_sharedRegister hc ho)⟩
  case command =>
    intro s tr p off v hcaller hp hquiet halign hblock
    have hoff : off < 65536 := by omega
    refine (congrArg done (writeAt_caller v hcaller hoff halign)).trans ?_
    rw [writeReg_notOwner _ hp (OwnersBlock.not_sharedRegister hblock), done_quiet s hquiet]

/-! ### The guides of a CTU (R129, R136) -/

/-- There is no best vector only where there is no candidate. -/
theorem bestVec_eq_none {cost : MotionVec → Nat} {l : List MotionVec} (h : bestVec cost l = none) : l = [] := by
  cases l with
  | nil => rfl
  | cons v rest =>
    simp only [bestVec] at h
    split at h
    · cases h
    · split at h <;> cases h

/-- The best vector is a candidate, and none costs less (R127). -/
theorem bestVec_spec {cost : MotionVec → Nat} {l : List MotionVec} {v : MotionVec} (h : bestVec cost l = some v) :
    v ∈ l ∧ ∀ w ∈ l, cost v ≤ cost w := by
  induction l generalizing v with
  | nil => simp [bestVec] at h
  | cons u rest ih =>
    cases hrest : bestVec cost rest with
    | none =>
      obtain rfl := bestVec_eq_none hrest
      obtain rfl : u = v := by simpa [bestVec] using h
      simp
    | some w =>
      obtain ⟨hmem, hleast⟩ := ih hrest
      simp only [bestVec, hrest] at h
      split at h
      · next hbefore =>
        obtain rfl := Option.some.inj h
        have hle : cost u ≤ cost w := by omega
        simpa using fun x hx => hle.trans (hleast x hx)
      · next hnot =>
        obtain rfl := Option.some.inj h
        have hle : cost w ≤ cost u := by omega
        simpa [hmem, hle] using hleast

/-- The most frequent vector is a candidate, and none occurs more often. -/
theorem mostFrequent_spec {all among : List MotionVec} {v : MotionVec} (h : mostFrequent all among = some v) :
    v ∈ among ∧ ∀ w ∈ among, votes all w ≤ votes all v := by
  obtain ⟨hmem, hleast⟩ := bestVec_spec h
  refine ⟨hmem, fun w hw => ?_⟩
  have hcost := hleast w hw
  have hcount : votes all w ≤ all.length := List.countP_le_length
  omega

/-- Whether a vector lies far enough from the first guide to be a second one (R129). -/
def FarFrom (g v : MotionVec) : Prop := 32 < (v.1 - g.1).natAbs ∨ 32 < (v.2 - g.2).natAbs

/-- The guides are none, or among the most frequent vector and one far from it, those that direct search does not reach. -/
theorem guidesOf_cases (vs : List MotionVec) : guidesOf vs = [] ∨ ∃ (g : MotionVec) (second : Option MotionVec),
    (g ∈ vs ∧ ∀ w ∈ vs, votes vs w ≤ votes vs g) ∧ (∀ b ∈ second, b ∈ vs ∧ FarFrom g b) ∧
      guidesOf vs = ([g] ++ second.toList).filter outsideDirect := by
  cases hfirst : mostFrequent vs vs with
  | none => exact .inl (by rw [guidesOf, hfirst])
  | some g =>
    refine .inr ⟨g, _, mostFrequent_spec hfirst, fun b hb => ?_, by rw [guidesOf, hfirst]⟩
    obtain ⟨hmem, -⟩ := mostFrequent_spec hb
    simpa [FarFrom] using hmem

theorem outsideDirect_iff (v : MotionVec) : outsideDirect v = true ↔ 224 < v.1.natAbs ∨ 96 < v.2.natAbs := by
  simp [outsideDirect]

/-- Settles O60, through the first guide and the second that may follow it. -/
theorem guidesLieBeyondDirectSearch : Obligations.GuidesLieBeyondDirectSearch := by
  unfold Obligations.GuidesLieBeyondDirectSearch
  refine ⟨fun vs => ?guides, ?inForce⟩
  case guides =>
    obtain hnone | ⟨g, second, ⟨hg, hmost⟩, hsecond, heq⟩ := guidesOf_cases vs
    · simp [hnone]
    rw [heq]
    refine ⟨?count, ?each, ?two⟩
    case count =>
      refine (List.length_filter_le _ _).trans ?_
      cases second <;> simp
    case each =>
      intro v hv
      obtain ⟨hcand, hout⟩ := List.mem_filter.mp hv
      refine ⟨?_, (outsideDirect_iff v).mp hout⟩
      obtain hv | hv := List.mem_append.mp hcand
      · rwa [List.mem_singleton.mp hv]
      · obtain ⟨hmem, -⟩ := hsecond v (Option.mem_toList.mp hv)
        exact hmem
    case two =>
      intro a b htwo
      have hall : ([g] ++ second.toList).filter outsideDirect = [g] ++ second.toList := by
        refine List.filter_sublist.eq_of_length_le ?_
        rw [htwo]
        cases second <;> simp
      obtain ⟨rfl, hb⟩ : g = a ∧ second = some b := by
        rw [hall] at htwo
        cases second <;> simp_all
      obtain ⟨-, hfar⟩ := hsecond b hb
      exact ⟨hfar, hmost⟩
  case inForce =>
    rintro enabled loss first cut row vs (rfl | rfl | rfl | ⟨c, rfl, hc⟩) <;> simp [guidesInForce, *]

/-! ### The information requests (R72, R101, R123, R160, R181, R199, R274, R336, R425, R441) -/

/-- Settles O13: each request is accepted and about an object of the caller's scope, so its body answers with the words. -/
theorem informationRequestsAnswered : Obligations.InformationRequestsAnswered := by
  unfold Obligations.InformationRequestsAnswered
  refine ⟨?channel, ?pool, ?reference, ?rate, ?decode, ?compose, ?group, ?pair, ?port, ?identity, ?host⟩
  case channel =>
    rintro r p s _ haccepted rfl howns
    exact exec_accepted rfl haccepted (guard_passed howns)
  case pool =>
    rintro r p s _ haccepted rfl
    exact exec_accepted rfl haccepted rfl
  case reference =>
    rintro r p s _ haccepted rfl howns
    exact exec_accepted rfl haccepted (guard_passed howns)
  case rate =>
    rintro r p s _ c haccepted rfl howns hctx
    refine exec_accepted rfl haccepted ((guard_passed howns).trans ?_)
    simp only [f8, fclamp, slotTaken_enc, hctx]
  case decode =>
    rintro r p s _ haccepted rfl howns
    exact exec_accepted rfl haccepted (guard_passed howns)
  case compose =>
    rintro r p s _ _ haccepted rfl rfl howns
    exact exec_accepted rfl haccepted (guard_passed howns)
  case group =>
    rintro r p s _ _ haccepted rfl rfl howns
    exact exec_accepted rfl haccepted (guard_passed howns)
  case pair =>
    rintro r p s _ haccepted rfl
    exact exec_accepted rfl haccepted rfl
  case port =>
    rintro r p s _ haccepted rfl
    exact exec_accepted rfl haccepted rfl
  case identity =>
    rintro r p s _ haccepted rfl
    exact exec_accepted rfl haccepted rfl
  case host =>
    rintro r p s _ haccepted rfl
    exact exec_accepted rfl haccepted rfl

end Sys2Proof.Proofs
end

section
/-! The events of the encode engines: trains of the Pleach ring, verdicts of slices, and what happens at their frames and rows. -/

namespace Sys2Proof.Proofs

open Sys2Proof Sys2Proof.Machine Sys2Proof.Safety

/-! ### Trains of the ring (R60 to R64) -/

@[simp] theorem engine_setEngine_self (s : State) (e : Nat) (f : Engine → Engine) : engine (setEngine s e f) e = f (engine s e) :=
  tgetD_tupd_self _ _ _ _

theorem engine_setEngine_ne {e k : Nat} (s : State) (f : Engine → Engine) (h : k ≠ e) : engine (setEngine s e f) k = engine s k :=
  (tgetD_tupd _ _ _ _ _).trans (if_neg h.symm)

/-- The state in which an engine has a train: it awaits it no more, and the train is off the ring (R62). -/
def trainDelivered (e : Nat) (a : Strip) (s : State) : State :=
  let waited := setEngine s e (fun x => { x with awaiting := x.awaiting.filter (fun b => !sameTrain b a) })
  { waited with enc := { waited.enc with pool := { waited.enc.pool with
      trains := s.enc.pool.trains.filter (fun x => !(x.dest == e && sameTrain x.strip a)) } } }

theorem trainDelivered_ctxs (e : Nat) (a : Strip) (s : State) : (trainDelivered e a s).enc.ctxs = s.enc.ctxs := rfl

/-- A train off the ring leaves the engines as its wait's end did. -/
theorem engine_trainDelivered (e k : Nat) (a : Strip) (s : State) : engine (trainDelivered e a s) k =
    engine (setEngine s e (fun x => { x with awaiting := x.awaiting.filter (fun b => !sameTrain b a) })) k := rfl

theorem engine_trainDelivered_self (e : Nat) (a : Strip) (s : State) :
    engine (trainDelivered e a s) e = { engine s e with awaiting := (engine s e).awaiting.filter (fun b => !sameTrain b a) } := by
  rw [engine_trainDelivered, engine_setEngine_self]

theorem engine_trainDelivered_ne {e k : Nat} (a : Strip) (s : State) (h : k ≠ e) : engine (trainDelivered e a s) k = engine s k := by
  rw [engine_trainDelivered, engine_setEngine_ne _ _ h]

/-- A train whose route no fenced segment cuts is delivered, and used where its context is configured (R62, R64). -/
theorem execPleachStripArrival_delivered {e : Nat} {a : Strip} {s : State} (hcut : routeCut s e a = false) :
    execPleachStripArrival e a s = .next ((tget s.enc.ctxs a.context).elim (trainDelivered e a s) fun c =>
      (List.range c.engines.length).foldl (fun s t =>
        if pathEngine s (c.engines.getD t 18) = e then useStrip a.context a.row t a.tile a.kind c s else s) (trainDelivered e a s)) := by
  have hopen : ¬ routeCut s e a = true := Bool.eq_false_iff.mp hcut
  rw [execPleachStripArrival, if_neg hopen]
  cases hctx : tget s.enc.ctxs a.context <;> simp only [hctx, Option.elim, setEngine] <;> rfl

/-! ### Verdicts (R111, R112) -/

section Verdict

variable {v : SliceResult} {s : State} {c c' : Ctx} {p p' : Pic} {h : Chan} {trip : Bool}

/-- A slice that an engine codes and has come to the end of, in its coding interval, gets the verdict of its sizes (R48, R111). -/
theorem execSliceVerdict_taken (hctx : tget s.enc.ctxs v.context = some c) (hpic : picOf s v.context v.frame = some p)
    (hchan : tget s.enc.chans c.channel = some h) (hlive : c.stopped = false) (hticks : ticking s = true)
    (hcap : thas p.caps (sliceKey v.row v.tile) = true) (hnew : thas p.emitted (sliceKey v.row v.tile) = false)
    (hduty : p.floorTiles.contains v.tile = false) (hdue : p.floorDue.contains (sliceKey v.row v.tile) = false) (htile : v.tile < 4)
    (hturn : inTurn s (c.engines.getD v.tile 18) v = true) (hverdict : verdictOf v (lowDelay h) c p = (c', p', trip)) :
    execSliceVerdict v s = done (settleRow v.context v.frame v.row (sendVerdict v.context v.row v.tile
      (tgetD p'.emitted (sliceKey v.row v.tile) 0) trip c
      (let coded := setEngine (modPic s v.context v.frame (fun _ _ => (c', p'))) (c.engines.getD v.tile 18)
        (fun y => { y with inCtu := none })
       if trip then countFloor v.context (sliceKey v.row v.tile) p'
          (modChan coded c.channel (fun h => { h with rcTrips := bump32 h.rcTrips }))
        else coded))) := by
  have hguard : (c.stopped || !ticking s || !thas p.caps (sliceKey v.row v.tile) || thas p.emitted (sliceKey v.row v.tile) ||
      p.floorTiles.contains v.tile || p.floorDue.contains (sliceKey v.row v.tile) || decide (4 ≤ v.tile) ||
      !inTurn s (c.engines.getD v.tile 18) v) = false := by
    simp only [hlive, hticks, hcap, hnew, hduty, hdue, hturn, Nat.not_le.mpr htile, decide_false, Bool.not_true, Bool.or_false]
  simp only [execSliceVerdict, hctx, hpic, hchan, hguard, hverdict, Bool.false_eq_true, if_false]

end Verdict

/-! ### Frames and rows (R43, R64, R66, R81, R114) -/

/-- Waiting for a channel's next frame tick lets time pass and nothing else, and none where the channel has no tick to come. -/
theorem atNextFrame_frame (c : Nat) (s : State) : ∃ m, atNextFrame c s = { s with mtb := m } ∧
    (chanRunning s c = false ∨ ticking s = false → m = s.mtb) := by
  by_cases hrun : (chanRunning s c && ticking s) = true
  · obtain ⟨m, hm⟩ := noEarlier_frame s (frameTickAt (chan s c).rate (frameNow (chan s c).rate s.mtb.t + 1))
    refine ⟨m, (if_pos hrun).trans hm, fun hidle => ?_⟩
    obtain ⟨hchan, hticks⟩ := Bool.and_eq_true_iff.mp hrun
    simp [hchan, hticks] at hidle
  · exact ⟨s.mtb, if_neg hrun, fun _ => rfl⟩

/-- Settles O21: each event in its context takes the branch of its command that the premises select. -/
theorem encodeEventsComplete : Obligations.EncodeEventsComplete := by
  unfold Obligations.EncodeEventsComplete
  refine ⟨?arrival, ?stripB, ?cut, ?coded, ?tripped, ?alf, ?aps, ?reroute, ?spare, ?correction, ?emission⟩
  case arrival =>
    rintro e a s _ hcut rfl
    refine ⟨fun hctx => ?_, fun c hctx => ?_, ?_, fun k hk => engine_trainDelivered_ne a s hk⟩
    · exact (execPleachStripArrival_delivered hcut).trans (by rw [hctx]; rfl)
    · exact (execPleachStripArrival_delivered hcut).trans (by rw [hctx]; rfl)
    · exact congrArg Engine.awaiting (engine_trainDelivered_self e a s)
  case stripB => exact fun x row t u c s => rfl
  case cut => exact fun e a s hcut => if_pos hcut
  case coded => exact fun v s c c' p p' h => execSliceVerdict_taken
  case tripped => exact fun v s c c' p p' h => execSliceVerdict_taken
  case alf =>
    intro x frame s c p hctx hpic hvvc hlive hlast hstats
    have hready : c.codec = 0 ∧ c.stopped = false ∧
        p.rowsIn.contains (ctuRows c.raster - (if c.raster = 3 ∧ c.further then 2 else 1)) = true ∧
        (c.engines.length = 4 → [1, 2, 3].all p.statsIn.contains = true) := ⟨hvvc, hlive, hlast, hstats⟩
    change execAlfDerivation x frame s = _
    simp only [execAlfDerivation, hctx, hpic]
    exact if_pos hready
  case aps => exact fun x frame f => rfl
  case reroute =>
    intro c seg s hc hseg
    obtain ⟨m, hm, hidle⟩ := atNextFrame_frame c { s with enc := { s.enc with pool := { s.enc.pool with
      ringFenced := sadd s.enc.pool.ringFenced seg } } }
    refine ⟨m, ?_, hidle⟩
    change execRingSegmentReroute c seg s = _
    rw [execRingSegmentReroute, if_pos ⟨hseg, hc⟩, hm]
  case spare =>
    refine fun e c frame s => ⟨fun hidle => ?_, fun hticks hrun => ?_⟩
    · have hnow : ¬ (ticking s && chanRunning s c) = true := by
        obtain h | h := hidle <;> simp [h]
      exact next_eq (congrArg (takeOver e c frame) (if_neg hnow))
    · have hlater : (ticking s && chanRunning s c) = true := by simp [hticks, hrun]
      exact next_eq (congrArg (takeOver e c frame) (if_pos hlater))
  case correction =>
    intro x frame g s c hctx hdecides hticks hmode hlive hseq hphase hg hguard
    have hlate : decide (guardAt (chan s c.channel).raster (chan s c.channel).rate (frame + 8) ≤ s.mtb.t) = false :=
      decide_eq_false (Nat.not_le.mpr hguard)
    change execGRecompute x frame s = _
    simp only [execGRecompute, hctx, hg]
    exact if_pos ⟨hdecides, hticks, hmode, hlive, hseq, hphase, hlate⟩
  case emission =>
    intro x frame row s c h hctx hchan hlive hdone hrun halive hahead
    have hahead := atTime_ahead halive hahead
    change execSliceEmission x frame row s = _
    cases hpic : picOf s x frame with
    | none =>
      simp only [execSliceEmission, hctx, hchan, hpic, hlive, hrun, hahead, Bool.not_true, Bool.or_false, Bool.false_eq_true,
        if_false]
    | some p =>
      simp only [execSliceEmission, hctx, hchan, hpic, hlive, hdone p hpic, hrun, hahead, Bool.not_true, Bool.or_false,
        Bool.false_eq_true, if_false]

end Sys2Proof.Proofs
end

section
/-! The items that a host submits to the dispatcher: what is submitted, when BUSY is answered, and the requests of each class. -/

namespace Sys2Proof.Proofs

open Sys2Proof Sys2Proof.Machine Sys2Proof.Safety

/-! ### The item of a submission (R279, R282, R284, R290, R291) -/

section Submission

variable {p cls c named : Nat} {r : Req} {change : ShadowChange} {clamped : Bool} {s : State} {ch : Chan}

/-- Whether a partition's rate quota is used up, so that its items go to queue 7 and are counted in excess (R290). -/
abbrev BeyondRate (s : State) (p : Nat) : Prop := (quota s p).rate ≤ (quota s p).used

/-- The item of an accepted submission, decided for a target frame that its request missed or not (R279, R284, R290, R291). -/
def hostItem (p cls : Nat) (r : Req) (c : Nat) (change : ShadowChange) (clamped : Bool) (ch : Chan) (target : Nat × Bool) (s : State) :
    Item :=
  { cls := cls, flow := 4080 + p, queue := if BeyondRate s p then 7 else 32 + p
    deadline := deadlineOf (match change with
      | .sei _ _ _ => seiDeadline ch target.1
      | _ => guardAt ch.raster ch.rate target.1)
    payload := Config.hostPayload s.pvd.order / 16 * 16 % 2 ^ 36
    host := some { req := r, partition := p, channel := c, target := target.1, missed := target.2, change := change
                   clamped := clamped } }

/-- A payload address of 36 bits at most, aligned to 16 bytes (R279). -/
theorem alignedPayload (n : Nat) : n / 16 * 16 % 2 ^ 36 % 16 = 0 ∧ n / 16 * 16 % 2 ^ 36 < 2 ^ 36 := by omega

/-- The submission counted in its partition's quotas (R290). -/
def countSubmission (p : Nat) (s : State) : State :=
  setQuota s p (fun q => { q with
    used := q.used + 1, submitted := bump32 q.submitted
    rateExcess := if BeyondRate s p then bump32 q.rateExcess else q.rateExcess })

/-- A submission for a running channel with room in the wait store and in the quota enters the dispatcher (R287, R290, R291). -/
theorem submitHost_accepted (hchan : tget s.enc.chans c = some ch) (hrun : ch.st = 1) (hstore : waitDepth s < 250000)
    (hquota : inFlight s p < (quota s p).quota) :
    submitHost p cls r c named change clamped s =
      submit (hostItem p cls r c change clamped ch (resolveTarget (openFrame s ch) (named % 2 ^ 32)) s) (countSubmission p s) := by
  have hroom : ¬ (250000 ≤ waitDepth s ∨ (quota s p).quota ≤ inFlight s p) := by omega
  simp only [submitHost, hchan, hrun, ne_eq, not_true_eq_false, if_false, if_neg hroom, decide_eq_true_eq]
  rfl

/-- A submission with no room in the wait store or in the quota is counted and answered BUSY (R287, R290). -/
theorem submitHost_busy (hchan : tget s.enc.chans c = some ch) (hrun : ch.st = 1)
    (hfull : 250000 ≤ waitDepth s ∨ (quota s p).quota ≤ inFlight s p) :
    submitHost p cls r c named change clamped s =
      reply p r 0x0E10 .busy false (le 4 (retryHint (setQuota s p (fun q => { q with busy := bump32 q.busy })) p))
        (setQuota s p (fun q => { q with busy := bump32 q.busy })) := by
  simp only [submitHost, hchan, hrun, ne_eq, not_true_eq_false, if_false, if_pos hfull]

end Submission

/-! ### The requests of the host classes (R102, R182, R237, R289, R292) -/

/-- What is shut out where a test fails is what is let in where it holds. -/
theorem ite_bnot {α : Sort*} (test : Bool) (shut letIn : α) : (if !test then shut else letIn) = if test then letIn else shut := by
  cases test <;> rfl

/-- Settles O17: a submission is accepted or busy by the room there is, and each class's request comes to the submission of its item. -/
theorem hostItemsEnterTheDispatcher : Obligations.HostItemsEnterTheDispatcher := by
  unfold Obligations.HostItemsEnterTheDispatcher
  refine ⟨?submitted, ?busy, ?acknowledge, ?loss, ?graphics, ?expected, ?splice, ?sei, ?unknown⟩
  case submitted =>
    intro p cls c named r change clamped t ch hchan hrun hstore hquota
    obtain ⟨haligned, hbound⟩ := alignedPayload (Config.hostPayload t.pvd.order)
    exact ⟨hostItem p cls r c change clamped ch (resolveTarget (openFrame t ch) (named % 2 ^ 32)) t, rfl, rfl, rfl, rfl, haligned,
      hbound, rfl, submitHost_accepted hchan hrun hstore hquota⟩
  case busy => exact fun p cls c named r change clamped t ch hchan hrun hfull => submitHost_busy hchan hrun hfull
  case acknowledge =>
    rintro r p s _ _ c haccepted rfl rfl howns hchan
    refine exec_accepted rfl haccepted ((guard_passed howns).trans ?_)
    simp only [f8, fclamp, hchan, ite_bnot, Bool.false_eq_true, if_false]
  case loss =>
    rintro r p s _ _ c haccepted rfl rfl howns hchan
    refine exec_accepted rfl haccepted ((guard_passed howns).trans ?_)
    simp only [f8, fclamp, hchan, ite_bnot, if_true]
  case graphics =>
    rintro r p s _ _ _ _ haccepted rfl rfl rfl rfl howns hlayer
    refine exec_accepted rfl haccepted ((guard_passed howns).trans ?_)
    simp only [f8, fclamp, if_true, hlayer, Bool.not_true, Bool.false_eq_true, if_false]
  case expected =>
    rintro r p s _ _ _ haccepted rfl rfl rfl howns hregion
    refine exec_accepted rfl haccepted ((guard_passed howns).trans ?_)
    simp only [f8, fclamp, hregion, Bool.not_true, Bool.false_eq_true, if_false]
  case splice =>
    rintro r p s _ _ _ l haccepted rfl rfl rfl howns hleg
    refine exec_accepted rfl haccepted ((guard_passed howns).trans ?_)
    simp only [f16, fclamp, hleg]
  case sei =>
    rintro r p s _ _ c _ haccepted rfl rfl rfl howns hchan
    refine exec_accepted rfl haccepted ((guard_passed howns).trans ?_)
    simp only [f8, f16, fclamp, hchan]
  case unknown =>
    rintro r p s _ haccepted rfl
    exact exec_accepted rfl haccepted rfl

end Sys2Proof.Proofs
end

section
/-! The events of the decode engines and of graphics slots: NAL units, the closing and the decoding of pictures, the end of a displaced
slot and of a slot's copy. -/

namespace Sys2Proof.Proofs

open Sys2Proof Sys2Proof.Machine Sys2Proof.Safety

/-! ### Decode contexts (R150 to R156) -/

section Decoding

variable {d : Nat} {s : State} {c : DecCtx}

/-- A NAL unit in a running context with a layer source is taken, and damage is reported as DEC_STREAM (R150, R158). -/
theorem receiveNal_taken (nal : NalIn) (hctx : tget s.dec.ctxs d = some c) (hrun : c.st = 1) (huse : c.use = 1)
    (hticks : ticking s = true) :
    receiveNal d nal s = if (takeNal nal c).2 then raise 0x03A d (modDec s d (fun _ => (takeNal nal c).1))
      else modDec s d (fun _ => (takeNal nal c).1) := by
  have hready : c.st = 1 ∧ c.use = 1 ∧ ticking s = true := ⟨hrun, huse, hticks⟩
  simp only [receiveNal, hctx]
  exact if_pos hready

/-- The timeout of a running context closes its open picture, no earlier than DEC_DELAY periods after its presentation (R152). -/
theorem execDecodeCloseTimeout_closes {p : DecPic} (hctx : tget s.dec.ctxs d = some c) (hcur : c.cur = some p) (hrun : c.st = 1)
    (hticks : ticking s = true) :
    execDecodeCloseTimeout d s =
      .next (modDec (noEarlier (presentationTime s.mtb.t p.pts + c.delay * streamPeriod c) s) d closePicture) := by
  simp only [execDecodeCloseTimeout, hctx, hcur]
  exact if_pos ⟨hrun, hticks⟩

/-- The oldest closed picture of a running context completes, and what the outputs gain passes their tap in order (R146, R355). -/
theorem execDecodePictureDone_finishes (pic : DecodedPicture) (hctx : tget s.dec.ctxs d = some c) (hrun : c.st = 1)
    (hticks : ticking s = true) (hclosed : c.closed ≠ []) :
    execDecodePictureDone d pic s =
      .next ((((finishPicture pic c).outs.filter (fun o => !c.outs.contains o)).reverse).foldl
        (fun s o => tapLines 5 d (pictureBytes o.picture) s) (modDec s d (fun _ => finishPicture pic c))) := by
  simp only [execDecodePictureDone, hctx]
  exact if_pos ⟨hrun, hticks, hclosed⟩

end Decoding

/-! ### Graphics slots (R170, R265) -/

section Slots

variable {c l : Nat} {s : State}

/-- A displaced slot that no host item's flip displaced becomes free at the end of its last row (R170). -/
theorem execGraphicsSlotRelease_freed {d : Displaced}
    (hslot : (tget (Machine.cmp s c).g l).bind (fun g => g.displaced) = some d) (hticks : ticking s = true) (hown : d.item = none) :
    execGraphicsSlotRelease c l s = .next (setCmp
      (noEarlier (rowTickAt (chan s c).raster (chan s c).rate d.lastFrame (ctuRows (chan s c).raster + 1)) s) c
      (fun x => { x with g := tmod x.g l (fun g => { g with displaced := none }) })) := by
  simp only [execGraphicsSlotRelease, hslot, hticks, if_true, hown]

/-- A slot that a host item's flip displaced becomes free, and the flip is complete (R170). -/
theorem execGraphicsSlotRelease_flipped {t : State} {d : Displaced} {k : Nat} {h : HostItem}
    (hslot : (tget (Machine.cmp s c).g l).bind (fun g => g.displaced) = some d) (hticks : ticking s = true) (hitem : d.item = some k)
    (hfreed : t = setCmp
      (noEarlier (rowTickAt (chan s c).raster (chan s c).rate d.lastFrame (ctuRows (chan s c).raster + 1)) s) c
      (fun x => { x with g := tmod x.g l (fun g => { g with displaced := none }) }))
    (hhost : (itemOf t k).bind (fun i => i.host) = some h) :
    execGraphicsSlotRelease c l s = done (finishItem k h.target t) := by
  subst hfreed
  simp only [execGraphicsSlotRelease, hslot, hticks, if_true, hitem, hhost]

/-- The first copy of a layer that waits is over: it is counted, and its flip is decided (R264, R265). -/
theorem execGraphicsSlotCopyDone_decides {d : SlotCopy} {rest : List SlotCopy}
    (hcopy : (tget (Machine.cmp s c).g l).map (fun g => g.copying) = some (d :: rest)) :
    execGraphicsSlotCopyDone c l s = done (decideCopied c d (chan s c) { s with
      cmps := tmod s.cmps c (fun x => { x with g := tmod x.g l (fun g => { g with copying := rest }) })
      run := { s.run with copies := s.run.copies + 1 } }) := by
  simp only [execGraphicsSlotCopyDone, hcopy]
  rfl

end Slots

/-- Settles O22: each event finds its context or its layer's slot, so it takes the branch that the premises select. -/
theorem decodeAndOverlayEventsComplete : Obligations.DecodeAndOverlayEventsComplete := by
  unfold Obligations.DecodeAndOverlayEventsComplete
  refine ⟨?received, ?closed, ?finished, ?freed, ?flipped, ?copied⟩
  case received =>
    exact fun d nal s c hctx hrun huse hticks => congrArg done (receiveNal_taken nal hctx hrun huse hticks)
  case closed => exact fun d s c p => execDecodeCloseTimeout_closes
  case finished => exact fun d pic s c => execDecodePictureDone_finishes pic
  case freed => exact fun c l s d => execGraphicsSlotRelease_freed
  case flipped => exact fun c l k s t d h => execGraphicsSlotRelease_flipped
  case copied => exact fun c l s d rest => execGraphicsSlotCopyDone_decides

end Sys2Proof.Proofs
end

section
/-! Composition: blended samples, and the records of compositors, layers, ingress, audio and check-value units. -/

namespace Sys2Proof.Proofs

open Sys2Proof Sys2Proof.Machine Sys2Proof.Safety

/-! ### Blending (R162) -/

section Blending

variable {alpha layer below lo hi : Nat}

/-- The weights α and 255 − α of a blend come to 255. -/
theorem weights_mul_of_le (h : alpha ≤ 255) (v : Nat) : alpha * v + (255 - alpha) * v = 255 * v := by
  rw [← Nat.add_mul, Nat.add_sub_cancel' h]

theorem le_blend (halpha : alpha ≤ 255) (hlayer : lo ≤ layer) (hbelow : lo ≤ below) : lo ≤ blend alpha layer below := by
  have hsum : 255 * lo ≤ alpha * layer + (255 - alpha) * below := calc
    255 * lo = alpha * lo + (255 - alpha) * lo := (weights_mul_of_le halpha lo).symm
    _ ≤ alpha * layer + (255 - alpha) * below := Nat.add_le_add (Nat.mul_le_mul_left _ hlayer) (Nat.mul_le_mul_left _ hbelow)
  unfold blend
  omega

theorem blend_le (halpha : alpha ≤ 255) (hlayer : layer ≤ hi) (hbelow : below ≤ hi) : blend alpha layer below ≤ hi := by
  have hsum : alpha * layer + (255 - alpha) * below ≤ 255 * hi := calc
    alpha * layer + (255 - alpha) * below ≤ alpha * hi + (255 - alpha) * hi :=
      Nat.add_le_add (Nat.mul_le_mul_left _ hlayer) (Nat.mul_le_mul_left _ hbelow)
    _ = 255 * hi := weights_mul_of_le halpha hi
  unfold blend
  omega

/-- An opaque layer hides what lies below it: rounding takes nothing from a whole sample. -/
theorem blend_opaque (layer below : Nat) : blend 255 layer below = layer := by
  unfold blend
  omega

theorem blend_transparent (layer below : Nat) : blend 0 layer below = below := by
  unfold blend
  omega

/-- Layers within two bounds, stacked on a background within them, give a sample within them. -/
theorem blendAll_between (layers : List (Nat × Nat)) {background : Nat} (hlo : lo ≤ background) (hhi : background ≤ hi)
    (hlayers : ∀ l ∈ layers, l.1 ≤ 255 ∧ lo ≤ l.2 ∧ l.2 ≤ hi) :
    lo ≤ blendAll background layers ∧ blendAll background layers ≤ hi := by
  induction layers generalizing background with
  | nil => exact ⟨hlo, hhi⟩
  | cons l rest ih =>
    obtain ⟨⟨halpha, hl, hh⟩, hrest⟩ := List.forall_mem_cons.mp hlayers
    exact ih (le_blend halpha hl hlo) (blend_le halpha hh hhi) hrest

end Blending

/-- Settles O59: a blend is a mean with weights of 255 in all, and a stack is one blend after the other. -/
theorem aBlendLiesBetweenItsSamples : Obligations.ABlendLiesBetweenItsSamples := by
  unfold Obligations.ABlendLiesBetweenItsSamples
  refine ⟨fun alpha layer below halpha => ⟨?_, ?_, blend_opaque layer below, blend_transparent layer below⟩, ?_⟩
  · exact le_blend halpha (Nat.min_le_left _ _) (Nat.min_le_right _ _)
  · exact blend_le halpha (Nat.le_max_left _ _) (Nat.le_max_right _ _)
  · exact fun background lo hi layers => blendAll_between layers

/-! ### What a record that joins the image leaves (R407) -/

@[simp] theorem chan_joinImage (type : Nat) (b : Bytes) (s : State) (c : Nat) : chan (joinImage type b s) c = chan s c := rfl
@[simp] theorem cvUnit_joinImage (type : Nat) (b : Bytes) (s : State) (u : Nat) : cvUnit (joinImage type b s) u = cvUnit s u := rfl
@[simp] theorem group_joinImage (type : Nat) (b : Bytes) (s : State) (c : Nat) : group (joinImage type b s) c = group s c := rfl

@[simp] theorem sourceSuits_joinImage (type : Nat) (b : Bytes) (s : State) (memberType srcType src : Nat) :
    sourceSuits (joinImage type b s) memberType srcType src = sourceSuits s memberType srcType src := rfl

@[simp] theorem sourceTaken_joinImage (type : Nat) (b : Bytes) (s : State) (memberType srcType src : Nat) :
    sourceTaken (joinImage type b s) memberType srcType src = sourceTaken s memberType srcType src := rfl

/-! ### Records of a channel's compositor (R169, R171, R173, R178) -/

/-- A composition record whose channel is taken is judged by the body of its rule (R178). -/
theorem exec_cmpRecord {i : Instr} {type n : Nat} {b : Bytes} {rule : Bytes → State → State} {body : Nat → State → State}
    {s t : State} (hexec : exec i s = recordCommand type b rule s) (hrule : ∀ t, rule b t = cmpRecord n b body t)
    (hopen : recordsOpen s = true) (hlen : n ≤ b.length) (htaken : (chan s (clamp 0 63 (u8 b 0))).taken = true)
    (hbody : body (clamp 0 63 (u8 b 0)) (joinImage type b s) = t) : exec i s = .next (settle t) := by
  refine exec_recordCommand hexec hopen ?_
  simp only [hrule, cmpRecord, sized_of_le _ _ _ _ hlen, chan_joinImage, htaken, if_true, hbody]

/-- The planes of a slate of width w stay within 4 MiB, by the height that a record's h keeps (R178). -/
theorem slate_fits (w h : Nat) : 5 * w * (if w = 0 then 0 else min h (even (4194304 / (5 * w)))) ≤ 4194304 := by
  split
  · exact Nat.zero_le _
  · have heven : even (4194304 / (5 * w)) ≤ 4194304 / (5 * w) := Nat.div_mul_le_self _ 2
    calc 5 * w * min h (even (4194304 / (5 * w))) ≤ 5 * w * (4194304 / (5 * w)) :=
          Nat.mul_le_mul_left _ ((Nat.min_le_right _ _).trans heven)
      _ ≤ 4194304 := Nat.mul_div_le _ _

/-- A change made to the values of several keys in turn: what it establishes of every value holds at each of these keys, and where it
held before. -/
theorem tgetD_foldl_tupd {α : Type} {P : α → Prop} {d : α} {f : α → α} (hf : ∀ x, P (f x)) (key : Nat → Nat) (l : List Nat)
    {t : Tab α} {k : Nat} (hk : k ∈ l.map key ∨ P (tgetD t k d)) :
    P (tgetD (l.foldl (fun t i => tupd t (key i) d f) t) k d) := by
  induction l generalizing t with
  | nil => simpa using hk
  | cons i rest ih =>
    refine ih ?_
    by_cases hi : key i = k
    · exact .inr (by simpa [tgetD_tupd, hi] using hf (tgetD t k d))
    · simpa [tgetD_tupd, hi, Ne.symm hi] using hk

@[simp] theorem holdTopUnits_topHeld (s : State) : (holdTopUnits s).cvu.topHeld = true := by
  unfold holdTopUnits
  split
  · assumption
  · rfl

/-- A unit that topiary holds is held or fenced. -/
theorem two_le_heldUnit_st (x : CvUnit) : 2 ≤ (heldUnit x).st := by
  unfold heldUnit
  simp only
  split <;> omega

/-- The sixteen units from CVU48 on are held, or fenced already, once a first region is taken (R173). -/
theorem two_le_holdTopUnits_st {s : State} {u : Nat} (hlow : 48 ≤ u) (hhigh : u < 64) (hfirst : s.cvu.topHeld = false) :
    2 ≤ (cvUnit (holdTopUnits s) u).st := by
  have hkey : u ∈ (List.range 16).map (fun i => 48 + i) :=
    List.mem_map.mpr ⟨u - 48, List.mem_range.mpr (by omega), Nat.add_sub_cancel' hlow⟩
  simp only [cvUnit, holdTopUnits, hfirst, Bool.false_eq_true, if_false]
  exact tgetD_foldl_tupd (P := fun x : CvUnit => 2 ≤ x.st) two_le_heldUnit_st _ _ (.inl hkey)

/-! ### The records of media (R169, R178, R197, R214, R241, R361) -/

/-- Settles O10: each record's object exists where it must and has no such record, so the body of its rule configures the object. -/
theorem mediaRecordsTaken : Obligations.MediaRecordsTaken := by
  unfold Obligations.MediaRecordsTaken
  refine ⟨?compositor, ?video, ?graphics, ?slate, ?region, ?flow, ?alignment, ?member, ?policer, ?aesIn, ?aesOut, ?programme, ?unit⟩
  case compositor =>
    rintro b s _ hopen hlen rfl htaken hnew
    exact ⟨_, _, exec_cmpRecord rfl (fun _ => rfl) hopen hlen htaken (if_neg (ne_true_of_eq_false hnew)), slate_fits _ _⟩
  case video =>
    rintro b s _ hopen hlen rfl htaken hnew
    exact ⟨_, exec_cmpRecord rfl (fun _ => rfl) hopen hlen htaken (if_neg (ne_true_of_eq_false hnew)), rfl, rfl, rfl, rfl⟩
  case graphics =>
    rintro b s _ hopen hlen rfl htaken hnew
    exact ⟨_, exec_cmpRecord rfl (fun _ => rfl) hopen hlen htaken (if_neg (ne_true_of_eq_false hnew)), rfl, rfl, rfl⟩
  case slate =>
    rintro b s _ hopen hlen rfl htaken
    exact exec_cmpRecord rfl (fun _ => rfl) hopen hlen htaken rfl
  case region =>
    rintro b s _ hopen hlen rfl htaken hnew hload
    refine ⟨exec_cmpRecord rfl (fun _ => rfl) hopen hlen htaken ?_, holdTopUnits_topHeld s, fun u => two_le_holdTopUnits_st, rfl, rfl⟩
    exact (if_neg (ne_true_of_eq_false hnew)).trans (if_neg (ne_true_of_eq_false hload))
  case flow =>
    exact fun b s hopen hlen hnew => ⟨_, exec_record_new rfl rfl hopen hlen hnew rfl, rfl, rfl, rfl, rfl⟩
  case alignment =>
    intro b s hopen hlen htaken hnew
    exact ⟨_, exec_record rfl rfl hopen hlen (if_neg (by simp [htaken, hnew])), rfl, rfl, rfl⟩
  case member =>
    intro b s hopen hlen htaken hgroup hnew hsdi hsuits hfree
    have hsource : clamp 0 2 (u8 b 3) = 0 := by rw [hsdi]; rfl
    refine ⟨_, exec_record rfl rfl hopen hlen (if_neg ?_), rfl, hsource, ?_⟩
    · simp [htaken, hgroup, hnew, hsource, hsuits, hfree]
    · simp [hsource]
  case policer =>
    exact fun b s hopen hlen hnew => ⟨_, exec_record_new rfl rfl hopen hlen hnew rfl, rfl, rfl, rfl, rfl⟩
  case aesIn =>
    exact fun b s hopen hlen hnew => ⟨_, exec_record_new rfl rfl hopen hlen hnew rfl, rfl, rfl, rfl, rfl⟩
  case aesOut =>
    intro b s hopen hlen htaken hnew
    exact ⟨_, exec_record rfl rfl hopen hlen (if_neg (by simp [htaken, hnew])), rfl, rfl, rfl⟩
  case programme =>
    intro b s hopen hlen htaken hnew
    exact ⟨_, exec_record rfl rfl hopen hlen (if_neg (by simp [htaken, hnew])), rfl, rfl, by simp⟩
  case unit =>
    rintro b s _ hopen hlen rfl hlow hnew htap
    exact ⟨_, exec_record rfl rfl hopen hlen (if_neg (by simp [hnew, htap, hlow])), rfl, rfl, rfl, rfl⟩

end Sys2Proof.Proofs
end

section
/-! The events of received media and audio: SDI lines, datagrams, AES3 frames, tracker blocks, the ends of mutes, block starts and port
restarts. -/

namespace Sys2Proof.Proofs

open Sys2Proof Sys2Proof.Machine Sys2Proof.Safety

/-! ### Lines and datagrams (R184 to R186, R207) -/

/-- A line on an unfenced input passes the input's tap and reaches the members on it, with the link as the line shows it (R184, R355). -/
theorem execSdiLineReceive_taken {l : SdiLine} {s : State} (hticks : ticking s = true)
    (hopen : s.ing.sdiFenced.contains l.input = false) :
    execSdiLineReceive l s = .next (onMembers 0 l.input (fun ch g m => sdiMember ch g l s.mtb.t m)
      (tapSymbols 3 l.input l.lumaWords (if l.line + 1 = linkLines (linkSeen l s) l.input then [2, 3] else [2]) (linkSeen l s))) := by
  have hlive : ¬ (ticking s = false ∨ s.ing.sdiFenced.contains l.input = true) :=
    not_or.mpr ⟨ne_false_of_eq_true hticks, ne_true_of_eq_false hopen⟩
  exact if_neg hlive

section Datagram

variable {p : MediaPacket} {s t : State} {taken : Bool}

/-- A datagram that is not taken, or carries no audio, leaves what its policing and selection leave (R185, R186). -/
theorem execSt2110PacketReceive_silent (hreceived : receivePacket p s = (t, taken))
    (hsilent : taken = false ∨ ∀ hz depth us samples, p.form ≠ .audio hz depth us samples) :
    execSt2110PacketReceive p s = done t := by
  simp only [execSt2110PacketReceive, hreceived]
  split
  next hz depth us samples hform =>
    obtain hleft | hother := hsilent
    · cases hleft
    · exact absurd hform (hother hz depth us samples)
  next => rfl

/-- The samples of a taken audio datagram are searched for sync words (R207). -/
theorem execSt2110PacketReceive_audio {hz depth us : Nat} {samples : List (List Nat)} (hreceived : receivePacket p s = (t, true))
    (hform : p.form = .audio hz depth us samples) : execSt2110PacketReceive p s = done (detectFlow p hz depth samples t) := by
  simp only [execSt2110PacketReceive, hreceived, hform]

end Datagram

/-! ### AES3 inputs (R200 to R207) -/

section Input

variable {i count : Nat} {s : State}

/-- A frame into a running input: its members hear it, its bursts are detected, and the converter or the adapter takes it (R200). -/
theorem execAes3FrameReceive_running {n : Nat} {f : AesFrame} {t : State} (hruns : aesRuns s i = true)
    (hplace : n = (if f.blockStart then 1 else if (aesIn s i).blockFrame = 0 then 0 else (aesIn s i).blockFrame + 1))
    (hheard : t = onMembers 2 i (fun _ _ m => { m with heard := true })
      (tapSymbols 6 i (aesSymbols f) (if n = 192 then [4] else []) s)) :
    execAes3FrameReceive i f s = .next (modIn (detectFrame i f (heardTick i s) t) i (fun x => converterIn s.mtb.t f (adapterIn f { x with
      blockFrame := if n = 192 then 0 else n, nonAudio := f.nonAudio, burstNow := x.burstNow || frameSign i f t
      skip := x.skip || (x.st == 3 && midBlock s.mtb.t) }))) := by
  subst hplace hheard
  exact if_neg (ne_false_of_eq_true hruns)

theorem execTrackerBlock_transparent (hruns : aesRuns s i = true) (htransp : (aesIn s i).transp = true) :
    execTrackerBlock i count s = .next (modIn s i (transparentBlock count)) :=
  (if_neg (ne_false_of_eq_true hruns)).trans (if_pos htransp)

/-- A block of a converting port: the tracker judges it, the active device sends its ρ, and a device that borrows ρ keeps the one that VA
brought (R202, R205). -/
theorem execTrackerBlock_converting {f : Nat} {r : AudIn × Bool} {t u v : State} (hruns : aesRuns s i = true)
    (hconv : (aesIn s i).transp = false) (hfree : (f, t) = drawFree s) (hblock : r = trackBlock t.mtb.t count f (aesIn t i))
    (hsent : u = (if actingMode t = .active then sendVa 2 (.va (.ratio i r.1.ratio)) t else t))
    (htracked : v = modIn u i (fun x => if borrowsRatio u then { r.1 with ratio := x.ratio } else { r.1 with partnerRatio := none })) :
    execTrackerBlock i count s = done (if r.2 then raise 0x054 i v else v) := by
  have hjudged : execTrackerBlock i count s = _ :=
    (if_neg (ne_false_of_eq_true hruns)).trans (if_neg (ne_true_of_eq_false hconv))
  simp only [hjudged, ← hfree, ← hblock, beq_iff_eq, ← hsent, ← htracked]

/-- A running input that has not stopped falls silent: a converting port's gain ramps down, and the stop is reported (R202, R203). -/
theorem execAes3Stop_falls (hruns : aesRuns s i = true) (hst : (aesIn s i).st ≠ 3) :
    execAes3Stop i s = done (raise 0x054 i (modIn s i (fun x =>
      { x with st := 3, stops := satAdd 8 x.stops 1, coarse := true, within := 0, deviated := false, skip := true
               gain := if x.transp then x.gain else { x.gain with up := false } }))) := by
  have hlive : ¬ (aesRuns s i = false ∨ (aesIn s i).st = 3) := not_or.mpr ⟨ne_false_of_eq_true hruns, hst⟩
  exact if_neg hlive

end Input

/-! ### Payload mutes (R208) -/

/-- An active mute of a path whose non-audio bit is clear ends 4,096 sample ticks after its last sign (R208). -/
theorem execPayloadMuteRelease_ends {path pair : Nat} {s t : State} {m : Mute} (hmute : m = tgetD s.aud.mutes (64 * path + pair) {})
    (hactive : m.active = true) (haudio : 32 ≤ path ∨ (aesIn s path).nonAudio = false) (hquiet : m.lastSign + 4096 ≤ s.aud.tick)
    (hended : t = { s with aud := { s.aud with
      mutes := tset s.aud.mutes (64 * path + pair) { m with active := false, gain := { m.gain with up := true } } } }) :
    execPayloadMuteRelease path pair s =
      .next { t with aud := { t.aud with outs := tmap t.aud.outs (fun _ o => { o with muted337 := outputMuted t o }) } } := by
  subst hmute hended
  have hbit : ¬ (path < 32 ∧ (aesIn s path).nonAudio = true) := by
    rintro ⟨hinput, hset⟩
    obtain hflow | hclear := haudio
    · exact absurd hinput (Nat.not_lt.mpr hflow)
    · exact ne_true_of_eq_false hclear hset
  exact if_neg (not_or.mpr ⟨ne_false_of_eq_true hactive, not_or.mpr ⟨hbit, Nat.not_lt.mpr hquiet⟩⟩)

/-! ### Pairing and restarts (R212) -/

/-- The three ends of a block start check: realigned, still paired, or swapped (R212). -/
theorem blockStart_ends (realign paired : Bool) (realigned unswapped swapped : State) :
    (if realign then .next realigned else if paired then .next unswapped else done swapped : Outcome) =
      .next (if realign then realigned else if paired then unswapped else settle swapped) := by
  simp only [apply_ite Host.Outcome.next, done]

theorem execAes3BlockStartCheck_input {port : Nat} {paired : Bool} {s : State} (hticks : ticking s = true) (hport : port < 32)
    (htaken : (aesIn s port).taken = true) (hopen : (aesIn s port).fenced = false) :
    execAes3BlockStartCheck port paired s = .next (if (aesIn s port).realign then modIn s port realignIn
      else if paired then modIn s port (fun i => { i with swapped := false })
      else settle (raise 0x053 port (modIn s port (fun i =>
        { i with swapped := true, swaps := satAdd 8 i.swaps 1, restartDue := i.restartDue || i.autoRestart })))) := by
  have hlive : ¬ ((aesIn s port).taken = false ∨ (aesIn s port).fenced = true) :=
    not_or.mpr ⟨ne_false_of_eq_true htaken, ne_true_of_eq_false hopen⟩
  rw [execAes3BlockStartCheck, if_neg (ne_false_of_eq_true hticks), if_pos hport]
  exact (if_neg hlive).trans (blockStart_ends _ _ _ _ _)

theorem execAes3BlockStartCheck_output {port : Nat} {paired : Bool} {s : State} {x : AudOut} (hticks : ticking s = true)
    (hport : 32 ≤ port) (hout : tget s.aud.outs (port - 32) = some x) (hst : x.st ≠ 3) :
    execAes3BlockStartCheck port paired s = .next (if x.realign then modOut s (port - 32) realignOut
      else if paired then modOut s (port - 32) (fun o => { o with swapped := false })
      else settle (raise 0x053 port (modOut s (port - 32) (fun o =>
        { o with swapped := true, swaps := satAdd 8 o.swaps 1, restartDue := o.restartDue || o.autoRestart })))) := by
  rw [execAes3BlockStartCheck, if_neg (ne_false_of_eq_true hticks), if_neg (Nat.not_lt.mpr hport), hout]
  exact (if_neg hst).trans (blockStart_ends _ _ _ _ _)

/-- A restart that is due, or committed for the frame on some channel, clears its commits and restarts the port (R212). -/
theorem execAudioPortRestartApply_restarts {port frame : Nat} {s : State} {holds : Commit → Bool}
    (hholds : holds = fun k => k.frame == frame && k.change == .portRestart port)
    (hdue : (if port < 32 then (aesIn s port).restartDue else (tgetD s.aud.outs (port - 32) {}).restartDue) = true ∨
      tkeysOf s.enc.chans (fun _ h => h.shadow.any holds) ≠ []) :
    execAudioPortRestartApply port frame s =
      .next (restartPort port ((tkeysOf s.enc.chans (fun _ h => h.shadow.any holds)).foldl
        (fun s c => modChan s c (fun h => { h with shadow := h.shadow.filter (fun k => !holds k) })) s)) := by
  subst hholds
  refine if_pos ?_
  rwa [Bool.or_eq_true, Bool.not_eq_true', List.isEmpty_eq_false_iff]

/-- Settles O23: each event finds its input, mute or port running, so it takes the branch that the premises select. -/
theorem ingestAndAudioEventsComplete : Obligations.IngestAndAudioEventsComplete := by
  unfold Obligations.IngestAndAudioEventsComplete
  refine ⟨?line, ?datagram, ?frame, ?transparent, ?converting, ?stop, ?mute, ?inputCheck, ?outputCheck, ?restart⟩
  case line => exact fun l s => execSdiLineReceive_taken
  case datagram =>
    exact fun p s t taken hreceived => ⟨execSt2110PacketReceive_silent hreceived.symm, fun hz depth us samples htaken =>
      execSt2110PacketReceive_audio (htaken ▸ hreceived.symm)⟩
  case frame =>
    rintro i n f _ s t _ hruns hplace hheard rfl rfl
    exact execAes3FrameReceive_running hruns hplace hheard
  case transparent => exact fun i count s => execTrackerBlock_transparent
  case converting => exact fun i count f r s t u v => execTrackerBlock_converting
  case stop => exact fun i s => execAes3Stop_falls
  case mute => exact fun path pair s t m => execPayloadMuteRelease_ends
  case inputCheck => exact fun port paired s => execAes3BlockStartCheck_input
  case outputCheck => exact fun port paired s x => execAes3BlockStartCheck_output
  case restart => exact fun port frame s holds => execAudioPortRestartApply_restarts

end Sys2Proof.Proofs
end

section
/-! The events of egress: a port's turn, gate lists, rates, PSI and PCR, RTCP feedback, addresses and the sampling of queues. -/

namespace Sys2Proof.Proofs

open Sys2Proof Sys2Proof.Machine Sys2Proof.Safety

/-! ### A port's turn (R224, R231, R234) -/

section Turn

variable {p : Nat} {s : State}

/-- A port that may send refreshes its buckets and stamps, takes one turn, and what the turn adds goes to the partner (R224, R234). -/
theorem execPacketTransmit_sends (hsends : portSends s p = true) :
    execPacketTransmit p s = .next (settle (sendProduced (takeTurn p (refreshPort p s)))) :=
  if_neg (ne_false_of_eq_true hsends)

/-- A packet of the partner that waits passes before the port's own traffic (R234, R256; log entry 66, deduced). -/
theorem takeTurn_forwarded {e : Nat × Nat × Leg × PairPacket} (hticks : ticking s = true) (hforward : forwardNext s p = some e) :
    takeTurn p s = turnForwarded p e.1 e.2.1 e.2.2.1 e.2.2.2 s := by
  simp only [takeTurn, hticks, hforward, if_true]

theorem takeTurn_slice {e : Nat × Leg × QPkt} (hticks : ticking s = true) (hforward : forwardNext s p = none)
    (hslice : sliceNext s p = some e) : takeTurn p s = turnPacket p 7 e.1 e.2.1 e.2.2 s := by
  simp only [takeTurn, hticks, hforward, hslice, if_true]

/-- Neither the partner nor class 7 has a packet for the port's turn: no flow runs, or none of either waits (R224, R234). -/
def LeftToClasses (p : Nat) (s : State) : Prop := ticking s = false ∨ (forwardNext s p = none ∧ sliceNext s p = none)

/-- A turn left to the classes below 7 is offered no packet of the partner and no slice. -/
theorem LeftToClasses.none_offered (h : LeftToClasses p s) :
    (if ticking s then forwardNext s p else none) = none ∧ (if ticking s then sliceNext s p else none) = none := by
  obtain hstill | ⟨hforward, hslice⟩ := h
  · simp only [hstill, Bool.false_eq_true, if_false, and_self]
  · simp only [hforward, hslice, ite_self, and_self]

theorem takeTurn_own {c : Nat} {f : OwnFrame} (h : LeftToClasses p s) (hclass : classToSend s p = some (c, .own f)) :
    takeTurn p s = turnOwn p f s := by
  simp only [takeTurn, h.none_offered, hclass]

theorem takeTurn_leg {c k : Nat} {l : Leg} {q : QPkt} (h : LeftToClasses p s) (hclass : classToSend s p = some (c, .leg k l q)) :
    takeTurn p s = turnPacket p c k l q s := by
  simp only [takeTurn, h.none_offered, hclass]

theorem takeTurn_nothing (h : LeftToClasses p s) (hclass : classToSend s p = none) : takeTurn p s = s := by
  simp only [takeTurn, h.none_offered, hclass]

end Turn

/-! ### Gate lists (R232, R233) -/

section Gates

variable {p : Nat} {s : State} {g : GateList}

/-- The present entry ends at its time; the next one begins, or at the cycle's end the next cycle (R232). -/
theorem execGateEntryChange_advances {t : Nat} (hgates : (egrPort s p).gates = some g) (hend : t = (egrPort s p).gateUntil)
    (hmode : egressRuns s.mode.mode = true) :
    execGateEntryChange p s = .next (setEgrPort ((atTime (t * nsUnit) s).getD s) p (fun x =>
      if t = x.cycleAt + g.cycle then atEntry g t 0 t x else atEntry g x.cycleAt (x.gateIdx + 1) t x)) := by
  subst hend
  simp only [execGateEntryChange, hgates, hmode, Bool.true_eq_false, if_false]
  cases htime : atTime ((egrPort s p).gateUntil * nsUnit) s <;> rfl

/-- The list that waits begins at its start with its first entry, and cuts the old one (R233). -/
theorem execGateListStart_begins (hnext : (egrPort s p).nextGates = some g) (hmode : egressRuns s.mode.mode = true) :
    execGateListStart p s = .next (setEgrPort ((atTime (g.start * nsUnit) s).getD s) p (fun x =>
      atEntry g g.start 0 g.start { x with gates := some g, nextGates := none })) := by
  simp only [execGateListStart, hnext, hmode, Bool.true_eq_false, if_false]
  cases htime : atTime (g.start * nsUnit) s <;> rfl

end Gates

/-! ### Rates, PSI and PCR of a leg (R219, R220, R229) -/

section Legs

variable {k : Nat} {s : State} {l : Leg}

/-- An accepted rate takes effect with its sample tick (R229). -/
theorem execShaperRateApply_changes {c : RateChange} (tick : Nat) (hleg : tget s.egr.legs k = some l) (hchange : l.change = some c) :
    execShaperRateApply k tick s =
      .next (modLeg (noEarlier (sampleTickAt tick) s) k (applyRate tick (noEarlier (sampleTickAt tick) s).mtb.mgt)) := by
  simp only [execShaperRateApply, hleg, hchange]

theorem execPsiInsertion_inserts (frame : Nat) (hleg : tget s.egr.legs k = some l) (hrun : chanRunning s l.channel = true)
    (hticks : ticking s = true) : execPsiInsertion k frame s =
      .next (sendProduced (modLeg s k (insertPsi s k (frameTickAt (chan s l.channel).rate frame)))) := by
  simp only [execPsiInsertion, hleg, hrun, hticks, Bool.and_self, if_true]

/-- A PCR that is due rides in a video datagram that leaves anyway, and otherwise goes alone on every leg of the flow (R217, R220). -/
theorem execPcrInsertion_due (video : Bool) (hleg : tget s.egr.legs k = some l) (hst : l.st = 1) (hdue : pcrDue s.mtb.t l = true)
    (hticks : ticking s = true) : execPcrInsertion k video s =
      .next (if video then s else sendProduced ((legsWith l k).foldl (fun s j => modLeg s j (insertPcr s j)) s)) := by
  simp only [execPcrInsertion, hleg, hst, hdue, hticks, ne_eq, not_true_eq_false, Bool.true_eq_false, false_or]
  exact (apply_ite Host.Outcome.next _ _ _).symm

/-! ### RTCP (R95, R96, R236) -/

/-- A running leg whose flow takes RTCP hears what arrives (R236). -/
structure HearsRtcp (k : Nat) (l : Leg) (s : State) : Prop where
  leg : tget s.egr.legs k = some l
  rtcp : l.rtcp = true
  running : l.st = 1
  ticks : ticking s = true

theorem HearsRtcp.not_deaf (h : HearsRtcp k l s) : ¬ (l.rtcp = false ∨ l.st ≠ 1 ∨ ticking s = false) := by
  simp only [h.rtcp, h.running, h.ticks, ne_eq, not_true_eq_false, Bool.true_eq_false, or_self, not_false_eq_true]

/-- A leg of no slice flow binds no feedback to a context: whatever it hears is counted (R236). -/
theorem execRtcpReceive_unbound (m : Rtcp) (h : HearsRtcp k l s) (hkind : sliceLeg l = false) :
    execRtcpReceive k m s = .next (ignoreRtcp k s) := by
  simp only [execRtcpReceive, h.leg, h.not_deaf, hkind, if_false, if_true]

theorem execRtcpReceive_other (h : HearsRtcp k l s) (hslices : sliceLeg l = true) :
    execRtcpReceive k .other s = .next (ignoreRtcp k s) := by
  simp only [execRtcpReceive, h.leg, h.not_deaf, hslices, Bool.true_eq_false, if_false]

theorem execRtcpReceive_pli (h : HearsRtcp k l s) (hslices : sliceLeg l = true) (ssrc : Nat) :
    execRtcpReceive k (.pli ssrc) s = .next (lossReport k ssrc 1 l s) := by
  simp only [execRtcpReceive, h.leg, h.not_deaf, hslices, Bool.true_eq_false, if_false]

theorem execRtcpReceive_nack (h : HearsRtcp k l s) (hslices : sliceLeg l = true) (ssrc : Nat) :
    execRtcpReceive k (.nack ssrc) s = .next (lossReport k ssrc 2 l s) := by
  simp only [execRtcpReceive, h.leg, h.not_deaf, hslices, Bool.true_eq_false, if_false]

/-- RPSI for another SSRC than the flow's is counted (R236). -/
theorem execRtcpReceive_rpsi_other {ssrc : Nat} (bits : List Bool) (h : HearsRtcp k l s) (hslices : sliceLeg l = true)
    (hother : ssrc ≠ l.ssrc) : execRtcpReceive k (.rpsi ssrc bits) s = .next (ignoreRtcp k s) := by
  simp only [execRtcpReceive, h.leg, h.not_deaf, hslices, Bool.true_eq_false, if_false]
  exact if_pos hother

/-- RPSI for the flow's SSRC acknowledges the picture it names, where the source context takes RPSI and runs (R95, R97). -/
theorem execRtcpReceive_rpsi_acknowledges {bits : List Bool} {poc : Nat} {c : Ctx} (h : HearsRtcp k l s) (hslices : sliceLeg l = true)
    (hpoc : rpsiPoc bits = some poc) (hctx : tget s.enc.ctxs l.source = some c) (htakes : bitOf c.feedback 0 = true)
    (hlive : c.stopped = false) :
    execRtcpReceive k (.rpsi l.ssrc bits) s = .next (changeOf l.channel 0 (.acknowledge l.source poc) s) := by
  have hsame : ¬ l.ssrc ≠ l.ssrc := not_not_intro rfl
  simp only [execRtcpReceive, h.leg, h.not_deaf, hslices, hsame, hpoc, hctx, htakes, hlive, Bool.true_eq_false, if_false,
    Bool.not_false, Bool.and_self, if_true]

end Legs

/-! ### Queue statistics (R239) -/

theorem execQueueSampleTimer_samples {s : State} (hstill : (runningChans s).isEmpty = true) (hmode : egressRuns s.mode.mode = true) :
    execQueueSampleTimer s = .next (sampleGroups (noEarlier (s.egr.sampledAt + 10 * msUnit) s)) :=
  if_pos (Bool.and_eq_true_iff.mpr ⟨hstill, hmode⟩)

/-- Settles O24: each event finds its port, list, leg or flow ready, so it takes the branch that the premises select. -/
theorem egressEventsComplete : Obligations.EgressEventsComplete := by
  unfold Obligations.EgressEventsComplete
  refine ⟨?transmit, ?forwarded, ?slice, ?classes, ?entry, ?list, ?rate, ?psi, ?pcr, ?feedback, ?unbound, ?address, ?sample⟩
  case transmit => exact fun p s => execPacketTransmit_sends
  case forwarded => exact fun p s e => takeTurn_forwarded
  case slice => exact fun p s e => takeTurn_slice
  case classes => exact fun p s h => ⟨fun c f => takeTurn_own h, fun c k l q => takeTurn_leg h, takeTurn_nothing h⟩
  case entry => exact fun p s g t => execGateEntryChange_advances
  case list => exact fun p s g => execGateListStart_begins
  case rate => exact fun k tick s l c => execShaperRateApply_changes tick
  case psi => exact fun k frame s l => execPsiInsertion_inserts frame
  case pcr =>
    exact fun k s l hleg hst hdue hticks =>
      ⟨execPcrInsertion_due true hleg hst hdue hticks, execPcrInsertion_due false hleg hst hdue hticks⟩
  case feedback =>
    intro k s l hleg hrtcp hst hticks hslices
    have hears : HearsRtcp k l s := ⟨hleg, hrtcp, hst, hticks⟩
    exact ⟨execRtcpReceive_other hears hslices, execRtcpReceive_pli hears hslices, execRtcpReceive_nack hears hslices,
      fun ssrc bits => execRtcpReceive_rpsi_other bits hears hslices,
      fun bits poc c => execRtcpReceive_rpsi_acknowledges hears hslices⟩
  case unbound => exact fun k m s l hleg hrtcp hst hticks => execRtcpReceive_unbound m ⟨hleg, hrtcp, hst, hticks⟩
  case address => exact fun k mac s => rfl
  case sample => exact fun s => execQueueSampleTimer_samples

end Sys2Proof.Proofs
end

section
/-! Requests answered at once, the information request of the pair, and the events of its link. -/

namespace Sys2Proof.Proofs

open Sys2Proof Sys2Proof.Machine Sys2Proof.Safety

/-! ### Requests answered at once (R435, R436) -/

section Answers

variable {o p : Nat} {ownerOnly : Bool} {legal : Mode → Bool} {r : Req} {body : Nat → State → State} {s : State}

/-- A request of any other partition for what is the owner's alone (step 4 of R436). -/
theorem takeRequest_notOwner (hserves : deaf s.mode.mode = false) (hpart : partOf s r.transport = some p) (hnamed : r.hdrPartition = p)
    (hp : p ≠ 0) : takeRequest o true legal r body s = reply p r o .notOwner false [] (slotTaken r p s) := by
  have hother : (true && p != 0) = true := by simpa using hp
  simp only [takeRequest, hserves, hpart, hnamed, hother, ne_eq, not_true_eq_false, Bool.false_eq_true, if_false, if_true, slotTaken]

/-- The owner's request in a mode that does not allow its opcode (step 5 of R436). -/
theorem takeRequest_wrongMode (hserves : deaf s.mode.mode = false) (hpart : partOf s r.transport = some 0) (hnamed : r.hdrPartition = 0)
    (hlegal : legal s.mode.mode = false) :
    takeRequest o ownerOnly legal r body s = reply 0 r o .wrongMode false [] (slotTaken r 0 s) := by
  have howner : (ownerOnly && (0 : Nat) != 0) = false := Bool.and_false ownerOnly
  simp only [takeRequest, hserves, hpart, hnamed, howner, hlegal, slotTaken, setPart_mode, ne_eq, not_true_eq_false,
    Bool.false_eq_true, if_false, if_true]

/-- A request that is answered at once, with no report due: the step gives the reply, and changes the host's replies and their counts
alone. -/
theorem exec_answered {i : Instr} {st : Status} {c : Bool} {d : Bytes}
    (hexec : exec i s = done (reply p r o st c d (slotTaken r p s))) (hquiet : s.flt.due = []) :
    exec i s = .next (reply p r o st c d (slotTaken r p s)) ∧
      ∃ h q, reply p r o st c d (slotTaken r p s) = { s with hst := h, pvd := q } := by
  obtain ⟨h, q, hframe⟩ := reply_frame p r o st c d (slotTaken r p s)
  have hstill : (reply p r o st c d (slotTaken r p s)).flt.due = [] := by rw [hframe]; exact hquiet
  exact ⟨hexec.trans (done_quiet _ hstill), h, q, hframe⟩

end Answers

theorem deaf_of_mem_everyMode {m : Mode} (h : m ∈ everyMode) : deaf m = false := by
  revert h; cases m <;> decide

theorem infoModes_subset_everyMode {m : Mode} (h : m ∈ infoModes) : m ∈ everyMode := by
  revert h; cases m <;> decide

theorem infoLegal_iff_mem_infoModes (m : Mode) : infoLegal m = true ↔ m ∈ infoModes := by
  cases m <;> decide

/-- M2 and M10 are served, and allow no information request. -/
theorem configure_service_serve {m : Mode} (h : m ∈ [Mode.configure, .service]) : deaf m = false ∧ infoLegal m = false := by
  revert h; cases m <;> decide

/-! ### The information request of the pair (R273, R274) -/

theorem pairWords_length (s : State) : (pairWords s).length = 16 := rfl

/-- The owner's window shows the pair's sixteen words from 0x9000 on. -/
theorem plainWord_pairWords (s : State) (tr : Nat) {i : Nat} (h : i < 16) :
    plainWord s tr 0 (0x9000 + 4 * i) = (pairWords s).getD i 0 := by
  have hindex : (0x9000 + 4 * i - 0x9000) / 4 = i := by omega
  rw [plainWord]
  simp (disch := omega) only [if_pos, if_neg, beq_self_eq_true, if_true, pairWord, hindex]

/-- The words that the window shows, laid out in order, are those of the reply. -/
theorem window_pairWords (s : State) (tr : Nat) :
    (List.range 16).flatMap (fun i => le 4 (plainWord s tr 0 (0x9000 + 4 * i))) = (pairWords s).foldl (fun a w => a ++ le 4 w) [] := by
  have hshown : (List.range 16).map (fun i => plainWord s tr 0 (0x9000 + 4 * i)) = pairWords s := by
    refine List.ext_getElem (by rw [List.length_map, List.length_range, pairWords_length]) fun i _ hi => ?_
    rw [List.getElem_map, List.getElem_range, plainWord_pairWords s tr hi, List.getD_eq_getElem _ _ hi]
  rw [← List.flatMap_eq_foldl, ← hshown, List.flatMap_map]

/-- Settles O53: the request is answered at once, and its reply lays out the words that the window shows. -/
theorem pairInfoReply : Obligations.PairInfoReply := by
  unfold Obligations.PairInfoReply
  refine ⟨?owner, ?other, ?mode⟩
  case owner =>
    rintro r s _ _ hmode hpart hnamed hquiet rfl rfl
    have haccepted : Accepted true infoLegal r 0 s :=
      ⟨deaf_of_mem_everyMode (infoModes_subset_everyMode hmode), hpart, hnamed, fun _ => rfl,
        (infoLegal_iff_mem_infoModes s.mode.mode).mpr hmode⟩
    rw [window_pairWords]
    exact exec_answered (congrArg done (takeRequest_accepted haccepted)) hquiet
  case other =>
    rintro r p s _ hmode hpart hnamed hp hquiet rfl
    exact exec_answered (congrArg done (takeRequest_notOwner (deaf_of_mem_everyMode hmode) hpart hnamed hp)) hquiet
  case mode =>
    rintro r s _ hmode hpart hnamed hquiet rfl
    obtain ⟨hserves, hlegal⟩ := configure_service_serve hmode
    exact exec_answered (congrArg done (takeRequest_wrongMode hserves hpart hnamed hlegal)) hquiet

/-! ### Digest and beacons (R246, R247, R253) -/

section Link

variable {s : State}

theorem execPairDigestReceive_taken (digest : Bytes) (ident wants : Nat) (hmode : pairMode s.mode.mode = true)
    (hpair : pairInForce s = true) (hva : s.red.vaUp = true) (honce : s.mode.mode = .configure → s.red.digestDone = false) :
    execPairDigestReceive digest ident wants s = done (compareDigest { s with
      red := { s.red with peerId := ident % 65536 },
      run := { s.run with digest := some ⟨fit 64 digest, ident % 65536, wants % 65536⟩ } }) :=
  if_pos ⟨hmode, hpair, hva, honce⟩

theorem execClaimBeaconSend_sends (hpass : beaconsPass s = true) :
    execClaimBeaconSend s = .next (sendVa 1 (.beacon (beaconNow s)) { s with run := { s.run with
      beaconCount := (s.run.beaconCount + 1) % 65536, beacon := some (beaconNow s) } }) :=
  if_pos hpass

/-! ### Silence (R248, R261) -/

theorem vaMayFall_true (hpaired : s.red.paired = true) (hdown : s.red.vaUp = false) (hnew : s.red.vaSilent = false)
    (hmode : pairMode s.mode.mode = true) : vaMayFall s = true := by
  simp only [vaMayFall, hpaired, hdown, hnew, hmode, Bool.not_false, Bool.and_self]

/-- Silence of the heartbeat is noted in M2 too (R248, R461; log entry 61, deduced). -/
theorem hbMayFall_true (hpaired : s.red.paired = true) (hnew : s.red.hbSilent = false) (hmode : pairMode s.mode.mode = true) :
    hbMayFall s = true := by
  simp only [hbMayFall, hpaired, hnew, hmode, Bool.not_false, Bool.and_self]

/-! ### Heartbeats (R261, R263, R348) -/

/-- The state in which an edge of PAIR_HB_IN has been heard (R261). -/
def edgeHeard (s : State) : State :=
  { s with red := { s.red with hbAt := s.mtb.t, hbEdgeAt := some s.mtb.t, hbSilent := false } }

/-- The number of unexpected edges in a row, an edge of this level included, up to the three that show a split (R263). -/
def splitRun (level : Bool) (s : State) : Nat :=
  if level != expectedLevel (edgeHeard s) then min 3 (s.red.splitEdges + 1) else 0

/-- An edge heard while a split is looked for is judged against the parity of the own epoch at the nearest
millisecond (R263; log entry 62, deduced). -/
theorem execPairHbInEdge_judged (level : Bool) (hpair : pairInForce s = true) (hhears : hearsPair s.mode.mode = true)
    (hwatch : watchesSplit (edgeHeard s) = true) (hvalid : s.mtb.valid = true) :
    execPairHbInEdge level s = done (
      let t := { edgeHeard s with red := { (edgeHeard s).red with splitEdges := splitRun level s } }
      if splitRun level s = 3 then setSplit t else t) := by
  rw [execPairHbInEdge, if_pos (Bool.and_eq_true_iff.mpr ⟨hpair, hhears⟩)]
  exact if_pos (Bool.and_eq_true_iff.mpr ⟨hwatch, hvalid⟩)

/-- An edge heard while no split is looked for ends the run (R263). -/
theorem execPairHbInEdge_unjudged (level : Bool) (hpair : pairInForce s = true) (hhears : hearsPair s.mode.mode = true)
    (hidle : (watchesSplit (edgeHeard s) && s.mtb.valid) = false) :
    execPairHbInEdge level s = .next { edgeHeard s with red := { (edgeHeard s).red with splitEdges := 0 } } := by
  rw [execPairHbInEdge, if_pos (Bool.and_eq_true_iff.mpr ⟨hpair, hhears⟩)]
  exact if_neg (Bool.eq_false_iff.mp hidle)

/-- The state in which a Hedgerow heartbeat of the partner has been heard and counted (R348). -/
def frameHeard (s : State) : State :=
  { s with red := { s.red with hrwHbAt := some s.mtb.t, hbSilent := false }, hrw := { s.hrw with hbRx := bump32 s.hrw.hbRx } }

/-- A heartbeat that comes through the tree to this device from its partner; its epoch raises none (R263, R348; log entry 62,
deduced). -/
theorem execHrwHeartbeatReceive_partner {sender : Nat} (claim epoch : Nat) (hpair : pairInForce s = true)
    (hused : s.red.hbHedgerow = true) (hruns : hrwRuns s.mode.mode = true)
    (hsender : s.red.partnerId = 65535 ∨ sender = s.red.partnerId) :
    execHrwHeartbeatReceive ⟨s.hrw.ident, sender⟩ claim epoch s =
      done (if watchesSplit (frameHeard s) && claim != 0 then setSplit (frameHeard s) else frameHeard s) := by
  have hheard : (pairInForce s && s.red.hbHedgerow && hrwRuns s.mode.mode &&
      (s.red.partnerId == 65535 || sender == s.red.partnerId)) = true := by
    simp only [hpair, hused, hruns, Bool.true_and, Bool.or_eq_true, beq_iff_eq, hsender]
  rw [execHrwHeartbeatReceive, if_neg (not_not_intro rfl)]
  exact if_pos hheard

/-- A heartbeat for another device goes on through the tree (R342). -/
theorem execHrwHeartbeatReceive_passed {target : Nat} (sender claim epoch : Nat) (hother : target ≠ s.hrw.ident)
    (htree : inTree s = true) (hruns : hrwRuns s.mode.mode = true) :
    execHrwHeartbeatReceive ⟨target, sender⟩ claim epoch s = .next (sendAddressed target sender claim epoch s) := by
  rw [execHrwHeartbeatReceive, if_pos hother]
  exact if_pos (Bool.and_eq_true_iff.mpr ⟨htree, hruns⟩)

/-! ### A lost claim (R259) -/

theorem execClaimReleaseFlowsStop_stops {t : Nat} (hlost : s.run.claimLost = some t) (hclaim : s.red.claim = 0) :
    execClaimReleaseFlowsStop s = .next (stopLocalFlows (noEarlier (t + 20 * msUnit) s)) := by
  simp only [execClaimReleaseFlowsStop, hlost, hclaim, if_true]

end Link

/-- Settles O25: each event meets the test of its command, so it takes the branch that the premises select. -/
theorem pairLinkEventsComplete : Obligations.PairLinkEventsComplete := by
  unfold Obligations.PairLinkEventsComplete
  refine ⟨?digest, ?send, ?receive, ?vaDown, ?vaSilent, ?judged, ?unjudged, ?hbSilent, ?partner, ?passed, ?release⟩
  case digest => exact fun digest ident wants s => execPairDigestReceive_taken digest ident wants
  case send => exact fun s hpass => ⟨execClaimBeaconSend_sends hpass, rfl, rfl⟩
  case receive => exact fun claim epoch mode count degraded s hpass => if_pos hpass
  case vaDown => exact fun s hup => if_pos hup
  case vaSilent =>
    rintro s _ hpaired hdown hnew hmode rfl
    exact if_pos (vaMayFall_true hpaired hdown hnew hmode)
  case judged =>
    rintro level s _ hpair hhears rfl hwatch hvalid
    exact execPairHbInEdge_judged level hpair hhears hwatch hvalid
  case unjudged =>
    rintro level s _ hpair hhears rfl hidle
    exact execPairHbInEdge_unjudged level hpair hhears hidle
  case hbSilent =>
    rintro s _ hpaired hnew hmode rfl
    exact if_pos (hbMayFall_true hpaired hnew hmode)
  case partner =>
    rintro sender claim epoch s _ hpair hused hruns hsender rfl
    exact execHrwHeartbeatReceive_partner claim epoch hpair hused hruns hsender
  case passed => exact fun target sender claim epoch s => execHrwHeartbeatReceive_passed sender claim epoch
  case release => exact fun s t => execClaimReleaseFlowsStop_stops

end Sys2Proof.Proofs
end

section
/-! The events of a pair's copy: fingerprints, pair frames, resync, role swaps, the merge stage, and changes that the partner forwards. -/

namespace Sys2Proof.Proofs

open Sys2Proof Sys2Proof.Machine Sys2Proof.Safety

/-! ### Fingerprints and pair frames (R251, R252) -/

section Fingerprints

variable {s : State} {rest : List Row}

/-- A partner fingerprint whose own row waits is judged against it. -/
theorem execFingerprintReceive_judged {f : Fingerprint} {r : Row} (hcompare : comparing s = true)
    (hrow : takeRow f.stream s.run.locals = (some r, rest)) :
    execFingerprintReceive f s = done (judgePrint r.print f { s with run := { s.run with locals := rest } }) := by
  simp only [execFingerprintReceive, hcompare, hrow, if_true]

/-- A partner fingerprint whose own row has not come is kept for it, the latest 1,024 of them (log entry 65, deduced). -/
theorem execFingerprintReceive_kept {f : Fingerprint} (hcompare : comparing s = true)
    (hrow : takeRow f.stream s.run.locals = (none, rest)) :
    execFingerprintReceive f s =
      .next { s with run := { s.run with partners := keepRows (s.run.partners ++ [⟨f, s.mtb.t⟩]) } } := by
  simp only [execFingerprintReceive, hcompare, hrow, if_true]

/-- An own row whose partner fingerprint has not come is counted once its time has passed. -/
theorem execFingerprintMissing_counted {x : FpStream} {r : Row} {t : State} (hcompare : comparing s = true)
    (hrow : takeRow x s.run.locals = (some r, rest)) (htime : t = noEarlier (r.time + missingAfter s x) s) :
    execFingerprintMissing x s = .next (setHealth { t with
      red := { t.red with missing := bump32 t.red.missing },
      run := { t.run with locals := rest, missed := true, worse := breakRun t x } } (fun h => { h with missing := bump32 h.missing })) := by
  subst htime
  simp only [execFingerprintMissing, hcompare, hrow, if_true]

/-- A frame that was judged ahead is not judged again at its end (R14). -/
theorem execPairFrameEnd_ahead {n : Nat} (hnow : boundaryNow s = some n) (hahead : s.run.judgedAhead = some n) :
    execPairFrameEnd s = .next { s with run := { s.run with judgedAhead := none } } := by
  simp only [execPairFrameEnd, hnow, hahead, Option.isSome_some, beq_self_eq_true, Bool.and_self, if_true]

theorem execPairFrameEnd_judged (hnew : s.run.judgedAhead = none ∨ boundaryNow s ≠ s.run.judgedAhead)
    (hjudges : judgesFrames s = true) : execPairFrameEnd s = done (endPairFrame (atPairEnd s)) := by
  have hnew : (s.run.judgedAhead.isSome && boundaryNow s == s.run.judgedAhead) = false := by
    obtain hnone | hother := hnew
    · rw [hnone, Option.isSome_none, Bool.false_and]
    · rw [beq_eq_false_iff_ne.mpr hother, Bool.and_false]
  rw [execPairFrameEnd, if_neg (Bool.eq_false_iff.mp hnew), if_pos hjudges]

end Fingerprints

/-! ### Resync (R266) -/

section Resync

variable {s : State} {c : Nat}

/-- A device in M6 takes the copy and sends none. -/
theorem resyncSource_resync (hmode : s.mode.mode = .resync) : resyncSource s = false := by
  simp only [resyncSource, actingMode, hmode, reduceCtorEq, if_false, Bool.and_false]

theorem not_source_resync (hmode : s.mode.mode = .resync) : ¬ (resyncSource s && chanRunning s c) = true := by
  rw [resyncSource_resync hmode, Bool.false_and]
  exact Bool.false_ne_true

/-- The source sends the bulk state of a channel, and names its join frame behind it. -/
theorem execResyncBulkDone_source {b : BulkState} {t : State} (frame bytes : Nat) (hsource : resyncSource s = true)
    (hrun : chanRunning s c = true) (hbulk : (b, t) = bulkOf c s) :
    execResyncBulkDone c frame bytes s = .next (sendVa 5 (.join c (joinNow t c)) (sendVa 5 (.va (.bulk b)) { t with
      run := { t.run with srcJoins := tset t.run.srcJoins c (joinNow t c), srcSmall := t.run.srcSmall.filter (fun k => k != c) } })) := by
  simp only [execResyncBulkDone, hsource, hrun, Bool.and_self, if_true, ← hbulk]

/-- The device in M6 takes a join frame that fits the end of the bulk phase. -/
theorem execResyncBulkDone_copy {frame : Nat} (bytes : Nat) (hmode : s.mode.mode = .resync) (hcopies : s.run.copying = true)
    (hva : s.red.vaUp = true) (hrun : chanRunning s c = true) (hfits : joinFits s c frame = true) :
    execResyncBulkDone c frame bytes s =
      .next { s with run := { s.run with joins := tset s.run.joins c frame, bytes := s.run.bytes + bytes } } := by
  rw [execResyncBulkDone, if_neg (not_source_resync hmode)]
  exact if_pos ⟨hmode, hcopies, hva, hrun, hfits⟩

/-- The source sends the small state of a channel as its own stands. -/
theorem execResyncSmallState_source (bytes : Nat) (x : SmallState) (hsource : resyncSource s = true) (hrun : chanRunning s c = true) :
    execResyncSmallState c bytes x s = .next (sendVa 5 (.small c (smallStateOf s c)) { s with
      run := { s.run with srcSmall := sadd s.run.srcSmall c } }) :=
  if_pos (Bool.and_eq_true_iff.mpr ⟨hsource, hrun⟩)

/-- The state in which a channel has joined with its small state, and the bytes are counted. -/
def channelJoined (c bytes : Nat) (x : SmallState) (s : State) : State :=
  { joinChannel c x s with run := { (joinChannel c x s).run with
    joined := (joinChannel c x s).run.joined ++ [c], bytes := (joinChannel c x s).run.bytes + bytes } }

/-- The state in which the copy is complete, with its size and its time (R273). -/
def copyEnded (s : State) : State :=
  { s with red := { s.red with copyBytes := s.run.bytes % 2 ^ 64, copyUs := min ((s.mtb.t - s.run.m6At) / usUnit) (2 ^ 32 - 1) },
           run := { s.run with copying := false } }

/-- The small state joins a channel whose bulk phase has ended; with the last channel the copy is complete. -/
theorem execResyncSmallState_copy (bytes : Nat) (x : SmallState) (hmode : s.mode.mode = .resync) (hcopies : s.run.copying = true)
    (hva : s.red.vaUp = true) (hbulk : thas s.run.joins c = true) (hnew : s.run.joined.contains c = false) :
    execResyncSmallState c bytes x s = .next (
      if (runningChans (channelJoined c bytes x s)).all (fun k => (channelJoined c bytes x s).run.joined.contains k) then
        copyEnded (channelJoined c bytes x s)
      else channelJoined c bytes x s) := by
  rw [execResyncSmallState, if_neg (not_source_resync hmode), if_pos ⟨hmode, hcopies, hva, hbulk, hnew⟩]
  exact (apply_ite Host.Outcome.next _ _ _).symm

end Resync

/-! ### Role swaps (R268) -/

section Swaps

variable {s t : State} {c frame : Nat}

/-- The active device without a swap named decides at the frame tick whether one is due, and names it to the partner in
class 3 or skips it (log entry 131, a choice of the model). -/
theorem execRoleSwapDue_decides (hchan : refChannel s = some c) (hpair : pairInForce s = true) (hactive : s.mode.mode = .active)
    (hunnamed : s.run.swapFrame = none) (htime : t = noEarlier (frameTickAt (chan s c).rate frame) s) :
    execRoleSwapDue frame s = .next (if t.mtb.t < swapDueAt t then t
      else if swapAllowed t then sendVa 3 (.va (.swap (frame + 2))) { t with run := { t.run with swapFrame := some (frame + 2) } }
      else skipSwap t) := by
  have hasks : (pairInForce s && s.mode.mode == .active && s.run.swapFrame.isNone) = true := by
    rw [hpair, hactive, hunnamed]; rfl
  rw [apply_ite Host.Outcome.next, apply_ite Host.Outcome.next, htime]
  simp only [execRoleSwapDue, hchan, hasks, if_true]

/-- The swap of a frame that was named, here or by the partner, is made or skipped at its tick. -/
theorem execRoleSwap_turn (hchan : refChannel s = some c) (hpair : pairInForce s = true)
    (hmode : s.mode.mode = .active ∨ s.mode.mode = .standby)
    (hnamed : s.run.swapFrame = some frame ∨ s.run.swapFrame = none ∧ s.mode.mode = .standby) (hnew : s.run.swapped ≠ some frame) :
    execRoleSwap frame s = done (swapInTurn frame (noEarlier (frameTickAt (chan s c).rate frame) s)) := by
  have hmode : (s.mode.mode == .active || s.mode.mode == .standby) = true := by simpa using hmode
  have hnew : (s.run.swapped != some frame) = true := bne_iff_ne.mpr hnew
  obtain hframe | ⟨hframe, hstandby⟩ := hnamed
  · simp only [execRoleSwap, hchan, hpair, hframe, beq_self_eq_true, hmode, hnew, Bool.and_self, if_true]
  · simp only [execRoleSwap, hchan, hpair, hframe, hstandby, beq_self_eq_true, hnew, Bool.or_true, Bool.and_self, if_true]

end Swaps

/-! ### The merge stage (R234, R256, R257, R269) -/

section Merge

variable {k : Nat} {s : State} {l : Leg}

/-- A leg that waits for a switch makes it at a point that lies late enough, and notes any other point. -/
theorem execMergeSwitch_point {w : MergeSrc} (time unit : Nat) (hleg : tget s.egr.legs k = some l) (hwant : l.want = some w) :
    execMergeSwitch k time unit s = .next (if pairInForce s && ticking s && switchesAt s l time unit then
        modLeg s k (fun l => { l with src := w, want := none, wantPoint := none, nextPointAt := none, forwarded := false,
                                      running := l.running && (w == .device || s.red.claim != 0) })
      else modLeg s k (notePoint time unit)) := by
  simp only [execMergeSwitch, hleg, hwant]
  exact (apply_ite Host.Outcome.next _ _ _).symm

/-- A point at which a leg switches lies 4 µs after the claims, and after the previous unit's arrival (R257). -/
theorem switchesAt_spaced {time unit : Nat} (h : switchesAt s l time unit = true) :
    l.wantAt + 4 * usUnit ≤ time ∧ ∃ a, arrivedAt s l unit = some a ∧ a + 4 * usUnit ≤ time := by
  obtain ⟨hclaims, harrived⟩ := Bool.and_eq_true_iff.mp h
  refine ⟨of_decide_eq_true hclaims, ?_⟩
  cases hunit : arrivedAt s l unit with
  | none => simp only [hunit, Bool.false_eq_true] at harrived
  | some a => exact ⟨a, rfl, by simpa only [hunit, decide_eq_true_eq] using harrived⟩

/-- A leg in service hears the packets of the partner while the pair is in force and VA is up. -/
structure HearsPartner (k : Nat) (l : Leg) (s : State) : Prop where
  leg : tget s.egr.legs k = some l
  pair : pairInForce s = true
  va : s.red.vaUp = true
  ticks : ticking s = true
  running : l.st = 1

theorem HearsPartner.guard (h : HearsPartner k l s) : (pairInForce s && s.red.vaUp && ticking s && l.st == 1) = true := by
  rw [h.pair, h.va, h.ticks, h.running]; rfl

/-- A packet of the partner is noted; a leg that sends its own copy does nothing else with it. -/
theorem execPartnerPacketReceive_noted (q : PairPacket) (h : HearsPartner k l s) (hown : l.src ≠ .partner) :
    execPartnerPacketReceive k q s = .next (modLeg s k (noteArrival s.mtb.t q)) := by
  simp only [execPartnerPacketReceive, h.leg, h.guard, hown, if_true, if_false]

/-- The state in which a packet of the partner has passed the merge stage and its check is counted (R269, R270). -/
def packetPassed (k : Nat) (q : PairPacket) (l : Leg) (t : State) : State :=
  setHealth (passAtOnce k q (modLeg t k (readTransport q))) (fun h => { h with
    xChecked := bump32 h.xChecked, xErrors := if transportFails t l q then bump32 h.xErrors else h.xErrors })

/-- A leg that takes the partner's copy passes the packet on, and reports one that fails its check. -/
theorem execPartnerPacketReceive_passed {q : PairPacket} {t u : State} (h : HearsPartner k l s) (hpartner : l.src = .partner)
    (ht : t = modLeg s k (noteArrival s.mtb.t q)) (hu : u = packetPassed k q l t) :
    execPartnerPacketReceive k q s = .next (if transportFails t l q then
      settle (raise 0x060 0 { u with red := { u.red with xportErrors := bump32 u.red.xportErrors } }) else u) := by
  subst ht hu
  simp only [execPartnerPacketReceive, h.leg, h.guard, hpartner, if_true]
  exact (apply_ite Host.Outcome.next _ _ _).symm

end Merge

/-! ### Forwarded changes (R229, R233, R264) -/

section Forwarded

variable {c target : Nat} {change : ShadowChange} {s : State} {h : Chan}

/-- A change of a channel: neither a shaper's nor a gate list's, which belong to an egress port (R229, R233). -/
def OfChannel (change : ShadowChange) : Prop :=
  (∀ k rate depth, change ≠ .rate k rate depth) ∧ ∀ p cycle base start l, change ≠ .gates p cycle base start l

/-- While the pair is in force and VA is up, a change of a running channel that comes from the partner is received. -/
structure HearsChange (c : Nat) (h : Chan) (s : State) : Prop where
  chan : tget s.enc.chans c = some h
  pair : pairInForce s = true
  va : s.red.vaUp = true
  ticks : ticking s = true
  running : h.st = 1

theorem HearsChange.guard (hears : HearsChange c h s) : (pairInForce s && s.red.vaUp && ticking s && h.st == 1) = true := by
  rw [hears.pair, hears.va, hears.ticks, hears.running]; rfl

/-- A shaper's rate and a gate list are taken as they come. -/
theorem execForwardedChangeReceive_port (c target k rate depth p cycle base start : Nat) (entries : List (Nat × Nat))
    (hpair : pairInForce s = true) (hva : s.red.vaUp = true) :
    execForwardedChangeReceive c target (.rate k rate depth) s = .next (takeRate k rate depth s) ∧
      execForwardedChangeReceive c target (.gates p cycle base start entries) s = .next (takeGates p cycle base start entries s) :=
  have hopen : (pairInForce s && s.red.vaUp) = true := Bool.and_eq_true_iff.mpr ⟨hpair, hva⟩
  ⟨if_pos hopen, if_pos hopen⟩

theorem execForwardedChangeReceive_channel (hpair : pairInForce s = true) (hva : s.red.vaUp = true) (hkind : OfChannel change) :
    execForwardedChangeReceive c target change s = receiveChange c target change s := by
  have hopen : (pairInForce s && s.red.vaUp) = true := Bool.and_eq_true_iff.mpr ⟨hpair, hva⟩
  obtain ⟨hrate, hgates⟩ := hkind
  rw [execForwardedChangeReceive, if_pos hopen]
  · exact hrate
  · exact hgates

/-- The deciding device names the target of the change. -/
theorem execForwardedChangeReceive_decided (hears : HearsChange c h s) (hdecides : decides s = true) (hkind : OfChannel change) :
    execForwardedChangeReceive c target change s = done (decideForwarded c target h change s) := by
  rw [execForwardedChangeReceive_channel hears.pair hears.va hkind]
  simp only [receiveChange, hears.chan, hears.guard, hdecides, if_true]

/-- The other device takes the committed change that comes back, and answers the request behind it. -/
theorem execForwardedChangeReceive_committed {t : State} {named : Nat × Bool} {f : Option Fwd} {rest : List Fwd}
    (hears : HearsChange c h s) (hother : decides s = false) (hkind : OfChannel change)
    (hnamed : named = resolveTarget (openFrame s h) (target % 2 ^ 32)) (hwaits : (f, rest) = takeForward c change s.run.forwards)
    (ht : t = { s with run := { s.run with forwards := rest } }) :
    execForwardedChangeReceive c target change s =
      done (answerForward f named.1 (commitAt c named.1 named.2 change (f.bind (fun f => f.item)) t)) := by
  subst hnamed ht
  rw [execForwardedChangeReceive_channel hears.pair hears.va hkind]
  simp only [receiveChange, hears.chan, hears.guard, hother, ← hwaits, if_true, Bool.false_eq_true, if_false]

end Forwarded

/-- Settles O26: each event meets the tests of its command, so it takes the branch that the premises select. -/
theorem pairCopyEventsComplete : Obligations.PairCopyEventsComplete := by
  unfold Obligations.PairCopyEventsComplete
  refine ⟨?judged, ?kept, ?missing, ?ahead, ?frameEnd, ?frameRows, ?bulkSource, ?smallSource, ?bulkCopy, ?smallCopy, ?due, ?swap, ?turn,
    ?swapAt, ?point, ?spaced, ?noted, ?passed, ?port, ?decided, ?committed⟩
  case judged => exact fun f s r rest => execFingerprintReceive_judged
  case kept => exact fun f s rest => execFingerprintReceive_kept
  case missing => exact fun x s t r rest => execFingerprintMissing_counted
  case ahead => exact fun s n => execPairFrameEnd_ahead
  case frameEnd => exact fun s => execPairFrameEnd_judged
  case frameRows =>
    rintro s _ rfl
    rfl
  case bulkSource => exact fun c frame bytes s t b => execResyncBulkDone_source frame bytes
  case smallSource => exact fun c bytes x s => execResyncSmallState_source bytes x
  case bulkCopy => exact fun c frame bytes s => execResyncBulkDone_copy bytes
  case smallCopy =>
    rintro c bytes x s _ hmode hcopies hva hbulk hnew rfl
    exact execResyncSmallState_copy bytes x hmode hcopies hva hbulk hnew
  case due => exact fun frame c s t => execRoleSwapDue_decides
  case swap =>
    rintro frame c s _ hchan hpair hmode hnamed hnew rfl
    exact execRoleSwap_turn hchan hpair hmode hnamed hnew
  case turn =>
    rintro frame s _ rfl
    rfl
  case swapAt =>
    rintro frame s _ rfl
    rfl
  case point => exact fun k time unit s l w => execMergeSwitch_point time unit
  case spaced => exact fun s l time unit => switchesAt_spaced
  case noted =>
    rintro k q s _ l hleg hpair hva hticks hst rfl hown
    exact execPartnerPacketReceive_noted q ⟨hleg, hpair, hva, hticks, hst⟩ hown
  case passed =>
    exact fun k q s t u l hleg hpair hva hticks hst ht hpartner hu =>
      execPartnerPacketReceive_passed ⟨hleg, hpair, hva, hticks, hst⟩ hpartner ht hu
  case port =>
    exact fun c target k rate depth p cycle base start entries s =>
      execForwardedChangeReceive_port c target k rate depth p cycle base start entries
  case decided =>
    exact fun c target change s h hchan hpair hva hticks hst hdecides hrate hgates =>
      execForwardedChangeReceive_decided ⟨hchan, hpair, hva, hticks, hst⟩ hdecides ⟨hrate, hgates⟩
  case committed =>
    exact fun c target change s t h named f rest hchan hpair hva hticks hst hother hrate hgates hnamed hwaits ht =>
      execForwardedChangeReceive_committed ⟨hchan, hpair, hva, hticks, hst⟩ hother ⟨hrate, hgates⟩ hnamed hwaits ht

end Sys2Proof.Proofs
end

section
/-! Replies in the order of requests. -/

namespace Sys2Proof.Proofs

open Sys2Proof Sys2Proof.Machine Sys2Proof.Safety

/-! ### What sending a message leaves of partitions and rings (R432, R438) -/

@[simp] theorem ring_setPart (s : State) (p : Nat) (f : Part → Part) (k : Nat) : ring (setPart s p f) k = ring s k := rfl

@[simp] theorem part_setRing (s : State) (k : Nat) (f : Ring → Ring) (p : Nat) : part (setRing s k f) p = part s p := rfl

/-- A message sent changes no partition's settings, counters or waiting requests. -/
@[simp] theorem part_sendOn (s : State) (tr q : Nat) (m : Msg) (p : Nat) : part (sendOn s tr q m) p = part s p := by
  unfold sendOn
  split
  · dsimp only
    split <;> rfl
  · rfl

/-- A message over a function is pushed into its reply ring, and into no other. -/
theorem sendOn_rings {tr : Nat} (s : State) (q : Nat) (m : Msg) (htr : tr < 16) :
    (sendOn s tr q m).hst.rings = (setRing s tr (fun r => ringPush r m)).hst.rings := by
  rw [sendOn, if_pos htr]
  dsimp only
  split <;> rfl

theorem ring_sendOn {tr : Nat} (s : State) (q : Nat) (m : Msg) (htr : tr < 16) (f : Nat) :
    ring (sendOn s tr q m) f = ring (setRing s tr (fun r => ringPush r m)) f :=
  congrArg (fun rings => tgetD rings f ({} : Ring)) (sendOn_rings s q m htr)

/-! ### The queue of a partition's requests (R284, R435) -/

section Queue

variable {r : Req} {m : Msg} {first : Slot}

/-- A request that waits behind another gives its reply to its own slot. -/
theorem answerSlot_behind (rest : List Slot)
    (hother : ¬ (first.transport = r.transport ∧ first.seq = r.seq ∧ first.tag = r.tag)) :
    answerSlot r m (first :: rest) = first :: answerSlot r m rest := by
  refine if_neg ?_
  rintro ⟨htransport, hseq, htag, -⟩
  exact hother ⟨htransport, hseq, htag⟩

theorem answerSlot_first (r : Req) (m : Msg) (rest : List Slot) :
    answerSlot r m (⟨r.transport, r.seq, r.tag, none⟩ :: rest) = ⟨r.transport, r.seq, r.tag, some m⟩ :: rest :=
  if_pos ⟨rfl, rfl, rfl, rfl⟩

/-- While the first request waits for its reply, nothing is sent. -/
theorem releaseReplies_waiting (s : State) (p : Nat) (rest : List Slot) (hwaits : first.reply = none) :
    releaseReplies s p (first :: rest) = setPart s p (fun x => { x with slots := first :: rest }) := by
  simp only [releaseReplies, hwaits]

/-- Releasing the replies at the front leaves the requests from the first unanswered one on. -/
theorem part_releaseReplies (p : Nat) (l : List Slot) (s : State) :
    part (releaseReplies s p l) p = { part s p with slots := l.dropWhile (fun sl => sl.reply.isSome) } := by
  induction l generalizing s with
  | nil => simp [releaseReplies]
  | cons sl rest ih =>
    cases hreply : sl.reply with
    | none => simp [releaseReplies, hreply]
    | some m => simp [releaseReplies, hreply, ih]

end Queue

/-! ### A reply (R435 to R437) -/

/-- The message of a reply: its status code in front, data only with OK and BUSY, and flag bit 2 with a clamp (R435, R437). -/
def replyMessage (p : Nat) (r : Req) (o : Nat) (st : Status) (c : Bool) (d : Bytes) : Msg :=
  { opcode := o, partition := p, flags := if c = true ∧ st = .ok then 5 else 1, seq := r.seq, tag := r.tag
    payload := le 2 (statusCode st) ++ [0, 0] ++ (if st = .ok ∨ st = .busy then d else []) }

/-- The partition with a reply of this status counted (R436, R437). -/
def countReply (st : Status) (c : Bool) (x : Part) : Part :=
  { x with
    refusals := if st = .ok then x.refusals else bump32 x.refusals
    wrongMode := if st = .wrongMode then bump32 x.wrongMode else x.wrongMode
    clamps := if c = true ∧ st = .ok then bump32 x.clamps else x.clamps }

section Reply

variable (p : Nat) (r : Req) (o : Nat) (st : Status) (c : Bool) (d : Bytes) (s : State)

/-- A reply is counted and kept in its request's slot, and the replies that are now at the front go out. -/
theorem reply_eq_releaseReplies : reply p r o st c d s =
    releaseReplies (setPart s p (fun x => { countReply st c x with slots := answerSlot r (replyMessage p r o st c d) x.slots })) p
      (answerSlot r (replyMessage p r o st c d) (part s p).slots) := by
  simp [reply, countReply, replyMessage]

theorem part_reply : part (reply p r o st c d s) p = { countReply st c (part s p) with
    slots := (answerSlot r (replyMessage p r o st c d) (part s p).slots).dropWhile (fun sl => sl.reply.isSome) } := by
  rw [reply_eq_releaseReplies, part_releaseReplies, part_setPart]

/-- A reply behind an unanswered request stays in its slot. -/
theorem reply_behind {first : Slot} {rest : List Slot} (hslots : (part s p).slots = first :: rest) (hwaits : first.reply = none)
    (hother : ¬ (first.transport = r.transport ∧ first.seq = r.seq ∧ first.tag = r.tag)) :
    ∃ f, reply p r o st c d s = setPart (setPart s p f) p
      (fun x => { x with slots := first :: answerSlot r (replyMessage p r o st c d) rest }) := by
  rw [reply_eq_releaseReplies, hslots, answerSlot_behind rest hother, releaseReplies_waiting _ p _ hwaits]
  exact ⟨_, rfl⟩

/-- A reply to the only waiting request is sent over its transport. -/
theorem reply_only (hslots : (part s p).slots = [⟨r.transport, r.seq, r.tag, none⟩]) :
    ∃ f g, reply p r o st c d s = setPart (sendOn (setPart s p f) r.transport p (replyMessage p r o st c d)) p g := by
  rw [reply_eq_releaseReplies, hslots, answerSlot_first]
  exact ⟨_, _, rfl⟩

end Reply

/-- Settles O56, by the two ways a reply can go: kept behind an unanswered request, or sent as the only one. -/
theorem repliesKeepRequestOrder : Obligations.RepliesKeepRequestOrder := by
  unfold Obligations.RepliesKeepRequestOrder
  rintro p o r st c d s t m rfl rfl
  have hpart := part_reply p r o st c d s
  refine ⟨fun first rest hslots hwaits hother => ?behind, fun hslots htransport => ?only, ?refusals, ?wrongMode, ?clamps⟩
  case behind =>
    obtain ⟨f, hreply⟩ := reply_behind p r o st c d s hslots hwaits hother
    rw [hreply, part_setPart]
    exact ⟨rfl, rfl, rfl, rfl⟩
  case only =>
    obtain ⟨f, g, hreply⟩ := reply_only p r o st c d s hslots
    refine ⟨by rw [hpart, hslots, answerSlot_first]; rfl, ?_, fun k hk => ?_⟩
    · rw [hreply, ring_setPart, ring_sendOn _ _ _ htransport, ring_setRing, ring_setPart]
      rfl
    · rw [hreply, ring_setPart, ring_sendOn _ _ _ htransport, ring_setRing_ne _ _ _ (Ne.symm hk), ring_setPart]
  case refusals => rw [hpart]; rfl
  case wrongMode => rw [hpart]; rfl
  case clamps => rw [hpart]; rfl

end Sys2Proof.Proofs
end

section
/-! The events of the work dispatcher: postings and stalls, counters, parked items, cores, watchdogs, deadlines and rate counts. -/

namespace Sys2Proof.Proofs

open Sys2Proof Sys2Proof.Machine Sys2Proof.Safety

/-! ### Postings and stalls (R279, R281, R287) -/

section Posting

variable {w v : WorkItem} {q : Nat} {l : List WorkItem} {s : State}

theorem execWorkItemPost_enters (hqueue : queueMay s (w.queue % 64) = true) (hheld : heldPosts s w.producer = [])
    (hfree : blocker s w = none) : execWorkItemPost w s = done (enterItem w s) := by
  simp only [execWorkItemPost, hqueue, hheld, hfree, if_true, List.head?_nil]

/-- A posting that a target holds back, with none before it, is a new stall (R287; one count a stall: log entry 146). -/
theorem execWorkItemPost_stalls (hqueue : queueMay s (w.queue % 64) = true) (hheld : heldPosts s w.producer = [])
    (hblocked : blocker s w = some q) : execWorkItemPost w s = done (holdPost w q true s) := by
  simp only [execWorkItemPost, hqueue, hheld, hblocked, if_true, List.head?_nil]

/-- A posting behind those that wait joins them while the post buffer of a hardware producer has room; firmware's has no end
(R287; log entry 146). -/
theorem execWorkItemPost_waits (hqueue : queueMay s (w.queue % 64) = true) (hheld : heldPosts s w.producer = v :: l)
    (hroom : w.producer.isSome = true → l.length < 7) (hblocked : blocker s w = some q) :
    execWorkItemPost w s = done (holdPost w q false s) := by
  have hnotFull : (w.producer.isSome && decide (8 ≤ (v :: l).length)) = false := by
    cases hproducer : w.producer.isSome with
    | false => rfl
    | true =>
      have hlen := hroom hproducer
      simp only [Bool.true_and, decide_eq_false_iff_not, List.length_cons]
      omega
  simp only [execWorkItemPost, hqueue, hheld, hblocked, hnotFull, if_true, Bool.false_eq_true, if_false, List.head?_cons,
    Option.orElse_some, Option.getD_some]

/-- With eight items in its post buffer a hardware producer posts nothing more (R287). -/
theorem execWorkItemPost_full (hqueue : queueMay s (w.queue % 64) = true) (hheld : heldPosts s w.producer = v :: l)
    (hproducer : w.producer.isSome = true) (hfull : 7 ≤ l.length) : execWorkItemPost w s = .next s := by
  have height : (w.producer.isSome && decide (8 ≤ (v :: l).length)) = true := by
    simp only [hproducer, Bool.true_and, decide_eq_true_eq, List.length_cons]
    omega
  simp only [execWorkItemPost, hqueue, hheld, height, if_true, List.head?_cons]

/-- A stalled target, or one above its high watermark, holds a hardware producer's posting back (R287). -/
theorem blocker_isSome (hproducer : w.producer.isSome = true) (htarget : q = w.queue % 64 ∨ q = 64)
    (hstall : s.pvd.stalled.contains q = true ∨ aboveHigh s q = true) : (blocker s w).isSome = true := by
  rw [blocker, if_pos hproducer, List.isSome_head?]
  refine List.ne_nil_of_mem (List.mem_filter.mpr ⟨?_, Bool.or_eq_true_iff.mpr hstall⟩ : q ∈ _)
  simpa only [List.mem_cons, List.not_mem_nil, or_false] using htarget

/-- A new stall of a hardware producer is reported and counted (R287). -/
theorem holdPost_fresh (q : Nat) (s : State) (hproducer : w.producer.isSome = true) :
    holdPost w q true s = raise 0x063 q (setPvd (setPvd s (fun p => { p with stalled := sadd p.stalled q, posts := p.posts ++ [w] }))
      (fun p => { p with wmarkHits := bump32 p.wmarkHits })) := by
  simp only [holdPost, hproducer, Bool.and_self, if_true]

/-- At the low watermark of a stalled target the postings it held back go on (R287). -/
theorem execProducerStallRelease_resumes (hstalled : s.pvd.stalled.contains q = true) (hlow : atLow s q = true)
    (hworks : dispatcherMay s = true) : execProducerStallRelease q s =
      done (releasePosts s.pvd.posts (setPvd s (fun p => { p with stalled := sdel p.stalled q, posts := [] }))) := by
  rw [execProducerStallRelease, if_pos]
  simp only [hstalled, hlow, hworks, Bool.and_self]

theorem releasePosts_enters (l : List WorkItem) (hheld : heldPosts s w.producer = []) (hfree : blocker s w = none) :
    releasePosts (w :: l) s = releasePosts l (enterItem w s) := by
  simp only [releasePosts, hheld, hfree]

end Posting

/-! ### Counters and the wait store (R279, R280, R286) -/

section Store

variable {k v f n : Nat} {i : Item} {s : State}

theorem execCounterArm_arms (hk : k < 65536) (hpos : 0 < v) (hv : v < 65536) (hzero : tgetD s.pvd.counters k 0 = 0)
    (hworks : dispatcherMay s = true) :
    execCounterArm k v s = .next (setPvd s (fun p => { p with counters := tset p.counters k v })) := by
  simp only [execCounterArm, Nat.mod_eq_of_lt hk, Nat.mod_eq_of_lt hv, hworks, hzero, Nat.ne_of_gt hpos, ne_eq, not_true_eq_false,
    Bool.true_eq_false, if_false]

/-- A counter that is armed while it counts is at fault (R280). -/
theorem execCounterArm_faults (v : Nat) (hk : k < 65536) (hcounts : tgetD s.pvd.counters k 0 ≠ 0) (hworks : dispatcherMay s = true) :
    execCounterArm k v s = done (counterFault k s) := by
  simp only [execCounterArm, Nat.mod_eq_of_lt hk, hworks, hcounts, ne_eq, not_false_eq_true, Bool.true_eq_false, if_false, if_true]

theorem execParkedItemWake_wakes (hitem : itemAt s f n = some i) (hplace : i.place = .parked) (hworks : dispatcherMay s = true) :
    execParkedItemWake f n s = done (promote (setItem (noEarlier (i.deadline * deadlineUnit - 32000 * usUnit) s) i.order
      (fun i => { i with place := .waiting }))) := by
  simp only [execParkedItemWake, hitem, hplace, hworks, and_self, if_true]

theorem execRetryBackoffExpiry_waits (hitem : itemAt s f n = some i) (hplace : i.place = .backoff) (hworks : dispatcherMay s = true) :
    execRetryBackoffExpiry f n s =
      .next (promote (setItem (noEarlier i.retryAt s) i.order (fun i => { i with place := .waiting }))) := by
  simp only [execRetryBackoffExpiry, hitem, hplace, hworks, and_self, if_true]

/-- An item of a firmware queue that has not completed at its deadline is discarded and counted (R285). -/
theorem execWorkItemDeadline_discards (hitem : itemAt s f n = some i) (hqueue : 48 ≤ i.queue) (hplace : i.place ≠ .done)
    (hworks : dispatcherMay s = true) : execWorkItemDeadline f n s =
      done (emptyItem i (setPvd (noEarlier (i.deadline * deadlineUnit) s) (fun p => { p with discards := bump32 p.discards }))) := by
  simp only [execWorkItemDeadline, hitem]
  exact if_pos ⟨hqueue, hplace, hworks⟩

end Store

/-! ### Cores (R277, R283, R284, R286) -/

section Cores

variable {k : Nat} {c : Core} {i : Item} {s : State}

/-- A free core takes the next item of its pool (R277, R283). -/
theorem execCoreTakeItem_takes (hcore : tget s.pvd.cores k = some c) (hfree : c.busy = none) (hruns : coreMay s k = true)
    (hnext : nextItem s k c = some i) :
    execCoreTakeItem k s = .next (promote (setCore (setItem s i.order (fun i => { i with place := .running k })) k (fun c =>
      { c with busy := some (i.flow, i.seq), since := s.mtb.t, startedAt := s.mtb.t,
               took := if (serviceCores s).head? = some k then (c.took + 1) % 16 else 0 }))) := by
  simp only [execCoreTakeItem, hcore, hfree, hruns, hnext, Option.isSome_none, Bool.not_true, Bool.or_self, Bool.false_eq_true,
    if_false]
  rfl

theorem execWorkItemComplete_running (retry : Bool) (hitem : runsOn s k = some i) (hruns : coreMay s k = true) :
    execWorkItemComplete k retry s = if retry then done (retryItem i (freeCore k s))
      else done (release i.flow (setItem (freeCore k s) i.order (fun i => { i with place := .done }))) := by
  simp only [execWorkItemComplete, hitem, hruns, Bool.true_eq_false, if_false]

/-- A core whose item was discarded while it ran is free, and its results are dropped (R285). -/
theorem execWorkItemComplete_discarded (retry : Bool) (hitem : runsOn s k = none) (hruns : coreMay s k = true) :
    execWorkItemComplete k retry s = .next (freeCore k s) := by
  simp only [execWorkItemComplete, hitem, hruns, if_true]

/-- The watchdog stops a busy core, and counts and reports it (R277). -/
theorem execItemWatchdog_trips (hcore : tget s.pvd.cores k = some c) (hbusy : c.busy.isSome = true) (hruns : coreMay s k = true) :
    execItemWatchdog k s = done (raise 0x064 k (dropCoreItem k (setPvd (noEarlier (c.startedAt + watchdogTime) s)
      (fun p => { p with wdogTrips := bump32 p.wdogTrips })))) := by
  have hlive : (c.busy.isNone || !coreMay s k) = false := by
    rw [hruns, ← Option.not_isSome, hbusy]; rfl
  simp only [execItemWatchdog, hcore, hlive, Bool.false_eq_true, if_false]

end Cores

/-- The end of a rate period clears every partition's count (R290). -/
theorem execRateQuotaPeriod_clears {s t : State} {n : Nat} (halive : alive s.mode.mode = true)
    (hboundary : (t, n) = atBoundary s.pvd.periodAt s) : execRateQuotaPeriod s = .next (setPvd t (fun p =>
      { p with periodAt := some n, quotas := tmap p.quotas (fun _ q => { q with used := 0 }) })) := by
  simp only [execRateQuotaPeriod, halive, if_true, ← hboundary]

/-- Settles O27: each event meets the tests of its command, so it takes the branch that the premises select. -/
theorem dispatcherEventsComplete : Obligations.DispatcherEventsComplete := by
  unfold Obligations.DispatcherEventsComplete
  refine ⟨?enters, ?stalls, ?waits, ?full, ?blocked, ?fresh, ?resumes, ?goesOn, ?arms, ?armFault, ?wakes, ?takes, ?completes,
    ?watchdog, ?discarded, ?backoff, ?deadline, ?period⟩
  case enters => exact fun w s => execWorkItemPost_enters
  case stalls => exact fun w q s => execWorkItemPost_stalls
  case waits => exact fun w v q l s => execWorkItemPost_waits
  case full => exact fun w v l s => execWorkItemPost_full
  case blocked => exact fun w q p s hproducer => blocker_isSome (Option.isSome_of_eq_some hproducer)
  case fresh => exact fun w q p s hproducer => holdPost_fresh q s (Option.isSome_of_eq_some hproducer)
  case resumes => exact fun q s => execProducerStallRelease_resumes
  case goesOn => exact fun w l s => releasePosts_enters l
  case arms => exact fun k v s => execCounterArm_arms
  case armFault => exact fun k v s => execCounterArm_faults v
  case wakes => exact fun f n s i => execParkedItemWake_wakes
  case takes => exact fun k s c i => execCoreTakeItem_takes
  case completes =>
    exact fun k s i hitem hruns => ⟨execWorkItemComplete_running true hitem hruns, execWorkItemComplete_running false hitem hruns⟩
  case watchdog => exact fun k s c => execItemWatchdog_trips
  case discarded => exact fun k retry s => execWorkItemComplete_discarded retry
  case backoff => exact fun f n s i => execRetryBackoffExpiry_waits
  case deadline => exact fun f n s i => execWorkItemDeadline_discards
  case period => exact fun s t n => execRateQuotaPeriod_clears

end Sys2Proof.Proofs
end

section
/-! The events of the host's transports: rings, sessions and interrupts. -/

namespace Sys2Proof.Proofs

open Sys2Proof Sys2Proof.Machine Sys2Proof.Safety

/-! ### The rings of a bound function (R438, R442) -/

section Rings

variable {f p : Nat} {s : State}

/-- A tail written on a bound function is judged; a sound one in M2 to M10 has the messages below it served (R438, R439). -/
theorem execHstReqTailWrite_judged {tail : Nat} {b : Bytes} {t : State} {sound : Bool} (hbound : boundPart s f = some p)
    (htail : (t, sound) = writeTail f p tail s) : execHstReqTailWrite f tail b s =
      done (if sound && serves t.mode.mode then serveRing f p (b.length / 16 + 1) b t else t) := by
  simp only [execHstReqTailWrite, hbound, ← htail]

theorem execHstRingReset_bound (hbound : boundPart s f = some p) : execHstRingReset f s = .next (resetRing f s) := by
  simp only [execHstRingReset, hbound]

theorem execHstRplHeadWrite_bound (head : Nat) (hbound : boundPart s f = some p) :
    execHstRplHeadWrite f head s = .next (writeRplHead f head s) := by
  simp only [execHstRplHeadWrite, hbound]

theorem execHstIntCauseClear_bound (mask : Nat) (hbound : boundPart s f = some p) :
    execHstIntCauseClear f mask s = .next (setRing s f (fun r => { r with cause := w1c r.cause mask })) := by
  simp only [execHstIntCauseClear, hbound]

end Rings

/-! ### Hellos (R431, R433) -/

/-- A hello on an unfenced management port, for a partition without a lockout, is heard (R431, R433). -/
structure HeardHello (port p : Nat) (s : State) : Prop where
  port_le : port ≤ 1
  unfenced : s.hst.mgFaults.contains port = false
  unlocked : (part s p).lockout = false

/-- The binding of a partition allows the port of a hello (R429, R431). -/
structure HelloAllowed (port p : Nat) (s : State) : Prop where
  part_le : p ≤ 15
  bound : (part s p).bound = true
  portBit : bitOf (part s p).mg port = true

section Hello

variable {port p : Nat} {s : State}

theorem HeardHello.not_ignored (h : HeardHello port p s) :
    ¬ (1 < port ∨ s.hst.mgFaults.contains port = true ∨ (part s p).lockout = true) :=
  not_or.mpr ⟨Nat.not_lt.mpr h.port_le, not_or.mpr ⟨ne_true_of_eq_false h.unfenced, ne_true_of_eq_false h.unlocked⟩⟩

theorem HelloAllowed.not_foreign (h : HelloAllowed port p s) :
    ¬ (15 < p ∨ (part s p).bound = false ∨ bitOf (part s p).mg port = false) :=
  not_or.mpr ⟨Nat.not_lt.mpr h.part_le, not_or.mpr ⟨ne_false_of_eq_true h.bound, ne_false_of_eq_true h.portBit⟩⟩

/-- While sessions are served a hello is taken at once (R439). -/
theorem execSessionHello_served (peer : Nat) (hserves : serves s.mode.mode = true) :
    execSessionHello port p peer s = .next (answerHello port p peer s) := by
  have hboot : s.mode.mode ≠ .boot := fun hboot => Bool.false_ne_true (by rwa [hboot] at hserves)
  rw [execSessionHello, if_neg hboot, if_pos hserves]

/-- A hello that the partition's binding does not allow is refused (R431). -/
theorem answerHello_foreign (peer : Nat) (heard : HeardHello port p s)
    (hforeign : 15 < p ∨ (part s p).bound = false ∨ bitOf (part s p).mg port = false) :
    answerHello port p peer s = refuseHello port peer .notInPartition s := by
  rw [answerHello, if_neg heard.not_ignored, if_pos hforeign]

/-- A hello for a partition that has its sessions open is refused with BUSY (R433). The model counts the open
ones; log entry 79 (deduced) speaks of the half-open ones too. -/
theorem answerHello_busy (peer : Nat) (heard : HeardHello port p s) (hallowed : HelloAllowed port p s)
    (hused : (part s p).sessions ≤ (sessionsOf s p).length) : answerHello port p peer s = refuseHello port peer .busy s := by
  rw [answerHello, if_neg heard.not_ignored, if_neg hallowed.not_foreign, if_pos hused]

/-- Any other hello is answered with a challenge under a new session ID (R431, R433; their values: log entry 137). -/
theorem answerHello_challenged {peer i n v : Nat} {t u : State} {x : Session} (heard : HeardHello port p s)
    (hallowed : HelloAllowed port p s) (hunused : (sessionsOf s p).length < (part s p).sessions) (hplace : freeSession s = some i)
    (hident : (n, t) = drawFree s) (hvalue : (v, u) = drawFree t)
    (hx : x = { partition := p, port := port, ident := n % 2 ^ 32, hostCtr := 0, deviceCtr := 2 ^ 63 + 1, peer := peer
                lastFrame := u.mtb.uptime, challenge := Config.sessionChallenge v, key := Config.sessionKey v }) :
    answerHello port p peer s = { u with hst := { u.hst with sessions := tset u.hst.sessions i x } } := by
  rw [answerHello, if_neg heard.not_ignored, if_neg hallowed.not_foreign, if_neg (Nat.not_le.mpr hunused)]
  simp only [hplace, ← hident, ← hvalue, ← hx]

end Hello

/-! ### Sessions (R431 to R433, R436) -/

section Sessions

variable {i : Nat} {x : Session} {s t : State}

/-- A good signature opens the session, and the events that waited follow the welcome (R431, R443). -/
theorem execSessionAuth_opens (peer : Nat) (hsession : tget s.hst.sessions i = some x) (hnew : x.opened = false)
    (hserves : serves s.mode.mode = true) (hkey : (part s x.partition).key.isSome = true)
    (ht : t = setSession s i (fun x => { x with opened := true, hostCtr := 1, peer := peer, lastFrame := s.mtb.uptime })) :
    execSessionAuth i true peer s = done (flushHeld x.partition (sendOn t (16 + i) x.partition (welcome x.partition t))) := by
  subst ht
  simp only [execSessionAuth, hsession, hnew, hserves, hkey, Bool.not_true, Bool.or_self, Bool.and_self, Bool.false_eq_true,
    if_false, if_true]

/-- A bad signature ends the handshake without an answer, and is counted (R433). -/
theorem execSessionAuth_fails (peer : Nat) (hsession : tget s.hst.sessions i = some x) (hnew : x.opened = false)
    (hserves : serves s.mode.mode = true) : execSessionAuth i false peer s =
      done (failAuth x.partition { s with hst := { s.hst with sessions := tdel s.hst.sessions i } }) := by
  simp only [execSessionAuth, hsession, hnew, hserves, Bool.not_true, Bool.or_self, Bool.false_and, Bool.false_eq_true, if_false]

/-- A frame whose tag is good and whose counter is above the last is taken; its message is served where it is whole (R432, R436). -/
theorem execSessionProtectedFrame_taken {ctr : Nat} (peer : Nat) (m : Bytes) (hsession : tget s.hst.sessions i = some x)
    (hopened : x.opened = true) (hserves : serves s.mode.mode = true) (hnew : x.hostCtr < ctr) (hctr : ctr < 2 ^ 63)
    (ht : t = setSession s i (fun x => { x with hostCtr := ctr, peer := peer, lastFrame := s.mtb.uptime })) :
    execSessionProtectedFrame i ctr true peer m s =
      done (if m.length < 16 + messageLength m then badFrame x.partition t else serveMessage (16 + i) m t) := by
  subst ht
  simp only [execSessionProtectedFrame, hsession, hopened, hserves, decide_eq_false (Nat.not_le.mpr hnew),
    decide_eq_false (Nat.not_le.mpr hctr), Bool.not_true, Bool.or_self, Bool.false_eq_true, if_false]
  exact (apply_ite done _ _ _).symm

/-- A frame whose tag fails is discarded and counted (R432). -/
theorem execSessionProtectedFrame_bad (ctr peer : Nat) (m : Bytes) (hsession : tget s.hst.sessions i = some x)
    (hopened : x.opened = true) (hserves : serves s.mode.mode = true) :
    execSessionProtectedFrame i ctr false peer m s = done (badFrame x.partition s) := by
  simp only [execSessionProtectedFrame, hsession, hopened, hserves, Bool.not_true, Bool.not_false, Bool.true_or, Bool.or_self,
    Bool.false_eq_true, if_false, if_true]

theorem execSessionIdleTimeout_ends (hsession : tget s.hst.sessions i = some x) :
    execSessionIdleTimeout i s = .next (endSession i (afterUptime (x.lastFrame + 60 * uptimeSecond) s)) := by
  simp only [execSessionIdleTimeout, hsession]

end Sessions

/-- Settles O35: each event meets the tests of its command, so it takes the branch that the premises select. -/
theorem transportsComplete : Obligations.TransportsComplete := by
  unfold Obligations.TransportsComplete
  refine ⟨?tail, ?ring, ?foreign, ?busy, ?challenged, ?boot, ?auth, ?frame, ?idle, ?lockout, ?function⟩
  case tail => exact fun f tail p b s t sound => execHstReqTailWrite_judged
  case ring =>
    exact fun f p s hbound => ⟨execHstRingReset_bound hbound, fun head => execHstRplHeadWrite_bound head hbound,
      fun mask => execHstIntCauseClear_bound mask hbound⟩
  case foreign =>
    exact fun port p peer s hserves hport hunfenced hopen hforeign => (execSessionHello_served peer hserves).trans
      (next_eq (answerHello_foreign peer ⟨hport, hunfenced, hopen⟩ hforeign))
  case busy =>
    exact fun port p peer s hserves hport hunfenced hopen hp hbound hbit hused => (execSessionHello_served peer hserves).trans
      (next_eq (answerHello_busy peer ⟨hport, hunfenced, hopen⟩ ⟨hp, hbound, hbit⟩ hused))
  case challenged =>
    exact fun port p peer i n v s t u x hserves hport hunfenced hopen hp hbound hbit hunused hplace hident hvalue hx =>
      (execSessionHello_served peer hserves).trans
        (next_eq (answerHello_challenged ⟨hport, hunfenced, hopen⟩ ⟨hp, hbound, hbit⟩ hunused hplace hident hvalue hx))
  case boot => exact fun port p peer s hboot => if_pos hboot
  case auth =>
    exact fun i peer s t x hsession hnew hserves hkey ht =>
      ⟨execSessionAuth_opens peer hsession hnew hserves hkey ht, execSessionAuth_fails peer hsession hnew hserves⟩
  case frame =>
    exact fun i ctr peer m s t x hsession hopened hserves hnew hctr ht =>
      ⟨execSessionProtectedFrame_taken peer m hsession hopened hserves hnew hctr ht,
        execSessionProtectedFrame_bad ctr peer m hsession hopened hserves⟩
  case idle => exact fun i s x => execSessionIdleTimeout_ends
  case lockout => exact fun p s hlockout => if_pos hlockout
  case function => exact fun f s hf => ⟨if_pos hf, if_pos hf⟩

end Sys2Proof.Proofs
end

section
/-! What a step takes from the queue, what it keeps of the fuses, and that only a read outside HBM stops the block. -/

namespace Sys2Proof.Proofs

open Sys2Proof Sys2Proof.Machine Sys2Proof.Safety

/-! ### A step (log entry 4) -/

/-- Settles O37: the front of the queue decides, by the definition of a step. -/
theorem stepTakesTheFront : Obligations.StepTakesTheFront := by
  unfold Obligations.StepTakesTheFront
  exact fun c rest s => rfl

/-- Settles O41: what a step keeps of the state without its front command holds the fuses, which that state shares. -/
theorem fusesNeverFall : Obligations.FusesNeverFall := by
  unfold Obligations.FusesNeverFall
  exact fun s t hstep => (step_keeps hstep).fuses

/-- Settles O42: what a step keeps of the state without its front command holds the queue. -/
theorem theQueueLosesItsFront : Obligations.TheQueueLosesItsFront := by
  unfold Obligations.TheQueueLosesItsFront
  exact fun s t hstep => (step_keeps hstep).pending

/-! ### Commands that stop the block (R300, R308) -/

/-- A poisoned read inside the client address space completes (R300). -/
theorem execPoisonedRead_next {a : Nat} (c : HbmClient) (s : State) (ha : a < hbmEnd) : ∃ t, execPoisonedRead a c s = .next t := by
  rw [execPoisonedRead, if_neg (Nat.not_le.mpr ha)]
  exact next_ite ⟨_, rfl⟩ ⟨_, rfl⟩

/-- Each command but a poisoned read outside HBM completes, by the lemma of its own. -/
theorem exec_next (i : Instr) (s : State) (hreads : ∀ a q, i = .poisonedRead a q → a < hbmEnd) : ∃ t, exec i s = .next t := by
  cases i with
  | inputSupplyGood supply => exact execInputSupplyGood_next supply s
  | supplyDebounceDone => exact execSupplyDebounceDone_next s
  | railWithinLimits => exact execRailWithinLimits_next s
  | railSequenceFail => exact execRailSequenceFail_next s
  | railSequenceRetry => exact execRailSequenceRetry_next s
  | powerRemoved => exact execPowerRemoved_next s
  | frcStartFail => exact execFrcStartFail_next s
  | frcRestart => exact execFrcRestart_next s
  | loopLockReported source => exact execLoopLockReported_next source s
  | sourceStable source ratio => exact execSourceStable_next source ratio s
  | resetNFall => exact execResetNFall_next s
  | resetAccepted => exact execResetAccepted_next s
  | resetNRelease svcEn => exact execResetNRelease_next svcEn s
  | clockStopDetect source => exact execClockStopDetect_next source s
  | frequencyMeasurement source count => exact execFrequencyMeasurement_next source count s
  | rootSwitchDone => exact execRootSwitchDone_next s
  | safeHoldExit sourceTime => exact execSafeHoldExit_next sourceTime s
  | pllSLockLoss => exact execPllSLockLoss_next s
  | supplyLoss supply => exact execSupplyLoss_next supply s
  | supplyReturn supply => exact execSupplyReturn_next supply s
  | overcurrent => exact execOvercurrent_next s
  | coreRailLoss rail => exact execCoreRailLoss_next rail s
  | hbmRailLoss stack => exact execHbmRailLoss_next stack s
  | tjSample env => exact execTjSample_next env s
  | pmbusPage page => exact execPmbusPage_next page s
  | pmbusClearFaults => exact execPmbusClearFaults_next s
  | pmbusStatusWord => exact execPmbusStatusWord_next s
  | pmbusStatusInput => exact execPmbusStatusInput_next s
  | pmbusStatusIout => exact execPmbusStatusIout_next s
  | pmbusStatusTemperature => exact execPmbusStatusTemperature_next s
  | pmbusReadVin => exact execPmbusReadVin_next s
  | pmbusReadIin => exact execPmbusReadIin_next s
  | pmbusReadVout => exact execPmbusReadVout_next s
  | pmbusReadIout => exact execPmbusReadIout_next s
  | pmbusReadPin => exact execPmbusReadPin_next s
  | pmbusReadTemperature1 => exact execPmbusReadTemperature1_next s
  | pmbusMfrFaultLogRead => exact execPmbusMfrFaultLogRead_next s
  | pmbusOtherWrite command => exact execPmbusOtherWrite_next command s
  | ptpMessageReceive port offset => exact execPtpMessageReceive_next port offset s
  | frameInEdge offset => exact execFrameInEdge_next offset s
  | ppsInEdge offset => exact execPpsInEdge_next offset s
  | mtbSourceLost source => exact execMtbSourceLost_next source s
  | clkMtbFracRead transport => exact execClkMtbFracRead_next transport s
  | sampleTick tick env => exact execSampleTick_next tick env s
  | frameTick channel frame env => exact execFrameTick_next channel frame env s
  | rowTick channel frame row env => exact execRowTick_next channel frame row env s
  | mtbWholeSecond second => exact execMtbWholeSecond_next second s
  | ppsOutFall => exact execPpsOutFall_next s
  | mtbMillisecond millisecond => exact execMtbMillisecond_next millisecond s
  | shadowCommit channel target change => exact execShadowCommit_next channel target change s
  | shadowApply channel frame => exact execShadowApply_next channel frame s
  | pleachStripArrival engine strip => exact execPleachStripArrival_next engine strip s
  | sliceVerdict verdict => exact execSliceVerdict_next verdict s
  | alfDerivation context frame => exact execAlfDerivation_next context frame s
  | ringSegmentReroute channel segment => exact execRingSegmentReroute_next channel segment s
  | spareTakeover engine channel frame => exact execSpareTakeover_next engine channel frame s
  | gRecompute context frame => exact execGRecompute_next context frame s
  | sliceEmission context frame row => exact execSliceEmission_next context frame row s
  | decodeNalReceive context nal => exact execDecodeNalReceive_next context nal s
  | decodeCloseTimeout context => exact execDecodeCloseTimeout_next context s
  | decodePictureDone context picture => exact execDecodePictureDone_next context picture s
  | graphicsSlotRelease channel layer => exact execGraphicsSlotRelease_next channel layer s
  | sdiLineReceive line => exact execSdiLineReceive_next line s
  | st2110PacketReceive packet => exact execSt2110PacketReceive_next packet s
  | aes3FrameReceive input frame => exact execAes3FrameReceive_next input frame s
  | trackerBlock input count => exact execTrackerBlock_next input count s
  | aes3Stop input => exact execAes3Stop_next input s
  | payloadMuteRelease path pair => exact execPayloadMuteRelease_next path pair s
  | aes3BlockStartCheck port paired => exact execAes3BlockStartCheck_next port paired s
  | audioPortRestartApply port frame => exact execAudioPortRestartApply_next port frame s
  | packetTransmit port => exact execPacketTransmit_next port s
  | gateEntryChange port => exact execGateEntryChange_next port s
  | gateListStart port => exact execGateListStart_next port s
  | shaperRateApply leg tick => exact execShaperRateApply_next leg tick s
  | psiInsertion flow frame => exact execPsiInsertion_next flow frame s
  | pcrInsertion flow videoDatagram => exact execPcrInsertion_next flow videoDatagram s
  | rtcpReceive flow message => exact execRtcpReceive_next flow message s
  | addressResolved leg mac => exact execAddressResolved_next leg mac s
  | queueSampleTimer => exact execQueueSampleTimer_next s
  | pairDigestReceive digest partnerId partnerWants => exact execPairDigestReceive_next digest partnerId partnerWants s
  | claimBeaconSend => exact execClaimBeaconSend_next s
  | claimBeaconReceive claim epoch mode degraded count => exact execClaimBeaconReceive_next claim epoch mode degraded count s
  | vaDown => exact execVaDown_next s
  | vaSilent => exact execVaSilent_next s
  | pairHbInEdge level => exact execPairHbInEdge_next level s
  | heartbeatSilent => exact execHeartbeatSilent_next s
  | hrwHeartbeatReceive path claim epoch => exact execHrwHeartbeatReceive_next path claim epoch s
  | fingerprintReceive print => exact execFingerprintReceive_next print s
  | fingerprintMissing stream => exact execFingerprintMissing_next stream s
  | pairFrameEnd => exact execPairFrameEnd_next s
  | resyncBulkDone channel frame bytes => exact execResyncBulkDone_next channel frame bytes s
  | resyncSmallState channel bytes small => exact execResyncSmallState_next channel bytes small s
  | roleSwapDue frame => exact execRoleSwapDue_next frame s
  | roleSwap frame => exact execRoleSwap_next frame s
  | mergeSwitch leg time unit => exact execMergeSwitch_next leg time unit s
  | partnerPacketReceive leg packet => exact execPartnerPacketReceive_next leg packet s
  | forwardedChangeReceive channel target change => exact execForwardedChangeReceive_next channel target change s
  | claimReleaseFlowsStop => exact execClaimReleaseFlowsStop_next s
  | workItemPost item => exact execWorkItemPost_next item s
  | producerStallRelease queue => exact execProducerStallRelease_next queue s
  | counterArm counter value => exact execCounterArm_next counter value s
  | parkedItemWake flow seq => exact execParkedItemWake_next flow seq s
  | coreTakeItem core => exact execCoreTakeItem_next core s
  | workItemComplete core retry => exact execWorkItemComplete_next core retry s
  | retryBackoffExpiry flow seq => exact execRetryBackoffExpiry_next flow seq s
  | itemWatchdog core => exact execItemWatchdog_next core s
  | workItemDeadline flow seq => exact execWorkItemDeadline_next flow seq s
  | rateQuotaPeriod => exact execRateQuotaPeriod_next s
  | refreshDue pc requests => exact execRefreshDue_next pc requests s
  | postponedRefreshIssue pc => exact execPostponedRefreshIssue_next pc s
  | stackTemperatureRead stack celsius => exact execStackTemperatureRead_next stack celsius s
  | selfRefreshEntry stack => exact execSelfRefreshEntry_next stack s
  | selfRefreshEntryDone stack => exact execSelfRefreshEntryDone_next stack s
  | hbmRequestWake address client => exact execHbmRequestWake_next address client s
  | selfRefreshExitDone stack => exact execSelfRefreshExitDone_next stack s
  | poisonedRead address client => exact execPoisonedRead_next client s (hreads address client rfl)
  | scrubAccess pc corrected => exact execScrubAccess_next pc corrected s
  | remapCopyDone => exact execRemapCopyDone_next s
  | memoryCheckDone failing => exact execMemoryCheckDone_next failing s
  | ethFrameReceive port frame => exact execEthFrameReceive_next port frame s
  | pauseExpiry port => exact execPauseExpiry_next port s
  | lnkPauseLong port => exact execLnkPauseLong_next port s
  | ethPortUp port => exact execEthPortUp_next port s
  | lnkEthDown port => exact execLnkEthDown_next port s
  | valsinFrameReceive port frame => exact execValsinFrameReceive_next port frame s
  | valsinAckTimer port => exact execValsinAckTimer_next port s
  | valsinRetryTimeout port => exact execValsinRetryTimeout_next port s
  | valsinTrainingReceive port sets => exact execValsinTrainingReceive_next port sets s
  | valsinStepSwitch port => exact execValsinStepSwitch_next port s
  | valsinStepTimeout port => exact execValsinStepTimeout_next port s
  | valsinRetrainTimer port => exact execValsinRetrainTimer_next port s
  | commaLoss port lane => exact execCommaLoss_next port lane s
  | valsinSleepEntry port => exact execValsinSleepEntry_next port s
  | valsinWake port => exact execValsinWake_next port s
  | valsinWakeFail port => exact execValsinWakeFail_next port s
  | hrwDiscovery port up => exact execHrwDiscovery_next port up s
  | hrwDepthAnnounce announced => exact execHrwDepthAnnounce_next announced s
  | hrwMapReceive port ids depth => exact execHrwMapReceive_next port ids depth s
  | hrwNoRoot => exact execHrwNoRoot_next s
  | hrwBcastReceive origin seq data => exact execHrwBcastReceive_next origin seq data s
  | hrwBarrierArrival barrier port timeoutMs partialArrival => exact execHrwBarrierArrival_next barrier port timeoutMs partialArrival s
  | hrwBarrierRelease barrier seq partialRelease => exact execHrwBarrierRelease_next barrier seq partialRelease s
  | hrwBarrierTimeout barrier => exact execHrwBarrierTimeout_next barrier s
  | hrwScheduleReceive action => exact execHrwScheduleReceive_next action s
  | hrwActionTime seq => exact execHrwActionTime_next seq s
  | faultReport source inst detail0 detail1 => exact execFaultReport_next source inst detail0 detail1 s
  | errPulseEnd => exact execErrPulseEnd_next s
  | unitResume source inst => exact execUnitResume_next source inst s
  | fltPath source => exact execFltPath_next source s
  | faultPathRestore source => exact execFaultPathRestore_next source s
  | firmwareSlotVerify slot => exact execFirmwareSlotVerify_next slot s
  | configSlotVerify slot => exact execConfigSlotVerify_next slot s
  | recordPadding payload => exact execRecordPadding_next payload s
  | recordUnknownType type payload => exact execRecordUnknownType_next type payload s
  | gpioRecord payload => exact execGpioRecord_next payload s
  | supplyRecord payload => exact execSupplyRecord_next payload s
  | mtbDisciplineRecord payload => exact execMtbDisciplineRecord_next payload s
  | memoryRecord payload => exact execMemoryRecord_next payload s
  | qosPortRecord payload => exact execQosPortRecord_next payload s
  | ethernetPortRecord payload => exact execEthernetPortRecord_next payload s
  | valsinPortRecord payload => exact execValsinPortRecord_next payload s
  | ingressFlowRecord payload => exact execIngressFlowRecord_next payload s
  | alignmentGroupRecord payload => exact execAlignmentGroupRecord_next payload s
  | groupMemberRecord payload => exact execGroupMemberRecord_next payload s
  | aes3InputRecord payload => exact execAes3InputRecord_next payload s
  | aes3OutputRecord payload => exact execAes3OutputRecord_next payload s
  | audioProgrammeRecord payload => exact execAudioProgrammeRecord_next payload s
  | compositorRecord payload => exact execCompositorRecord_next payload s
  | videoLayerRecord payload => exact execVideoLayerRecord_next payload s
  | graphicsLayerRecord payload => exact execGraphicsLayerRecord_next payload s
  | slateDataRecord payload => exact execSlateDataRecord_next payload s
  | topiaryRegionRecord payload => exact execTopiaryRegionRecord_next payload s
  | encodeChannelRecord payload => exact execEncodeChannelRecord_next payload s
  | encodeContextRecord payload => exact execEncodeContextRecord_next payload s
  | contextCodingRecord payload => exact execContextCodingRecord_next payload s
  | channelColourRecord payload => exact execChannelColourRecord_next payload s
  | rateControlRecord payload => exact execRateControlRecord_next payload s
  | coppiceRecord payload => exact execCoppiceRecord_next payload s
  | decodeContextRecord payload => exact execDecodeContextRecord_next payload s
  | egressFlowRecord payload => exact execEgressFlowRecord_next payload s
  | flowGroupRecord payload => exact execFlowGroupRecord_next payload s
  | portClassRecord payload => exact execPortClassRecord_next payload s
  | gateListRecord payload => exact execGateListRecord_next payload s
  | ingressPolicerRecord payload => exact execIngressPolicerRecord_next payload s
  | pairRecord payload => exact execPairRecord_next payload s
  | hedgerowRecord payload => exact execHedgerowRecord_next payload s
  | severityRecord payload => exact execSeverityRecord_next payload s
  | generalFaultRecord payload => exact execGeneralFaultRecord_next payload s
  | bindingRecord payload => exact execBindingRecord_next payload s
  | partitionKeyRecord payload => exact execPartitionKeyRecord_next payload s
  | managementPortRecord payload => exact execManagementPortRecord_next payload s
  | partitionChannelRecord payload => exact execPartitionChannelRecord_next payload s
  | keyRecord payload tagOk => exact execKeyRecord_next payload tagOk s
  | enrolmentRecord payload => exact execEnrolmentRecord_next payload s
  | partitionQuotaRecord payload => exact execPartitionQuotaRecord_next payload s
  | generalUnitRecord payload => exact execGeneralUnitRecord_next payload s
  | engineSelftestDone engines analysers decoders => exact execEngineSelftestDone_next engines analysers decoders s
  | boxCoreSelftestDone passing => exact execBoxCoreSelftestDone_next passing s
  | cvuSelftestDone failing => exact execCvuSelftestDone_next failing s
  | admission => exact execAdmission_next s
  | configureComplete => exact execConfigureComplete_next s
  | configureMtbTimeout => exact execConfigureMtbTimeout_next s
  | fuseBitProgram ok => exact execFuseBitProgram_next ok s
  | modeRequestExecute => exact execModeRequestExecute_next s
  | updateEraseDone => exact execUpdateEraseDone_next s
  | updateVerifyDone item config => exact execUpdateVerifyDone_next item config s
  | updateTimeout => exact execUpdateTimeout_next s
  | encChannelInfo req => exact execEncChannelInfo_next req s
  | encPoolInfo req => exact execEncPoolInfo_next req s
  | encRefInfo req => exact execEncRefInfo_next req s
  | encSetBitrate req => exact execEncSetBitrate_next req s
  | encRcInfo req => exact execEncRcInfo_next req s
  | decCtxInfo req => exact execDecCtxInfo_next req s
  | cmpChInfo req => exact execCmpChInfo_next req s
  | cmpSetLayer req => exact execCmpSetLayer_next req s
  | ingGroupInfo req => exact execIngGroupInfo_next req s
  | audPortRestart req => exact execAudPortRestart_next req s
  | egrSetRate req => exact execEgrSetRate_next req s
  | egrSetGates req => exact execEgrSetGates_next req s
  | redPairInfo req => exact execRedPairInfo_next req s
  | redSwapNow req => exact execRedSwapNow_next req s
  | referenceActionAck req => exact execReferenceActionAck_next req s
  | referenceActionLoss req => exact execReferenceActionLoss_next req s
  | overlayUpdateGraphics req => exact execOverlayUpdateGraphics_next req s
  | overlayUpdateExpected req => exact execOverlayUpdateExpected_next req s
  | spliceInsertion req => exact execSpliceInsertion_next req s
  | seiInsertion req => exact execSeiInsertion_next req s
  | lnkPortInfo req => exact execLnkPortInfo_next req s
  | lnkRetrain req => exact execLnkRetrain_next req s
  | lnkRetrainTimeout kind port => exact execLnkRetrainTimeout_next kind port s
  | hrwBroadcast req => exact execHrwBroadcast_next req s
  | hrwScheduleSnapshot req => exact execHrwScheduleSnapshot_next req s
  | hrwScheduleReset req => exact execHrwScheduleReset_next req s
  | hrwBarrier req => exact execHrwBarrier_next req s
  | hrwSnapRead req => exact execHrwSnapRead_next req s
  | clkSwitchToPllR req => exact execClkSwitchToPllR_next req s
  | clkSwitchToFrc req => exact execClkSwitchToFrc_next req s
  | secIdentity req => exact execSecIdentity_next req s
  | secAttest req => exact execSecAttest_next req s
  | secAttestRead req => exact execSecAttestRead_next req s
  | secUpdateBegin req => exact execSecUpdateBegin_next req s
  | secUpdateData req => exact execSecUpdateData_next req s
  | secUpdateEnd req => exact execSecUpdateEnd_next req s
  | secUpdateAbort req => exact execSecUpdateAbort_next req s
  | hstInfo req => exact execHstInfo_next req s
  | hstNop req => exact execHstNop_next req s
  | hstBufWriteInline req => exact execHstBufWriteInline_next req s
  | hstBufWritePull req => exact execHstBufWritePull_next req s
  | hstModeReqQuiescent req => exact execHstModeReqQuiescent_next req s
  | hstModeReqRun req => exact execHstModeReqRun_next req s
  | hstRegRead req => exact execHstRegRead_next req s
  | hstRegWrite req => exact execHstRegWrite_next req s
  | mailboxUnknownOpcode opcode req => exact execMailboxUnknownOpcode_next opcode req s
  | hstReqTailWrite function tail ring => exact execHstReqTailWrite_next function tail ring s
  | hstRingReset function => exact execHstRingReset_next function s
  | hstRplHeadWrite function head => exact execHstRplHeadWrite_next function head s
  | sessionHello port partition peer => exact execSessionHello_next port partition peer s
  | sessionAuth session signatureOk peer => exact execSessionAuth_next session signatureOk peer s
  | sessionProtectedFrame session counter tagOk peer message => exact execSessionProtectedFrame_next session counter tagOk peer message s
  | sessionIdleTimeout session => exact execSessionIdleTimeout_next session s
  | authLockoutExpiry partition => exact execAuthLockoutExpiry_next partition s
  | functionLevelReset function => exact execFunctionLevelReset_next function s
  | interruptModerationExpiry function => exact execInterruptModerationExpiry_next function s
  | hstIntCauseClear function mask => exact execHstIntCauseClear_next function mask s
  | egrStatSelect transport value => exact execEgrStatSelect_next transport value s
  | egrStatSelectClear transport value => exact execEgrStatSelectClear_next transport value s
  | drmDlySelect transport value => exact execDrmDlySelect_next transport value s
  | clkMonSelect transport value => exact execClkMonSelect_next transport value s
  | fltLogSelect transport value => exact execFltLogSelect_next transport value s
  | fltSrcSelect transport value => exact execFltSrcSelect_next transport value s
  | fltErrRelease transport => exact execFltErrRelease_next transport s
  | cvuRunLoWrite transport unit value => exact execCvuRunLoWrite_next transport unit value s
  | cvuRunHiWrite transport unit value => exact execCvuRunHiWrite_next transport unit value s
  | cvuRunLoRead transport unit => exact execCvuRunLoRead_next transport unit s
  | clkLostClear transport mask => exact execClkLostClear_next transport mask s
  | pwrGpioOutWrite transport value => exact execPwrGpioOutWrite_next transport value s
  | lowWordLatchRead transport offset => exact execLowWordLatchRead_next transport offset s
  | readClearRegisterRead transport offset => exact execReadClearRegisterRead_next transport offset s
  | registerWrite transport offset value => exact execRegisterWrite_next transport offset value s
  | loopLossOfLock source => exact execLoopLossOfLock_next source s
  | inputSupplyBad supply => exact execInputSupplyBad_next supply s
  | pvdSubmitUnknownClass req => exact execPvdSubmitUnknownClass_next req s
  | hrwRequestAtRoot request => exact execHrwRequestAtRoot_next request s
  | hostDmaPullDone function data => exact execHostDmaPullDone_next function data s
  | graphicsSlotCopyDone channel layer => exact execGraphicsSlotCopyDone_next channel layer s

/-- Settles O36: a command is a poisoned read outside HBM, which stops by its first test, or it completes. -/
theorem everyCommandCompletes : Obligations.EveryCommandCompletes := by
  unfold Obligations.EveryCommandCompletes
  intro i s
  by_cases hreads : ∀ a q, i = .poisonedRead a q → a < hbmEnd
  · exact .inl (exec_next i s hreads)
  · push Not at hreads
    obtain ⟨a, q, rfl, hend⟩ := hreads
    exact .inr ⟨a, q, rfl, hend, if_pos hend⟩

end Sys2Proof.Proofs
end

section
/-! The check values of R353: the model's loop is the rule's, and what the presets give. -/

namespace Sys2Proof.Proofs

open Sys2Proof Sys2Proof.Machine Sys2Proof.Safety

/-! ### The loop of R353 -/

/-- A bit taken by division is the bit that a test finds. -/
theorem bitOf_eq_testBit (d i : Nat) : bitOf d i = d.testBit i := by
  rw [Nat.testBit_eq_decide_div_mod_eq]
  rfl

/-- A mirrored number has its lowest bit on top of the mirror of the rest. -/
theorem mirror_succ (n d : Nat) : mirror (n + 1) d = d % 2 * 2 ^ n + mirror n (d / 2) := by
  have hrest : (List.range n).map (fun i => if d.testBit (n - i) then 2 ^ i else 0) =
      (List.range n).map (fun i => if (d / 2).testBit (n - 1 - i) then 2 ^ i else 0) := by
    refine List.map_congr_left fun i hi => ?_
    have hindex : n - i = n - 1 - i + 1 := by
      have := List.mem_range.mp hi
      omega
    rw [hindex, Nat.testBit_succ]
  have htop : (if d.testBit 0 then 2 ^ n else 0) = d % 2 * 2 ^ n := by
    rcases Nat.mod_two_eq_zero_or_one d with h | h <;> simp [Nat.testBit_zero, h]
  simp only [mirror, List.range_succ, List.map_append, List.sum_append, hrest, List.map_singleton, List.sum_singleton,
    Nat.add_sub_cancel, Nat.sub_self, htop]
  rw [Nat.add_comm]

/-- The model's reversal of bits is the rule's. -/
theorem reverseBits_eq_mirror (n d : Nat) : reverseBits n d = mirror n d := by
  induction n generalizing d with
  | zero => rfl
  | succ n ih => rw [reverseBits, ih, mirror_succ]

/-- One bit into the register, by the rule's shift and mask. -/
theorem crcBit_eq_ruleBit (p : CrcParams) (d reg i : Nat) : crcBit p reg (bitOf d i) = ruleBit p d reg i := by
  have hshift : (reg <<< 1) &&& (2 ^ p.w - 1) = reg * 2 % 2 ^ p.w := by rw [Nat.and_two_pow_sub_one_eq_mod, Nat.shiftLeft_eq, pow_one]
  simp only [crcBit, ruleBit, hshift, Nat.and_two_pow_sub_one_eq_mod, bitOf_eq_testBit, Nat.testBit_shiftRight, Nat.add_zero]
  rfl

/-- The bits of a symbol go in from the highest to the lowest. -/
theorem crcBits_eq_foldl (p : CrcParams) (d n reg : Nat) : crcBits p d n reg = (List.range n).reverse.foldl (ruleBit p d) reg := by
  induction n generalizing reg with
  | zero => rfl
  | succ n ih => rw [crcBits, ih, crcBit_eq_ruleBit, List.range_succ, List.reverse_append]; rfl

theorem crcSymbol_eq_ruleSymbol (p : CrcParams) (bits reg d : Nat) : crcSymbol p bits reg d = ruleSymbol p bits reg d := by
  rw [crcSymbol, crcBits_eq_foldl, reverseBits_eq_mirror]
  rfl

theorem crcFinal_eq (p : CrcParams) (reg : Nat) : crcFinal p reg = (if p.refOut then mirror p.w reg else reg) ^^^ (p.x % 2 ^ p.w) := by
  rw [crcFinal, reverseBits_eq_mirror]
  rfl

/-- The model's check value is the rule's result (R353). -/
theorem crcOf_eq_ruleResult (p : CrcParams) (bits : Nat) (l : List Nat) : crcOf p bits l = ruleResult p bits l := by
  have hsymbol : (fun reg d => crcSymbol p bits reg d) = ruleSymbol p bits := funext₂ (crcSymbol_eq_ruleSymbol p bits)
  simp only [crcOf, crcFinal_eq, crcRun, hsymbol, ruleResult, Nat.and_two_pow_sub_one_eq_mod]

/-- The rule's result rests on G, I and X modulo 2^W alone. -/
theorem ruleResult_congr {p q : CrcParams} (bits : Nat) (l : List Nat) (hw : p.w = q.w) (hin : p.refIn = q.refIn)
    (hout : p.refOut = q.refOut) (hg : p.g % 2 ^ q.w = q.g % 2 ^ q.w) (hi : p.i % 2 ^ q.w = q.i % 2 ^ q.w)
    (hx : p.x % 2 ^ q.w = q.x % 2 ^ q.w) : ruleResult p bits l = ruleResult q bits l := by
  have hbit (d : Nat) : ruleBit p d = ruleBit q d := by
    funext reg i
    simp only [ruleBit, Nat.and_two_pow_sub_one_eq_mod, hw, hg]
  have hsymbol : ruleSymbol p bits = ruleSymbol q bits := by
    funext reg d
    rw [ruleSymbol, ruleSymbol, hin, hbit]
  simp only [ruleResult, Nat.and_two_pow_sub_one_eq_mod, hw, hi, hx, hout, hsymbol]

/-- A span fed from the initial value latches the rule's result (R355). -/
theorem endSpan_feedUnit_result {x : CvUnit} (l : List Nat) (hrun : x.run = x.init % 2 ^ x.width) :
    (endSpan (feedUnit l x)).result = ruleResult (unitParams x) (symbolBits x.tapKind) l := by
  have hlatch : (endSpan (feedUnit l x)).result = crcFinal (unitParams x) (crcRun (unitParams x) (symbolBits x.tapKind) x.run l) := rfl
  rw [hlatch, hrun, ← crcOf_eq_ruleResult]
  rfl

/-- Settles O49: the model's loop is the rule's, turn by turn, and the rule masks G, I and X. -/
theorem checkValueOfASpan : Obligations.CheckValueOfASpan := by
  unfold Obligations.CheckValueOfASpan
  refine ⟨?rule, ?ignored, ?empty, ?unit⟩
  case rule => exact fun p bits l _ _ => crcOf_eq_ruleResult p bits l
  case ignored =>
    intro p bits g i x l _ _ hg hi hx
    rw [crcOf_eq_ruleResult, crcOf_eq_ruleResult]
    exact ruleResult_congr bits l rfl rfl rfl hg hi hx
  case empty => exact fun p bits _ _ => crcFinal_eq p (p.i % 2 ^ p.w)
  case unit => exact fun x l _ _ hrun => ⟨endSpan_feedUnit_result l hrun, rfl⟩

/-! ### Presets (R354) -/

/-- A record that names a preset has the preset's parameters, whatever its custom fields hold (R354). -/
theorem recordParams_preset {b : Bytes} {n : Nat} (hpreset : clamp 0 5 (u8 b 2) = n) (hn : n ≠ 0) : recordParams b = crcPreset n := by
  simp only [recordParams, hpreset, hn, if_false]

/-- Settles O48: a record with a preset has the row's parameters, and the check column evaluates. -/
theorem checkValuePresets : Obligations.CheckValuePresets := by
  unfold Obligations.CheckValuePresets
  refine ⟨?one, ?two, ?three, ?four, ?five, ?sdi, ?others, ?check1, ?check2, ?check4, ?check5⟩
  case one | two | three | four | five => exact fun b hpreset => recordParams_preset hpreset (by decide)
  case sdi => rfl
  case others => exact fun kind hkind => if_neg hkind
  case check1 | check2 | check4 | check5 => decide +kernel

end Sys2Proof.Proofs
end

section
/-! HBM: the frames of refresh, self-refresh and scrubbing, the events of the controllers, and what a buffer write leaves. -/

namespace Sys2Proof.Proofs

open Sys2Proof Sys2Proof.Machine Sys2Proof.Safety

/-! ### Outcomes that write nothing (R300, R308) -/

/-- An outcome that, where it is a next state, leaves every byte of HBM as it was. -/
def KeepsMem (s : State) (o : Outcome) : Prop := ∀ u, o = .next u → u.drm.mem = s.drm.mem

section KeepsMem

variable {s t : State} {a b : Outcome}

theorem KeepsMem.next (h : t.drm.mem = s.drm.mem) : KeepsMem s (.next t) := by
  rintro _ ⟨⟩
  exact h

theorem KeepsMem.done (h : t.drm.mem = s.drm.mem) : KeepsMem s (done t) := KeepsMem.next ((settle_mem t).trans h)

theorem KeepsMem.fault (r : Fault) : KeepsMem s (.fault r) := fun _ h => nomatch h

theorem KeepsMem.ite {c : Prop} [Decidable c] (h : KeepsMem s a) (k : KeepsMem s b) : KeepsMem s (if c then a else b) := by
  split
  · exact h
  · exact k

end KeepsMem

@[simp] theorem setPc_mem (s : State) (p : Nat) (f : Pc → Pc) : (setPc s p f).drm.mem = s.drm.mem := rfl
@[simp] theorem setStack_mem (s : State) (k : Nat) (f : Stack → Stack) : (setStack s k f).drm.mem = s.drm.mem := rfl
@[simp] theorem raise_mem (source inst : Nat) (s : State) : (raise source inst s).drm.mem = s.drm.mem := (raise_still source inst s).mem
@[simp] theorem refresh_mem (p : Nat) (s : State) : (refresh p s).drm.mem = s.drm.mem := rfl

@[simp] theorem atRefresh_mem (p : Nat) (s : State) : (atRefresh p s).drm.mem = s.drm.mem := by simp [atRefresh]
@[simp] theorem atPatrol_mem (s : State) : (atPatrol s).drm.mem = s.drm.mem := by simp [atPatrol]
@[simp] theorem patrolOne_mem (s : State) : (patrolOne s).drm.mem = s.drm.mem := by rw [patrolOne]

@[simp] theorem noteLate_mem (p : Nat) (l : List HbmWait) (s : State) : (noteLate p l s).drm.mem = s.drm.mem := by
  have hcounted (m : List (Nat × Nat)) (x : State) : (m.foldl (fun s w => countLevel3 w.1 s) x).drm.mem = x.drm.mem := by
    induction m generalizing x with
    | nil => rfl
    | cons w m ih => exact ih (countLevel3 w.1 x)
  exact hcounted _ s

@[simp] theorem correctOne_mem (p : Nat) (s : State) : (correctOne p s).drm.mem = s.drm.mem := by
  unfold correctOne
  dsimp only
  split <;> simp

/-- The failing stage of a client is none of HBM's (R308). -/
@[simp] theorem poisonStage_mem (c : HbmClient) (s : State) : (poisonStage c s).drm.mem = s.drm.mem := by
  cases c with
  | encode e => exact (setEngine_still s e _).mem
  | analyser a => exact (breakAnalysis_still a s).mem
  | compositor n => exact (breakComposition_still n s).mem
  | box b => exact (Still.ite (dropCoreItem_still b s) (Still.refl s)).mem
  | _ => rfl

theorem poisonedRead_keepsMem (a : Nat) (c : HbmClient) (s : State) : KeepsMem s (exec (.poisonedRead a c) s) :=
  .ite (.fault _) (.ite (.done (by simp)) (.next rfl))

theorem scrubAccess_keepsMem (p : Nat) (corrected : Bool) (s : State) : KeepsMem s (exec (.scrubAccess p corrected) s) :=
  .ite (.ite (.done (by simp)) (.next (by simp))) (.next rfl)

theorem remapCopyDone_keepsMem (s : State) : KeepsMem s (exec .remapCopyDone s) := .ite (.next rfl) (.next rfl)

theorem refreshDue_keepsMem (p : Nat) (l : List HbmWait) (s : State) : KeepsMem s (exec (.refreshDue p l) s) :=
  .ite (.ite (.ite (.next (by simp)) (.done (by simp))) (.next (by simp))) (.next rfl)

theorem postponedRefreshIssue_keepsMem (p : Nat) (s : State) : KeepsMem s (exec (.postponedRefreshIssue p) s) :=
  .ite (.next rfl) (.next rfl)

theorem selfRefreshEntry_keepsMem (k : Nat) (s : State) : KeepsMem s (exec (.selfRefreshEntry k) s) := by
  refine .ite ?_ (.next rfl)
  split
  case h_1 => exact .ite (.next rfl) (.next rfl)
  case h_2 => exact .ite (.next (by simp)) (.next rfl)
  case h_3 => exact .next rfl

/-! ### Buffer writes (R306, R441) -/

/-- Requests that reach their stacks change the memory's part alone, and no byte of it. -/
theorem requestsOn_frame (q : Nat) (l : List Nat) (s : State) :
    ∃ d, l.foldl (fun s b => requestOn q b s) s = { s with drm := d } ∧ d.mem = s.drm.mem := by
  induction l generalizing s with
  | nil => exact ⟨s.drm, rfl, rfl⟩
  | cons b l ih =>
    obtain ⟨d, hd⟩ := requestOn_frame q b s
    obtain ⟨e, he, hmem⟩ := ih (requestOn q b s)
    exact ⟨e, by rw [List.foldl_cons, he, hd], hmem.trans (requestOn_mem q b s)⟩

section Write

variable {w : HeldWrite} {s u : State}

/-- A write whose stacks are awake is made at once, or answered WRONG_MODE where the mode allows none. -/
theorem writeBuffer_awake (hawake : stacksAwake s w.addr w.data.length = true)
    (hu : u = (blocksOf w.addr w.data.length).foldl (fun s b => requestOn 46 b s) s) :
    writeBuffer w s = if writeLegal s.mode.mode = true then
        replyTo w.req 0x0D32 .ok w.clamped (le 4 w.data.length) (hbmWrite w.addr w.data u)
      else replyTo w.req 0x0D32 .wrongMode false [] u := by
  obtain ⟨d, hframe, -⟩ := requestsOn_frame 46 (blocksOf w.addr w.data.length) s
  have hmode : u.mode.mode = s.mode.mode := by rw [hu, hframe]
  simp only [writeBuffer, hawake, if_true, ← hu, finishWrite, hmode]

/-- A write that meets self-refresh is held (log entry 38). -/
theorem writeBuffer_held (hasleep : stacksAwake s w.addr w.data.length = false)
    (hu : u = (blocksOf w.addr w.data.length).foldl (fun s b => requestOn 46 b s) s) :
    writeBuffer w s = { u with hst := { u.hst with heldWrites := u.hst.heldWrites ++ [w] } } := by
  simp only [writeBuffer, hasleep, Bool.false_eq_true, if_false, ← hu]

theorem writeBuffer_held_mem (hasleep : stacksAwake s w.addr w.data.length = false) :
    (writeBuffer w s).drm.mem = s.drm.mem := by
  obtain ⟨d, hframe, hmem⟩ := requestsOn_frame 46 (blocksOf w.addr w.data.length) s
  rw [writeBuffer_held hasleep rfl, hframe]
  exact hmem

/-- Bytes written inside the client address space: HBM holds each at its address, and every other byte as before (R300). -/
theorem hbmByte_hbmWrite {a : Nat} {b : Bytes} (hend : a + b.length ≤ hbmEnd) (s : State) (k : Nat) :
    hbmByte (hbmWrite a b s) k = if a ≤ k ∧ k < a + b.length then b[k - a]? else hbmByte s k := by
  have hwhole : b.take (hbmEnd - a) = b := List.take_of_length_le (by omega)
  have hwritten : hbmByte (hbmWrite a b s) k = cellGet (cellWrite none s.drm.mem a (b.take (hbmEnd - a))) k := rfl
  rw [hwritten, hwhole, cellGet_write]
  rfl

/-- A write made at once leaves HBM as it says (R441). -/
theorem hbmByte_writeBuffer (hawake : stacksAwake s w.addr w.data.length = true) (hlegal : writeLegal s.mode.mode = true)
    (hend : w.addr + w.data.length ≤ hbmEnd) (k : Nat) : hbmByte (writeBuffer w s) k =
      if w.addr ≤ k ∧ k < w.addr + w.data.length then w.data[k - w.addr]? else hbmByte s k := by
  obtain ⟨d, hframe, hmem⟩ := requestsOn_frame 46 (blocksOf w.addr w.data.length) s
  have hbefore : hbmByte ({ s with drm := d } : State) k = hbmByte s k := by simp only [hbmByte, hmem]
  rw [writeBuffer_awake hawake rfl, if_pos hlegal, hframe, ← hbefore, ← hbmByte_hbmWrite hend]
  exact congrArg (cellGet · k) (replyTo_still w.req 0x0D32 .ok w.clamped (le 4 w.data.length) _).mem

end Write

/-- Byte i of n bytes taken from an offset on. -/
theorem bytesAt_getElem? {n i : Nat} (b : Bytes) (o : Nat) (h : i < n) : (bytesAt b o n)[i]? = some (b.getD (o + i) 0) := by
  simp [bytesAt, h]

@[simp] theorem bytesAt_length (b : Bytes) (o n : Nat) : (bytesAt b o n).length = n := by simp [bytesAt]

/-- HST_BUF_WRITE inline, accepted, over a range in a slot of the caller: the write of its data (R441; log entry 80). -/
theorem exec_hstBufWriteInline {r : Req} {p n : Nat} {s t : State} (haccepted : Accepted false bufLegal r p s)
    (ht : t = slotTaken r p s) (hn : n = min (u32 (payloadOf r) 8) (min 4064 ((payloadOf r).length - 16)))
    (hslot : inSlot t p (u64 (payloadOf r) 0) n = true) :
    exec (.hstBufWriteInline r) s = .next (settle (writeBuffer
      { req := r, addr := u64 (payloadOf r) 0, data := bytesAt (payloadOf r) 16 n
        clamped := n != u32 (payloadOf r) 8 || lenClamped r } t)) := by
  subst ht hn
  exact exec_accepted rfl haccepted (if_neg (by simp [hslot]))

/-- Settles O52: an inline write is a write to HBM, and the other commands write nothing. -/
theorem hostWritesLandInHbm : Obligations.HostWritesLandInHbm := by
  unfold Obligations.HostWritesLandInHbm
  refine ⟨?writes, ?others⟩
  case writes =>
    intro r p s t n haccepted ht hn hslot hend
    have hexec := exec_hstBufWriteInline haccepted ht hn hslot
    have hlen : (bytesAt (payloadOf r) 16 n).length = n := bytesAt_length _ _ _
    have hsettled (v : State) (a : Nat) : hbmByte (settle v) a = hbmByte v a := by simp only [hbmByte, settle_mem]
    refine ⟨fun hawake => ⟨_, hexec, fun a => ?_⟩, fun hasleep => ⟨_, hexec, fun a => ?_⟩⟩
    · have hlegal : writeLegal t.mode.mode = true := by
        obtain ⟨-, -, -, -, hlegal⟩ := haccepted
        rw [ht]
        exact hlegal
      rw [hsettled, hbmByte_writeBuffer (by rw [hlen]; exact hawake) hlegal (by rw [hlen]; exact hend), hlen]
      split
      case isTrue hin => exact bytesAt_getElem? _ _ (by omega)
      case isFalse => rw [ht]; rfl
    · rw [hsettled, hbmByte, writeBuffer_held_mem (by rw [hlen]; exact hasleep), ht]
      rfl
  case others =>
    intro s u a b q k h c w hnext
    have hmem : u.drm.mem = s.drm.mem := by
      rcases hnext with hnext | hnext | hnext | hnext | hnext | hnext
      · exact poisonedRead_keepsMem b h s u hnext
      · exact scrubAccess_keepsMem q c s u hnext
      · exact remapCopyDone_keepsMem s u hnext
      · exact refreshDue_keepsMem q w s u hnext
      · exact selfRefreshEntry_keepsMem k s u hnext
      · exact postponedRefreshIssue_keepsMem q s u hnext
    simp only [hbmByte, hmem]

/-! ### Refresh, temperature and self-refresh (R302 to R306) -/

/-- A pseudo-channel changed reads back changed. -/
@[simp] theorem pcOf_setPc (s : State) (p : Nat) (f : Pc → Pc) : pcOf (setPc s p f) p = f (pcOf s p) := by simp [pcOf, setPc]

/-- A stack changed reads back changed. -/
@[simp] theorem stack_setStack (s : State) (k : Nat) (f : Stack → Stack) : stack (setStack s k f) k = f (stack s k) := by
  simp [stack, setStack]

@[simp] theorem pcOf_noEarlier (s : State) (t p : Nat) : pcOf (noEarlier t s) p = pcOf s p := by simp [pcOf]
@[simp] theorem stack_noEarlier (s : State) (t k : Nat) : stack (noEarlier t s) k = stack s k := by simp [stack]

@[simp] theorem pcOf_atRefresh_owed (p : Nat) (s : State) : (pcOf (atRefresh p s) p).owed = (pcOf s p).owed := by simp [atRefresh]
@[simp] theorem stack_atReading_band (k : Nat) (s : State) : (stack (atReading k s) k).band = (stack s k).band := by simp [atReading]

section Controllers

variable {s t u : State}

/-- A pseudo-channel that serves and whose stack is awake is refreshed by its controller. -/
theorem refreshes {p : Nat} (halive : alive s.mode.mode = true) (hserves : pcServes s p = true)
    (hawake : (stack s (p / 32)).sr = .awake) : (alive s.mode.mode && pcServes s p && (stack s (p / 32)).sr == .awake) = true := by
  simp [halive, hserves, hawake]

/-- A due refresh is issued where no request at urgency 3 waits, and postponed or issued with a report where one does (R303; log entry
71). -/
theorem execRefreshDue_serving {p : Nat} (l : List HbmWait) (halive : alive s.mode.mode = true) (hserves : pcServes s p = true)
    (hawake : (stack s (p / 32)).sr = .awake) (ht : t = noteLate p l (atRefresh p s)) :
    execRefreshDue p l s =
      if urgentWaits t l = true then
        if (pcOf t p).owed < 3 then .next (setPc { t with drm := { t.drm with refPostponed := bump32 t.drm.refPostponed } } p
          (fun x => { x with owed := x.owed + 1 }))
        else done (raise 0x06A p (refresh p t))
      else .next (refresh p t) := by
  subst ht
  exact if_pos (refreshes halive hserves hawake)

/-- A reading moves a stack's rate and band; a band that changes has each pseudo-channel of the stack rewritten (R302, R304, R305; log
entry 72). -/
theorem execStackTemperatureRead_moves {k b : Nat} {c t : Int} (halive : alive s.mode.mode = true) (hk : k < 4)
    (ht : t = toSigned 9 (ofSigned 9 c)) (hb : b = nextBand (stack s k).band t)
    (hu : u = setStack (atReading k s) k (fun x => { x with temp := t, rate := nextRate x.rate t, band := b })) :
    execStackTemperatureRead k c s = .next (if (b != (stack s k).band) = true then
        { u with drm := { u.drm with pcs := (List.range 32).foldl (fun l i =>
          tupd l (32 * k + i) {} (fun x => { x with rewrite := true })) u.drm.pcs } } else u) := by
  have hguard : (alive s.mode.mode && decide (k < 4)) = true := by simp [halive, hk]
  rw [← stack_atReading_band k s] at hb ⊢
  subst ht hb hu
  exact if_pos hguard

theorem execSelfRefreshEntry_quiescent {k : Nat} (hk : k < 4) (hmode : s.mode.mode = .quiescent) (hawake : (stack s k).sr = .awake) :
    execSelfRefreshEntry k s = .next (setStack (noEarlier (stack s k).idleFrom s) k (fun x => { x with sr := .entering })) := by
  simp only [execSelfRefreshEntry, hk, hmode, hawake, if_true]

theorem execSelfRefreshEntry_safeHold {k : Nat} (hk : k < 4) (hmode : s.mode.mode = .safeHold) (hawake : (stack s k).sr ≠ .asleep) :
    execSelfRefreshEntry k s = .next (setStack s k (fun x => { x with sr := .entering, waiting := [] })) := by
  simp only [execSelfRefreshEntry, hk, hmode, hawake, if_true, if_false]

/-! ### Requests that reach a stack (R301, R306) -/

/-- What a request does is decided by the state of its stack. -/
theorem requestOn_of_stack {q a k : Nat} {w : HbmRequest} (hk : k = stackAt s a) (hw : w = { port := q, at_ := s.mtb.t, addr := a })
    (hu : u = setStack s k (fun x => { x with idleFrom := s.mtb.t + s.drm.srIdleUs * usUnit }))
    (ht : t = setStack u k (fun x => { x with waiting := x.waiting ++ [w] })) :
    requestOn q a s = match (stack s k).sr with
      | .awake => leaveOpen w u
      | .asleep => beginExit k t
      | .exiting => t
      | .entering => { t with drm := { t.drm with srWaits := bump32 t.drm.srWaits } } := by
  have hsr : (stack u k).sr = (stack s k).sr := by rw [hu, stack_setStack]
  rw [← hsr]
  subst hk hw ht hu
  rfl

/-- A request that no client may make, or of a client that no port serves, is never issued (R10, R11, R300). -/
theorem execHbmRequestWake_refused {a : Nat} {c : HbmClient} (h : portOf c = none ∨ hbmEnd ≤ a ∨ mayAccess s c a = false) :
    execHbmRequestWake a c s = .next s := by
  rw [execHbmRequestWake]
  split
  case h_1 => rfl
  case h_2 q hport =>
    refine if_neg ?_
    rintro ⟨hend, hmay, -⟩
    rcases h with h | h | h
    · simp [h] at hport
    · omega
    · simp [h] at hmay

theorem execHbmRequestWake_issued {a q : Nat} {c : HbmClient} (hend : a < hbmEnd) (hmay : mayAccess s c a = true)
    (hport : portOf c = some q) (hawake : portAwake s.mode.mode q = true) : execHbmRequestWake a c s = .next (requestOn q a s) := by
  simp only [execHbmRequestWake, hport, hend, hmay, hawake, and_self, if_true]

/-! ### Errors and scrubbing (R308, R309) -/

theorem execPoisonedRead_counted {a : Nat} {c : HbmClient} (hend : a < hbmEnd) (hport : (portOf c).isSome = true)
    (hmay : mayAccess s c a = true) (halive : alive s.mode.mode = true) :
    execPoisonedRead a c s = done (poisonStage c (raise 0x069 (channelOf s a) { s with drm := { s.drm with
      poison := sadd s.drm.poison (a / 32), ueCount := bump32 s.drm.ueCount } })) := by
  have hguard : (alive s.mode.mode && (portOf c).isSome && mayAccess s c a) = true := by simp [halive, hport, hmay]
  rw [execPoisonedRead, if_neg (Nat.not_le.mpr hend), if_pos hguard]

/-- A client never reads a buffer of another plane (R10; log entry 148). -/
theorem execPoisonedRead_barred {a : Nat} {c : HbmClient} (hend : a < hbmEnd) (hmay : mayAccess s c a = false) :
    execPoisonedRead a c s = .next s := by
  have hguard : ¬ (alive s.mode.mode && (portOf c).isSome && mayAccess s c a) = true := by simp [hmay]
  rw [execPoisonedRead, if_neg (Nat.not_le.mpr hend), if_neg hguard]

theorem execScrubAccess_next {p : Nat} (corrected : Bool) (halive : alive s.mode.mode = true) (hp : p = patrolPc s)
    (hawake : (stack s (p / 32)).sr = .awake) :
    execScrubAccess p corrected s = if corrected = true then done (correctOne p (patrolOne (atPatrol s)))
      else .next (patrolOne (atPatrol s)) := by
  have hguard : (alive s.mode.mode && p == patrolPc s && (stack s (p / 32)).sr == .awake) = true := by simp [halive, ← hp, hawake]
  rw [execScrubAccess, if_pos hguard]

end Controllers

/-- Settles O28: each event meets the test of its command, so it takes the branch that the premises select. -/
theorem memoryEventsComplete : Obligations.MemoryEventsComplete := by
  unfold Obligations.MemoryEventsComplete
  refine ⟨?refresh, ?postponed, ?stays, ?moves, ?quiescent, ?safeHold, ?entered, ?issued, ?request, ?refused, ?exited, ?poisoned,
    ?barred, ?scrub, ?frames, ?copied, ?check⟩
  case refresh =>
    intro p l s t halive hserves hawake ht
    have hdue := execRefreshDue_serving l halive hserves hawake ht
    refine ⟨fun hcalm => hdue.trans (if_neg (Bool.eq_false_iff.mp hcalm)), fun hurgent howed => ?_, fun hurgent howed => ?_⟩
    · exact (hdue.trans (if_pos hurgent)).trans (if_pos howed)
    · exact (hdue.trans (if_pos hurgent)).trans (if_neg (Nat.not_lt.mpr howed))
  case postponed =>
    intro p s halive hserves hawake howed
    exact if_pos (by simp [halive, hserves, hawake, howed])
  case stays =>
    intro k c t s halive hk ht hband
    refine (execStackTemperatureRead_moves halive hk ht rfl rfl).trans ?_
    rw [hband, bne_self_eq_false, if_neg Bool.false_ne_true]
  case moves =>
    intro k c t s u halive hk ht hband hu
    exact (execStackTemperatureRead_moves halive hk ht rfl hu).trans (next_eq (if_pos (bne_iff_ne.mpr hband)))
  case quiescent => exact fun k s => execSelfRefreshEntry_quiescent
  case safeHold => exact fun k s => execSelfRefreshEntry_safeHold
  case entered => exact fun k s hk hentering => if_pos ⟨hk, hentering⟩
  case issued => exact fun a q c s => execHbmRequestWake_issued
  case request =>
    intro a q k s t u w hk hw hu ht
    have hstack := requestOn_of_stack hk hw hu ht
    refine ⟨fun h => ?_, fun h => ?_, fun h => ?_, fun h => ?_⟩ <;> rw [hstack, h]
  case refused => exact fun a c s => execHbmRequestWake_refused
  case exited =>
    rintro k s _ hk hexiting rfl
    exact if_pos ⟨hk, hexiting⟩
  case poisoned => exact fun a c s => execPoisonedRead_counted
  case barred => exact fun a c s => execPoisonedRead_barred
  case scrub =>
    intro p s halive hp hawake
    exact ⟨execScrubAccess_next false halive hp hawake, execScrubAccess_next true halive hp hawake⟩
  case frames => exact fun p s => ⟨pcOf_atRefresh_owed p s, atRefresh_mem p s, stack_atReading_band p s, atPatrol_mem s⟩
  case copied => exact fun s hactive => if_pos hactive
  case check => exact fun failing s hmode hopen => if_pos ⟨hmode, hopen⟩

end Sys2Proof.Proofs
end

section
/-! Clocks and power: the supplies and rails, their faults, the stability counts, the reset pin and PMBus. -/

namespace Sys2Proof.Proofs

open Sys2Proof Sys2Proof.Machine Sys2Proof.Safety

section Power

variable {s t : State}

/-! ### Input supplies (R13, R376) -/

/-- Whether a good supply starts the debounce (R376). -/
def debounces (s : State) : Bool := inputsGood s && !s.pins.resetLow && s.pwr.railsUp == 0 && !s.pwr.railRising && !s.pwr.retryWait

/-- The debounce is all that a good supply may start. -/
theorem startDebounce_eq (s : State) :
    startDebounce s = { s with pwr := { s.pwr with debounce := debounces s || s.pwr.debounce } } := by
  by_cases h : debounces s = true
  · rw [h, Bool.true_or]
    exact if_pos h
  · rw [Bool.not_eq_true] at h
    rw [h, Bool.false_or]
    exact if_neg (Bool.eq_false_iff.mp h)

/-- The inputs are good where the supply put is good and the others were. -/
theorem inputsGood_setSupply {i : Nat} (hothers : ∀ k, k < 3 → k ≠ i → tgetD s.pwr.supplyGood k false = true) :
    inputsGood (setSupply i true s) = true := by
  rw [inputsGood, List.all_eq_true]
  intro k hk
  have hget : tgetD (setSupply i true s).pwr.supplyGood k false = if i = k then true else tgetD s.pwr.supplyGood k false :=
    tgetD_tset s.pwr.supplyGood i k true false
  rw [hget]
  split
  case isTrue => rfl
  case isFalse hne => exact hothers k (List.mem_range.mp hk) (Ne.symm hne)

/-- The row of Table 3 that leaves Hold (R13). -/
def ReadyToBoot (s : State) : Prop :=
  s.mode.mode = .hold ∧ inputsGood s = true ∧ (source s 2).ready = true ∧ (source s 0).ready = true ∧
    (source s 4).ready = true ∧ s.pins.resetLow = false

theorem tryBoot_ready (h : ReadyToBoot s) : tryBoot s = done (enterBoot s) := if_pos h

theorem tryBoot_waits (h : ¬ ReadyToBoot s) : tryBoot s = .next s := if_neg h

theorem execInputSupplyGood_hold {i : Nat} (hmode : s.mode.mode = .hold) (hi : i < 3) :
    execInputSupplyGood i s = tryBoot (startDebounce (setSupply i true s)) := if_pos ⟨hmode, hi⟩

/-- With a source that is not stable, a good supply starts the debounce at most (R13, R376). -/
theorem execInputSupplyGood_waits {i : Nat} (hmode : s.mode.mode = .hold) (hi : i < 3)
    (hsource : ∃ k ∈ [0, 2, 4], (source s k).ready = false) : execInputSupplyGood i s = .next { s with pwr := { s.pwr with
      supplyGood := tset s.pwr.supplyGood i true, debounce := debounces (setSupply i true s) || s.pwr.debounce } } := by
  rw [execInputSupplyGood_hold hmode hi, startDebounce_eq]
  refine tryBoot_waits ?_
  rintro ⟨-, -, h2, h0, h4, -⟩
  obtain ⟨k, hk, hnot⟩ := hsource
  have hready : ∀ k ∈ [0, 2, 4], (source s k).ready = true := by
    simp only [List.forall_mem_cons]
    exact ⟨h0, h2, h4, by simp⟩
  simp [hready k hk] at hnot

/-- Everything that Boot asks for, found when the last supply is good (R13). -/
theorem execInputSupplyGood_boots {i : Nat} (hmode : s.mode.mode = .hold) (hi : i < 3)
    (hothers : ∀ k, k < 3 → k ≠ i → tgetD s.pwr.supplyGood k false = true) (hsources : ∀ k ∈ [0, 2, 4], (source s k).ready = true)
    (hreset : s.pins.resetLow = false) (hrails : s.pwr.railsUp = 7) :
    execInputSupplyGood i s = done (enterBoot (setSupply i true s)) := by
  have hup : (setSupply i true s).pwr.railsUp = 7 := hrails
  have hstill : startDebounce (setSupply i true s) = setSupply i true s := by simp [startDebounce, hup]
  rw [execInputSupplyGood_hold hmode hi, hstill]
  exact tryBoot_ready ⟨hmode, inputsGood_setSupply hothers, hsources 2 (by decide), hsources 0 (by decide), hsources 4 (by decide),
    hreset⟩

/-! ### Rails (R376, R393) -/

theorem execRailWithinLimits_counts (hrising : s.pwr.railRising = true) (hup : s.pwr.railsUp < 6) :
    execRailWithinLimits s = .next { s with pwr := { s.pwr with railsUp := s.pwr.railsUp + 1 } } := by
  rw [execRailWithinLimits, if_pos hrising, if_pos (by omega)]

/-- The seventh rail enables the oscillators and the analog supplies (R376). -/
theorem execRailWithinLimits_last (hrising : s.pwr.railRising = true) (hup : s.pwr.railsUp = 6) (hreset : s.pins.resetLow = false) :
    execRailWithinLimits s = .next { s with
      clk := startOscillators s.clk
      pwr := { s.pwr with railsUp := 7, railRising := false, railBad := []
                          supplyGood := tset (tset (tset s.pwr.supplyGood 3 true) 4 true) 5 true } } := by
  rw [execRailWithinLimits, if_pos hrising, if_neg (by omega)]
  exact next_eq (if_neg (Bool.eq_false_iff.mp hreset))

/-- A failed sequence is logged by the supervisor (R393; log entry 2 for its details). -/
theorem execRailSequenceFail_logs (hrising : s.pwr.railRising = true) : execRailSequenceFail s = .next { s with
    pwr := { s.pwr with railsUp := 0, railRising := false, retryWait := true }
    flt := { s.flt with supLog := (({ source := 0xFFFF, mode := modeCode s.mode.mode, detail0 := Config.freeValue s.free % 2 ^ 32,
                                      detail1 := Config.freeValue (s.free + 1) % 2 ^ 32 } : LogEntry) :: s.flt.supLog).take 64 }
    free := s.free + 2 } := if_pos hrising

/-! ### Temperature (R380) -/

@[simp] theorem atSample_tj (s : State) : (atSample s).pwr.tj = s.pwr.tj := by simp [atSample]
@[simp] theorem atSample_alertW (s : State) : (atSample s).pwr.alertW = s.pwr.alertW := by simp [atSample]

/-- Time passes till the sample is due, and the next is due a millisecond on. -/
theorem atSample_frame (s : State) : ∃ m, atSample s = { s with mtb := m, pwr := { s.pwr with sampleAt := m.t + msUnit } } := by
  obtain ⟨m, hm⟩ := noEarlier_frame s s.pwr.sampleAt
  exact ⟨m, by rw [atSample, hm]⟩

/-- Without a set alert a sample is judged by its hottest reading alone (R380). -/
theorem execTjSample_judged (env : PowerSample) (halert : s.pwr.alertW = 0) : execTjSample env s = done (
    let u := takeSample env (atSample s)
    let v := if 125 < hottest s.pwr.tj env.sensors then raise 0x089 0 u else u
    if 135 ≤ hottest s.pwr.tj env.sensors then raise 0x08A 0 v else v) := by
  have hcalm (source : Nat) {c : Prop} [Decidable c] (x : State) (hx : x.pwr.alertW = 0) :
      (if c then raise source 0 x else x).pwr.alertW = 0 := by
    split
    · exact hx
    · exact hx
  have hstart : (takeSample env (atSample s)).pwr.alertW = 0 := (atSample_alertW s).trans halert
  simp only [execTjSample, atSample_tj]
  rw [if_neg (fun h => h.1 (hcalm _ _ (hcalm _ _ hstart)))]

end Power

/-- Settles O1: each event meets the test of its command, so it takes the branch that the premises select. -/
theorem inputSuppliesAndRails : Obligations.InputSuppliesAndRails := by
  unfold Obligations.InputSuppliesAndRails
  refine ⟨?good, ?boots, ?bad, ?debounced, ?counts, ?last, ?fails, ?retries, ?removed⟩
  case good =>
    intro s i hmode hi hsource
    refine ⟨_, execInputSupplyGood_waits hmode hi hsource, ?_, fun hreset => ?_⟩
    · rintro ⟨hup, hrising, hwait, hreset, hothers⟩
      have hdebounces : debounces (setSupply i true s) = true := by
        rw [debounces, inputsGood_setSupply hothers]
        simp [setSupply, hup, hrising, hwait, hreset]
      rw [hdebounces, Bool.true_or]
    · have hdebounces : debounces (setSupply i true s) = false := by simp [debounces, setSupply, hreset]
      rw [hdebounces, Bool.false_or]
  case boots => exact fun s i hmode hi hothers hsources hreset hrails => execInputSupplyGood_boots hmode hi hothers hsources hreset hrails
  case bad => exact fun s i hmode hi => if_pos ⟨hmode, hi⟩
  case debounced => exact fun s hwait hgood hreset => if_pos (by simp [hwait, hgood, hreset])
  case counts => exact fun s => execRailWithinLimits_counts
  case last => exact fun s => execRailWithinLimits_last
  case fails => exact fun s hrising => ⟨_, execRailSequenceFail_logs hrising, rfl, rfl⟩
  case retries => exact fun s hwait hgood hreset => if_pos (by simp [hwait, hgood, hreset])
  case removed => exact fun s => ⟨_, rfl, rfl, rfl, rfl, rfl, rfl, rfl⟩

/-- Settles O2: each event meets the test of its command, and a sample is judged by its hottest reading. -/
theorem supplyAndTemperatureFaults : Obligations.SupplyAndTemperatureFaults := by
  unfold Obligations.SupplyAndTemperatureFaults
  refine ⟨?lost, ?returned, ?overcurrent, ?coreRail, ?hbmRail, ?cool, ?hot, ?due, ?sample⟩
  case lost => exact fun s i halive hi hgood => if_pos (by simp [halive, hi, hgood])
  case returned => exact fun s i hlost => if_pos hlost
  case overcurrent => exact fun s halive => if_pos halive
  case coreRail => exact fun s rail halive hrail => if_pos (by simp [halive, hrail])
  case hbmRail =>
    intro s k halive hk
    refine ⟨3 + Config.freeValue s.free % 2, by omega, if_pos (by simp [halive, hk])⟩
  case cool =>
    intro s env halert hcool
    rw [exec, execTjSample_judged env halert, if_neg (by omega), if_neg (by omega)]
    rfl
  case hot =>
    intro s env halert hhot
    rw [exec, execTjSample_judged env halert, if_pos hhot, if_pos (by omega)]
    rfl
  case due => exact atSample_frame
  case sample => exact fun s env => ⟨rfl, rfl, decide_eq_true_iff, rfl⟩

/-! ### Stability counts and the reset pin (R366, R373, R457) -/

/-- A source changed reads back changed. -/
@[simp] theorem source_setSource (i : Nat) (f : SourceSt → SourceSt) (s : State) : source (setSource i f s) i = f (source s i) := by
  simp [source, setSource]

theorem execSourceStable_passes {s t : State} {i ratio : Nat} (hcounts : (source s i).counting = true)
    (hpasses : countPasses i ratio = true)
    (ht : t = afterStable i (setSource i (fun x => { x with counting := false, ready := true, absent := false, ratio := ratio }) s)) :
    execSourceStable i ratio s = tryBoot t := by
  subst ht
  exact if_pos (Bool.and_eq_true_iff.mpr ⟨hcounts, hpasses⟩)

/-- FRC switched off after a failed start, counted and logged (R373, R393). -/
def frcStartFailed (s : State) : State :=
  let t := setSource 2 (fun x => { x with running := false, counting := false }) s
  supervisorEntry (Config.freeValue s.free) (Config.freeValue (s.free + 1)) { t with
    clk := { t.clk with frcFails := s.clk.frcFails + 1, losses := bump32 s.clk.losses }, free := s.free + 2 }

theorem execFrcStartFail_counted {s : State} (hmode : s.mode.mode = .hold) (hrun : (source s 2).running = true)
    (hready : (source s 2).ready = false) (hfew : s.clk.frcFails < 7) : execFrcStartFail s = .next (frcStartFailed s) := by
  have hnot : ¬ (frcStartFailed s).clk.frcFails = 8 := by
    have : (frcStartFailed s).clk.frcFails = s.clk.frcFails + 1 := rfl
    omega
  exact (if_pos ⟨hmode, hrun, hready⟩).trans (if_neg hnot)

theorem source_frcStartFailed (s : State) :
    source (frcStartFailed s) 2 = { source s 2 with running := false, counting := false } :=
  source_setSource 2 (fun x => { x with running := false, counting := false }) s

/-- Settles O3: each event meets the test of its command, so it takes the branch that the premises select. -/
theorem oscillatorsAndResetPin : Obligations.OscillatorsAndResetPin := by
  unfold Obligations.OscillatorsAndResetPin
  refine ⟨?locked, ?stable, ?failed, ?startFailed, ?restarted, ?falls, ?accepted, ?ignored, ?released⟩
  case locked =>
    intro s i hlow hhigh hrun hopen hready hreference
    exact if_pos (by simp [hlow, hhigh, hrun, hopen, hready, hreference])
  case stable =>
    intro s t i ratio hcounts hpasses ht
    have hexec := execSourceStable_passes hcounts hpasses ht
    exact ⟨fun hboot => hexec.trans (tryBoot_ready hboot), fun hwaits => hexec.trans (tryBoot_waits hwaits)⟩
  case failed =>
    intro s i ratio hfails
    exact if_neg (by simp [hfails])
  case startFailed =>
    intro s hmode hrun hready hfew
    have hsource := source_frcStartFailed s
    refine ⟨_, execFrcStartFail_counted hmode hrun hready hfew, rfl, ?_, ?_, rfl, rfl, ?_⟩
    · rw [hsource]
    · rw [hsource]
    · exact List.length_take ..
  case restarted => exact fun s hmode hstopped hrails => if_pos ⟨hmode, hstopped, hrails⟩
  case falls => exact fun s => rfl
  case accepted =>
    intro s hfilter hlow
    exact ⟨_, if_pos (by simp [hfilter, hlow]), rfl, rfl, hlow, rfl, rfl, rfl, rfl⟩
  case ignored => exact fun s v hlow hfilter => (if_pos hlow).trans (if_pos hfilter)
  case released =>
    intro s v hlow hfilter hrails
    exact ((if_pos hlow).trans (if_neg (Bool.eq_false_iff.mp hfilter))).trans (next_eq (if_pos hrails))

/-! ### PMBus (R378, R393) -/

/-- A read of the target while it answers: the word of the quantity (R378; log entry 8). -/
theorem pmbusRead_answers {s : State} (hanswers : pmbusAnswers s = true) (code quantity : Nat) :
    pmbusRead code quantity s = .next { s with pwr := { s.pwr with pmbReply := some (Config.pmbusWord code quantity) } } :=
  if_pos hanswers

/-- Settles O5: the target answers, and each read is the word of its code and quantity. -/
theorem pmbusTransactions : Obligations.PmbusTransactions := by
  unfold Obligations.PmbusTransactions
  refine ⟨?page, ?clear, ?reads, ?current, ?log, ?other⟩
  case page => exact fun s page hanswers hpage => if_pos (by simp [hanswers, hpage])
  case clear => exact fun s hanswers => if_pos hanswers
  case reads =>
    intro s hanswers
    have hread := pmbusRead_answers hanswers
    exact List.forall_iff_forall_mem.mp ⟨hread _ _, hread _ _, hread _ _, hread _ _, hread _ _, hread _ _, hread _ _, hread _ _, hread _ _⟩
  case current =>
    intro s hanswers
    exact ⟨_, pmbusRead_answers (s := (drawFree s).2) hanswers 0x8C _⟩
  case log =>
    intro s e hanswers hentry
    simp only [exec, execPmbusMfrFaultLogRead, hanswers, hentry, if_true]
  case other => exact fun s c => rfl

end Sys2Proof.Proofs
end

section
/-! The collector's order and its events, and the records that are discarded. -/

namespace Sys2Proof.Proofs

open Sys2Proof Sys2Proof.Machine Sys2Proof.Safety

/-! ### The order of one cycle's reports (R391) -/

/-- Whether one report is taken no later than another: by source, then by instance (R391). -/
def TakenBefore (a b : Report) : Prop := a.source < b.source ∨ (a.source = b.source ∧ a.inst ≤ b.inst)

theorem TakenBefore.trans {a b c : Report} (h : TakenBefore a b) (k : TakenBefore b c) : TakenBefore a c := by
  simp only [TakenBefore] at *
  omega

theorem insertReport_perm (r : Report) (l : List Report) : (insertReport r l).Perm (r :: l) := by
  induction l with
  | nil => exact List.Perm.refl _
  | cons x l ih =>
    rw [insertReport]
    split
    · exact List.Perm.refl _
    · exact (ih.cons x).trans (List.Perm.swap r x l)

/-- A report inserted keeps the order: it is put before the first report that comes after it. -/
theorem insertReport_sorted (r : Report) {l : List Report} (h : l.Pairwise TakenBefore) : (insertReport r l).Pairwise TakenBefore := by
  induction l with
  | nil => exact List.pairwise_singleton _ _
  | cons x l ih =>
    obtain ⟨hx, hl⟩ := List.pairwise_cons.mp h
    rw [insertReport]
    split
    case isTrue hbefore =>
      have hrx : TakenBefore r x := by
        simp only [TakenBefore]
        omega
      refine List.pairwise_cons.mpr ⟨fun y hy => ?_, h⟩
      rcases List.mem_cons.mp hy with rfl | hy
      · exact hrx
      · exact hrx.trans (hx y hy)
    case isFalse hafter =>
      have hxr : TakenBefore x r := by
        simp only [TakenBefore]
        omega
      refine List.pairwise_cons.mpr ⟨fun y hy => ?_, ih hl⟩
      rcases List.mem_cons.mp ((insertReport_perm r l).subset hy) with rfl | hy
      · exact hxr
      · exact hx y hy

/-- Reports inserted one after another into a sorted list: all of them, in order. -/
theorem foldl_insertReport (l acc : List Report) (h : acc.Pairwise TakenBefore) :
    (l.foldl (fun a r => insertReport r a) acc).Perm (l ++ acc) ∧
      (l.foldl (fun a r => insertReport r a) acc).Pairwise TakenBefore := by
  induction l generalizing acc with
  | nil => exact ⟨List.Perm.refl _, h⟩
  | cons r l ih =>
    obtain ⟨hperm, hsorted⟩ := ih (insertReport r acc) (insertReport_sorted r h)
    exact ⟨hperm.trans (((insertReport_perm r acc).append_left l).trans List.perm_middle), hsorted⟩

/-- One report taken by the collector beside the highest severity so far whose reaction is due (R391). -/
def takeReport (a : State × Nat) (r : Report) : State × Nat := ((collect false r a.1).1, max (collect false r a.1).2 a.2)

theorem collectAll_eq_foldl (l : List Report) (s : State) : collectAll l s = l.foldl takeReport (s, 0) := rfl

/-- The severity that is due before the reports joins that of the reports. -/
theorem foldl_takeReport_snd (l : List Report) (s : State) (v : Nat) : (l.foldl takeReport (s, v)).2 = max v (collectAll l s).2 := by
  induction l generalizing s v with
  | nil => exact (Nat.max_zero v).symm
  | cons r l ih =>
    have hcons (w : Nat) : (l.foldl takeReport (takeReport (s, w) r)).2 =
        max (max (collect false r s).2 w) (collectAll l (collect false r s).1).2 := ih _ _
    rw [collectAll_eq_foldl, List.foldl_cons, List.foldl_cons, hcons v, hcons 0]
    omega

/-- Settles O46: insertion keeps the order, and each report gives its severity to the highest. -/
theorem reportsInAscendingOrder : Obligations.ReportsInAscendingOrder := by
  unfold Obligations.ReportsInAscendingOrder
  refine ⟨fun l => ?order, fun a l s => ?highest⟩
  case order =>
    obtain ⟨hperm, hsorted⟩ := foldl_insertReport l [] List.Pairwise.nil
    rw [List.append_nil] at hperm
    exact ⟨hperm, hsorted⟩
  case highest =>
    have hfirst : takeReport (s, 0) a = ((collect false a s).1, (collect false a s).2) := by rw [takeReport, Nat.max_zero]
    rw [collectAll_eq_foldl, List.foldl_cons, hfirst, foldl_takeReport_snd]

/-! ### The collector's events (R385, R387, R390, R392) -/

section Path

variable {src d0 d1 a : Nat} {s t u v : State}

/-- A path that may be reported as failed: its source reports, and is supervised. -/
theorem pathMayFail (halive : alive s.mode.mode = true) (hsrc : src < 512) (hnamed : reservedSource src = false)
    (hsupervised : s.flt.unsupervised.contains src = false) :
    (alive s.mode.mode && decide (src < 512) && !reservedSource src && !s.flt.unsupervised.contains src) = true := by
  rw [halive, hnamed, hsupervised, decide_eq_true hsrc]
  rfl

/-- A path that fails is reported as FLT_PATH, and, where its source has a minimum severity, as the source too (R385). -/
theorem execFltPath_reported (halive : alive s.mode.mode = true) (hsrc : src < 512) (hnamed : reservedSource src = false)
    (hsupervised : s.flt.unsupervised.contains src = false) (hd0 : (d0, t) = drawFree s) (hd1 : (d1, u) = drawFree t)
    (hpath : (v, a) = collect true ⟨0x08C, src, d0 % 2 ^ 32, d1 % 2 ^ 32⟩ u) :
    execFltPath src s =
      let w := { v with flt := { v.flt with unsupervised := sadd v.flt.unsupervised src } }
      let x := if minimumSeverity src = 0 then (w, 0) else collect true ⟨src, 0, d1 % 2 ^ 32, d0 % 2 ^ 32⟩ w
      done (modeReaction (max a x.2) x.1) := by
  simp only [execFltPath, pathMayFail halive hsrc hnamed hsupervised, if_true, ← hd0, ← hd1, ← hpath]

end Path

/-- Settles O32: each event as its command has it, a failed path through its one or two reports. -/
theorem faultEventsComplete : Obligations.FaultEventsComplete := by
  unfold Obligations.FaultEventsComplete
  refine ⟨?report, ?pulse, ?resume, ?path, ?minimum, ?restore⟩
  case report => exact fun src inst d0 d1 s => rfl
  case pulse =>
    intro s e hpulse
    simp only [exec, execErrPulseEnd, hpulse]
  case resume => exact fun src inst s hretrying => if_pos hretrying
  case path =>
    intro src d0 d1 a s t u v halive hsrc hnamed hsupervised hd0 hd1 hpath hmin
    rw [exec, execFltPath_reported halive hsrc hnamed hsupervised hd0 hd1 hpath]
    simp only [hmin, if_true, Nat.max_zero, done]
  case minimum =>
    intro src d0 d1 a b s t u v w halive hsrc hnamed hsupervised hd0 hd1 hpath hmin hself
    rw [exec, execFltPath_reported halive hsrc hnamed hsupervised hd0 hd1 hpath]
    simp only [hmin, if_false, ← hself, done]
  case restore => exact fun src s => rfl

/-! ### Records discarded and ignored (R405, R406) -/

/-- A record shorter than its table, while records are taken: counted and reported, and otherwise without effect (R405, R423). -/
theorem exec_record_short {i : Instr} {type n : Nat} {b : Bytes} {body : State → State} {rule : Bytes → State → State} {s : State}
    (hexec : exec i s = recordCommand type b rule s) (hrule : rule b = sized n b body) (hopen : recordsOpen s = true)
    (hlen : b.length < n) : exec i s = .next (settle (raise 0x1C1 0 { joinImage type b s with sec :=
      { (joinImage type b s).sec with recShort := bump 16 s.sec.recShort } })) :=
  exec_recordCommand hexec hopen (by rw [hrule, sized_of_lt _ _ _ _ hlen]; rfl)

/-- Settles O12: each rule of a table of fixed least size begins with its test of the size. -/
theorem recordsDiscardedAndIgnored : Obligations.RecordsDiscardedAndIgnored := by
  unfold Obligations.RecordsDiscardedAndIgnored
  refine ⟨?padding, ?unknown, ?short⟩
  case padding => exact fun b s hopen => exec_recordCommand rfl hopen rfl
  case unknown =>
    intro type b s hopen
    exact exec_recordCommand (rule := fun _ => unknownRecord) rfl hopen (by rw [unknownRecord]; rfl)
  case short =>
    intro b s hopen
    refine List.forall_iff_forall_mem.mp ?_
    unfold shortRecords
    and_intros <;> exact exec_record_short rfl rfl hopen

end Sys2Proof.Proofs
end

section
/-! The mailbox: refusals by partition, owner and mode, the port information reply and the data requests. -/

namespace Sys2Proof.Proofs

open Sys2Proof Sys2Proof.Machine Sys2Proof.Safety

/-! ### The refusals of R436 -/

section Refusals

variable {o p : Nat} {ownerOnly : Bool} {legal : Mode → Bool} {r : Req} {body : Nat → State → State} {s : State}

/-- A request whose header names another partition than its transport's (step 2 of R436). -/
theorem takeRequest_notInPartition (hserves : deaf s.mode.mode = false) (hpart : partOf s r.transport = some p)
    (hnamed : r.hdrPartition ≠ p) :
    takeRequest o ownerOnly legal r body s = reply p r o .notInPartition false [] (slotTaken r p s) := by
  simp only [takeRequest, hserves, hpart, hnamed, ne_eq, not_false_eq_true, Bool.false_eq_true, if_false, if_true, slotTaken]

/-- A request that its partition may make, in a mode that does not allow its opcode (step 5 of R436). -/
theorem takeRequest_illegal (hserves : deaf s.mode.mode = false) (hpart : partOf s r.transport = some p) (hnamed : r.hdrPartition = p)
    (howner : ownerOnly = true → p = 0) (hlegal : legal s.mode.mode = false) :
    takeRequest o ownerOnly legal r body s = reply p r o .wrongMode false [] (slotTaken r p s) := by
  have hmay : (ownerOnly && p != 0) = false := by
    cases ownerOnly
    · rfl
    · simp [howner rfl]
  simp only [takeRequest, hserves, hpart, hnamed, hmay, hlegal, slotTaken, setPart_mode, ne_eq, not_true_eq_false,
    Bool.false_eq_true, if_false, if_true]

/-- In a mode in which the responder is deaf, or over a transport that binds no partition, a request is taken by nobody (R439). -/
theorem takeRequest_unheard (h : deaf s.mode.mode = true ∨ partOf s r.transport = none) :
    takeRequest o ownerOnly legal r body s = s := by
  rcases h with hdeaf | hunbound
  · exact if_pos hdeaf
  · simp only [takeRequest, hunbound, ite_self]

end Refusals

theorem deaf_of_not_mem_everyMode {m : Mode} (h : m ∉ everyMode) : deaf m = true := by
  revert h; cases m <;> decide

/-- A command takes its request by the row of Table 6: its opcode, whose it is, and, of the modes served, those in which it is
legal (R436, R439). -/
def TakesByRow (i : Instr) (w : MailRow) : Prop :=
  ∃ (legal : Mode → Bool) (body : Nat → State → State),
    (∀ s, exec i s = done (takeRequest w.opcode w.ownerOnly legal w.req body s)) ∧
    ∀ m ∈ everyMode, legal m = true ↔ m ∈ w.legal

theorem TakesByRow.of_exec {i : Instr} {o : Nat} {ownerOnly : Bool} {legal : Mode → Bool} {modes : List Mode} {r : Req}
    {body : Nat → State → State} (hexec : ∀ s, exec i s = done (takeRequest o ownerOnly legal r body s))
    (hlegal : ∀ m ∈ everyMode, legal m = true ↔ m ∈ modes) : TakesByRow i ⟨o, ownerOnly, modes, r⟩ :=
  ⟨legal, body, hexec, hlegal⟩

/-- Every mailbox command takes its request by its row of Table 6. -/
theorem takesByRow_of_mailRow {i : Instr} {w : MailRow} (h : mailRow i = some w) : TakesByRow i w := by
  unfold mailRow at h
  split at h
  case h_46 => cases h
  all_goals
    obtain rfl := Option.some.inj h
    exact .of_exec (fun s => rfl) (by decide)

/-- Settles O55: the command takes its request by its row, and the request fails the check that the premises select. -/
theorem mailboxRefusals : Obligations.MailboxRefusals := by
  unfold Obligations.MailboxRefusals
  intro i w s hrow hquiet
  obtain ⟨legal, body, hexec, hlegal⟩ := takesByRow_of_mailRow hrow
  refine ⟨?partition, ?owner, ?mode, ?unheard⟩
  case partition =>
    rintro p _ hmode hpart hnamed rfl
    exact exec_answered ((hexec s).trans (congrArg done (takeRequest_notInPartition (deaf_of_mem_everyMode hmode) hpart hnamed))) hquiet
  case owner =>
    rintro p _ hmode hpart hnamed howner hp rfl
    rw [howner] at hexec
    exact exec_answered ((hexec s).trans (congrArg done (takeRequest_notOwner (deaf_of_mem_everyMode hmode) hpart hnamed hp))) hquiet
  case mode =>
    rintro p _ hmode hpart hnamed howner hnot rfl
    have hillegal : legal s.mode.mode = false := Bool.eq_false_iff.mpr fun h => hnot ((hlegal _ hmode).mp h)
    exact exec_answered ((hexec s).trans (congrArg done
      (takeRequest_illegal (deaf_of_mem_everyMode hmode) hpart hnamed howner hillegal))) hquiet
  case unheard =>
    intro h
    rw [hexec s, takeRequest_unheard (h.imp_left deaf_of_not_mem_everyMode), done_quiet s hquiet]

/-! ### The information request of a port (R335, R336) -/

theorem clamp_zero (hi v : Nat) : clamp 0 hi v = min hi v := by
  simp only [clamp, Nat.not_lt_zero, if_false]
  split <;> omega

/-- The port that a payload names, its kind and number clamped (R336). -/
theorem portNamed_eq {r : Req} {kind most port : Nat} (hkind : kind = min 1 (u8 (payloadOf r) 0))
    (hmost : most = if kind = 0 then 15 else 5) (hport : port = min most (u8 (payloadOf r) 1)) :
    portNamed r =
      (kind, port, decide (1 < u8 (payloadOf r) 0) || decide (most < u8 (payloadOf r) 1) || lenClamped r) := by
  simp only [portNamed, clamp_zero, ← hkind, ← hmost, ← hport]

/-- Settles O54: the request is answered at once, and its reply lays out the words of the port named. -/
theorem portInfoReply : Obligations.PortInfoReply := by
  unfold Obligations.PortInfoReply
  refine ⟨?owner, ?other, ?mode⟩
  case owner =>
    rintro r s _ _ kind port most hmode hpart hnamed hquiet rfl hkind hmost hport rfl
    have haccepted : Accepted true infoLegal r 0 s :=
      ⟨deaf_of_mem_everyMode (infoModes_subset_everyMode hmode), hpart, hnamed, fun _ => rfl,
        (infoLegal_iff_mem_infoModes s.mode.mode).mpr hmode⟩
    refine exec_answered (congrArg done ((takeRequest_accepted haccepted).trans ?_)) hquiet
    simp only [portNamed_eq hkind hmost hport, wordBytes, List.flatMap_map]
  case other =>
    rintro r p s _ hmode hpart hnamed hp hquiet rfl
    exact exec_answered (congrArg done (takeRequest_notOwner (deaf_of_mem_everyMode hmode) hpart hnamed hp)) hquiet
  case mode =>
    rintro r s _ hmode hpart hnamed hquiet rfl
    obtain ⟨hserves, hlegal⟩ := configure_service_serve hmode
    exact exec_answered (congrArg done (takeRequest_wrongMode hserves hpart hnamed hlegal)) hquiet

/-! ### The data requests (R414, R425, R441) -/

/-- A pulled write over a range in a slot of the caller waits for its data; a function pulls one at a time (R441; log entry 80). -/
theorem exec_hstBufWritePull {r : Req} {p n : Nat} {s t : State} (haccepted : Accepted false bufLegal r p s)
    (ht : t = slotTaken r p s) (hn : n = min (u32 (payloadOf r) 8) 67108864)
    (hslot : inSlot t p (u64 (payloadOf r) 0) n = true) (htransport : r.transport < 16) :
    exec (.hstBufWritePull r) s = .next (settle (if thas t.hst.pulls r.transport = true then busy p r 0x0D32 t
      else { t with hst := { t.hst with pulls := tset t.hst.pulls r.transport (Pull.mk r (u64 (payloadOf r) 0) n
              (n != u32 (payloadOf r) 8 || decide (1 < u8 (payloadOf r) 12) || lenClamped r)) } })) := by
  subst ht hn
  refine exec_accepted rfl haccepted ?_
  rw [if_neg (by simp [hslot]), if_neg (Nat.not_le.mpr htransport)]

/-- The data of a pull whose mode still allows it: the write (R440, R441). -/
theorem execHostDmaPullDone_writes {f : Nat} (data : Bytes) {s t : State} {x : Pull} (hpull : tget s.hst.pulls f = some x)
    (ht : t = { s with hst := { s.hst with pulls := tdel s.hst.pulls f } }) (hlegal : bufLegal s.mode.mode = true) :
    execHostDmaPullDone f data s =
      done (writeBuffer { req := x.req, addr := x.addr, data := fit x.len data, clamped := x.clamped } t) := by
  subst ht
  simp only [execHostDmaPullDone, hpull, hlegal, if_true]

/-- Settles O19: each request is accepted, so its body decides; a buffer write goes by the state of its stacks. -/
theorem dataRequestsAnswered : Obligations.DataRequestsAnswered := by
  unfold Obligations.DataRequestsAnswered
  refine ⟨?nop, ?read, ?write, ?inline, ?pull, ?pulled, ?awake, ?woken, ?held, ?attest, ?attestRead, ?snapshot, ?unknown⟩
  case nop =>
    rintro r p s _ haccepted rfl
    exact exec_accepted rfl haccepted rfl
  case read =>
    rintro r p s _ u words haccepted rfl hwords
    have hval : (f16 (payloadOf r) 2 1 1016).val = clamp 1 1016 (u16 (payloadOf r) 2) := rfl
    exact exec_accepted rfl haccepted (by simp only [hval, ← hwords])
  case write =>
    rintro r p s _ haccepted rfl
    exact exec_accepted rfl haccepted rfl
  case inline => exact fun r p s t n => exec_hstBufWriteInline
  case pull => exact fun r p s t n => exec_hstBufWritePull
  case pulled => exact fun f data s t x => execHostDmaPullDone_writes data
  case awake =>
    intro w s u hawake hu
    have hwrite := writeBuffer_awake hawake hu
    exact ⟨fun hlegal => hwrite.trans (if_pos hlegal), fun hlegal => hwrite.trans (if_neg (Bool.eq_false_iff.mp hlegal))⟩
  case woken =>
    rintro l s _ rfl
    exact requestsOn_frame 46 l s
  case held => exact fun w s hasleep => ⟨writeBuffer_held_mem hasleep, _, writeBuffer_held hasleep rfl⟩
  case attest =>
    rintro r p s _ u sig haccepted rfl hsig
    exact exec_accepted rfl haccepted (by simp only [← hsig])
  case attestRead =>
    rintro r p s _ off n haccepted rfl rfl rfl
    exact exec_accepted rfl haccepted rfl
  case snapshot =>
    rintro r p s _ off n haccepted rfl rfl rfl
    exact exec_accepted rfl haccepted rfl
  case unknown =>
    rintro op r p s _ haccepted rfl hop
    have hexec : exec (.mailboxUnknownOpcode op r) s = done (cmdMailboxUnknownOpcode op r s) := by
      rw [exec, execMailboxUnknownOpcode, Nat.mod_eq_of_lt hop]
    exact exec_accepted hexec haccepted rfl

end Sys2Proof.Proofs
end

section
/-! The Hedgerow tree: the owner's requests and the events of the tree. -/

namespace Sys2Proof.Proofs

open Sys2Proof Sys2Proof.Machine Sys2Proof.Safety

/-! ### Requests (R342 to R345, R347, R352) -/

section Requests

variable {r : Req} {p action : Nat} {s t : State}

/-- HRW_BROADCAST, accepted in the tree: sent down and answered at the root, and sent up elsewhere. -/
theorem exec_hrwBroadcast (haccepted : Accepted true hrwLegal r p s) (ht : t = slotTaken r p s) (htree : inTree t = true) :
    exec (.hrwBroadcast r) s = .next (settle (if s.hrw.root = true then
        reply p r 0x0B10 .ok (broadcastData r).2 (le 4 s.hrw.nextSeq)
          (broadcastDown s.hrw.ident s.hrw.nextSeq (broadcastData r).1 (nextTreeSeq t).2)
      else sendUp 5 (.request ⟨s.hrw.ident, .broadcast (broadcastData r).1⟩)
        { t with hrw := { t.hrw with broadcasts := t.hrw.broadcasts ++ [r] } })) := by
  subst ht
  exact exec_accepted rfl haccepted (if_neg (by simp [htree]))

/-- HRW_SCHEDULE, accepted in the tree: a reset is the root's alone; the root takes it where fewer than four actions are held, and
another device sends it up. -/
theorem takeRequest_hrwSchedule (haccepted : Accepted true hrwLegal r p s) (ht : t = slotTaken r p s) (htree : inTree t = true) :
    cmdHrwSchedule snapshotCopy action r s =
      if action = 2 ∧ s.hrw.root = false then reply p r 0x0B11 .notOwner false [] t
      else if s.hrw.root = true then
        if 4 ≤ s.hrw.pending.length then reply p r 0x0B11 .busy false (le 4 (treeHint t)) t
        else
          let a := scheduledAction r action s.hrw.nextSeq (nextTreeSeq t).2
          reply p r 0x0B11 .ok (scheduleClamped r) (scheduleReply a) (scheduleDown snapshotCopy a (nextTreeSeq t).2)
      else
        let a := scheduledAction r action 0 t
        sendUp (actionClass action) (.request ⟨s.hrw.ident, .action action a.seconds a.nanoseconds⟩)
          { t with hrw := { t.hrw with schedules := t.hrw.schedules ++ [r] } } := by
  subst ht
  exact (takeRequest_accepted haccepted).trans (if_neg (by simp [htree]))

/-- The root takes an action while fewer than four are held. -/
theorem cmdHrwSchedule_taken {u : State} {a : TreeAction} (haccepted : Accepted true hrwLegal r p s) (ht : t = slotTaken r p s)
    (htree : inTree t = true) (hroot : s.hrw.root = true) (hroom : s.hrw.pending.length < 4) (hu : u = (nextTreeSeq t).2)
    (ha : a = scheduledAction r action s.hrw.nextSeq u) : cmdHrwSchedule snapshotCopy action r s =
      reply p r 0x0B11 .ok (scheduleClamped r) (scheduleReply a) (scheduleDown snapshotCopy a u) := by
  have hmay : ¬ (action = 2 ∧ s.hrw.root = false) := by simp [hroot]
  subst ha hu
  rw [takeRequest_hrwSchedule haccepted ht htree, if_neg hmay, if_pos hroot, if_neg (Nat.not_le.mpr hroom)]

/-- With four actions held the root is busy. -/
theorem cmdHrwSchedule_busy (haccepted : Accepted true hrwLegal r p s) (ht : t = slotTaken r p s) (htree : inTree t = true)
    (hroot : s.hrw.root = true) (hfull : 4 ≤ s.hrw.pending.length) :
    cmdHrwSchedule snapshotCopy action r s = reply p r 0x0B11 .busy false (le 4 (treeHint t)) t := by
  have hmay : ¬ (action = 2 ∧ s.hrw.root = false) := by simp [hroot]
  rw [takeRequest_hrwSchedule haccepted ht htree, if_neg hmay, if_pos hroot, if_pos hfull]

/-- Outside the tree no request of it is met (R352). -/
theorem cmdHrwSchedule_outside (haccepted : Accepted true hrwLegal r p s) (ht : t = slotTaken r p s) (htree : inTree t = false) :
    cmdHrwSchedule snapshotCopy action r s = reply p r 0x0B11 .notReady false [] t := by
  subst ht
  exact (takeRequest_accepted haccepted).trans (if_pos (by simp [htree]))

end Requests

/-- Settles O20: each request is accepted, so the root, another device and a device outside the tree take the branch of theirs. -/
theorem treeRequestsSentOrHeld : Obligations.TreeRequestsSentOrHeld := by
  unfold Obligations.TreeRequestsSentOrHeld
  refine ⟨?rootBroadcast, ?broadcast, ?snapshot, ?reset, ?busy, ?schedule, ?barrier, ?outside⟩
  case rootBroadcast =>
    intro r p s t haccepted ht htree hroot
    rw [exec_hrwBroadcast haccepted ht htree, if_pos hroot]
  case broadcast =>
    intro r p s t haccepted ht htree hroot
    rw [exec_hrwBroadcast haccepted ht htree, if_neg (Bool.eq_false_iff.mp hroot)]
  case snapshot =>
    exact fun r p s t u a haccepted ht htree hroot hroom hu ha =>
      congrArg done (cmdHrwSchedule_taken haccepted ht htree hroot hroom hu ha)
  case reset =>
    exact fun r p s t u a haccepted ht htree hroot hroom hu ha =>
      congrArg done (cmdHrwSchedule_taken haccepted ht htree hroot hroom hu ha)
  case busy =>
    exact fun r p s t haccepted ht htree hroot hfull =>
      ⟨congrArg done (cmdHrwSchedule_busy haccepted ht htree hroot hfull),
        congrArg done (cmdHrwSchedule_busy haccepted ht htree hroot hfull)⟩
  case schedule =>
    rintro r p s t _ haccepted ht htree hroot rfl
    have hother : ¬ s.hrw.root = true := Bool.eq_false_iff.mp hroot
    have hadjust : ¬ (1 = 2 ∧ s.hrw.root = false) := fun h => absurd h.1 (by decide)
    refine ⟨congrArg done ?_, congrArg done ?_⟩
    · rw [takeRequest_hrwSchedule haccepted ht htree, if_neg hadjust, if_neg hother]
      rfl
    · rw [takeRequest_hrwSchedule haccepted ht htree, if_pos ⟨rfl, hroot⟩]
  case barrier =>
    rintro r p s _ _ haccepted rfl htree rfl
    exact exec_accepted rfl haccepted (if_neg (by simp [htree]))
  case outside =>
    intro r p s t haccepted ht htree
    have hschedule (action : Nat) : done (cmdHrwSchedule snapshotCopy action r s) = done (reply p r 0x0B11 .notReady false [] t) :=
      congrArg done (cmdHrwSchedule_outside haccepted ht htree)
    refine ⟨?_, hschedule 1, hschedule 2, ?_⟩
    · subst ht
      exact exec_accepted rfl haccepted (if_pos (by simp [htree]))
    · subst ht
      exact exec_accepted rfl haccepted (if_pos (by simp [htree]))

/-! ### Events (R338, R340, R342 to R345) -/

section Events

variable {s t u v : State}

/-- A depth from the parent: taken plus one, turned away at six, and at seven the parent has left the tree (R338; log entry 134). -/
theorem execHrwDepthAnnounce_member {d : Nat} {tree : Option Nat} (hrole : s.hrw.role = 2) (hup : vhUp s 0 = true)
    (ht : t = { s with hrw := { s.hrw with treeDepth := tree.getD s.hrw.treeDepth } }) :
    execHrwDepthAnnounce ⟨d, tree⟩ s =
      if d = 7 then done (leaveTree { t with hrw := { t.hrw with tooDeep := false } })
      else if 6 ≤ d + 1 then done (announceDown tree (declineDepth (if t.hrw.tooDeep = true then t else raise 0x076 0 t)))
      else done (announceDown tree
        { t with hrw := { t.hrw with depth := d + 1, announced := true, tooDeep := false, noRoot := false } }) := by
  subst ht
  exact if_pos ⟨hrole, hup⟩

theorem execHrwNoRoot_reported {up : Nat} (hup : s.hrw.vh0UpAt = some up) (hquiet : s.hrw.announced = false)
    (hnew : s.hrw.noRoot = false) (ht : t = noEarlier (up + 100 * msUnit) s) :
    execHrwNoRoot s = done (raise 0x077 0 { t with hrw := { t.hrw with noRoot := true } }) := by
  subst ht
  simp only [execHrwNoRoot, hup, hquiet, hnew, Bool.or_self, Bool.false_eq_true, if_false]

/-- A broadcast that comes down is delivered and passed on; the origin's own request is answered (R343). -/
theorem execHrwBcastReceive_delivered {o n : Nat} {data : Bytes} (htree : inTree s = true) (hruns : hrwRuns s.mode.mode = true)
    (ht : t = broadcastDown o n data s) :
    (t.hrw.broadcasts = [] → execHrwBcastReceive o n data s = done t) ∧
    (∀ r rest, t.hrw.broadcasts = r :: rest → execHrwBcastReceive o n data s =
      if o = t.hrw.ident then done (replyTo r 0x0B10 .ok (broadcastData r).2 (le 4 n) { t with hrw := { t.hrw with broadcasts := rest } })
      else done t) := by
  have hguard : (inTree s && hrwRuns s.mode.mode) = true := by simp [htree, hruns]
  subst ht
  constructor
  · intro hnone
    simp only [execHrwBcastReceive, hguard, if_true, hnone]
  · intro r rest hwaits
    simp only [execHrwBcastReceive, hguard, if_true, hwaits]

theorem execHrwBarrierArrival_taken {k port : Nat} (ms : Nat) (b : Bool) (htree : inTree s = true) (hruns : hrwRuns s.mode.mode = true)
    (hk : k < 16) (hport : (childrenUp s).contains port = true) :
    execHrwBarrierArrival k port ms b s = done (judgeBarrier k (setBarrier s k (fun x =>
      { x with children := sadd x.children port, isPartial := x.isPartial || b, started := some (x.started.getD s.mtb.t),
               timeoutMs := if x.started.isSome then x.timeoutMs else ms }))) :=
  if_pos (by rw [htree, hruns, decide_eq_true hk, hport]; rfl)

/-- Below the root, what comes down the tree is heard while Hedgerow runs. -/
theorem hearsRoot (htree : inTree s = true) (hruns : hrwRuns s.mode.mode = true) (hroot : s.hrw.root = false) :
    (inTree s && hrwRuns s.mode.mode && !s.hrw.root) = true := by simp [htree, hruns, hroot]

/-- The root passes nothing up. -/
theorem root_not_hearsRoot (hroot : s.hrw.root = true) : ¬ (inTree s && hrwRuns s.mode.mode && !s.hrw.root) = true := by simp [hroot]

theorem execHrwBarrierRelease_heard {k : Nat} (n : Nat) (b : Bool) (htree : inTree s = true) (hruns : hrwRuns s.mode.mode = true)
    (hroot : s.hrw.root = false) : execHrwBarrierRelease k n b s =
      if thas s.hrw.barriers k = true then done (releaseBarrier k b (sendDown 3 (.release k n b) s))
      else .next (sendDown 3 (.release k n b) s) := by
  have hsent : (sendDown 3 (.release k n b) s).hrw = s.hrw := sendDown_hrw s 3 (.release k n b)
  rw [execHrwBarrierRelease, if_pos (hearsRoot htree hruns hroot)]
  simp only [hsent]

/-- A timeout passes down, answers the waiting owner and frees the barrier (R344). -/
theorem execHrwBarrierTimeout_frees {k : Nat} {x : Barrier} (hbarrier : tget s.hrw.barriers k = some x)
    (hv : v = if timesBarrier s = true then noEarlier (x.started.getD s.mtb.t + x.timeoutMs * msUnit) s else s)
    (hu : u = if inTree v = true then sendDown 3 (.timeout k) v else v)
    (ht : t = { u with hrw := { u.hrw with barriers := tdel u.hrw.barriers k, barTimeouts := bump32 u.hrw.barTimeouts } }) :
    execHrwBarrierTimeout k s = done (raise 0x079 k (match x.own with
      | some r => replyTo r 0x0B12 .notReady false [] t
      | none => t)) := by
  simp only [execHrwBarrierTimeout, hbarrier, ← hv, ← hu, ← ht] <;> rfl

theorem receiveSchedule_heard (a : TreeAction) (htree : inTree s = true) (hruns : hrwRuns s.mode.mode = true) (hroot : s.hrw.root = false) :
    receiveSchedule snapshotCopy a s = scheduleDown snapshotCopy a (match s.hrw.schedules with
      | r :: rest =>
        if a.origin = s.hrw.ident then
          replyTo r 0x0B11 .ok (scheduleClamped r) (scheduleReply a) { s with hrw := { s.hrw with schedules := rest } }
        else s
      | [] => s) :=
  if_pos (hearsRoot htree hruns hroot)

theorem actionDue_ahead {n : Nat} {p : Pending} (hheld : s.hrw.pending.find? (fun p => p.action.seq == n) = some p)
    (halive : alive s.mode.mode = true) (hahead : s.mtb.t ≤ actionTime p.action) :
    actionDue snapshotCopy n s = actOn snapshotCopy p false (reach (actionTime p.action) s) := by
  simp only [actionDue, hheld, atTime_ahead halive hahead]

/-- The root gives a request its sequence and sends it down (R342). -/
theorem requestAtRoot_root {o : Nat} {kind : TreeKind} (hroot : s.hrw.root = true) (hruns : hrwRuns s.mode.mode = true) :
    requestAtRoot snapshotCopy ⟨o, kind⟩ s = match kind with
      | .broadcast data => broadcastDown o s.hrw.nextSeq (data.take 256) (nextTreeSeq s).2
      | .action action seconds nanoseconds =>
        if action ≠ 1 then s
        else if 4 ≤ s.hrw.pending.length then sendDown 2 (.busy o (treeHint s)) s
        else scheduleDown snapshotCopy ⟨s.hrw.nextSeq, action, seconds, nanoseconds, o⟩ (nextTreeSeq s).2 := by
  rw [requestAtRoot, if_neg (root_not_hearsRoot hroot), if_pos (by simp [hroot, hruns])]
  cases kind <;> rfl

theorem takeBusy_heard {r : Req} {rest : List Req} (o h : Nat) (htree : inTree s = true) (hruns : hrwRuns s.mode.mode = true)
    (hroot : s.hrw.root = false) (hwaits : s.hrw.schedules = r :: rest) : takeBusy o h s = if o = s.hrw.ident then
      replyTo r 0x0B11 .busy false (le 4 h) { s with hrw := { s.hrw with schedules := rest } } else sendDown 2 (.busy o h) s := by
  simp only [takeBusy, hearsRoot htree hruns hroot, if_true, hwaits]

end Events

/-- Settles O31: each event meets the test of its command, so it takes the branch that the premises select. -/
theorem treeEventsComplete : Obligations.TreeEventsComplete := by
  unfold Obligations.TreeEventsComplete
  refine ⟨?discovery, ?depth, ?tooDeep, ?left, ?map, ?noRoot, ?broadcast, ?arrival, ?release, ?noBarrier, ?timeout, ?schedule,
    ?action, ?rootBroadcast, ?rootAction, ?rootBusy, ?passedUp, ?busy⟩
  case discovery =>
    intro port up s hmode
    exact if_pos (by simpa using hmode)
  case depth =>
    intro d tree s hrole hup hdepth
    rw [exec, execHrwDepthAnnounce_member hrole hup rfl, if_neg (by omega), if_neg (by omega)]
    rfl
  case tooDeep =>
    intro d tree s t hrole hup hdeep hd ht
    rw [exec, execHrwDepthAnnounce_member hrole hup ht, if_neg hd, if_pos hdeep]
    rfl
  case left =>
    intro tree s hrole hup
    rw [exec, execHrwDepthAnnounce_member hrole hup rfl, if_pos rfl]
    rfl
  case map =>
    intro port d ids s hchild hup
    exact if_pos (by rw [hchild, hup]; rfl)
  case noRoot => exact fun up s t => execHrwNoRoot_reported
  case broadcast =>
    intro o n data s t htree hruns ht
    obtain ⟨hnone, hwaits⟩ := execHrwBcastReceive_delivered htree hruns ht
    exact ⟨hnone, fun r rest hr => (hwaits r rest hr).trans (apply_ite done _ _ _).symm⟩
  case arrival => exact fun k port ms b s => execHrwBarrierArrival_taken ms b
  case release =>
    intro k n b s htree hruns hroot
    have hheard := execHrwBarrierRelease_heard (k := k) n b htree hruns hroot
    exact ⟨fun hknown => hheard.trans (if_pos hknown), fun hnone => hheard.trans (if_neg (Bool.eq_false_iff.mp hnone))⟩
  case noBarrier =>
    intro k s hnone hroot
    simp only [exec, execHrwBarrierTimeout, hnone, hroot, if_true]
  case timeout => exact fun k s t u v x => execHrwBarrierTimeout_frees
  case schedule => exact fun a s htree hruns hroot => congrArg done (receiveSchedule_heard a htree hruns hroot)
  case action => exact fun n s p hheld halive hahead => congrArg done (actionDue_ahead hheld halive hahead)
  case rootBroadcast => exact fun o data s hroot hruns => congrArg done (requestAtRoot_root hroot hruns)
  case rootAction =>
    intro o a b s hroot hruns hroom
    refine congrArg done ((requestAtRoot_root hroot hruns).trans ?_)
    simp only [ne_eq, not_true_eq_false, if_false, if_neg (Nat.not_le.mpr hroom)]
  case rootBusy =>
    intro o a b s hroot hruns hfull
    refine congrArg done ((requestAtRoot_root hroot hruns).trans ?_)
    simp only [ne_eq, not_true_eq_false, if_false, if_pos hfull]
  case passedUp => exact fun q s htree hruns hroot => congrArg done (if_pos (hearsRoot htree hruns hroot))
  case busy => exact fun o h s r rest => takeBusy_heard o h

end Sys2Proof.Proofs
end

section
/-! The events of the Ethernet and Valsin ports. -/

namespace Sys2Proof.Proofs

open Sys2Proof Sys2Proof.Machine Sys2Proof.Safety

/-! ### Ethernet ports (R318, R319, R337) -/

section Ethernet

variable {p : Nat} {s t : State} {x : EthPort}

/-- What a port joins is a matter of the ingress flows, not of the ports (R319). -/
@[simp] theorem joinsOf_setEth (s : State) (p q : Nat) (f : EthPort → EthPort) : joinsOf (setEth s q f) p = joinsOf s p := rfl

/-- A frame on a port that is up is accounted for by its FEC, and then dropped or taken. -/
theorem execEthFrameReceive_up {f : EthFrame} (hport : tget s.lnk.eth p = some x) (hup : x.st = 3)
    (ht : t = (List.range f.fecUncorrectable).foldl (fun s _ => raise 0x06F p s) (setEth s p (fun x =>
      { x with fecCorr := bumpBy 64 x.fecCorr f.fecCorrected, fecUncorr := bumpBy 32 x.fecUncorr f.fecUncorrectable
               rxAt := rxStamp s p x f }))) :
    execEthFrameReceive p f s = done (if 1522 < f.length then setEth t p (fun x => { x with rxOversize := bump 16 x.rxOversize })
      else if f.fcsOk = false ∨ 0 < f.fecUncorrectable then setEth t p (fun x => { x with rxFcs := bump32 x.rxFcs })
      else takeEthFrame p f t) := by
  simp only [execEthFrameReceive, hport, hup, if_true, ht]

theorem execPauseExpiry_resumes {u : Nat} (hport : tget s.lnk.eth p = some x) (hpaused : x.pausedUntil = some u) :
    execPauseExpiry p s = .next (setEth (noEarlier u s) p (endPause (noEarlier u s).mtb.t)) := by
  simp only [execPauseExpiry, hport, hpaused]

theorem execLnkPauseLong_reported {u : Nat} (hport : tget s.lnk.eth p = some x) (hpaused : x.pausedUntil = some u)
    (hnew : x.longReported = false) (hlong : x.pausedAt + 100 * usUnit < u) :
    execLnkPauseLong p s = done (raise 0x06E p (setEth (noEarlier (x.pausedAt + 100 * usUnit) s) p
      (fun x => { x with longReported := true, pauseLong := satAdd 16 x.pauseLong 1 }))) := by
  have hguard : (x.pausedUntil.isSome && !x.longReported && decide (x.pausedAt + 100 * usUnit < x.pausedUntil.getD 0)) = true := by
    simp [hpaused, hnew, hlong]
  simp only [execLnkPauseLong, hport, hguard, if_true]

theorem execEthPortUp_links (hport : tget s.lnk.eth p = some x) (hbringup : x.st = 2) (hlink : mayLink s p = true) :
    execEthPortUp p s = done (answerRetrain x.retrain .ok ((joinsOf s p).foldl (fun s _ => queueOwn p false s)
      (equalise p x (setEth s p (fun x => { x with st := 3, anDone := x.an, retrain := [], joins := joinsOf s p }))))) := by
  simp only [execEthPortUp, hport, hbringup, hlink, and_self, if_true, joinsOf_setEth]

/-- A request for an own address names one of the port's two addresses (R319, R333). -/
theorem ownAddress_target {f : EthFrame} (hown : ownAddress x f = true) : f.target = x.v4 ∨ f.target = x.v6 := by
  simp only [ownAddress] at hown
  have of_and {d : Bytes} {b : Bool} (h : (f.target == d && b) = true) : f.target = d := eq_of_beq (Bool.and_eq_true_iff.mp h).1
  split at hown
  · exact .inl (of_and hown)
  · exact .inr (of_and hown)
  · exact (Bool.or_eq_true_iff.mp hown).imp of_and of_and
  · cases hown

theorem execLnkRetrainTimeout_eth (hwaits : (tgetD s.lnk.eth p {}).retrain ≠ []) : execLnkRetrainTimeout 0 p s =
    done (answerRetrain (tgetD s.lnk.eth p {}).retrain .notReady
      (setEth (noEarlier ((tgetD s.lnk.eth p {}).askedAt + secUnit) s) p (fun x => { x with retrain := [] }))) := by
  simp only [execLnkRetrainTimeout, if_true, List.isEmpty_iff, if_neg hwaits]

theorem execLnkRetrainTimeout_valsin {k : Nat} (hk : k ≠ 0) (hwaits : (valPort s p).retrain ≠ []) : execLnkRetrainTimeout k p s =
    done (answerRetrain (valPort s p).retrain .notReady
      (setVal (noEarlier ((valPort s p).askedAt + secUnit) s) p (fun x => { x with retrain := [] }))) := by
  simp only [execLnkRetrainTimeout, if_neg hk, List.isEmpty_iff, if_neg hwaits]

end Ethernet

/-- Settles O29: each event finds its port in the state that the premises name. -/
theorem ethernetEventsComplete : Obligations.EthernetEventsComplete := by
  unfold Obligations.EthernetEventsComplete
  refine ⟨?frame, ?pause, ?long, ?up, ?recorded, ?own, ?down, ?retrain⟩
  case frame => exact fun p f s t x => execEthFrameReceive_up
  case pause => exact fun p t s x => execPauseExpiry_resumes
  case long => exact fun p u s x => execLnkPauseLong_reported
  case up => exact fun p s x => execEthPortUp_links
  case recorded =>
    intro p x s hfixed
    exact if_neg (Bool.eq_false_iff.mp hfixed)
  case own => exact fun x f => ownAddress_target
  case down => exact fun p s => rfl
  case retrain =>
    intro k p s
    constructor
    · rintro rfl hwaits
      exact execLnkRetrainTimeout_eth hwaits
    · exact execLnkRetrainTimeout_valsin

/-! ### Valsin ports (R326 to R330) -/

section Valsin

variable {v : Nat} {s t u : State}

/-- The port listens for link frames: it is up, or stands at its final step. -/
def Hears (v : Nat) (s : State) : Prop :=
  valsinMode s.mode.mode = true ∧ ((valPort s v).st = 2 ∨ ((valPort s v).st = 1 ∧ (valPort s v).entered = true))

theorem Hears.guard (h : Hears v s) :
    (valsinMode s.mode.mode && ((valPort s v).st == 2 || ((valPort s v).st == 1 && (valPort s v).entered))) = true := by
  obtain ⟨hmode, hstate⟩ := h
  simpa [hmode] using hstate

theorem execValsinFrameReceive_good {f : LinkFrame} (h : Hears v s) (hgood : frameGood f = true) :
    execValsinFrameReceive v f s = done (takeLinkFrame v f s) := by
  simp only [execValsinFrameReceive, h.guard, hgood, if_true]

/-- A bad frame is counted and asked for again; where it is the repeat that was asked for, a port that is up trains (R326). -/
theorem execValsinFrameReceive_bad {f : LinkFrame} (h : Hears v s) (hbad : frameGood f = false)
    (ht : t = setVal s v (takeBadFrame s.mtb.t)) : execValsinFrameReceive v f s = done
      (if ((valPort s v).nak == some (f.seq % 65536) && bitOf f.flags 0) && (valPort s v).st == 2 then settleMerge (startTraining v t)
      else t) := by
  simp only [execValsinFrameReceive, h.guard, hbad, if_true, Bool.false_eq_true, if_false, ht]

/-- The NAK that asks again: the one that stands, or a new one for the next frame in sequence (R326). -/
theorem askAgain_eq (now : Nat) (x : ValPort) : askAgain now x =
    { x with nak := some (x.nak.getD x.rxSeq), nakAt := if x.nak.isSome then x.nakAt else retryFrom now x } := by
  cases hnak : x.nak with
  | none => simp [askAgain, hnak]
  | some k =>
    simp only [askAgain, hnak, Option.isSome_some, if_true, Option.getD_some]
    rw [← hnak]

/-- A bad frame is counted and asked for again, and a transmitter that sleeps wakes to ask (R326, R330). -/
theorem takeBadFrame_eq (now : Nat) (x : ValPort) : takeBadFrame now x =
    (if x.txAsleep then wakePort now else id) { x with
      crcFail := bump32 x.crcFail, failed := x.failed + 1, nak := some (x.nak.getD x.rxSeq),
      nakAt := if x.nak.isSome then x.nakAt else retryFrom now x } := by
  rw [takeBadFrame, askAgain_eq]
  by_cases hsleep : x.txAsleep = true
  · rw [if_pos hsleep, if_pos hsleep]
    rfl
  · rw [if_neg hsleep, if_neg hsleep]
    rfl

theorem execValsinRetryTimeout_retrains (hup : (valPort s v).st = 2) (hmode : valsinMode s.mode.mode = true)
    (hnak : (valPort s v).nak.isSome = true) :
    execValsinRetryTimeout v s = done (retrain v (noEarlier ((valPort s v).nakAt + retryBound (valPort s v)) s)) :=
  if_pos ⟨hup, hnak, hmode⟩

theorem execCommaLoss_retrains {lane : Nat} (hup : (valPort s v).st = 2) (hmode : valsinMode s.mode.mode = true)
    (hlane : lane < valsinLanes v) (hstep : 2 ≤ (valPort s v).step) : execCommaLoss v lane s = done (retrain v s) :=
  if_pos (by simp [hup, hmode, hlane, hstep])

theorem execValsinRetrainTimer_retrains (hmode : valsinMode s.mode.mode = true)
    (hwaits : (valPort s v).st = 3 ∨ ((valPort s v).st = 1 ∧ (valPort s v).stepLow = true)) :
    execValsinRetrainTimer v s = done (retrain v (noEarlier ((valPort s v).stepAt + 10 * msUnit) s)) :=
  if_pos (by simpa [hmode] using hwaits)

/-- A step that is not entered in time: the last chance of step 0 is the fallback, and a higher step is given up (R327, R328). -/
theorem execValsinStepTimeout_training (htrains : (valPort s v).st = 1) (henters : (valPort s v).entering = true)
    (ht : t = noEarlier ((valPort s v).stepAt + 16 * usUnit) s) : execValsinStepTimeout v s =
      if (valPort s v).step = 0 then
        if (valPort s v).fallbackDone then .next (setVal t v (fun x => { x with st := 3, entering := false, stepAt := t.mtb.t }))
        else done (fallback v t)
      else done (settleStep v (setVal t v
        (fun x => { x with step := x.step - 1, common := x.step - 1, entering := false }))) := by
  simp only [execValsinStepTimeout, htrains, henters, and_self, if_true, ← ht]

end Valsin

/-- Settles O30: each event finds its port in the state that the premises name, so it takes the branch of that state. -/
theorem valsinEventsComplete : Obligations.ValsinEventsComplete := by
  unfold Obligations.ValsinEventsComplete
  refine ⟨?good, ?bad, ?counted, ?wakes, ?acknowledged, ?retrains, ?timer, ?training, ?switch, ?lastChance, ?givenUp, ?sleep, ?wake⟩
  case good => exact fun v f s hmode hstate => execValsinFrameReceive_good ⟨hmode, hstate⟩
  case bad => exact fun v f s t hmode hstate => execValsinFrameReceive_bad ⟨hmode, hstate⟩
  case counted =>
    intro now x hawake
    simp [takeBadFrame_eq, hawake, retryFrom, leavesAt]
  case wakes =>
    intro now x hasleep
    simp [takeBadFrame_eq, hasleep, retryFrom]
  case acknowledged => exact fun v s => rfl
  case retrains =>
    intro v s hup hmode
    exact ⟨execValsinRetryTimeout_retrains hup hmode, if_pos ⟨hup, hmode⟩, fun lane => execCommaLoss_retrains hup hmode⟩
  case timer => exact fun v s => execValsinRetrainTimer_retrains
  case training =>
    intro v a s t u hmode htrains ht hu
    have hguard : (valsinMode s.mode.mode && (valPort s v).st == 1) = true := by simp [hmode, htrains]
    simp only [exec, execValsinTrainingReceive, hguard, if_true, ← ht, ← hu, done, apply_ite settle, apply_ite Host.Outcome.next]
  case switch =>
    intro v k s hswitch
    simp only [exec, execValsinStepSwitch, hswitch]
  case lastChance =>
    intro v s t htrains henters hlast ht
    rw [exec, execValsinStepTimeout_training htrains henters ht, if_pos hlast, apply_ite Host.Outcome.next]
    rfl
  case givenUp =>
    intro v s htrains henters hhigher
    rw [exec, execValsinStepTimeout_training htrains henters rfl, if_neg hhigher]
    rfl
  case sleep => exact fun v s hmode hup hawake hnone => if_pos ⟨hmode, hup, hawake, hnone⟩
  case wake => exact fun v s => rfl

end Sys2Proof.Proofs
end
